-- ==== Sys2Proof/Word.lean ====
section
/-! DEFINITION. The word types of the Ploam G9 (R10, R38): bytes, 32-bit instruction words, 64-bit register values and the
2048-bit contents of a vector register (R3). -/

namespace Sys2Proof

/-- One byte of memory. -/
abbrev Byte := BitVec 8

/-- One instruction word (R38). -/
abbrev Word32 := BitVec 32

/-- The contents of an x register, a CSR or an address being formed. -/
abbrev Word := BitVec 64

/-- The contents of a vector register: 256 bytes, byte 0 in bits [7:0] (R3). -/
abbrev VWord := BitVec 2048

end Sys2Proof
end

