-- ==== Sys2Proof/Syntax.lean ====
section
/-! DEFINITION. The instructions and events of the G9 as data: one constructor for each row of spec/opcode_table.json. The
rows stand in the table's order but for this: Lean's runtime can build no object whose constructor number exceeds 243, so the 244
forms that the decoder and the vector queue build come first, then the forms without fields, then the eighteen forms of
`LateInstr`, then the events. The fields of an instruction word carry the table's field names at the widths of R39; an event carries the context,
core, channel, counter, register or value it happens to. -/

namespace Sys2Proof

/-- The privilege levels (R400). -/
inductive Priv where
  | app | sup | hyp
  deriving DecidableEq, Repr

/-- The order of the levels: app below sup below hyp (R364). -/
def Priv.rank : Priv → Nat
  | .app => 0
  | .sup => 1
  | .hyp => 2

/-- Why a word is not an instruction (R43): an unassigned function or major, or a field or register constraint broken in a form
whose lowest privilege level is `lvl` (a lower level reports PRIV first). -/
inductive DecodeError where
  /-- Cause 0x01: steps 1 and 2 of R43. -/
  | op
  /-- Cause 0x02, or 0x03 below `lvl`: steps 3 and 4 of R43. -/
  | field (lvl : Priv)
  /-- Cause 0x0C at the commit: a copy, vgthr or drain word whose q field is not 0 (R66, R250). -/
  | queue
  deriving DecidableEq, Repr

/-- A reading of a sensor: its number, die · 64 + sensor, and the temperature in °C (R425). -/
structure Reading where
  sensor : Nat
  deg : Int
  deriving DecidableEq, Repr

/-- One constructor for each row of the opcode table. -/
inductive Instr where
  /-- ADD (R113). Adds xa and xb modulo 2^64 into xd. -/
  | add (d : BitVec 5) (a : BitVec 5) (b : BitVec 5)
  /-- SUB (R113). Subtracts xb from xa modulo 2^64 into xd. -/
  | sub (d : BitVec 5) (a : BitVec 5) (b : BitVec 5)
  /-- AND (R113). Bitwise and of xa and xb into xd. -/
  | and (d : BitVec 5) (a : BitVec 5) (b : BitVec 5)
  /-- OR (R113). Bitwise or of xa and xb into xd. -/
  | or (d : BitVec 5) (a : BitVec 5) (b : BitVec 5)
  /-- XOR (R113). Bitwise xor of xa and xb into xd. -/
  | xor (d : BitVec 5) (a : BitVec 5) (b : BitVec 5)
  /-- SLL (R113). Shifts xa left by xb[5:0] into xd. -/
  | sll (d : BitVec 5) (a : BitVec 5) (b : BitVec 5)
  /-- SRL (R113). Shifts xa right with zeros by xb[5:0] into xd. -/
  | srl (d : BitVec 5) (a : BitVec 5) (b : BitVec 5)
  /-- SRA (R113). Shifts xa right arithmetically by xb[5:0] into xd. -/
  | sra (d : BitVec 5) (a : BitVec 5) (b : BitVec 5)
  /-- SLT (R113). Writes 1 to xd if xa is less than xb as signed, else 0. -/
  | slt (d : BitVec 5) (a : BitVec 5) (b : BitVec 5)
  /-- SLTU (R113). Writes 1 to xd if xa is less than xb as unsigned, else 0. -/
  | sltu (d : BitVec 5) (a : BitVec 5) (b : BitVec 5)
  /-- MUL (R113). Writes the low 64 bits of xa times xb to xd. -/
  | mul (d : BitVec 5) (a : BitVec 5) (b : BitVec 5)
  /-- MULH (R113). Writes the high 64 bits of the signed product to xd. -/
  | mulh (d : BitVec 5) (a : BitVec 5) (b : BitVec 5)
  /-- MULHU (R113). Writes the high 64 bits of the unsigned product to xd. -/
  | mulhu (d : BitVec 5) (a : BitVec 5) (b : BitVec 5)
  /-- DIV (R114). Signed division toward zero, never trapping, with defined boundary results. -/
  | div (d : BitVec 5) (a : BitVec 5) (b : BitVec 5)
  /-- DIVU (R114). Unsigned division, all ones for a zero divisor. -/
  | divu (d : BitVec 5) (a : BitVec 5) (b : BitVec 5)
  /-- REM (R114). Signed remainder with the sign of xa, never trapping. -/
  | rem (d : BitVec 5) (a : BitVec 5) (b : BitVec 5)
  /-- REMU (R114). Unsigned remainder, xa for a zero divisor. -/
  | remu (d : BitVec 5) (a : BitVec 5) (b : BitVec 5)
  /-- MIN (R113). Signed lesser of xa and xb into xd. -/
  | min (d : BitVec 5) (a : BitVec 5) (b : BitVec 5)
  /-- MAX (R113). Signed greater of xa and xb into xd. -/
  | max (d : BitVec 5) (a : BitVec 5) (b : BitVec 5)
  /-- MINU (R113). Unsigned lesser of xa and xb into xd. -/
  | minu (d : BitVec 5) (a : BitVec 5) (b : BitVec 5)
  /-- MAXU (R113). Unsigned greater of xa and xb into xd. -/
  | maxu (d : BitVec 5) (a : BitVec 5) (b : BitVec 5)
  /-- CLZ (R113). Counts leading zero bits of xa into xd. -/
  | clz (d : BitVec 5) (a : BitVec 5)
  /-- CTZ (R113). Counts trailing zero bits of xa into xd. -/
  | ctz (d : BitVec 5) (a : BitVec 5)
  /-- POPC (R113). Counts one bits of xa into xd. -/
  | popc (d : BitVec 5) (a : BitVec 5)
  /-- REV8 (R113). Reverses the bytes of xa into xd. -/
  | rev8 (d : BitVec 5) (a : BitVec 5)
  /-- SEXT_B (R113). Sign-extends xa[7:0] into xd. -/
  | sextB (d : BitVec 5) (a : BitVec 5)
  /-- SEXT_H (R113). Sign-extends xa[15:0] into xd. -/
  | sextH (d : BitVec 5) (a : BitVec 5)
  /-- SEXT_W (R113). Sign-extends xa[31:0] into xd. -/
  | sextW (d : BitVec 5) (a : BitVec 5)
  /-- ADDI (R115). Adds the sign-extended immediate to xa into xd. -/
  | addi (d : BitVec 5) (a : BitVec 5) (i : BitVec 16)
  /-- ANDI (R115). Ands xa with the zero-extended immediate into xd. -/
  | andi (d : BitVec 5) (a : BitVec 5) (i : BitVec 16)
  /-- ORI (R115). Ors xa with the zero-extended immediate into xd. -/
  | ori (d : BitVec 5) (a : BitVec 5) (i : BitVec 16)
  /-- XORI (R115). Xors xa with the zero-extended immediate into xd. -/
  | xori (d : BitVec 5) (a : BitVec 5) (i : BitVec 16)
  /-- SLTI (R115). Signed compare of xa with the immediate, 1 or 0 into xd. -/
  | slti (d : BitVec 5) (a : BitVec 5) (i : BitVec 16)
  /-- SLTIU (R115). Unsigned compare of xa with the sign-extended immediate, 1 or 0 into xd. -/
  | sltiu (d : BitVec 5) (a : BitVec 5) (i : BitVec 16)
  /-- SLLI (R116). Shifts xa left by the immediate amount into xd. -/
  | slli (d : BitVec 5) (a : BitVec 5) (n : BitVec 6)
  /-- SRLI (R116). Shifts xa right with zeros by the immediate amount into xd. -/
  | srli (d : BitVec 5) (a : BitVec 5) (n : BitVec 6)
  /-- SRAI (R116). Shifts xa right arithmetically by the immediate amount into xd. -/
  | srai (d : BitVec 5) (a : BitVec 5) (n : BitVec 6)
  /-- LUI (R117). Writes the sign-extended imm21 shifted left by 11 into xd. -/
  | lui (d : BitVec 5) (i : BitVec 21)
  /-- AUIPC (R117). Writes PC plus the sign-extended imm21 shifted left by 11 into xd. -/
  | auipc (d : BitVec 5) (i : BitVec 21)
  /-- LB (R230). Loads a sign-extended byte from GLOBAL into xd. -/
  | lb (d : BitVec 5) (a : BitVec 5) (i : BitVec 16)
  /-- LBU (R230). Loads a zero-extended byte from GLOBAL into xd. -/
  | lbu (d : BitVec 5) (a : BitVec 5) (i : BitVec 16)
  /-- LH (R230). Loads a sign-extended halfword from GLOBAL into xd. -/
  | lh (d : BitVec 5) (a : BitVec 5) (i : BitVec 16)
  /-- LHU (R230). Loads a zero-extended halfword from GLOBAL into xd. -/
  | lhu (d : BitVec 5) (a : BitVec 5) (i : BitVec 16)
  /-- LW (R230). Loads a sign-extended word from GLOBAL into xd. -/
  | lw (d : BitVec 5) (a : BitVec 5) (i : BitVec 16)
  /-- LWU (R230). Loads a zero-extended word from GLOBAL into xd. -/
  | lwu (d : BitVec 5) (a : BitVec 5) (i : BitVec 16)
  /-- LD (R230). Loads a doubleword from GLOBAL into xd. -/
  | ld (d : BitVec 5) (a : BitVec 5) (i : BitVec 16)
  /-- SB (R230). Stores the low byte of xs to GLOBAL. -/
  | sb (s : BitVec 5) (a : BitVec 5) (i : BitVec 16)
  /-- SH (R230). Stores the low halfword of xs to GLOBAL. -/
  | sh (s : BitVec 5) (a : BitVec 5) (i : BitVec 16)
  /-- SW (R230). Stores the low word of xs to GLOBAL. -/
  | sw (s : BitVec 5) (a : BitVec 5) (i : BitVec 16)
  /-- SD (R230). Stores the doubleword xs to GLOBAL. -/
  | sd (s : BitVec 5) (a : BitVec 5) (i : BitVec 16)
  /-- AMO_ADD (R233). Atomically adds xb to the word or doubleword at xa and returns the old value. -/
  | amoAdd (d : BitVec 5) (a : BitVec 5) (b : BitVec 5) (o : BitVec 2) (s : BitVec 3) (w : BitVec 1)
  /-- AMO_AND (R233). Atomic bitwise and at xa, returning the old value. -/
  | amoAnd (d : BitVec 5) (a : BitVec 5) (b : BitVec 5) (o : BitVec 2) (s : BitVec 3) (w : BitVec 1)
  /-- AMO_OR (R233). Atomic bitwise or at xa, returning the old value. -/
  | amoOr (d : BitVec 5) (a : BitVec 5) (b : BitVec 5) (o : BitVec 2) (s : BitVec 3) (w : BitVec 1)
  /-- AMO_XOR (R233). Atomic bitwise xor at xa, returning the old value. -/
  | amoXor (d : BitVec 5) (a : BitVec 5) (b : BitVec 5) (o : BitVec 2) (s : BitVec 3) (w : BitVec 1)
  /-- AMO_MIN (R233). Atomic signed minimum at xa, returning the old value. -/
  | amoMin (d : BitVec 5) (a : BitVec 5) (b : BitVec 5) (o : BitVec 2) (s : BitVec 3) (w : BitVec 1)
  /-- AMO_MAX (R233). Atomic signed maximum at xa, returning the old value. -/
  | amoMax (d : BitVec 5) (a : BitVec 5) (b : BitVec 5) (o : BitVec 2) (s : BitVec 3) (w : BitVec 1)
  /-- AMO_MINU (R233). Atomic unsigned minimum at xa, returning the old value. -/
  | amoMinu (d : BitVec 5) (a : BitVec 5) (b : BitVec 5) (o : BitVec 2) (s : BitVec 3) (w : BitVec 1)
  /-- AMO_MAXU (R233). Atomic unsigned maximum at xa, returning the old value. -/
  | amoMaxu (d : BitVec 5) (a : BitVec 5) (b : BitVec 5) (o : BitVec 2) (s : BitVec 3) (w : BitVec 1)
  /-- AMO_SWAP (R233). Atomically swaps xb into the location at xa, returning the old value. -/
  | amoSwap (d : BitVec 5) (a : BitVec 5) (b : BitVec 5) (o : BitVec 2) (s : BitVec 3) (w : BitVec 1)
  /-- AMO_CAS (R233). Atomic compare-and-swap at xa with compare value xd and new value xb. -/
  | amoCas (d : BitVec 5) (a : BitVec 5) (b : BitVec 5) (o : BitVec 2) (s : BitVec 3) (w : BitVec 1)
  /-- BEQ (R118). Branches when xa equals xb. -/
  | beq (a : BitVec 5) (b : BitVec 5) (i : BitVec 16)
  /-- BNE (R118). Branches when xa differs from xb. -/
  | bne (a : BitVec 5) (b : BitVec 5) (i : BitVec 16)
  /-- BLT (R118). Branches when xa is signed less than xb. -/
  | blt (a : BitVec 5) (b : BitVec 5) (i : BitVec 16)
  /-- BGE (R118). Branches when xa is signed greater than or equal to xb. -/
  | bge (a : BitVec 5) (b : BitVec 5) (i : BitVec 16)
  /-- BLTU (R118). Branches when xa is unsigned less than xb. -/
  | bltu (a : BitVec 5) (b : BitVec 5) (i : BitVec 16)
  /-- BGEU (R118). Branches when xa is unsigned greater than or equal to xb. -/
  | bgeu (a : BitVec 5) (b : BitVec 5) (i : BitVec 16)
  /-- JAL (R119). Writes PC+4 to xd and jumps by the word offset. -/
  | jal (d : BitVec 5) (i : BitVec 21)
  /-- JALR (R120). Jumps to xa plus offset after alignment and range checks, linking into xd. -/
  | jalr (d : BitVec 5) (a : BitVec 5) (i : BitVec 16)
  /-- LOOP (R124). Runs the following body of len+1 words x[xa] times from the loop buffer. -/
  | loop (a : BitVec 5) (l : BitVec 5)
  /-- NEST (R128). Reads and checks a nest block and runs the body once per index tuple. -/
  | nest (a : BitVec 5) (l : BitVec 5)
  /-- FADD (R133). Scalar float add rounded under frm. -/
  | fadd (d : BitVec 5) (a : BitVec 5) (b : BitVec 5) (t : BitVec 1)
  /-- FSUB (R133). Scalar float subtract rounded under frm. -/
  | fsub (d : BitVec 5) (a : BitVec 5) (b : BitVec 5) (t : BitVec 1)
  /-- FMUL (R133). Scalar float multiply rounded under frm. -/
  | fmul (d : BitVec 5) (a : BitVec 5) (b : BitVec 5) (t : BitVec 1)
  /-- FDIV (R133). Scalar float divide rounded under frm. -/
  | fdiv (d : BitVec 5) (a : BitVec 5) (b : BitVec 5) (t : BitVec 1)
  /-- FSQRT (R133). Scalar float square root rounded under frm. -/
  | fsqrt (d : BitVec 5) (a : BitVec 5) (t : BitVec 1)
  /-- FMIN (R133). Scalar IEEE minimumNumber. -/
  | fmin (d : BitVec 5) (a : BitVec 5) (b : BitVec 5) (t : BitVec 1)
  /-- FMAX (R133). Scalar IEEE maximumNumber. -/
  | fmax (d : BitVec 5) (a : BitVec 5) (b : BitVec 5) (t : BitVec 1)
  /-- FEQ (R133). Quiet scalar float equality compare into xd. -/
  | feq (d : BitVec 5) (a : BitVec 5) (b : BitVec 5) (t : BitVec 1)
  /-- FLT (R133). Signalling scalar float less-than compare into xd. -/
  | flt (d : BitVec 5) (a : BitVec 5) (b : BitVec 5) (t : BitVec 1)
  /-- FLE (R133). Signalling scalar float less-or-equal compare into xd. -/
  | fle (d : BitVec 5) (a : BitVec 5) (b : BitVec 5) (t : BitVec 1)
  /-- FCVT (R133). Scalar conversion between float types or to and from integers, by variant. -/
  | fcvt (d : BitVec 5) (a : BitVec 5) (t : BitVec 1) (v : BitVec 4)
  /-- FCLASS (R133). Writes the one-hot class mask of the float in xa. -/
  | fclass (d : BitVec 5) (a : BitVec 5) (t : BitVec 1)
  /-- FSGNJ (R133). Magnitude of xa with the sign of xb. -/
  | fsgnj (d : BitVec 5) (a : BitVec 5) (b : BitVec 5) (t : BitVec 1)
  /-- FSGNJN (R133). Magnitude of xa with the inverted sign of xb. -/
  | fsgnjn (d : BitVec 5) (a : BitVec 5) (b : BitVec 5) (t : BitVec 1)
  /-- FSGNJX (R133). Magnitude of xa with the xor of both signs. -/
  | fsgnjx (d : BitVec 5) (a : BitVec 5) (b : BitVec 5) (t : BitVec 1)
  /-- LEND (R136). Latches a predicate that makes the next word conditional, with an optional copy register. -/
  | lend (n : BitVec 1) (k : BitVec 1) (p : BitVec 5) (c : BitVec 6) (e : BitVec 1)
  /-- VSETVL (R147). Computes vl from avl and VLMAX at issue, writes xd, and sets vl and vtype at commit. -/
  | vsetvl (d : BitVec 5) (a : BitVec 5) (s : BitVec 3) (e : BitVec 2)
  /-- VGETVL (R148). Pushes the vl in force at commit to a queue. -/
  | vgetvl (q : BitVec 3)
  /-- VADD (R149). Elementwise integer add of two vectors. -/
  | vadd (d : BitVec 6) (a : BitVec 6) (b : BitVec 6) (m : BitVec 1)
  /-- VSUB (R149). Elementwise integer subtract. -/
  | vsub (d : BitVec 6) (a : BitVec 6) (b : BitVec 6) (m : BitVec 1)
  /-- VMUL (R149). Elementwise low product. -/
  | vmul (d : BitVec 6) (a : BitVec 6) (b : BitVec 6) (m : BitVec 1)
  /-- VMULH (R149). Elementwise high product, signed or unsigned. -/
  | vmulh (d : BitVec 6) (a : BitVec 6) (b : BitVec 6) (m : BitVec 1) (u : BitVec 1)
  /-- VDIV (R149). Elementwise division, signed or unsigned, never trapping. -/
  | vdiv (d : BitVec 6) (a : BitVec 6) (b : BitVec 6) (m : BitVec 1) (u : BitVec 1)
  /-- VREM (R149). Elementwise remainder, signed or unsigned. -/
  | vrem (d : BitVec 6) (a : BitVec 6) (b : BitVec 6) (m : BitVec 1) (u : BitVec 1)
  /-- VMIN (R149). Elementwise minimum, signed or unsigned. -/
  | vmin (d : BitVec 6) (a : BitVec 6) (b : BitVec 6) (m : BitVec 1) (u : BitVec 1)
  /-- VMAX (R149). Elementwise maximum, signed or unsigned. -/
  | vmax (d : BitVec 6) (a : BitVec 6) (b : BitVec 6) (m : BitVec 1) (u : BitVec 1)
  /-- VAND (R149). Elementwise bitwise and. -/
  | vand (d : BitVec 6) (a : BitVec 6) (b : BitVec 6) (m : BitVec 1)
  /-- VOR (R149). Elementwise bitwise or. -/
  | vor (d : BitVec 6) (a : BitVec 6) (b : BitVec 6) (m : BitVec 1)
  /-- VXOR (R149). Elementwise bitwise xor. -/
  | vxor (d : BitVec 6) (a : BitVec 6) (b : BitVec 6) (m : BitVec 1)
  /-- VSLL (R149). Elementwise left shift. -/
  | vsll (d : BitVec 6) (a : BitVec 6) (b : BitVec 6) (m : BitVec 1)
  /-- VSRL (R149). Elementwise logical right shift. -/
  | vsrl (d : BitVec 6) (a : BitVec 6) (b : BitVec 6) (m : BitVec 1)
  /-- VSRA (R149). Elementwise arithmetic right shift. -/
  | vsra (d : BitVec 6) (a : BitVec 6) (b : BitVec 6) (m : BitVec 1)
  /-- VSEQ (R149). Writes mask bit i when elements are equal. -/
  | vseq (d : BitVec 6) (a : BitVec 6) (b : BitVec 6) (m : BitVec 1)
  /-- VSNE (R149). Writes mask bit i when elements differ. -/
  | vsne (d : BitVec 6) (a : BitVec 6) (b : BitVec 6) (m : BitVec 1)
  /-- VSLT (R149). Writes mask bit i when a is less than b, signed or unsigned. -/
  | vslt (d : BitVec 6) (a : BitVec 6) (b : BitVec 6) (m : BitVec 1) (u : BitVec 1)
  /-- VSLE (R149). Writes mask bit i when a is at most b, signed or unsigned. -/
  | vsle (d : BitVec 6) (a : BitVec 6) (b : BitVec 6) (m : BitVec 1) (u : BitVec 1)
  /-- VSEL (R149). Selects a or b per element by v0. -/
  | vsel (d : BitVec 6) (a : BitVec 6) (b : BitVec 6)
  /-- VMV (R150). Copies a register with its facet and, when paired, its payload partner. -/
  | vmv (d : BitVec 6) (a : BitVec 6) (m : BitVec 1)
  /-- VPOPC (R149). Elementwise population count. -/
  | vpopc (d : BitVec 6) (a : BitVec 6) (m : BitVec 1)
  /-- VXORPOP (R149). Elementwise population count of a xor b. -/
  | vxorpop (d : BitVec 6) (a : BitVec 6) (b : BitVec 6) (m : BitVec 1)
  /-- VCLZ (R149). Elementwise leading-zero count. -/
  | vclz (d : BitVec 6) (a : BitVec 6) (m : BitVec 1)
  /-- VREC_ADD (R158). Running sum along elements carried through cl. -/
  | vrecAdd (d : BitVec 6) (a : BitVec 6) (m : BitVec 1)
  /-- VREC_MAX (R158). Running maximum along elements carried through cl, signed or unsigned. -/
  | vrecMax (d : BitVec 6) (a : BitVec 6) (m : BitVec 1) (u : BitVec 1)
  /-- VREC_LIN (R158). Linear recurrence a*y+b along elements carried through cl. -/
  | vrecLin (d : BitVec 6) (a : BitVec 6) (b : BitVec 6) (m : BitVec 1)
  /-- VADD_VX (R149). Adds a scalar to each element. -/
  | vaddVx (d : BitVec 6) (a : BitVec 6) (b : BitVec 5) (m : BitVec 1)
  /-- VSUB_VX (R149). Subtracts a scalar from each element. -/
  | vsubVx (d : BitVec 6) (a : BitVec 6) (b : BitVec 5) (m : BitVec 1)
  /-- VMUL_VX (R149). Multiplies each element by a scalar, low bits. -/
  | vmulVx (d : BitVec 6) (a : BitVec 6) (b : BitVec 5) (m : BitVec 1)
  /-- VMULH_VX (R149). High product of each element with a scalar. -/
  | vmulhVx (d : BitVec 6) (a : BitVec 6) (b : BitVec 5) (m : BitVec 1) (u : BitVec 1)
  /-- VDIV_VX (R149). Divides each element by a scalar. -/
  | vdivVx (d : BitVec 6) (a : BitVec 6) (b : BitVec 5) (m : BitVec 1) (u : BitVec 1)
  /-- VREM_VX (R149). Remainder of each element by a scalar. -/
  | vremVx (d : BitVec 6) (a : BitVec 6) (b : BitVec 5) (m : BitVec 1) (u : BitVec 1)
  /-- VMIN_VX (R149). Minimum of each element and a scalar. -/
  | vminVx (d : BitVec 6) (a : BitVec 6) (b : BitVec 5) (m : BitVec 1) (u : BitVec 1)
  /-- VMAX_VX (R149). Maximum of each element and a scalar. -/
  | vmaxVx (d : BitVec 6) (a : BitVec 6) (b : BitVec 5) (m : BitVec 1) (u : BitVec 1)
  /-- VAND_VX (R149). Ands each element with a scalar. -/
  | vandVx (d : BitVec 6) (a : BitVec 6) (b : BitVec 5) (m : BitVec 1)
  /-- VOR_VX (R149). Ors each element with a scalar. -/
  | vorVx (d : BitVec 6) (a : BitVec 6) (b : BitVec 5) (m : BitVec 1)
  /-- VXOR_VX (R149). Xors each element with a scalar. -/
  | vxorVx (d : BitVec 6) (a : BitVec 6) (b : BitVec 5) (m : BitVec 1)
  /-- VSLL_VX (R149). Shifts each element left by a scalar. -/
  | vsllVx (d : BitVec 6) (a : BitVec 6) (b : BitVec 5) (m : BitVec 1)
  /-- VSRL_VX (R149). Shifts each element right logically by a scalar. -/
  | vsrlVx (d : BitVec 6) (a : BitVec 6) (b : BitVec 5) (m : BitVec 1)
  /-- VSRA_VX (R149). Shifts each element right arithmetically by a scalar. -/
  | vsraVx (d : BitVec 6) (a : BitVec 6) (b : BitVec 5) (m : BitVec 1)
  /-- VSEQ_VX (R149). Mask bit i when the element equals the scalar. -/
  | vseqVx (d : BitVec 6) (a : BitVec 6) (b : BitVec 5) (m : BitVec 1)
  /-- VSNE_VX (R149). Mask bit i when the element differs from the scalar. -/
  | vsneVx (d : BitVec 6) (a : BitVec 6) (b : BitVec 5) (m : BitVec 1)
  /-- VSLT_VX (R149). Mask bit i when the element is less than the scalar. -/
  | vsltVx (d : BitVec 6) (a : BitVec 6) (b : BitVec 5) (m : BitVec 1) (u : BitVec 1)
  /-- VSLE_VX (R149). Mask bit i when the element is at most the scalar. -/
  | vsleVx (d : BitVec 6) (a : BitVec 6) (b : BitVec 5) (m : BitVec 1) (u : BitVec 1)
  /-- VBCAST (R149). Broadcasts a scalar into the active elements. -/
  | vbcast (d : BitVec 6) (b : BitVec 5) (m : BitVec 1)
  /-- VCLSET (R159). Sets the carry latch cl from xb at commit. -/
  | vclset (b : BitVec 5)
  /-- VIDXS (R161). Writes x[xb]+i into each active element. -/
  | vidxs (d : BitVec 6) (b : BitVec 5) (m : BitVec 1)
  /-- VFADD (R151). Elementwise float add rounded once. -/
  | vfadd (d : BitVec 6) (a : BitVec 6) (b : BitVec 6) (m : BitVec 1) (k : BitVec 1)
  /-- VFSUB (R151). Elementwise float subtract. -/
  | vfsub (d : BitVec 6) (a : BitVec 6) (b : BitVec 6) (m : BitVec 1) (k : BitVec 1)
  /-- VFMUL (R151). Elementwise float multiply. -/
  | vfmul (d : BitVec 6) (a : BitVec 6) (b : BitVec 6) (m : BitVec 1) (k : BitVec 1)
  /-- VFDIV (R151). Elementwise float divide. -/
  | vfdiv (d : BitVec 6) (a : BitVec 6) (b : BitVec 6) (m : BitVec 1) (k : BitVec 1)
  /-- VFSQRT (R151). Elementwise float square root. -/
  | vfsqrt (d : BitVec 6) (a : BitVec 6) (m : BitVec 1) (k : BitVec 1)
  /-- VFMADD (R151). Elementwise fused multiply-add into vd. -/
  | vfmadd (d : BitVec 6) (a : BitVec 6) (b : BitVec 6) (m : BitVec 1) (k : BitVec 1)
  /-- VFMIN (R151). Elementwise minimumNumber. -/
  | vfmin (d : BitVec 6) (a : BitVec 6) (b : BitVec 6) (m : BitVec 1) (k : BitVec 1)
  /-- VFMAX (R151). Elementwise maximumNumber. -/
  | vfmax (d : BitVec 6) (a : BitVec 6) (b : BitVec 6) (m : BitVec 1) (k : BitVec 1)
  /-- VFEQ (R151). Quiet float equality into mask bits. -/
  | vfeq (d : BitVec 6) (a : BitVec 6) (b : BitVec 6) (m : BitVec 1) (k : BitVec 1)
  /-- VFLT (R151). Signalling float less-than into mask bits. -/
  | vflt (d : BitVec 6) (a : BitVec 6) (b : BitVec 6) (m : BitVec 1) (k : BitVec 1)
  /-- VFLE (R151). Signalling float less-or-equal into mask bits. -/
  | vfle (d : BitVec 6) (a : BitVec 6) (b : BitVec 6) (m : BitVec 1) (k : BitVec 1)
  /-- VFEXP2 (R151). Elementwise correctly rounded 2^a. -/
  | vfexp2 (d : BitVec 6) (a : BitVec 6) (m : BitVec 1) (k : BitVec 1)
  /-- VFCVT (R152). Elementwise conversion selected by the code in vb. -/
  | vfcvt (d : BitVec 6) (a : BitVec 6) (c : BitVec 6) (m : BitVec 1)
  /-- VFCLASS (R151). Elementwise class mask. -/
  | vfclass (d : BitVec 6) (a : BitVec 6) (m : BitVec 1) (k : BitVec 1)
  /-- VFADD_VF (R151). Adds a scalar float to each element. -/
  | vfaddVf (d : BitVec 6) (a : BitVec 6) (b : BitVec 5) (m : BitVec 1) (k : BitVec 1)
  /-- VFSUB_VF (R151). Subtracts a scalar float from each element. -/
  | vfsubVf (d : BitVec 6) (a : BitVec 6) (b : BitVec 5) (m : BitVec 1) (k : BitVec 1)
  /-- VFMUL_VF (R151). Multiplies each element by a scalar float. -/
  | vfmulVf (d : BitVec 6) (a : BitVec 6) (b : BitVec 5) (m : BitVec 1) (k : BitVec 1)
  /-- VFDIV_VF (R151). Divides each element by a scalar float. -/
  | vfdivVf (d : BitVec 6) (a : BitVec 6) (b : BitVec 5) (m : BitVec 1) (k : BitVec 1)
  /-- VFMADD_VF (R151). Fused multiply-add with a scalar factor. -/
  | vfmaddVf (d : BitVec 6) (a : BitVec 6) (b : BitVec 5) (m : BitVec 1) (k : BitVec 1)
  /-- VFMIN_VF (R151). minimumNumber with a scalar float. -/
  | vfminVf (d : BitVec 6) (a : BitVec 6) (b : BitVec 5) (m : BitVec 1) (k : BitVec 1)
  /-- VFMAX_VF (R151). maximumNumber with a scalar float. -/
  | vfmaxVf (d : BitVec 6) (a : BitVec 6) (b : BitVec 5) (m : BitVec 1) (k : BitVec 1)
  /-- VFEQ_VF (R151). Quiet equality with a scalar float into mask bits. -/
  | vfeqVf (d : BitVec 6) (a : BitVec 6) (b : BitVec 5) (m : BitVec 1) (k : BitVec 1)
  /-- VFLT_VF (R151). Less-than with a scalar float into mask bits. -/
  | vfltVf (d : BitVec 6) (a : BitVec 6) (b : BitVec 5) (m : BitVec 1) (k : BitVec 1)
  /-- VFLE_VF (R151). Less-or-equal with a scalar float into mask bits. -/
  | vfleVf (d : BitVec 6) (a : BitVec 6) (b : BitVec 5) (m : BitVec 1) (k : BitVec 1)
  /-- VWMUL (R153). Exact widening product into a register pair. -/
  | vwmul (d : BitVec 6) (a : BitVec 6) (b : BitVec 6) (m : BitVec 1) (u : BitVec 1)
  /-- VWMACC (R153). Widening multiply-accumulate into a register pair. -/
  | vwmacc (d : BitVec 6) (a : BitVec 6) (b : BitVec 6) (m : BitVec 1) (u : BitVec 1)
  /-- VWADD (R153). Exact widening sum into a register pair. -/
  | vwadd (d : BitVec 6) (a : BitVec 6) (b : BitVec 6) (m : BitVec 1) (u : BitVec 1)
  /-- VNCLIP (R153). Narrows a pair by a rounded shift with saturation. -/
  | vnclip (d : BitVec 6) (a : BitVec 6) (b : BitVec 6) (m : BitVec 1) (u : BitVec 1)
  /-- VSADD (R153). Saturating add. -/
  | vsadd (d : BitVec 6) (a : BitVec 6) (b : BitVec 6) (m : BitVec 1) (u : BitVec 1)
  /-- VSSUB (R153). Saturating subtract. -/
  | vssub (d : BitVec 6) (a : BitVec 6) (b : BitVec 6) (m : BitVec 1) (u : BitVec 1)
  /-- VAADD (R153). Averaging add rounded under vrm. -/
  | vaadd (d : BitVec 6) (a : BitVec 6) (b : BitVec 6) (m : BitVec 1) (u : BitVec 1)
  /-- VHAD (R162). One Hadamard stage at distance 2^vb into vd. -/
  | vhad (d : BitVec 6) (a : BitVec 6) (n : BitVec 6) (m : BitVec 1)
  /-- VHAD_C (R162). One Hadamard stage written to the chain latch hl. -/
  | vhadC (a : BitVec 6) (n : BitVec 6) (m : BitVec 1)
  /-- VQNT (R163). Quantises scaled elements to a narrow code type. -/
  | vqnt (d : BitVec 6) (a : BitVec 6) (c : BitVec 2) (m : BitVec 1) (t : BitVec 3)
  /-- VDQNT (R164). Dequantises narrow codes with scales into float elements. -/
  | vdqnt (d : BitVec 6) (a : BitVec 6) (c : BitVec 2) (m : BitVec 1) (t : BitVec 3)
  /-- VQNT_C (R163). Quantises the chain latch hl to a narrow code type. -/
  | vqntC (d : BitVec 6) (c : BitVec 2) (m : BitVec 1) (t : BitVec 3)
  /-- VRAND (R165). Fills active elements with Philox output from a random handle. -/
  | vrand (d : BitVec 6) (h : BitVec 5) (o : BitVec 5) (m : BitVec 1)
  /-- VSLIDEUP (R155). Slides elements up by a scalar amount. -/
  | vslideup (d : BitVec 6) (a : BitVec 6) (b : BitVec 5) (m : BitVec 1)
  /-- VSLIDEDN (R155). Slides elements down by a scalar amount. -/
  | vslidedn (d : BitVec 6) (a : BitVec 6) (b : BitVec 5) (m : BitVec 1)
  /-- VPERM (R155). Gathers elements of va by the index vector vb. -/
  | vperm (d : BitVec 6) (a : BitVec 6) (b : BitVec 6) (m : BitVec 1)
  /-- VZIP (R155). Interleaves two registers into a pair. -/
  | vzip (d : BitVec 6) (a : BitVec 6) (b : BitVec 6) (m : BitVec 1)
  /-- VUNZIP (R155). De-interleaves a pair into a pair. -/
  | vunzip (d : BitVec 6) (a : BitVec 6) (m : BitVec 1)
  /-- VCMPRS (R156). Packs active elements with their indices and sets vl to their count. -/
  | vcmprs (d : BitVec 6) (a : BitVec 6) (m : BitVec 1)
  /-- VEXPAND (R157). Spreads successive source elements into active positions. -/
  | vexpand (d : BitVec 6) (a : BitVec 6) (m : BitVec 1)
  /-- VREDSUM (R160). Integer sum reduction pushed to a queue. -/
  | vredsum (q : BitVec 3) (a : BitVec 6) (m : BitVec 1) (u : BitVec 1)
  /-- VREDMAX (R160). Maximum reduction pushed to a queue. -/
  | vredmax (q : BitVec 3) (a : BitVec 6) (m : BitVec 1) (u : BitVec 1)
  /-- VREDMIN (R160). Minimum reduction pushed to a queue. -/
  | vredmin (q : BitVec 3) (a : BitVec 6) (m : BitVec 1) (u : BitVec 1)
  /-- VREDAND (R160). Bitwise and reduction pushed to a queue. -/
  | vredand (q : BitVec 3) (a : BitVec 6) (m : BitVec 1)
  /-- VREDOR (R160). Bitwise or reduction pushed to a queue. -/
  | vredor (q : BitVec 3) (a : BitVec 6) (m : BitVec 1)
  /-- VFREDSUM (R110). Exact float sum reduction rounded once and pushed to a queue. -/
  | vfredsum (q : BitVec 3) (a : BitVec 6) (m : BitVec 1) (k : BitVec 1)
  /-- VMAND (R154). Mask bitwise and. -/
  | vmand (d : BitVec 6) (a : BitVec 6) (b : BitVec 6) (m : BitVec 1)
  /-- VMOR (R154). Mask bitwise or. -/
  | vmor (d : BitVec 6) (a : BitVec 6) (b : BitVec 6) (m : BitVec 1)
  /-- VMXOR (R154). Mask bitwise xor. -/
  | vmxor (d : BitVec 6) (a : BitVec 6) (b : BitVec 6) (m : BitVec 1)
  /-- VMNOT (R154). Mask bitwise not. -/
  | vmnot (d : BitVec 6) (a : BitVec 6) (m : BitVec 1)
  /-- VFIRST (R154). Pushes the lowest active set bit index, or all ones. -/
  | vfirst (q : BitVec 3) (a : BitVec 6) (m : BitVec 1)
  /-- VCOUNT (R154). Pushes the number of active set bits. -/
  | vcount (q : BitVec 3) (a : BitVec 6) (m : BitVec 1)
  /-- VIDX (R161). Writes start+i*step into every element below vl. -/
  | vidx (d : BitVec 6) (s : BitVec 10) (p : BitVec 10)
  /-- VLD (R239). Unit-stride vector load. -/
  | vld (d : BitVec 6) (a : BitVec 5) (m : BitVec 1) (w : BitVec 2)
  /-- VLD_STRIDED (R239). Strided vector load with stride in xb. -/
  | vldStrided (d : BitVec 6) (a : BitVec 5) (b : BitVec 5) (m : BitVec 1) (w : BitVec 2)
  /-- VLD_INDEXED (R239). Indexed vector load with offsets from vb. -/
  | vldIndexed (d : BitVec 6) (a : BitVec 5) (v : BitVec 6) (m : BitVec 1) (w : BitVec 2)
  /-- VLD_SEG (R239). Segment load of nf+1 fields into consecutive registers. -/
  | vldSeg (d : BitVec 6) (a : BitVec 5) (m : BitVec 1) (n : BitVec 3) (w : BitVec 2)
  /-- VLD_F (R240). Fault-only-first unit load that trims vl at a failure past element 0. -/
  | vldF (d : BitVec 6) (a : BitVec 5) (m : BitVec 1) (w : BitVec 2)
  /-- VLD_F_SEG (R240). Fault-only-first segment load. -/
  | vldFSeg (d : BitVec 6) (a : BitVec 5) (m : BitVec 1) (n : BitVec 3) (w : BitVec 2)
  /-- VLD_SEG_INDEXED (R239). Indexed segment load. -/
  | vldSegIndexed (d : BitVec 6) (a : BitVec 5) (v : BitVec 6) (m : BitVec 1) (n : BitVec 3) (w : BitVec 2)
  /-- VST (R241). Unit-stride vector store, performed after commit. -/
  | vst (s : BitVec 6) (a : BitVec 5) (m : BitVec 1) (w : BitVec 2)
  /-- VST_STRIDED (R241). Strided vector store. -/
  | vstStrided (s : BitVec 6) (a : BitVec 5) (b : BitVec 5) (m : BitVec 1) (w : BitVec 2)
  /-- VST_INDEXED (R241). Indexed vector store with collision to the highest index. -/
  | vstIndexed (s : BitVec 6) (a : BitVec 5) (v : BitVec 6) (m : BitVec 1) (w : BitVec 2)
  /-- VST_SEG (R241). Segment vector store. -/
  | vstSeg (s : BitVec 6) (a : BitVec 5) (m : BitVec 1) (n : BitVec 3) (w : BitVec 2)
  /-- VST_N (R243). Unit store followed by a release add of the element count to the progress word. -/
  | vstN (s : BitVec 6) (a : BitVec 5) (m : BitVec 1) (w : BitVec 2)
  /-- VST_N_SEG (R243). Segment store with a notify add of the record count. -/
  | vstNSeg (s : BitVec 6) (a : BitVec 5) (m : BitVec 1) (n : BitVec 3) (w : BitVec 2)
  /-- VST_N_INDEXED (R243). Indexed store with a notify add. -/
  | vstNIndexed (s : BitVec 6) (a : BitVec 5) (v : BitVec 6) (m : BitVec 1) (w : BitVec 2)
  /-- VSORT (R176). Stable sort of elements with optional payloads, tagging the facet. -/
  | vsort (d : BitVec 6) (a : BitVec 6) (p : BitVec 1) (s : BitVec 1) (k : BitVec 3)
  /-- VMRG (R177). Stable merge of two sorted runs into a register pair. -/
  | vmrg (d : BitVec 6) (a : BitVec 6) (b : BitVec 6) (k : BitVec 3)
  /-- VMRGC (R178). Pushes how many of va's elements the lower merge half holds. -/
  | vmrgc (q : BitVec 3) (a : BitVec 6) (b : BitVec 6) (k : BitVec 3)
  /-- VISEC (R179). Intersects two sorted runs and sets vl to the count. -/
  | visec (d : BitVec 6) (a : BitVec 6) (b : BitVec 6) (k : BitVec 3)
  /-- VUNIQ (R180). Keeps the first of each group of equal keys and sets vl. -/
  | vuniq (d : BitVec 6) (a : BitVec 6) (k : BitVec 3)
  /-- VRANK (R181). Counts run keys strictly before each probe. -/
  | vrank (d : BitVec 6) (a : BitVec 6) (b : BitVec 6) (k : BitVec 3)
  /-- VRANK_LE (R181). Counts run keys before or equal to each probe. -/
  | vrankLe (d : BitVec 6) (a : BitVec 6) (b : BitVec 6) (k : BitVec 3)
  /-- VPART (R182). Splits a sorted run at a scalar pivot into a pair. -/
  | vpart (d : BitVec 6) (a : BitVec 6) (b : BitVec 5) (k : BitVec 3)
  /-- VTOPK (R183). Selects the k greatest non-NaN keys with payload tie-break. -/
  | vtopk (d : BitVec 6) (a : BitVec 6) (b : BitVec 5) (k : BitVec 3)
  /-- VCMPT (R184). Keeps run elements at or above the vthr threshold and sets vl. -/
  | vcmpt (d : BitVec 6) (a : BitVec 6) (k : BitVec 3)
  /-- VCHKS (R185). Checks order of va and sets or clears its facet. -/
  | vchks (a : BitVec 6) (s : BitVec 1) (k : BitVec 3)
  /-- VFACET (R186). Pushes the committed facet of va to a queue. -/
  | vfacet (q : BitVec 3) (a : BitVec 6)
  /-- MOPA (R195). Outer product of va and vb added exactly into tile cells. -/
  | mopa (t : BitVec 2) (a : BitVec 6) (b : BitVec 6) (m : BitVec 1) (f : BitVec 4)
  /-- MOPA_S (R196). Scaled outer product with per-column bf16 scales from v1. -/
  | mopaS (t : BitVec 2) (a : BitVec 6) (b : BitVec 6) (m : BitVec 1) (f : BitVec 4)
  /-- MOPA_W (R197). Outer product against a decompressed weight-buffer row. -/
  | mopaW (t : BitVec 2) (a : BitVec 6) (w : BitVec 5) (m : BitVec 1) (f : BitVec 4)
  /-- MOPA_GR (R199). Accumulates weight rows named by compressed activations into one tile row. -/
  | mopaGr (t : BitVec 2) (a : BitVec 6) (s : BitVec 5) (f : BitVec 4)
  /-- TZERO (R201). Empties a tile, clearing cells, mode, class and anchor. -/
  | tzero (t : BitVec 2)
  /-- TANCHOR (R201). Sets the anchor and float mode of an empty tile. -/
  | tanchor (t : BitVec 2) (a : BitVec 5)
  /-- TRES (R106). Resolves each cell once into the target format. -/
  | tres (t : BitVec 2) (f : BitVec 4)
  /-- TMOVR (R202). Reads part of a tile row into a vector as resolved values. -/
  | tmovr (t : BitVec 2) (d : BitVec 6) (c : BitVec 5) (f : BitVec 4)
  /-- TMOVW (R203). Writes vector values into a tile row. -/
  | tmovw (t : BitVec 2) (a : BitVec 6) (c : BitVec 5) (f : BitVec 4)
  /-- TLD_RAW (R205). Loads a whole raw tile image. -/
  | tldRaw (t : BitVec 2) (a : BitVec 5)
  /-- TLD_CAN (R206). Loads a canonical image, making the tile resolved. -/
  | tldCan (t : BitVec 2) (a : BitVec 5) (f : BitVec 4)
  /-- TST_RAW (R205). Stores the whole raw tile image. -/
  | tstRaw (t : BitVec 2) (a : BitVec 5)
  /-- TST_CAN (R206). Stores one resolved value per cell. -/
  | tstCan (t : BitVec 2) (a : BitVec 5) (f : BitVec 4)
  /-- CBLD (R207). Loads a 16-entry bf16 codebook. -/
  | cbld (t : BitVec 2) (a : BitVec 5)
  /-- QPUSH (R252). Pushes a command block address into a copy channel FIFO with release. -/
  | qpush (q : BitVec 4) (s : BitVec 5)
  /-- QPOP (R253). Pops the oldest queue entry into xd, stalling the SCT when empty. -/
  | qpop (q : BitVec 4) (d : BitVec 5)
  /-- QSTAT (R266). Pushes the status word of a channel to a queue. -/
  | qstat (q : BitVec 4) (c : BitVec 4)
  /-- COPY (R258). Reads, checks and pushes a copy command to a channel. -/
  | copy (c : BitVec 4) (a : BitVec 5)
  /-- VGTHR (R262). Pushes a row-gather command built from vb's row numbers. -/
  | vgthr (v : BitVec 5) (c : BitVec 4) (a : BitVec 5)
  /-- DRAIN (R265). Waits at commit until every earlier command of the channel has retired. -/
  | drain (c : BitVec 4)
  /-- FENCE (R245). Places a scoped barrier of the given kind in the access path. -/
  | fence (s : BitVec 3) (k : BitVec 2)
  /-- CSRR (R398). Reads a CSR into xd with timing by its kind. -/
  | csrr (d : BitVec 5) (c : BitVec 12)
  /-- CSRW (R398). Writes xa to a CSR with timing by its kind. -/
  | csrw (a : BitVec 5) (c : BitVec 12)
  /-- CSRS (R398). Sets the bits of xa in a CSR. -/
  | csrs (a : BitVec 5) (c : BitVec 12)
  /-- CSRC (R398). Clears the bits of xa in a CSR. -/
  | csrc (a : BitVec 5) (c : BitVec 12)
  /-- ILLEGAL_WORD (R44). A fetched word that is not a valid instruction raises its decode cause. -/
  | illegalWord (w : BitVec 32) (e : DecodeError)
  /-- VLSYNC (R246). Joins the slice classes of the context. -/
  | vlsync
  /-- VFENCE_D (R247). Drains the write-combining buffer in a deterministic launch and acts as fence.device. -/
  | vfenceD
  /-- UEND (R337). Ends the unit: empties channels, drains, counts the ordinal and frees the context. -/
  | uend
  /-- YIELD (R338). Offers the context to a higher-priority launch by raising PREEMPT. -/
  | yield
  /-- ECALL (R404). Raises ECALL to the handling level with epc past the word. -/
  | ecall
  /-- EBRK (R404). Raises BREAK to the handling level. -/
  | ebrk
  /-- ERET (R375). Replays the trap frame, restores privilege and returns to epc. -/
  | eret
  /-- SNAP (R410). Places snapshot cut markers on every write path. -/
  | snap
  /-- WFI (R411). Stalls the SCT until an asynchronous cause is pending. -/
  | wfi
  /-- WAITGE (R248). Stalls until the memory word is at least xb. -/
  | waitge (a : BitVec 5) (b : BitVec 5) (w : BitVec 1)
  /-- WAITEQ (R248). Stalls until the memory word equals xb. -/
  | waiteq (a : BitVec 5) (b : BitVec 5) (w : BitVec 1)
  /-- LAUNCH (R332). Reads, validates and accepts a launch record into the journal and arms its counter. -/
  | launch (a : BitVec 5) (d : BitVec 5)
  /-- LAUNCH_NODE (R334). Arms a graph, phase or job counter, or releases a counter. -/
  | launchNode (a : BitVec 5) (b : BitVec 5) (d : BitVec 5)
  /-- CANCEL (R335). Cancels a node: stops dispatch, marks counters done and cancelled. -/
  | cancel (a : BitVec 5) (d : BitVec 5)
  /-- CREAD (R336). Reads a counter's flags and count. -/
  | cread (a : BitVec 5) (d : BitVec 5)
  /-- CREAD_T (R336). Reads a counter's target. -/
  | creadT (a : BitVec 5) (d : BitVec 5)
  /-- CLASP (R341). Arrives at a clasp and waits for the episode to complete. -/
  | clasp (a : BitVec 5) (d : BitVec 5)
  /-- CLASP_CFG (R340). Configures or unconfigures a local clasp and clears its record. -/
  | claspCfg (a : BitVec 5) (b : BitVec 5) (d : BitVec 5)
  /-- CLARR (R342). Arrives at a clasp without waiting and pushes the episode number. -/
  | clarr (a : BitVec 5) (q : BitVec 3)
  /-- CLWAIT (R343). Waits for an episode of a clasp to complete without arriving. -/
  | clwait (a : BitVec 5) (b : BitVec 5)
  /-- GRANT (R346). Sets a context's standing grant, reclaiming or adding resources. -/
  | grant (a : BitVec 5) (b : BitVec 5) (d : BitVec 5)
  /-- CTXSAVE (R380). Writes the save image of the context, parking a unit when run in its handler. -/
  | ctxsave (a : BitVec 5)
  /-- CTXRST (R381). Restores a save image into an idle context and acts as eret. -/
  | ctxrst (a : BitVec 5)
  /-- TLBINV (R407). Invalidates translations at a page, ASID, job or device reach. -/
  | tlbinv (d : BitVec 5) (a : BitVec 5)
  /-- PLACEW (R408). Writes a place-table entry of a job. -/
  | placew (d : BitVec 5) (a : BitVec 5)
  /-- VFSET (R409). Writes the facet of a vector register after checks. -/
  | vfset (a : BitVec 5) (v : BitVec 6)
  /-- HINT (R70). Major 0x3F word that executes as a no-op. -/
  | hint (h : BitVec 26)
  /-- WAIT_SATISFIED (R248). A re-read of the waited word satisfies the condition and acquires. -/
  | waitSatisfied (c : Nat)
  /-- CLASP_WAKE (R320). A waiting clasp or clwait wakes within 2 us of its episode completing. -/
  | claspWake (c : Nat)
  /-- TLBINV_COMPLETE (R360). Invalidation completes once accesses under removed translations have performed. -/
  | tlbinvComplete (c : Nat)
  /-- ACCESS_PERFORM (R217). An access leaves its slice queue and is performed at its location. -/
  | accessPerform (c k : Nat)
  /-- WCB_EARLY_DRAIN (R222). The full write-combining buffer drains its oldest lines early. -/
  | wcbEarlyDrain (c n : Nat)
  /-- SCOREBOARD_WAIT_END (R221). An access held on an overlapping scoreboard entry proceeds after release. -/
  | scoreboardWaitEnd (c : Nat)
  /-- COPY_COMMAND_START (R259). A channel starts its head command after checking every element address. -/
  | copyCommandStart (c ch : Nat)
  /-- COPY_COMMAND_RETIRE (R259). A command retires when all its writes are performed at system scope. -/
  | copyCommandRetire (c ch : Nat)
  /-- COUNTER_INCREMENT (R30). An ordinal-tagged increment arrives at a completion counter. -/
  | counterIncrement (k : Nat)
  /-- JOURNAL_RELEASE (R331). A done launch's journal entry is released once both mirrors are retired. -/
  | journalRelease (die ctr : Nat)
  /-- DISPATCHER_POP (R313). The walker takes a ready launch by strictness or sampling of two banks. -/
  | dispatcherPop (die b1 b2 : Nat)
  /-- GANG_ADMIT (R315). A gang's reservation completes and all its units start together. -/
  | gangAdmit (die : Nat)
  /-- UNIT_HAND_OUT (R308). A freed context is offered to active launches and receives the first fitting unit. -/
  | unitHandOut (c : Nat)
  /-- UNIT_PRELOAD (R311). The walker preloads the next unit into the other staging half. -/
  | unitPreload (c : Nat)
  /-- PROLOGUE_COMPLETE (R310). The rebased prologue copy and codebook load finish, or fail the unit. -/
  | prologueComplete (c : Nat)
  /-- UNIT_START (R333). A unit begins at its entry PC with the state of R32. -/
  | unitStart (c : Nat)
  /-- BUDGET (R312). The budget count reaches its nonzero limit and BUDGET is raised at a safe point. -/
  | budget (c : Nat)
  /-- RECLAIM (R316). A reclaim not transferred within 2,048 clk raises RECLAIM. -/
  | reclaim (c : Nat)
  /-- TIMER (R403). cyc reaches tmr and TIMER is raised at a safe point. -/
  | timer (c : Nat)
  /-- PREEMPT (R368). An asynchronous pre-emption is taken at a safe point. -/
  | preempt (c : Nat)
  /-- CANCELLED (R31). A running unit under a cancelled node takes CANCELLED at its next safe point. -/
  | cancelled (c : Nat)
  /-- STRAGGLER_FLAG (R324). Walkers receive a domain clasp's flag of a lagging device. -/
  | stragglerFlag (flags : BitVec 64)
  /-- THEFT_REQUEST (R325). A victim serves a theft request atomically, granting half its range or empty. -/
  | theftRequest (die ctr n thief : Nat)
  /-- THEFT_REPLY (R326). A thief receives a stolen range and runs it under the copied record. -/
  | theftReply (victim die ctr lo hi : Nat) (blob : List (BitVec 8))
  /-- REGENERATION_RUN (R227). A TRIG count reaching a multiple of N runs cb4 regeneration and bumps GEN. -/
  | regenerationRun (k : Nat)
  /-- RFILL (R269). A control-window write starts the random fill engine on a descriptor. -/
  | rfill (a : BitVec 64)
  /-- RANDOM_FILL_DONE (R269). The fill completes and GEN is incremented with release. -/
  | randomFillDone (k : Nat)
  /-- SNAPSHOT_LINE_COPY (R225). The engine copies a snapshotted line once, releasing any held write. -/
  | snapshotLineCopy (asid : BitVec 13) (va : BitVec 64)
  /-- SNAPSHOT_COMPLETE (R410). All lines copied; the snapshot generation word is incremented with release. -/
  | snapshotComplete
  /-- REMOTE_REFUSAL (R367). A peer or host refuses an issued access; MCHECK REFUSED is raised. -/
  | remoteRefusal (c : Nat) (a : BitVec 64)
  /-- PARTIAL_STORE_ERROR (R389). A narrow store into an uncorrectable word is discarded with an async PARTIAL check. -/
  | partialStoreError (c : Nat) (a : BitVec 64)
  /-- CORE_FAILED (R394). A core fails: contexts stop, units are lost and a spare is placed. -/
  | coreFailed (die slot : Nat)
  /-- DIE_LOST (R395). A die is lost; its mirror rebuilds counters and launches in a shadow bank. -/
  | dieLost (die : Nat)
  /-- HBM_STACK_LOST (R393). A stack is lost and every BANK entry naming it is treated as invalid. -/
  | hbmStackLost (stack : Nat)
  /-- LINK_LANES_FAILED (R393). A link drops to 4 lanes at half bandwidth. -/
  | linkLanesFailed (link : Nat)
  /-- LINK_LOST (R393). A Brodsy link is lost and traffic reroutes. -/
  | linkLost (link : Nat)
  /-- SOFT_ERROR_THRESHOLD (R393). The soft-error count passes the host threshold and a replace request follows. -/
  | softErrorThreshold (k : Nat)
  /-- LINK_TRAINING (R418). A Brodsy link trains, negotiating version and checking domain numbers. -/
  | linkTraining (link peer lo hi : Nat)
  /-- GTS_SYNC (R421). A gts message over VC 2 keeps domain time synchronised. -/
  | gtsSync (g : BitVec 64)
  /-- HOST_MEMORY_ACCESS (R412). A host CXL.mem load or store to device HBM. -/
  | hostMemoryAccess (store : Bool) (a : BitVec 64) (n : Nat) (v : BitVec 64)
  /-- BOOT (R426). Host write of the firmware address starts image fetch and bring-up. -/
  | boot (a : BitVec 64)
  /-- BOOT_IMAGE_LOADED (R426). The fetched image is checked and firmware self-test runs, or STATE becomes failed. -/
  | bootImageLoaded (good : Bool) (bad : List Nat)
  /-- HYP_CONTEXT_START (R428). Firmware sets defaults and starts the hyp context, STATE becomes ready. -/
  | hypContextStart
  /-- PLREQ (R423). Host request of a power level, started or refused. -/
  | plreq (v : BitVec 64)
  /-- POWER_TRANSITION_DONE (R424). A power transition finishes and vector 4 is raised. -/
  | powerTransitionDone
  /-- TWARN (R425). Write of the warning limit, ignored if not below TTRIP. -/
  | twarn (v : BitVec 64)
  /-- TTRIP (R425). Write of the trip limit, ignored if invalid. -/
  | ttrip (v : BitVec 64)
  /-- MCADDR (R390). Registers the machine-check ring of the selected job. -/
  | mcaddr (v : BitVec 64)
  /-- JRCTR (R413). Registers a job ring with its die and job counter. -/
  | jrctr (v : BitVec 64)
  /-- REGEN_REGISTER (R414). REGEN write with bit 0 clear registers a regeneration descriptor. -/
  | regenRegister (a : BitVec 64)
  /-- REGEN_UNREGISTER (R414). REGEN write with bit 0 set unregisters a descriptor. -/
  | regenUnregister (a : BitVec 64)
  /-- REPLACE (R413). Reading the replace register returns the last request and clears it. -/
  | replace
  /-- DOMAIN (R422). Sets the device's domain number before BOOT. -/
  | domain (v : BitVec 64)
  /-- RESET (R429). Writing 1 performs device reset. -/
  | reset (v : BitVec 64)
  /-- FUNCTION_LEVEL_RESET (R429). A CXL.io Function Level Reset performs device reset. -/
  | functionLevelReset
  /-- CONVENTIONAL_RESET (R429). A PCIe conventional reset performs device reset. -/
  | conventionalReset
  /-- POWER_ON_RESET (R426). Power-on reset holds cores and trains the host link. -/
  | powerOnReset
  /-- CONTROL_WINDOW_WRITE (R413). A host write to a control-window register without behaviour of its own. -/
  | controlWindowWrite (off : Nat) (v : BitVec 64)
  /-- TWARN_CROSSING (R425). A sensor crosses TWARN upward, setting WARN and raising vector 0. -/
  | twarnCrossing (r : Reading)
  /-- WARN_CLEAR (R424). Sensors fall below TWARN minus 3 and WARN clears. -/
  | warnClear (r : Reading)
  /-- TTRIP_CROSSING (R425). A sensor crosses TTRIP upward, raising vector 1 and starting the 10 ms timer. -/
  | ttripCrossing (r : Reading)
  /-- TRIP_TIMER_EXPIRY (R425). The 10 ms timer ends; the trip is taken unless the host requested a deeper level. -/
  | tripTimerExpiry
  /-- IMMEDIATE_TRIP (R425). A sensor at 115 C trips the package at once. -/
  | immediateTrip (r : Reading)
  /-- REGENERATION_RUN_COMPLETE (R227). A regeneration run finishes writing its output buffer and codebook, adds 1 to GEN with release, and then starts any pending run or completes a deferred unregister. -/
  | regenerationRunComplete (k : Nat)
  /-- DEVICE_MEMBER_ARRIVAL (R320). An arrival message of a device member reaches a clasp's home device over VC 2 and is recorded in the current episode, possibly completing it. -/
  | deviceMemberArrival (id member : Nat) (stamp : BitVec 64)
  deriving DecidableEq, Repr

/-- The eighteen forms that compiled code hands on in a type of their own (see above); each is one constructor of `Instr`. -/
inductive LateInstr where
  /-- WAITGE (R248). -/
  | waitge (a : BitVec 5) (b : BitVec 5) (w : BitVec 1)
  /-- WAITEQ (R248). -/
  | waiteq (a : BitVec 5) (b : BitVec 5) (w : BitVec 1)
  /-- LAUNCH (R332). -/
  | launch (a : BitVec 5) (d : BitVec 5)
  /-- LAUNCH_NODE (R334). -/
  | launchNode (a : BitVec 5) (b : BitVec 5) (d : BitVec 5)
  /-- CANCEL (R335). -/
  | cancel (a : BitVec 5) (d : BitVec 5)
  /-- CREAD (R336). -/
  | cread (a : BitVec 5) (d : BitVec 5)
  /-- CREAD_T (R336). -/
  | creadT (a : BitVec 5) (d : BitVec 5)
  /-- CLASP (R341). -/
  | clasp (a : BitVec 5) (d : BitVec 5)
  /-- CLASP_CFG (R340). -/
  | claspCfg (a : BitVec 5) (b : BitVec 5) (d : BitVec 5)
  /-- CLARR (R342). -/
  | clarr (a : BitVec 5) (q : BitVec 3)
  /-- CLWAIT (R343). -/
  | clwait (a : BitVec 5) (b : BitVec 5)
  /-- GRANT (R346). -/
  | grant (a : BitVec 5) (b : BitVec 5) (d : BitVec 5)
  /-- CTXSAVE (R380). -/
  | ctxsave (a : BitVec 5)
  /-- CTXRST (R381). -/
  | ctxrst (a : BitVec 5)
  /-- TLBINV (R407). -/
  | tlbinv (d : BitVec 5) (a : BitVec 5)
  /-- PLACEW (R408). -/
  | placew (d : BitVec 5) (a : BitVec 5)
  /-- VFSET (R409). -/
  | vfset (a : BitVec 5) (v : BitVec 6)
  /-- HINT (R70). -/
  | hint (h : BitVec 26)
  deriving DecidableEq, Repr

/-- The instruction that a late form is. -/
noncomputable def LateInstr.toInstr : LateInstr → Instr
  | .waitge a b w => .waitge a b w
  | .waiteq a b w => .waiteq a b w
  | .launch a d => .launch a d
  | .launchNode a b d => .launchNode a b d
  | .cancel a d => .cancel a d
  | .cread a d => .cread a d
  | .creadT a d => .creadT a d
  | .clasp a d => .clasp a d
  | .claspCfg a b d => .claspCfg a b d
  | .clarr a q => .clarr a q
  | .clwait a b => .clwait a b
  | .grant a b d => .grant a b d
  | .ctxsave a => .ctxsave a
  | .ctxrst a => .ctxrst a
  | .tlbinv d a => .tlbinv d a
  | .placew d a => .placew d a
  | .vfset a v => .vfset a v
  | .hint h => .hint h

/-- What the decoder answers: an instruction, or one of the late forms. -/
inductive Decoded where
  | instr (i : Instr)
  | late (l : LateInstr)
  deriving DecidableEq, Repr

/-- The instruction decoded. -/
noncomputable def Decoded.toInstr : Decoded → Instr
  | .instr i => i
  | .late l => l.toInstr

end Sys2Proof
end

