-- ==== Sys2Proof/Machine/Fields.lean ====
section
/-! DEFINITION. The constraints that the fields of an instruction word must meet (R41, R42, R44, R51 to R69, R122, R172, R193,
R329, R397), the CSR map with its rights and kinds (R397, R398), and the lowest privilege level of each form (R69, R329). -/

namespace Sys2Proof

/-- A mask (m = 1) is refused when the destination is v0 (R44). -/
def maskOk (d : BitVec 6) (m : BitVec 1) : Bool := m == 0 || d != 0

/-- A register number that may name a pair (R44). -/
def isEven (r : BitVec 6) : Bool := r.toNat % 2 == 0

/-- A register number that may carry a payload partner: v2 to v31 (R34). -/
def isKey (r : BitVec 6) : Bool := decide (2 ≤ r.toNat) && decide (r.toNat ≤ 31)

/-- When an access to a CSR takes effect (R398). -/
inductive CsrKind where
  | inOrder | drain | free
  deriving DecidableEq, Repr

/-- The rights and the kind of a CSR (R397): lowest level that reads it, lowest level that writes it (none where the Write column
is "none"), kind. -/
structure CsrRights where
  read : Priv
  write : Option Priv
  kind : CsrKind
  deriving DecidableEq, Repr

/-- The CSR map (R397); `none` for a number that the table does not list. -/
def csrRights (c : BitVec 12) : Option CsrRights :=
  match c.toNat with
  | 0x000 => some ⟨.app, none, .inOrder⟩
  | 0x001 | 0x002 | 0x003 | 0x006 | 0x007 | 0x008 | 0x00C => some ⟨.app, some .app, .inOrder⟩
  | 0x004 | 0x005 | 0x009 => some ⟨.app, some .app, .drain⟩
  | 0x00A | 0x100 | 0x106 | 0x108 => some ⟨.app, some .sup, .drain⟩
  | 0x00B | 0x010 | 0x011 | 0x012 | 0x013 | 0x014 | 0x107 => some ⟨.app, none, .free⟩
  | 0x101 | 0x102 | 0x103 | 0x104 | 0x105 | 0x109 | 0x10A | 0x10B | 0x10C => some ⟨.sup, some .sup, .drain⟩
  | 0x205 => some ⟨.hyp, some .hyp, .drain⟩
  | _ => none

/-- The lowest level that may read a CSR; app for an unlisted number, which fails at every level (R397). -/
def csrReadLevel (c : BitVec 12) : Priv :=
  match csrRights c with
  | some r => r.read
  | none => .app

/-- The lowest level that may write a CSR; sup where the Write column is "none", since app meets PRIV there (R398); app for an
unlisted number, which fails at every level (R397). -/
def csrWriteLevel (c : BitVec 12) : Priv :=
  match csrRights c with
  | some ⟨_, some p, _⟩ => p
  | some ⟨_, none, _⟩ => .sup
  | none => .app

/-- A listed CSR with a Write level (R397, R398). -/
def csrWritable (c : BitVec 12) : Bool :=
  match csrRights c with
  | some ⟨_, some _, _⟩ => true
  | _ => false

/-- The field and register constraints of a word's form: R42, R44 and the decode checks of each description. An event is no word. -/
def Instr.fieldsOk : Instr → Bool
  | .amoAdd _ _ _ _ s _ | .amoAnd _ _ _ _ s _ | .amoOr _ _ _ _ s _ | .amoXor _ _ _ _ s _ | .amoMin _ _ _ _ s _
  | .amoMax _ _ _ _ s _ | .amoMinu _ _ _ _ s _ | .amoMaxu _ _ _ _ s _ | .amoSwap _ _ _ _ s _ | .amoCas _ _ _ _ s _
  | .vsetvl _ _ s _ => decide (s.toNat ≤ 4)
  | .loop a _ | .nest a _ => decide (a ≠ 0)
  | .fcvt _ _ _ v => decide (v.toNat ≤ 8)
  | .lend _ k p c e => decide ((k = 0 ∨ p = 0) ∧ (e = 1 ∨ c = 0))
  | .vadd d _ _ m | .vsub d _ _ m | .vmul d _ _ m | .vmulh d _ _ m _ | .vdiv d _ _ m _ | .vrem d _ _ m _
  | .vmin d _ _ m _ | .vmax d _ _ m _ | .vand d _ _ m | .vor d _ _ m | .vxor d _ _ m | .vsll d _ _ m | .vsrl d _ _ m
  | .vsra d _ _ m | .vseq d _ _ m | .vsne d _ _ m | .vslt d _ _ m _ | .vsle d _ _ m _ | .vmv d _ m | .vpopc d _ m
  | .vxorpop d _ _ m | .vclz d _ m | .vrecAdd d _ m | .vrecMax d _ m _ | .vrecLin d _ _ m | .vaddVx d _ _ m
  | .vsubVx d _ _ m | .vmulVx d _ _ m | .vmulhVx d _ _ m _ | .vdivVx d _ _ m _ | .vremVx d _ _ m _
  | .vminVx d _ _ m _ | .vmaxVx d _ _ m _ | .vandVx d _ _ m | .vorVx d _ _ m | .vxorVx d _ _ m | .vsllVx d _ _ m
  | .vsrlVx d _ _ m | .vsraVx d _ _ m | .vseqVx d _ _ m | .vsneVx d _ _ m | .vsltVx d _ _ m _ | .vsleVx d _ _ m _
  | .vbcast d _ m | .vidxs d _ m | .vfadd d _ _ m _ | .vfsub d _ _ m _ | .vfmul d _ _ m _ | .vfdiv d _ _ m _
  | .vfsqrt d _ m _ | .vfmadd d _ _ m _ | .vfmin d _ _ m _ | .vfmax d _ _ m _ | .vfeq d _ _ m _ | .vflt d _ _ m _
  | .vfle d _ _ m _ | .vfexp2 d _ m _ | .vfclass d _ m _ | .vfaddVf d _ _ m _ | .vfsubVf d _ _ m _
  | .vfmulVf d _ _ m _ | .vfdivVf d _ _ m _ | .vfmaddVf d _ _ m _ | .vfminVf d _ _ m _ | .vfmaxVf d _ _ m _
  | .vfeqVf d _ _ m _ | .vfltVf d _ _ m _ | .vfleVf d _ _ m _ | .vsadd d _ _ m _ | .vssub d _ _ m _
  | .vaadd d _ _ m _ | .vrand d _ _ m | .vslideup d _ _ m | .vslidedn d _ _ m | .vperm d _ _ m | .vcmprs d _ m
  | .vexpand d _ m | .vmand d _ _ m | .vmor d _ _ m | .vmxor d _ _ m | .vmnot d _ m | .vld d _ m _
  | .vldStrided d _ _ m _ | .vldIndexed d _ _ m _ | .vldF d _ m _ => decide (maskOk d m)
  | .vfcvt d _ c m => decide (maskOk d m ∧ c.toNat ≤ 5)
  | .vwmul d _ _ m _ | .vwmacc d _ _ m _ | .vwadd d _ _ m _ | .vzip d _ _ m => decide (maskOk d m ∧ isEven d)
  | .vnclip d a _ m _ => decide (maskOk d m ∧ isEven a)
  | .vhad d _ n m => decide (maskOk d m ∧ n.toNat ≤ 5)
  | .vhadC _ n _ => decide (n.toNat ≤ 5)
  | .vqnt d _ c m t | .vdqnt d _ c m t | .vqntC d c m t => decide (maskOk d m ∧ t.toNat ≤ 4 ∧ (t = 3 ∨ c = 0))
  | .vunzip d a m => decide (maskOk d m ∧ isEven a ∧ isEven d)
  | .vldSeg d _ m n _ | .vldFSeg d _ m n _ | .vldSegIndexed d _ _ m n _ => decide (maskOk d m ∧ n ≠ 0 ∧ d.toNat + n.toNat ≤ 63)
  | .vstSeg s _ _ n _ | .vstNSeg s _ _ n _ => decide (n ≠ 0 ∧ s.toNat + n.toNat ≤ 63)
  | .vsort d a p _ k => decide (k ≠ 7 ∧ (p = 0 ∨ isKey a ∧ isKey d))
  | .vmrg d _ _ k | .vpart d _ _ k => decide (k ≠ 7 ∧ isEven d ∧ d ≠ 62)
  | .vmrgc _ _ _ k | .visec _ _ _ k | .vuniq _ _ k | .vrank _ _ _ k | .vrankLe _ _ _ k | .vchks _ _ k => decide (k ≠ 7)
  | .vtopk d _ _ k | .vcmpt d _ k => decide (k ≠ 7 ∧ isKey d)
  | .mopa _ _ b _ f => decide (f.toNat ≤ 6 ∧ (f.toNat < 5 ∨ isEven b))
  | .mopaS _ _ b _ f => decide (f.toNat ≤ 6 ∧ f ≠ 2 ∧ (f.toNat < 5 ∨ isEven b))
  | .mopaW _ _ _ _ f => decide (f = 3 ∨ f = 4)
  | .mopaGr _ a _ f => decide (f.toNat ≤ 4 ∧ f ≠ 2 ∧ isKey a)
  | .tres _ f | .tmovr _ _ _ f | .tmovw _ _ _ f => decide (3 ≤ f.toNat ∧ f.toNat ≤ 7)
  | .tldCan _ _ f | .tstCan _ _ f => decide (f.toNat ≤ 6)
  | .qstat _ c | .copy c _ | .vgthr _ c _ | .drain c => decide (c.toNat < 8)
  | .fence s k => decide (s.toNat ≤ 4 ∧ k ≠ 3)
  | .clasp _ d => decide (d ≠ 0)
  | .csrr _ c => (csrRights c).isSome
  | .csrw _ c | .csrs _ c | .csrc _ c => csrWritable c
  | .add .. | .sub .. | .and .. | .or .. | .xor .. | .sll .. | .srl .. | .sra .. | .slt .. | .sltu .. | .mul ..
  | .mulh .. | .mulhu .. | .div .. | .divu .. | .rem .. | .remu .. | .min .. | .max .. | .minu .. | .maxu ..
  | .clz .. | .ctz .. | .popc .. | .rev8 .. | .sextB .. | .sextH .. | .sextW .. | .addi .. | .andi .. | .ori ..
  | .xori .. | .slti .. | .sltiu .. | .slli .. | .srli .. | .srai .. | .lui .. | .auipc .. | .lb .. | .lbu ..
  | .lh .. | .lhu .. | .lw .. | .lwu .. | .ld .. | .sb .. | .sh .. | .sw .. | .sd .. | .beq .. | .bne .. | .blt ..
  | .bge .. | .bltu .. | .bgeu .. | .jal .. | .jalr .. | .fadd .. | .fsub .. | .fmul .. | .fdiv .. | .fsqrt ..
  | .fmin .. | .fmax .. | .feq .. | .flt .. | .fle .. | .fclass .. | .fsgnj .. | .fsgnjn .. | .fsgnjx .. | .vgetvl ..
  | .vsel .. | .vclset .. | .vredsum .. | .vredmax .. | .vredmin .. | .vredand .. | .vredor .. | .vfredsum ..
  | .vfirst .. | .vcount .. | .vidx .. | .vst .. | .vstStrided .. | .vstIndexed .. | .vstN .. | .vstNIndexed ..
  | .vfacet .. | .tzero .. | .tanchor .. | .tldRaw .. | .tstRaw .. | .cbld .. | .qpush .. | .qpop .. | .vlsync ..
  | .vfenceD .. | .waitge .. | .waiteq .. | .launch .. | .launchNode .. | .cancel .. | .cread .. | .creadT ..
  | .uend .. | .yield .. | .claspCfg .. | .clarr .. | .clwait .. | .grant .. | .ecall .. | .ebrk .. | .eret ..
  | .ctxsave .. | .ctxrst .. | .tlbinv .. | .placew .. | .vfset .. | .snap .. | .wfi .. | .hint .. => true
  | .waitSatisfied .. | .claspWake .. | .tlbinvComplete .. | .illegalWord .. | .accessPerform .. | .wcbEarlyDrain ..
  | .scoreboardWaitEnd .. | .copyCommandStart .. | .copyCommandRetire .. | .counterIncrement .. | .journalRelease ..
  | .dispatcherPop .. | .gangAdmit .. | .unitHandOut .. | .unitPreload .. | .prologueComplete .. | .unitStart ..
  | .budget .. | .reclaim .. | .timer .. | .preempt .. | .cancelled .. | .stragglerFlag .. | .theftRequest ..
  | .theftReply .. | .regenerationRun .. | .rfill .. | .randomFillDone .. | .snapshotLineCopy ..
  | .snapshotComplete .. | .remoteRefusal .. | .partialStoreError .. | .coreFailed .. | .dieLost ..
  | .hbmStackLost .. | .linkLanesFailed .. | .linkLost .. | .softErrorThreshold .. | .linkTraining .. | .gtsSync ..
  | .hostMemoryAccess .. | .boot .. | .bootImageLoaded .. | .hypContextStart .. | .plreq .. | .powerTransitionDone ..
  | .twarn .. | .ttrip .. | .mcaddr .. | .jrctr .. | .regenRegister .. | .regenUnregister .. | .replace ..
  | .domain .. | .reset .. | .functionLevelReset .. | .conventionalReset .. | .powerOnReset ..
  | .controlWindowWrite .. | .twarnCrossing .. | .warnClear .. | .ttripCrossing .. | .tripTimerExpiry ..
  | .immediateTrip .. | .regenerationRunComplete .. | .deviceMemberArrival .. => false

/-- The lowest privilege level that may execute a form (R69, R329, R397). -/
def Instr.lowestLevel : Instr → Priv
  | .launch .. | .launchNode .. | .cancel .. | .claspCfg .. | .grant .. | .eret | .ctxsave .. | .ctxrst .. | .tlbinv ..
  | .vfset .. | .snap | .wfi => .sup
  | .placew .. => .hyp
  | .csrr _ c => csrReadLevel c
  | .csrw _ c | .csrs _ c | .csrc _ c => csrWriteLevel c
  | _ => .app

end Sys2Proof
end

