-- ==== Sys2Proof/WellFormed.lean ====
section
/-! DEFINITION. Which instructions have a word (R38, R42, R44). -/

namespace Sys2Proof

/-- An instruction that some word encodes: it is no event, and its fields meet the constraints of its form. -/
def Instr.wellFormed (i : Instr) : Bool := i.fieldsOk

end Sys2Proof
end

