-- ==== Sys2Proof/Decode.lean ====
section
/-! DEFINITION. Decoding an instruction word (R38 to R70), total: it answers an instruction or the kind of its refusal (R43); and
the encoder of the same tables. -/

namespace Sys2Proof

/-- The field of `n` bits at bit `lo` of a word (R38, R39). -/
abbrev Word32.fld (w : Word32) (lo n : Nat) : BitVec n := w.extractLsb' lo n

/-- Words of major 0x1 (R47). -/
def decodeAlu (w : Word32) : Except DecodeError Decoded :=
  if w.fld 0 11 = 0x0 then .ok (.instr (.add (w.fld 21 5) (w.fld 16 5) (w.fld 11 5))) else
  if w.fld 0 11 = 0x1 then .ok (.instr (.sub (w.fld 21 5) (w.fld 16 5) (w.fld 11 5))) else
  if w.fld 0 11 = 0x2 then .ok (.instr (.and (w.fld 21 5) (w.fld 16 5) (w.fld 11 5))) else
  if w.fld 0 11 = 0x3 then .ok (.instr (.or (w.fld 21 5) (w.fld 16 5) (w.fld 11 5))) else
  if w.fld 0 11 = 0x4 then .ok (.instr (.xor (w.fld 21 5) (w.fld 16 5) (w.fld 11 5))) else
  if w.fld 0 11 = 0x5 then .ok (.instr (.sll (w.fld 21 5) (w.fld 16 5) (w.fld 11 5))) else
  if w.fld 0 11 = 0x6 then .ok (.instr (.srl (w.fld 21 5) (w.fld 16 5) (w.fld 11 5))) else
  if w.fld 0 11 = 0x7 then .ok (.instr (.sra (w.fld 21 5) (w.fld 16 5) (w.fld 11 5))) else
  if w.fld 0 11 = 0x8 then .ok (.instr (.slt (w.fld 21 5) (w.fld 16 5) (w.fld 11 5))) else
  if w.fld 0 11 = 0x9 then .ok (.instr (.sltu (w.fld 21 5) (w.fld 16 5) (w.fld 11 5))) else
  if w.fld 0 11 = 0xa then .ok (.instr (.mul (w.fld 21 5) (w.fld 16 5) (w.fld 11 5))) else
  if w.fld 0 11 = 0xb then .ok (.instr (.mulh (w.fld 21 5) (w.fld 16 5) (w.fld 11 5))) else
  if w.fld 0 11 = 0xc then .ok (.instr (.mulhu (w.fld 21 5) (w.fld 16 5) (w.fld 11 5))) else
  if w.fld 0 11 = 0xd then .ok (.instr (.div (w.fld 21 5) (w.fld 16 5) (w.fld 11 5))) else
  if w.fld 0 11 = 0xe then .ok (.instr (.divu (w.fld 21 5) (w.fld 16 5) (w.fld 11 5))) else
  if w.fld 0 11 = 0xf then .ok (.instr (.rem (w.fld 21 5) (w.fld 16 5) (w.fld 11 5))) else
  if w.fld 0 11 = 0x10 then .ok (.instr (.remu (w.fld 21 5) (w.fld 16 5) (w.fld 11 5))) else
  if w.fld 0 11 = 0x11 then .ok (.instr (.min (w.fld 21 5) (w.fld 16 5) (w.fld 11 5))) else
  if w.fld 0 11 = 0x12 then .ok (.instr (.max (w.fld 21 5) (w.fld 16 5) (w.fld 11 5))) else
  if w.fld 0 11 = 0x13 then .ok (.instr (.minu (w.fld 21 5) (w.fld 16 5) (w.fld 11 5))) else
  if w.fld 0 11 = 0x14 then .ok (.instr (.maxu (w.fld 21 5) (w.fld 16 5) (w.fld 11 5))) else
  if w.fld 0 11 = 0x15 then (if w.fld 11 5 = 0x0 then .ok (.instr (.clz (w.fld 21 5) (w.fld 16 5))) else .error (.field .app)) else
  if w.fld 0 11 = 0x16 then (if w.fld 11 5 = 0x0 then .ok (.instr (.ctz (w.fld 21 5) (w.fld 16 5))) else .error (.field .app)) else
  if w.fld 0 11 = 0x17 then (if w.fld 11 5 = 0x0 then .ok (.instr (.popc (w.fld 21 5) (w.fld 16 5))) else .error (.field .app)) else
  if w.fld 0 11 = 0x18 then (if w.fld 11 5 = 0x0 then .ok (.instr (.rev8 (w.fld 21 5) (w.fld 16 5))) else .error (.field .app)) else
  if w.fld 0 11 = 0x19 then (if w.fld 11 5 = 0x0 then .ok (.instr (.sextB (w.fld 21 5) (w.fld 16 5))) else .error (.field .app)) else
  if w.fld 0 11 = 0x1a then (if w.fld 11 5 = 0x0 then .ok (.instr (.sextH (w.fld 21 5) (w.fld 16 5))) else .error (.field .app)) else
  if w.fld 0 11 = 0x1b then (if w.fld 11 5 = 0x0 then .ok (.instr (.sextW (w.fld 21 5) (w.fld 16 5))) else .error (.field .app)) else
  .error .op

/-- Words of major 0x8 (R48, R116). -/
def decodeShi (w : Word32) : Except DecodeError Decoded :=
  if w.fld 6 2 = 0x0 then (if w.fld 8 8 = 0x0 then .ok (.instr (.slli (w.fld 21 5) (w.fld 16 5) (w.fld 0 6))) else .error (.field .app))
    else if w.fld 6 2 = 0x1 then (if w.fld 8 8 = 0x0 then .ok (.instr (.srli (w.fld 21 5) (w.fld 16 5) (w.fld 0 6))) else .error (.field .app))
    else if w.fld 6 2 = 0x2 then (if w.fld 8 8 = 0x0 then .ok (.instr (.srai (w.fld 21 5) (w.fld 16 5) (w.fld 0 6))) else .error (.field .app))
    else .error (.field .app)

/-- Words of major 0x16 (R49). -/
def decodeAmo (w : Word32) : Except DecodeError Decoded :=
  if w.fld 1 1 = 0x0 ∧ w.fld 7 4 = 0x0 ∧ (w.fld 2 3).toNat ≤ 4 then .ok (.instr (.amoAdd (w.fld 21 5) (w.fld 16 5) (w.fld 11 5) (w.fld 5 2) (w.fld 2 3) (w.fld 0 1))) else
  if w.fld 1 1 = 0x0 ∧ w.fld 7 4 = 0x1 ∧ (w.fld 2 3).toNat ≤ 4 then .ok (.instr (.amoAnd (w.fld 21 5) (w.fld 16 5) (w.fld 11 5) (w.fld 5 2) (w.fld 2 3) (w.fld 0 1))) else
  if w.fld 1 1 = 0x0 ∧ w.fld 7 4 = 0x2 ∧ (w.fld 2 3).toNat ≤ 4 then .ok (.instr (.amoOr (w.fld 21 5) (w.fld 16 5) (w.fld 11 5) (w.fld 5 2) (w.fld 2 3) (w.fld 0 1))) else
  if w.fld 1 1 = 0x0 ∧ w.fld 7 4 = 0x3 ∧ (w.fld 2 3).toNat ≤ 4 then .ok (.instr (.amoXor (w.fld 21 5) (w.fld 16 5) (w.fld 11 5) (w.fld 5 2) (w.fld 2 3) (w.fld 0 1))) else
  if w.fld 1 1 = 0x0 ∧ w.fld 7 4 = 0x4 ∧ (w.fld 2 3).toNat ≤ 4 then .ok (.instr (.amoMin (w.fld 21 5) (w.fld 16 5) (w.fld 11 5) (w.fld 5 2) (w.fld 2 3) (w.fld 0 1))) else
  if w.fld 1 1 = 0x0 ∧ w.fld 7 4 = 0x5 ∧ (w.fld 2 3).toNat ≤ 4 then .ok (.instr (.amoMax (w.fld 21 5) (w.fld 16 5) (w.fld 11 5) (w.fld 5 2) (w.fld 2 3) (w.fld 0 1))) else
  if w.fld 1 1 = 0x0 ∧ w.fld 7 4 = 0x6 ∧ (w.fld 2 3).toNat ≤ 4 then .ok (.instr (.amoMinu (w.fld 21 5) (w.fld 16 5) (w.fld 11 5) (w.fld 5 2) (w.fld 2 3) (w.fld 0 1))) else
  if w.fld 1 1 = 0x0 ∧ w.fld 7 4 = 0x7 ∧ (w.fld 2 3).toNat ≤ 4 then .ok (.instr (.amoMaxu (w.fld 21 5) (w.fld 16 5) (w.fld 11 5) (w.fld 5 2) (w.fld 2 3) (w.fld 0 1))) else
  if w.fld 1 1 = 0x0 ∧ w.fld 7 4 = 0x8 ∧ (w.fld 2 3).toNat ≤ 4 then .ok (.instr (.amoSwap (w.fld 21 5) (w.fld 16 5) (w.fld 11 5) (w.fld 5 2) (w.fld 2 3) (w.fld 0 1))) else
  if w.fld 1 1 = 0x0 ∧ w.fld 7 4 = 0x9 ∧ (w.fld 2 3).toNat ≤ 4 then .ok (.instr (.amoCas (w.fld 21 5) (w.fld 16 5) (w.fld 11 5) (w.fld 5 2) (w.fld 2 3) (w.fld 0 1))) else
  .error .op

/-- Words of major 0x21 (R50). -/
def decodeFlt (w : Word32) : Except DecodeError Decoded :=
  if w.fld 0 4 = 0x0 ∧ w.fld 5 6 = 0x0 then .ok (.instr (.fadd (w.fld 21 5) (w.fld 16 5) (w.fld 11 5) (w.fld 4 1))) else
  if w.fld 0 4 = 0x0 ∧ w.fld 5 6 = 0x2 then .ok (.instr (.fsub (w.fld 21 5) (w.fld 16 5) (w.fld 11 5) (w.fld 4 1))) else
  if w.fld 0 4 = 0x0 ∧ w.fld 5 6 = 0x4 then .ok (.instr (.fmul (w.fld 21 5) (w.fld 16 5) (w.fld 11 5) (w.fld 4 1))) else
  if w.fld 0 4 = 0x0 ∧ w.fld 5 6 = 0x6 then .ok (.instr (.fdiv (w.fld 21 5) (w.fld 16 5) (w.fld 11 5) (w.fld 4 1))) else
  if w.fld 0 4 = 0x0 ∧ w.fld 5 6 = 0x8 then (if w.fld 11 5 = 0x0 then .ok (.instr (.fsqrt (w.fld 21 5) (w.fld 16 5) (w.fld 4 1))) else .error (.field .app)) else
  if w.fld 0 4 = 0x0 ∧ w.fld 5 6 = 0xa then .ok (.instr (.fmin (w.fld 21 5) (w.fld 16 5) (w.fld 11 5) (w.fld 4 1))) else
  if w.fld 0 4 = 0x0 ∧ w.fld 5 6 = 0xc then .ok (.instr (.fmax (w.fld 21 5) (w.fld 16 5) (w.fld 11 5) (w.fld 4 1))) else
  if w.fld 0 4 = 0x0 ∧ w.fld 5 6 = 0xe then .ok (.instr (.feq (w.fld 21 5) (w.fld 16 5) (w.fld 11 5) (w.fld 4 1))) else
  if w.fld 0 4 = 0x0 ∧ w.fld 5 6 = 0x10 then .ok (.instr (.flt (w.fld 21 5) (w.fld 16 5) (w.fld 11 5) (w.fld 4 1))) else
  if w.fld 0 4 = 0x0 ∧ w.fld 5 6 = 0x12 then .ok (.instr (.fle (w.fld 21 5) (w.fld 16 5) (w.fld 11 5) (w.fld 4 1))) else
  if w.fld 5 6 = 0x14 ∧ (w.fld 0 4).toNat ≤ 8 then (if w.fld 11 5 = 0x0 then .ok (.instr (.fcvt (w.fld 21 5) (w.fld 16 5) (w.fld 4 1) (w.fld 0 4))) else .error (.field .app)) else
  if w.fld 0 4 = 0x0 ∧ w.fld 5 6 = 0x16 then (if w.fld 11 5 = 0x0 then .ok (.instr (.fclass (w.fld 21 5) (w.fld 16 5) (w.fld 4 1))) else .error (.field .app)) else
  if w.fld 0 4 = 0x0 ∧ w.fld 5 6 = 0x18 then .ok (.instr (.fsgnj (w.fld 21 5) (w.fld 16 5) (w.fld 11 5) (w.fld 4 1))) else
  if w.fld 0 4 = 0x1 ∧ w.fld 5 6 = 0x18 then .ok (.instr (.fsgnjn (w.fld 21 5) (w.fld 16 5) (w.fld 11 5) (w.fld 4 1))) else
  if w.fld 0 4 = 0x2 ∧ w.fld 5 6 = 0x18 then .ok (.instr (.fsgnjx (w.fld 21 5) (w.fld 16 5) (w.fld 11 5) (w.fld 4 1))) else
  .error .op

/-- Words of major 0x22 (R71). -/
def decodeLend (w : Word32) : Except DecodeError Decoded :=
  if w.fld 0 12 = 0x0 then .ok (.instr (.lend (w.fld 25 1) (w.fld 24 1) (w.fld 19 5) (w.fld 13 6) (w.fld 12 1))) else .error (.field .app)

/-- Words of major 0x23 (R51). -/
def decodeVcfg (w : Word32) : Except DecodeError Decoded :=
  if w.fld 0 4 = 0x0 then (if w.fld 9 7 = 0x0 then .ok (.instr (.vsetvl (w.fld 21 5) (w.fld 16 5) (w.fld 6 3) (w.fld 4 2))) else .error (.field .app)) else
  if w.fld 0 4 = 0x1 then (if w.fld 4 17 = 0x0 ∧ w.fld 24 2 = 0x0 then .ok (.instr (.vgetvl (w.fld 21 3))) else .error (.field .app)) else
  .error .op

/-- Words of major 0x24 (R53). -/
def decodeVint (w : Word32) : Except DecodeError Decoded :=
  if w.fld 0 7 = 0x0 then .ok (.instr (.vadd (w.fld 20 6) (w.fld 14 6) (w.fld 8 6) (w.fld 7 1))) else
  if w.fld 0 7 = 0x1 then .ok (.instr (.vsub (w.fld 20 6) (w.fld 14 6) (w.fld 8 6) (w.fld 7 1))) else
  if w.fld 0 7 = 0x2 then .ok (.instr (.vmul (w.fld 20 6) (w.fld 14 6) (w.fld 8 6) (w.fld 7 1))) else
  if w.fld 0 6 = 0x3 then .ok (.instr (.vmulh (w.fld 20 6) (w.fld 14 6) (w.fld 8 6) (w.fld 7 1) (w.fld 6 1))) else
  if w.fld 0 6 = 0x4 then .ok (.instr (.vdiv (w.fld 20 6) (w.fld 14 6) (w.fld 8 6) (w.fld 7 1) (w.fld 6 1))) else
  if w.fld 0 6 = 0x5 then .ok (.instr (.vrem (w.fld 20 6) (w.fld 14 6) (w.fld 8 6) (w.fld 7 1) (w.fld 6 1))) else
  if w.fld 0 6 = 0x6 then .ok (.instr (.vmin (w.fld 20 6) (w.fld 14 6) (w.fld 8 6) (w.fld 7 1) (w.fld 6 1))) else
  if w.fld 0 6 = 0x7 then .ok (.instr (.vmax (w.fld 20 6) (w.fld 14 6) (w.fld 8 6) (w.fld 7 1) (w.fld 6 1))) else
  if w.fld 0 7 = 0x8 then .ok (.instr (.vand (w.fld 20 6) (w.fld 14 6) (w.fld 8 6) (w.fld 7 1))) else
  if w.fld 0 7 = 0x9 then .ok (.instr (.vor (w.fld 20 6) (w.fld 14 6) (w.fld 8 6) (w.fld 7 1))) else
  if w.fld 0 7 = 0xa then .ok (.instr (.vxor (w.fld 20 6) (w.fld 14 6) (w.fld 8 6) (w.fld 7 1))) else
  if w.fld 0 7 = 0xb then .ok (.instr (.vsll (w.fld 20 6) (w.fld 14 6) (w.fld 8 6) (w.fld 7 1))) else
  if w.fld 0 7 = 0xc then .ok (.instr (.vsrl (w.fld 20 6) (w.fld 14 6) (w.fld 8 6) (w.fld 7 1))) else
  if w.fld 0 7 = 0xd then .ok (.instr (.vsra (w.fld 20 6) (w.fld 14 6) (w.fld 8 6) (w.fld 7 1))) else
  if w.fld 0 7 = 0xe then .ok (.instr (.vseq (w.fld 20 6) (w.fld 14 6) (w.fld 8 6) (w.fld 7 1))) else
  if w.fld 0 7 = 0xf then .ok (.instr (.vsne (w.fld 20 6) (w.fld 14 6) (w.fld 8 6) (w.fld 7 1))) else
  if w.fld 0 6 = 0x10 then .ok (.instr (.vslt (w.fld 20 6) (w.fld 14 6) (w.fld 8 6) (w.fld 7 1) (w.fld 6 1))) else
  if w.fld 0 6 = 0x11 then .ok (.instr (.vsle (w.fld 20 6) (w.fld 14 6) (w.fld 8 6) (w.fld 7 1) (w.fld 6 1))) else
  if w.fld 0 7 = 0x12 then (if w.fld 7 1 = 0x0 then .ok (.instr (.vsel (w.fld 20 6) (w.fld 14 6) (w.fld 8 6))) else .error (.field .app)) else
  if w.fld 0 7 = 0x13 then (if w.fld 8 6 = 0x0 then .ok (.instr (.vmv (w.fld 20 6) (w.fld 14 6) (w.fld 7 1))) else .error (.field .app)) else
  if w.fld 0 7 = 0x14 then (if w.fld 8 6 = 0x0 then .ok (.instr (.vpopc (w.fld 20 6) (w.fld 14 6) (w.fld 7 1))) else .error (.field .app)) else
  if w.fld 0 7 = 0x15 then .ok (.instr (.vxorpop (w.fld 20 6) (w.fld 14 6) (w.fld 8 6) (w.fld 7 1))) else
  if w.fld 0 7 = 0x16 then (if w.fld 8 6 = 0x0 then .ok (.instr (.vclz (w.fld 20 6) (w.fld 14 6) (w.fld 7 1))) else .error (.field .app)) else
  if w.fld 0 7 = 0x18 then (if w.fld 8 6 = 0x0 then .ok (.instr (.vrecAdd (w.fld 20 6) (w.fld 14 6) (w.fld 7 1))) else .error (.field .app)) else
  if w.fld 0 6 = 0x19 then (if w.fld 8 6 = 0x0 then .ok (.instr (.vrecMax (w.fld 20 6) (w.fld 14 6) (w.fld 7 1) (w.fld 6 1))) else .error (.field .app)) else
  if w.fld 0 7 = 0x1a then .ok (.instr (.vrecLin (w.fld 20 6) (w.fld 14 6) (w.fld 8 6) (w.fld 7 1))) else
  .error .op

/-- Words of major 0x25 (R54). -/
def decodeVints (w : Word32) : Except DecodeError Decoded :=
  if w.fld 0 8 = 0x0 then .ok (.instr (.vaddVx (w.fld 20 6) (w.fld 14 6) (w.fld 9 5) (w.fld 8 1))) else
  if w.fld 0 8 = 0x1 then .ok (.instr (.vsubVx (w.fld 20 6) (w.fld 14 6) (w.fld 9 5) (w.fld 8 1))) else
  if w.fld 0 8 = 0x2 then .ok (.instr (.vmulVx (w.fld 20 6) (w.fld 14 6) (w.fld 9 5) (w.fld 8 1))) else
  if w.fld 0 6 = 0x3 ∧ w.fld 7 1 = 0x0 then .ok (.instr (.vmulhVx (w.fld 20 6) (w.fld 14 6) (w.fld 9 5) (w.fld 8 1) (w.fld 6 1))) else
  if w.fld 0 6 = 0x4 ∧ w.fld 7 1 = 0x0 then .ok (.instr (.vdivVx (w.fld 20 6) (w.fld 14 6) (w.fld 9 5) (w.fld 8 1) (w.fld 6 1))) else
  if w.fld 0 6 = 0x5 ∧ w.fld 7 1 = 0x0 then .ok (.instr (.vremVx (w.fld 20 6) (w.fld 14 6) (w.fld 9 5) (w.fld 8 1) (w.fld 6 1))) else
  if w.fld 0 6 = 0x6 ∧ w.fld 7 1 = 0x0 then .ok (.instr (.vminVx (w.fld 20 6) (w.fld 14 6) (w.fld 9 5) (w.fld 8 1) (w.fld 6 1))) else
  if w.fld 0 6 = 0x7 ∧ w.fld 7 1 = 0x0 then .ok (.instr (.vmaxVx (w.fld 20 6) (w.fld 14 6) (w.fld 9 5) (w.fld 8 1) (w.fld 6 1))) else
  if w.fld 0 8 = 0x8 then .ok (.instr (.vandVx (w.fld 20 6) (w.fld 14 6) (w.fld 9 5) (w.fld 8 1))) else
  if w.fld 0 8 = 0x9 then .ok (.instr (.vorVx (w.fld 20 6) (w.fld 14 6) (w.fld 9 5) (w.fld 8 1))) else
  if w.fld 0 8 = 0xa then .ok (.instr (.vxorVx (w.fld 20 6) (w.fld 14 6) (w.fld 9 5) (w.fld 8 1))) else
  if w.fld 0 8 = 0xb then .ok (.instr (.vsllVx (w.fld 20 6) (w.fld 14 6) (w.fld 9 5) (w.fld 8 1))) else
  if w.fld 0 8 = 0xc then .ok (.instr (.vsrlVx (w.fld 20 6) (w.fld 14 6) (w.fld 9 5) (w.fld 8 1))) else
  if w.fld 0 8 = 0xd then .ok (.instr (.vsraVx (w.fld 20 6) (w.fld 14 6) (w.fld 9 5) (w.fld 8 1))) else
  if w.fld 0 8 = 0xe then .ok (.instr (.vseqVx (w.fld 20 6) (w.fld 14 6) (w.fld 9 5) (w.fld 8 1))) else
  if w.fld 0 8 = 0xf then .ok (.instr (.vsneVx (w.fld 20 6) (w.fld 14 6) (w.fld 9 5) (w.fld 8 1))) else
  if w.fld 0 6 = 0x10 ∧ w.fld 7 1 = 0x0 then .ok (.instr (.vsltVx (w.fld 20 6) (w.fld 14 6) (w.fld 9 5) (w.fld 8 1) (w.fld 6 1))) else
  if w.fld 0 6 = 0x11 ∧ w.fld 7 1 = 0x0 then .ok (.instr (.vsleVx (w.fld 20 6) (w.fld 14 6) (w.fld 9 5) (w.fld 8 1) (w.fld 6 1))) else
  if w.fld 0 8 = 0x13 then (if w.fld 14 6 = 0x0 then .ok (.instr (.vbcast (w.fld 20 6) (w.fld 9 5) (w.fld 8 1))) else .error (.field .app)) else
  if w.fld 0 8 = 0x1b then (if w.fld 8 1 = 0x0 ∧ w.fld 14 12 = 0x0 then .ok (.instr (.vclset (w.fld 9 5))) else .error (.field .app)) else
  if w.fld 0 8 = 0x1c then (if w.fld 14 6 = 0x0 then .ok (.instr (.vidxs (w.fld 20 6) (w.fld 9 5) (w.fld 8 1))) else .error (.field .app)) else
  .error .op

/-- Words of major 0x26 (R55). -/
def decodeVflt (w : Word32) : Except DecodeError Decoded :=
  if w.fld 0 6 = 0x0 then .ok (.instr (.vfadd (w.fld 20 6) (w.fld 14 6) (w.fld 8 6) (w.fld 7 1) (w.fld 6 1))) else
  if w.fld 0 6 = 0x1 then .ok (.instr (.vfsub (w.fld 20 6) (w.fld 14 6) (w.fld 8 6) (w.fld 7 1) (w.fld 6 1))) else
  if w.fld 0 6 = 0x2 then .ok (.instr (.vfmul (w.fld 20 6) (w.fld 14 6) (w.fld 8 6) (w.fld 7 1) (w.fld 6 1))) else
  if w.fld 0 6 = 0x3 then .ok (.instr (.vfdiv (w.fld 20 6) (w.fld 14 6) (w.fld 8 6) (w.fld 7 1) (w.fld 6 1))) else
  if w.fld 0 6 = 0x4 then (if w.fld 8 6 = 0x0 then .ok (.instr (.vfsqrt (w.fld 20 6) (w.fld 14 6) (w.fld 7 1) (w.fld 6 1))) else .error (.field .app)) else
  if w.fld 0 6 = 0x5 then .ok (.instr (.vfmadd (w.fld 20 6) (w.fld 14 6) (w.fld 8 6) (w.fld 7 1) (w.fld 6 1))) else
  if w.fld 0 6 = 0x6 then .ok (.instr (.vfmin (w.fld 20 6) (w.fld 14 6) (w.fld 8 6) (w.fld 7 1) (w.fld 6 1))) else
  if w.fld 0 6 = 0x7 then .ok (.instr (.vfmax (w.fld 20 6) (w.fld 14 6) (w.fld 8 6) (w.fld 7 1) (w.fld 6 1))) else
  if w.fld 0 6 = 0x8 then .ok (.instr (.vfeq (w.fld 20 6) (w.fld 14 6) (w.fld 8 6) (w.fld 7 1) (w.fld 6 1))) else
  if w.fld 0 6 = 0x9 then .ok (.instr (.vflt (w.fld 20 6) (w.fld 14 6) (w.fld 8 6) (w.fld 7 1) (w.fld 6 1))) else
  if w.fld 0 6 = 0xa then .ok (.instr (.vfle (w.fld 20 6) (w.fld 14 6) (w.fld 8 6) (w.fld 7 1) (w.fld 6 1))) else
  if w.fld 0 6 = 0xb then (if w.fld 8 6 = 0x0 then .ok (.instr (.vfexp2 (w.fld 20 6) (w.fld 14 6) (w.fld 7 1) (w.fld 6 1))) else .error (.field .app)) else
  if w.fld 0 7 = 0xc then .ok (.instr (.vfcvt (w.fld 20 6) (w.fld 14 6) (w.fld 8 6) (w.fld 7 1))) else
  if w.fld 0 6 = 0xd then (if w.fld 8 6 = 0x0 then .ok (.instr (.vfclass (w.fld 20 6) (w.fld 14 6) (w.fld 7 1) (w.fld 6 1))) else .error (.field .app)) else
  .error .op

/-- Words of major 0x27 (R55). -/
def decodeVflts (w : Word32) : Except DecodeError Decoded :=
  if w.fld 0 6 = 0x0 ∧ w.fld 7 1 = 0x0 then .ok (.instr (.vfaddVf (w.fld 20 6) (w.fld 14 6) (w.fld 9 5) (w.fld 8 1) (w.fld 6 1))) else
  if w.fld 0 6 = 0x1 ∧ w.fld 7 1 = 0x0 then .ok (.instr (.vfsubVf (w.fld 20 6) (w.fld 14 6) (w.fld 9 5) (w.fld 8 1) (w.fld 6 1))) else
  if w.fld 0 6 = 0x2 ∧ w.fld 7 1 = 0x0 then .ok (.instr (.vfmulVf (w.fld 20 6) (w.fld 14 6) (w.fld 9 5) (w.fld 8 1) (w.fld 6 1))) else
  if w.fld 0 6 = 0x3 ∧ w.fld 7 1 = 0x0 then .ok (.instr (.vfdivVf (w.fld 20 6) (w.fld 14 6) (w.fld 9 5) (w.fld 8 1) (w.fld 6 1))) else
  if w.fld 0 6 = 0x5 ∧ w.fld 7 1 = 0x0 then .ok (.instr (.vfmaddVf (w.fld 20 6) (w.fld 14 6) (w.fld 9 5) (w.fld 8 1) (w.fld 6 1))) else
  if w.fld 0 6 = 0x6 ∧ w.fld 7 1 = 0x0 then .ok (.instr (.vfminVf (w.fld 20 6) (w.fld 14 6) (w.fld 9 5) (w.fld 8 1) (w.fld 6 1))) else
  if w.fld 0 6 = 0x7 ∧ w.fld 7 1 = 0x0 then .ok (.instr (.vfmaxVf (w.fld 20 6) (w.fld 14 6) (w.fld 9 5) (w.fld 8 1) (w.fld 6 1))) else
  if w.fld 0 6 = 0x8 ∧ w.fld 7 1 = 0x0 then .ok (.instr (.vfeqVf (w.fld 20 6) (w.fld 14 6) (w.fld 9 5) (w.fld 8 1) (w.fld 6 1))) else
  if w.fld 0 6 = 0x9 ∧ w.fld 7 1 = 0x0 then .ok (.instr (.vfltVf (w.fld 20 6) (w.fld 14 6) (w.fld 9 5) (w.fld 8 1) (w.fld 6 1))) else
  if w.fld 0 6 = 0xa ∧ w.fld 7 1 = 0x0 then .ok (.instr (.vfleVf (w.fld 20 6) (w.fld 14 6) (w.fld 9 5) (w.fld 8 1) (w.fld 6 1))) else
  .error .op

/-- Words of major 0x28 (R56). -/
def decodeVfix (w : Word32) : Except DecodeError Decoded :=
  if w.fld 0 6 = 0x0 then .ok (.instr (.vwmul (w.fld 20 6) (w.fld 14 6) (w.fld 8 6) (w.fld 7 1) (w.fld 6 1))) else
  if w.fld 0 6 = 0x1 then .ok (.instr (.vwmacc (w.fld 20 6) (w.fld 14 6) (w.fld 8 6) (w.fld 7 1) (w.fld 6 1))) else
  if w.fld 0 6 = 0x2 then .ok (.instr (.vwadd (w.fld 20 6) (w.fld 14 6) (w.fld 8 6) (w.fld 7 1) (w.fld 6 1))) else
  if w.fld 0 6 = 0x3 then .ok (.instr (.vnclip (w.fld 20 6) (w.fld 14 6) (w.fld 8 6) (w.fld 7 1) (w.fld 6 1))) else
  if w.fld 0 6 = 0x4 then .ok (.instr (.vsadd (w.fld 20 6) (w.fld 14 6) (w.fld 8 6) (w.fld 7 1) (w.fld 6 1))) else
  if w.fld 0 6 = 0x5 then .ok (.instr (.vssub (w.fld 20 6) (w.fld 14 6) (w.fld 8 6) (w.fld 7 1) (w.fld 6 1))) else
  if w.fld 0 6 = 0x6 then .ok (.instr (.vaadd (w.fld 20 6) (w.fld 14 6) (w.fld 8 6) (w.fld 7 1) (w.fld 6 1))) else
  .error .op

/-- Words of major 0x29 (R57). -/
def decodeVcvt (w : Word32) : Except DecodeError Decoded :=
  if w.fld 0 7 = 0x0 then .ok (.instr (.vhad (w.fld 20 6) (w.fld 14 6) (w.fld 8 6) (w.fld 7 1))) else
  if w.fld 0 7 = 0x1 then (if w.fld 20 6 = 0x0 then .ok (.instr (.vhadC (w.fld 14 6) (w.fld 8 6) (w.fld 7 1))) else .error (.field .app)) else
  if w.fld 3 4 = 0x1 ∧ (w.fld 0 3).toNat ≤ 4 then (if w.fld 10 4 = 0x0 then .ok (.instr (.vqnt (w.fld 20 6) (w.fld 14 6) (w.fld 8 2) (w.fld 7 1) (w.fld 0 3))) else .error (.field .app)) else
  if w.fld 3 4 = 0x2 ∧ (w.fld 0 3).toNat ≤ 4 then (if w.fld 10 4 = 0x0 then .ok (.instr (.vdqnt (w.fld 20 6) (w.fld 14 6) (w.fld 8 2) (w.fld 7 1) (w.fld 0 3))) else .error (.field .app)) else
  if w.fld 3 4 = 0x3 ∧ (w.fld 0 3).toNat ≤ 4 then (if w.fld 10 10 = 0x0 then .ok (.instr (.vqntC (w.fld 20 6) (w.fld 8 2) (w.fld 7 1) (w.fld 0 3))) else .error (.field .app)) else
  if w.fld 0 7 = 0x20 then (if w.fld 13 1 = 0x0 ∧ w.fld 19 1 = 0x0 then .ok (.instr (.vrand (w.fld 20 6) (w.fld 14 5) (w.fld 8 5) (w.fld 7 1))) else .error (.field .app)) else
  .error .op

/-- Words of major 0x2a (R58). -/
def decodeVperm (w : Word32) : Except DecodeError Decoded :=
  if w.fld 0 7 = 0x0 then (if w.fld 13 1 = 0x0 then .ok (.instr (.vslideup (w.fld 20 6) (w.fld 14 6) (w.fld 8 5) (w.fld 7 1))) else .error (.field .app)) else
  if w.fld 0 7 = 0x1 then (if w.fld 13 1 = 0x0 then .ok (.instr (.vslidedn (w.fld 20 6) (w.fld 14 6) (w.fld 8 5) (w.fld 7 1))) else .error (.field .app)) else
  if w.fld 0 7 = 0x2 then .ok (.instr (.vperm (w.fld 20 6) (w.fld 14 6) (w.fld 8 6) (w.fld 7 1))) else
  if w.fld 0 7 = 0x3 then .ok (.instr (.vzip (w.fld 20 6) (w.fld 14 6) (w.fld 8 6) (w.fld 7 1))) else
  if w.fld 0 7 = 0x4 then (if w.fld 8 6 = 0x0 then .ok (.instr (.vunzip (w.fld 20 6) (w.fld 14 6) (w.fld 7 1))) else .error (.field .app)) else
  if w.fld 0 7 = 0x5 then (if w.fld 8 6 = 0x0 then .ok (.instr (.vcmprs (w.fld 20 6) (w.fld 14 6) (w.fld 7 1))) else .error (.field .app)) else
  if w.fld 0 7 = 0x6 then (if w.fld 8 6 = 0x0 then .ok (.instr (.vexpand (w.fld 20 6) (w.fld 14 6) (w.fld 7 1))) else .error (.field .app)) else
  .error .op

/-- Words of major 0x2b (R59). -/
def decodeVred (w : Word32) : Except DecodeError Decoded :=
  if w.fld 0 6 = 0x0 then (if w.fld 8 6 = 0x0 ∧ w.fld 23 3 = 0x0 then .ok (.instr (.vredsum (w.fld 20 3) (w.fld 14 6) (w.fld 7 1) (w.fld 6 1))) else .error (.field .app)) else
  if w.fld 0 6 = 0x1 then (if w.fld 8 6 = 0x0 ∧ w.fld 23 3 = 0x0 then .ok (.instr (.vredmax (w.fld 20 3) (w.fld 14 6) (w.fld 7 1) (w.fld 6 1))) else .error (.field .app)) else
  if w.fld 0 6 = 0x2 then (if w.fld 8 6 = 0x0 ∧ w.fld 23 3 = 0x0 then .ok (.instr (.vredmin (w.fld 20 3) (w.fld 14 6) (w.fld 7 1) (w.fld 6 1))) else .error (.field .app)) else
  if w.fld 0 7 = 0x3 then (if w.fld 8 6 = 0x0 ∧ w.fld 23 3 = 0x0 then .ok (.instr (.vredand (w.fld 20 3) (w.fld 14 6) (w.fld 7 1))) else .error (.field .app)) else
  if w.fld 0 7 = 0x4 then (if w.fld 8 6 = 0x0 ∧ w.fld 23 3 = 0x0 then .ok (.instr (.vredor (w.fld 20 3) (w.fld 14 6) (w.fld 7 1))) else .error (.field .app)) else
  if w.fld 0 6 = 0x5 then (if w.fld 8 6 = 0x0 ∧ w.fld 23 3 = 0x0 then .ok (.instr (.vfredsum (w.fld 20 3) (w.fld 14 6) (w.fld 7 1) (w.fld 6 1))) else .error (.field .app)) else
  .error .op

/-- Words of major 0x2c (R60). -/
def decodeVmask (w : Word32) : Except DecodeError Decoded :=
  if w.fld 0 7 = 0x0 then .ok (.instr (.vmand (w.fld 20 6) (w.fld 14 6) (w.fld 8 6) (w.fld 7 1))) else
  if w.fld 0 7 = 0x1 then .ok (.instr (.vmor (w.fld 20 6) (w.fld 14 6) (w.fld 8 6) (w.fld 7 1))) else
  if w.fld 0 7 = 0x2 then .ok (.instr (.vmxor (w.fld 20 6) (w.fld 14 6) (w.fld 8 6) (w.fld 7 1))) else
  if w.fld 0 7 = 0x3 then (if w.fld 8 6 = 0x0 then .ok (.instr (.vmnot (w.fld 20 6) (w.fld 14 6) (w.fld 7 1))) else .error (.field .app)) else
  if w.fld 0 7 = 0x4 then (if w.fld 8 6 = 0x0 ∧ w.fld 23 3 = 0x0 then .ok (.instr (.vfirst (w.fld 20 3) (w.fld 14 6) (w.fld 7 1))) else .error (.field .app)) else
  if w.fld 0 7 = 0x5 then (if w.fld 8 6 = 0x0 ∧ w.fld 23 3 = 0x0 then .ok (.instr (.vcount (w.fld 20 3) (w.fld 14 6) (w.fld 7 1))) else .error (.field .app)) else
  .error .op

/-- Words of major 0x2e (R62). -/
def decodeVld (w : Word32) : Except DecodeError Decoded :=
  if w.fld 5 3 = 0x0 then (if w.fld 2 3 = 0x0 ∧ w.fld 9 6 = 0x0 then .ok (.instr (.vld (w.fld 20 6) (w.fld 15 5) (w.fld 8 1) (w.fld 0 2))) else .error (.field .app))
    else if w.fld 5 3 = 0x1 then (if w.fld 2 3 = 0x0 ∧ w.fld 14 1 = 0x0 then .ok (.instr (.vldStrided (w.fld 20 6) (w.fld 15 5) (w.fld 9 5) (w.fld 8 1) (w.fld 0 2))) else .error (.field .app))
    else if w.fld 5 3 = 0x2 then (if w.fld 2 3 = 0x0 then .ok (.instr (.vldIndexed (w.fld 20 6) (w.fld 15 5) (w.fld 9 6) (w.fld 8 1) (w.fld 0 2))) else .error (.field .app))
    else if w.fld 5 3 = 0x3 then (if w.fld 9 6 = 0x0 then .ok (.instr (.vldSeg (w.fld 20 6) (w.fld 15 5) (w.fld 8 1) (w.fld 2 3) (w.fld 0 2))) else .error (.field .app))
    else if w.fld 5 3 = 0x4 then (if w.fld 2 3 = 0x0 ∧ w.fld 9 6 = 0x0 then .ok (.instr (.vldF (w.fld 20 6) (w.fld 15 5) (w.fld 8 1) (w.fld 0 2))) else .error (.field .app))
    else if w.fld 5 3 = 0x5 then (if w.fld 9 6 = 0x0 then .ok (.instr (.vldFSeg (w.fld 20 6) (w.fld 15 5) (w.fld 8 1) (w.fld 2 3) (w.fld 0 2))) else .error (.field .app))
    else if w.fld 5 3 = 0x6 then .ok (.instr (.vldSegIndexed (w.fld 20 6) (w.fld 15 5) (w.fld 9 6) (w.fld 8 1) (w.fld 2 3) (w.fld 0 2)))
    else .error (.field .app)

/-- Words of major 0x2f (R62). -/
def decodeVst (w : Word32) : Except DecodeError Decoded :=
  if w.fld 5 3 = 0x0 then (if w.fld 2 3 = 0x0 ∧ w.fld 9 6 = 0x0 then .ok (.instr (.vst (w.fld 20 6) (w.fld 15 5) (w.fld 8 1) (w.fld 0 2))) else .error (.field .app))
    else if w.fld 5 3 = 0x1 then (if w.fld 2 3 = 0x0 ∧ w.fld 14 1 = 0x0 then .ok (.instr (.vstStrided (w.fld 20 6) (w.fld 15 5) (w.fld 9 5) (w.fld 8 1) (w.fld 0 2))) else .error (.field .app))
    else if w.fld 5 3 = 0x2 then (if w.fld 2 3 = 0x0 then .ok (.instr (.vstIndexed (w.fld 20 6) (w.fld 15 5) (w.fld 9 6) (w.fld 8 1) (w.fld 0 2))) else .error (.field .app))
    else if w.fld 5 3 = 0x3 then (if w.fld 9 6 = 0x0 then .ok (.instr (.vstSeg (w.fld 20 6) (w.fld 15 5) (w.fld 8 1) (w.fld 2 3) (w.fld 0 2))) else .error (.field .app))
    else if w.fld 5 3 = 0x4 then (if w.fld 2 3 = 0x0 ∧ w.fld 9 6 = 0x0 then .ok (.instr (.vstN (w.fld 20 6) (w.fld 15 5) (w.fld 8 1) (w.fld 0 2))) else .error (.field .app))
    else if w.fld 5 3 = 0x5 then (if w.fld 9 6 = 0x0 then .ok (.instr (.vstNSeg (w.fld 20 6) (w.fld 15 5) (w.fld 8 1) (w.fld 2 3) (w.fld 0 2))) else .error (.field .app))
    else if w.fld 5 3 = 0x6 then (if w.fld 2 3 = 0x0 then .ok (.instr (.vstNIndexed (w.fld 20 6) (w.fld 15 5) (w.fld 9 6) (w.fld 8 1) (w.fld 0 2))) else .error (.field .app))
    else .error (.field .app)

/-- Words of major 0x30 (R63, R172). -/
def decodeVsrt (w : Word32) : Except DecodeError Decoded :=
  if w.fld 0 3 = 0x7 then .error .op else
  if w.fld 3 4 = 0x0 then (if w.fld 7 1 = 0x0 ∧ w.fld 10 4 = 0x0 then .ok (.instr (.vsort (w.fld 20 6) (w.fld 14 6) (w.fld 9 1) (w.fld 8 1) (w.fld 0 3))) else .error (.field .app)) else
  if w.fld 3 4 = 0x1 then (if w.fld 7 1 = 0x0 then .ok (.instr (.vmrg (w.fld 20 6) (w.fld 14 6) (w.fld 8 6) (w.fld 0 3))) else .error (.field .app)) else
  if w.fld 3 4 = 0x2 then (if w.fld 7 1 = 0x0 ∧ w.fld 23 3 = 0x0 then .ok (.instr (.vmrgc (w.fld 20 3) (w.fld 14 6) (w.fld 8 6) (w.fld 0 3))) else .error (.field .app)) else
  if w.fld 3 4 = 0x3 then (if w.fld 7 1 = 0x0 then .ok (.instr (.visec (w.fld 20 6) (w.fld 14 6) (w.fld 8 6) (w.fld 0 3))) else .error (.field .app)) else
  if w.fld 3 4 = 0x4 then (if w.fld 7 7 = 0x0 then .ok (.instr (.vuniq (w.fld 20 6) (w.fld 14 6) (w.fld 0 3))) else .error (.field .app)) else
  if w.fld 3 4 = 0x5 then (if w.fld 7 1 = 0x0 then .ok (.instr (.vrank (w.fld 20 6) (w.fld 14 6) (w.fld 8 6) (w.fld 0 3))) else .error (.field .app)) else
  if w.fld 3 4 = 0x6 then (if w.fld 7 1 = 0x0 then .ok (.instr (.vrankLe (w.fld 20 6) (w.fld 14 6) (w.fld 8 6) (w.fld 0 3))) else .error (.field .app)) else
  if w.fld 3 4 = 0x7 then (if w.fld 7 1 = 0x0 ∧ w.fld 13 1 = 0x0 then .ok (.instr (.vpart (w.fld 20 6) (w.fld 14 6) (w.fld 8 5) (w.fld 0 3))) else .error (.field .app)) else
  if w.fld 3 4 = 0x8 then (if w.fld 7 1 = 0x0 ∧ w.fld 13 1 = 0x0 then .ok (.instr (.vtopk (w.fld 20 6) (w.fld 14 6) (w.fld 8 5) (w.fld 0 3))) else .error (.field .app)) else
  if w.fld 3 4 = 0x9 then (if w.fld 7 7 = 0x0 then .ok (.instr (.vcmpt (w.fld 20 6) (w.fld 14 6) (w.fld 0 3))) else .error (.field .app)) else
  if w.fld 3 4 = 0xa then (if w.fld 7 1 = 0x0 ∧ w.fld 9 5 = 0x0 ∧ w.fld 20 6 = 0x0 then .ok (.instr (.vchks (w.fld 14 6) (w.fld 8 1) (w.fld 0 3))) else .error (.field .app)) else
  if w.fld 0 7 = 0x58 then (if w.fld 7 7 = 0x0 ∧ w.fld 23 3 = 0x0 then .ok (.instr (.vfacet (w.fld 20 3) (w.fld 14 6))) else .error (.field .app)) else
  .error .op

/-- Words of major 0x31 (R64). -/
def decodeMopa (w : Word32) : Except DecodeError Decoded :=
  if w.fld 0 7 = 0x0 then .ok (.instr (.mopa (w.fld 24 2) (w.fld 18 6) (w.fld 12 6) (w.fld 11 1) (w.fld 7 4))) else
  if w.fld 0 7 = 0x1 then .ok (.instr (.mopaS (w.fld 24 2) (w.fld 18 6) (w.fld 12 6) (w.fld 11 1) (w.fld 7 4))) else
  if w.fld 0 7 = 0x2 then (if w.fld 17 1 = 0x0 then .ok (.instr (.mopaW (w.fld 24 2) (w.fld 18 6) (w.fld 12 5) (w.fld 11 1) (w.fld 7 4))) else .error (.field .app)) else
  if w.fld 0 7 = 0x4 then (if w.fld 11 1 = 0x0 ∧ w.fld 17 1 = 0x0 then .ok (.instr (.mopaGr (w.fld 24 2) (w.fld 18 6) (w.fld 12 5) (w.fld 7 4))) else .error (.field .app)) else
  .error .op

/-- Words of major 0x32 (R65). -/
def decodeTops (w : Word32) : Except DecodeError Decoded :=
  if w.fld 0 7 = 0x0 then (if w.fld 7 17 = 0x0 then .ok (.instr (.tzero (w.fld 24 2))) else .error (.field .app)) else
  if w.fld 0 7 = 0x1 then (if w.fld 7 5 = 0x0 ∧ w.fld 17 7 = 0x0 then .ok (.instr (.tanchor (w.fld 24 2) (w.fld 12 5))) else .error (.field .app)) else
  if w.fld 0 7 = 0x2 then (if w.fld 11 13 = 0x0 then .ok (.instr (.tres (w.fld 24 2) (w.fld 7 4))) else .error (.field .app)) else
  if w.fld 0 7 = 0x3 then (if w.fld 11 1 = 0x0 ∧ w.fld 17 1 = 0x0 then .ok (.instr (.tmovr (w.fld 24 2) (w.fld 18 6) (w.fld 12 5) (w.fld 7 4))) else .error (.field .app)) else
  if w.fld 0 7 = 0x4 then (if w.fld 11 1 = 0x0 ∧ w.fld 17 1 = 0x0 then .ok (.instr (.tmovw (w.fld 24 2) (w.fld 18 6) (w.fld 12 5) (w.fld 7 4))) else .error (.field .app)) else
  if w.fld 0 7 = 0x5 then (if w.fld 7 5 = 0x0 ∧ w.fld 17 7 = 0x0 then .ok (.instr (.tldRaw (w.fld 24 2) (w.fld 12 5))) else .error (.field .app)) else
  if w.fld 0 7 = 0x6 then (if w.fld 11 1 = 0x0 ∧ w.fld 17 7 = 0x0 then .ok (.instr (.tldCan (w.fld 24 2) (w.fld 12 5) (w.fld 7 4))) else .error (.field .app)) else
  if w.fld 0 7 = 0x7 then (if w.fld 7 5 = 0x0 ∧ w.fld 17 7 = 0x0 then .ok (.instr (.tstRaw (w.fld 24 2) (w.fld 12 5))) else .error (.field .app)) else
  if w.fld 0 7 = 0x8 then (if w.fld 11 1 = 0x0 ∧ w.fld 17 7 = 0x0 then .ok (.instr (.tstCan (w.fld 24 2) (w.fld 12 5) (w.fld 7 4))) else .error (.field .app)) else
  if w.fld 0 7 = 0x9 then (if w.fld 7 5 = 0x0 ∧ w.fld 17 7 = 0x0 then .ok (.instr (.cbld (w.fld 24 2) (w.fld 12 5))) else .error (.field .app)) else
  .error .op

/-- Words of major 0x33 (R66, R251). -/
def decodeQue (w : Word32) : Except DecodeError Decoded :=
  if w.fld 5 7 = 0x0 then (if w.fld 0 5 = 0x0 ∧ w.fld 12 4 = 0x0 ∧ w.fld 21 1 = 0x0 then .ok (.instr (.qpush (w.fld 22 4) (w.fld 16 5))) else .error (.field .app)) else
  if w.fld 5 7 = 0x1 then (if w.fld 0 5 = 0x0 ∧ w.fld 12 4 = 0x0 ∧ w.fld 21 1 = 0x0 then .ok (.instr (.qpop (w.fld 22 4) (w.fld 16 5))) else .error (.field .app)) else
  if w.fld 5 7 = 0x2 then (if w.fld 0 5 = 0x0 ∧ w.fld 16 6 = 0x0 then .ok (.instr (.qstat (w.fld 22 4) (w.fld 12 4))) else .error (.field .app)) else
  if w.fld 5 7 = 0x3 then (if w.fld 16 6 = 0x0 then (if w.fld 22 4 ≠ 0x0 ∧ (w.fld 12 4).toNat < 8 then .error .queue else .ok (.instr (.copy (w.fld 12 4) (w.fld 0 5)))) else .error (.field .app)) else
  if w.fld 5 7 = 0x4 then (if w.fld 21 1 = 0x1 then (if w.fld 22 4 ≠ 0x0 ∧ (w.fld 12 4).toNat < 8 then .error .queue else .ok (.instr (.vgthr (w.fld 16 5) (w.fld 12 4) (w.fld 0 5)))) else .error (.field .app)) else
  if w.fld 5 7 = 0x5 then (if w.fld 0 5 = 0x0 ∧ w.fld 16 6 = 0x0 then (if w.fld 22 4 ≠ 0x0 ∧ (w.fld 12 4).toNat < 8 then .error .queue else .ok (.instr (.drain (w.fld 12 4)))) else .error (.field .app)) else
  .error .op

/-- Words of major 0x34 (R67). -/
def decodeSync (w : Word32) : Except DecodeError Decoded :=
  if w.fld 20 6 = 0x0 then (if w.fld 5 15 = 0x0 then .ok (.instr (.fence (w.fld 2 3) (w.fld 0 2))) else .error (.field .app)) else
  if w.fld 20 6 = 0x1 then (if w.fld 0 20 = 0x0 then .ok (.instr .vlsync) else .error (.field .app)) else
  if w.fld 20 6 = 0x2 then (if w.fld 0 20 = 0x0 then .ok (.instr .vfenceD) else .error (.field .app)) else
  if w.fld 20 6 = 0x3 then (if w.fld 1 9 = 0x0 then .ok (.late (.waitge (w.fld 15 5) (w.fld 10 5) (w.fld 0 1))) else .error (.field .app)) else
  if w.fld 20 6 = 0x4 then (if w.fld 1 9 = 0x0 then .ok (.late (.waiteq (w.fld 15 5) (w.fld 10 5) (w.fld 0 1))) else .error (.field .app)) else
  .error .op

/-- Words of major 0x35 (R68, R329). -/
def decodeSched (w : Word32) : Except DecodeError Decoded :=
  if w.fld 20 6 = 0x0 then
    (if w.fld 0 5 = 0x0 then (if w.fld 10 5 = 0x0 then .ok (.late (.launch (w.fld 15 5) (w.fld 5 5))) else .error (.field .sup))
    else if w.fld 0 5 = 0x1 then .ok (.late (.launchNode (w.fld 15 5) (w.fld 10 5) (w.fld 5 5)))
    else .error (.field .app))
  else
  if w.fld 20 6 = 0x1 then
    (if w.fld 0 5 = 0x0 then (if w.fld 10 5 = 0x0 then .ok (.late (.cancel (w.fld 15 5) (w.fld 5 5))) else .error (.field .sup))
    else .error (.field .app))
  else
  if w.fld 20 6 = 0x2 then
    (if w.fld 0 5 = 0x0 then (if w.fld 10 5 = 0x0 then .ok (.late (.cread (w.fld 15 5) (w.fld 5 5))) else .error (.field .app))
    else if w.fld 0 5 = 0x1 then (if w.fld 10 5 = 0x0 then .ok (.late (.creadT (w.fld 15 5) (w.fld 5 5))) else .error (.field .app))
    else .error (.field .app))
  else
  if w.fld 20 6 = 0x3 then
    (if w.fld 0 5 = 0x0 then (if w.fld 5 15 = 0x0 then .ok (.instr .uend) else .error (.field .app))
    else .error (.field .app))
  else
  if w.fld 20 6 = 0x4 then
    (if w.fld 0 5 = 0x0 then (if w.fld 5 15 = 0x0 then .ok (.instr .yield) else .error (.field .app))
    else .error (.field .app))
  else
  if w.fld 20 6 = 0x5 then
    (if w.fld 0 5 = 0x0 then (if w.fld 10 5 = 0x0 then .ok (.late (.clasp (w.fld 15 5) (w.fld 5 5))) else .error (.field .app))
    else if w.fld 0 5 = 0x1 then .ok (.late (.claspCfg (w.fld 15 5) (w.fld 10 5) (w.fld 5 5)))
    else .error (.field .app))
  else
  if w.fld 20 6 = 0x6 then
    (if w.fld 0 5 = 0x0 then (if w.fld 8 7 = 0x0 then .ok (.late (.clarr (w.fld 15 5) (w.fld 5 3))) else .error (.field .app))
    else .error (.field .app))
  else
  if w.fld 20 6 = 0x7 then
    (if w.fld 0 5 = 0x0 then (if w.fld 5 5 = 0x0 then .ok (.late (.clwait (w.fld 15 5) (w.fld 10 5))) else .error (.field .app))
    else .error (.field .app))
  else
  if w.fld 20 6 = 0x8 then
    (if w.fld 0 5 = 0x0 then .ok (.late (.grant (w.fld 15 5) (w.fld 10 5) (w.fld 5 5)))
    else .error (.field .app))
  else
  .error .op

/-- Words of major 0x36 (R69, R396). -/
def decodeSys (w : Word32) : Except DecodeError Decoded :=
  if w.fld 0 4 = 0x0 then (if w.fld 16 5 = 0x0 then .ok (.instr (.csrr (w.fld 21 5) (w.fld 4 12))) else .error (.field (csrReadLevel (w.fld 4 12)))) else
  if w.fld 0 4 = 0x1 then (if w.fld 21 5 = 0x0 then .ok (.instr (.csrw (w.fld 16 5) (w.fld 4 12))) else .error (.field (csrWriteLevel (w.fld 4 12)))) else
  if w.fld 0 4 = 0x2 then (if w.fld 21 5 = 0x0 then .ok (.instr (.csrs (w.fld 16 5) (w.fld 4 12))) else .error (.field (csrWriteLevel (w.fld 4 12)))) else
  if w.fld 0 4 = 0x3 then (if w.fld 21 5 = 0x0 then .ok (.instr (.csrc (w.fld 16 5) (w.fld 4 12))) else .error (.field (csrWriteLevel (w.fld 4 12)))) else
  if w.fld 0 4 = 0x4 then (if w.fld 4 22 = 0x0 then .ok (.instr .ecall) else .error (.field .app)) else
  if w.fld 0 4 = 0x5 then (if w.fld 4 22 = 0x0 then .ok (.instr .ebrk) else .error (.field .app)) else
  if w.fld 0 4 = 0x6 then (if w.fld 4 22 = 0x0 then .ok (.instr .eret) else .error (.field .sup)) else
  if w.fld 0 4 = 0x7 then (if w.fld 4 12 = 0x0 ∧ w.fld 21 5 = 0x0 then .ok (.late (.ctxsave (w.fld 16 5))) else .error (.field .sup)) else
  if w.fld 0 4 = 0x8 then (if w.fld 4 12 = 0x0 ∧ w.fld 21 5 = 0x0 then .ok (.late (.ctxrst (w.fld 16 5))) else .error (.field .sup)) else
  if w.fld 0 4 = 0x9 then (if w.fld 4 12 = 0x0 then .ok (.late (.tlbinv (w.fld 21 5) (w.fld 16 5))) else .error (.field .sup)) else
  if w.fld 0 4 = 0xa then (if w.fld 4 12 = 0x0 then .ok (.late (.placew (w.fld 21 5) (w.fld 16 5))) else .error (.field .hyp)) else
  if w.fld 0 4 = 0xb then (if w.fld 10 6 = 0x0 ∧ w.fld 21 5 = 0x0 then .ok (.late (.vfset (w.fld 16 5) (w.fld 4 6))) else .error (.field .sup)) else
  if w.fld 0 4 = 0xc then (if w.fld 4 22 = 0x0 then .ok (.instr .snap) else .error (.field .sup)) else
  if w.fld 0 4 = 0xd then (if w.fld 4 22 = 0x0 then .ok (.instr .wfi) else .error (.field .sup)) else
  .error .op

/-- The instruction that a word's fields give, before the register and field constraints of `Instr.wellFormed` (R46).
Majors 0x00 and 0x37 to 0x3E are no instruction (R44). -/
def decodeFields (w : Word32) : Except DecodeError Decoded :=
  if w.fld 26 6 = 0x1 then decodeAlu w else
  if w.fld 26 6 = 0x2 then .ok (.instr (.addi (w.fld 21 5) (w.fld 16 5) (w.fld 0 16))) else
  if w.fld 26 6 = 0x3 then .ok (.instr (.andi (w.fld 21 5) (w.fld 16 5) (w.fld 0 16))) else
  if w.fld 26 6 = 0x4 then .ok (.instr (.ori (w.fld 21 5) (w.fld 16 5) (w.fld 0 16))) else
  if w.fld 26 6 = 0x5 then .ok (.instr (.xori (w.fld 21 5) (w.fld 16 5) (w.fld 0 16))) else
  if w.fld 26 6 = 0x6 then .ok (.instr (.slti (w.fld 21 5) (w.fld 16 5) (w.fld 0 16))) else
  if w.fld 26 6 = 0x7 then .ok (.instr (.sltiu (w.fld 21 5) (w.fld 16 5) (w.fld 0 16))) else
  if w.fld 26 6 = 0x8 then decodeShi w else
  if w.fld 26 6 = 0x9 then .ok (.instr (.lui (w.fld 21 5) (w.fld 0 21))) else
  if w.fld 26 6 = 0xa then .ok (.instr (.auipc (w.fld 21 5) (w.fld 0 21))) else
  if w.fld 26 6 = 0xb then .ok (.instr (.lb (w.fld 21 5) (w.fld 16 5) (w.fld 0 16))) else
  if w.fld 26 6 = 0xc then .ok (.instr (.lbu (w.fld 21 5) (w.fld 16 5) (w.fld 0 16))) else
  if w.fld 26 6 = 0xd then .ok (.instr (.lh (w.fld 21 5) (w.fld 16 5) (w.fld 0 16))) else
  if w.fld 26 6 = 0xe then .ok (.instr (.lhu (w.fld 21 5) (w.fld 16 5) (w.fld 0 16))) else
  if w.fld 26 6 = 0xf then .ok (.instr (.lw (w.fld 21 5) (w.fld 16 5) (w.fld 0 16))) else
  if w.fld 26 6 = 0x10 then .ok (.instr (.lwu (w.fld 21 5) (w.fld 16 5) (w.fld 0 16))) else
  if w.fld 26 6 = 0x11 then .ok (.instr (.ld (w.fld 21 5) (w.fld 16 5) (w.fld 0 16))) else
  if w.fld 26 6 = 0x12 then .ok (.instr (.sb (w.fld 21 5) (w.fld 16 5) (w.fld 0 16))) else
  if w.fld 26 6 = 0x13 then .ok (.instr (.sh (w.fld 21 5) (w.fld 16 5) (w.fld 0 16))) else
  if w.fld 26 6 = 0x14 then .ok (.instr (.sw (w.fld 21 5) (w.fld 16 5) (w.fld 0 16))) else
  if w.fld 26 6 = 0x15 then .ok (.instr (.sd (w.fld 21 5) (w.fld 16 5) (w.fld 0 16))) else
  if w.fld 26 6 = 0x16 then decodeAmo w else
  if w.fld 26 6 = 0x17 then .ok (.instr (.beq (w.fld 21 5) (w.fld 16 5) (w.fld 0 16))) else
  if w.fld 26 6 = 0x18 then .ok (.instr (.bne (w.fld 21 5) (w.fld 16 5) (w.fld 0 16))) else
  if w.fld 26 6 = 0x19 then .ok (.instr (.blt (w.fld 21 5) (w.fld 16 5) (w.fld 0 16))) else
  if w.fld 26 6 = 0x1a then .ok (.instr (.bge (w.fld 21 5) (w.fld 16 5) (w.fld 0 16))) else
  if w.fld 26 6 = 0x1b then .ok (.instr (.bltu (w.fld 21 5) (w.fld 16 5) (w.fld 0 16))) else
  if w.fld 26 6 = 0x1c then .ok (.instr (.bgeu (w.fld 21 5) (w.fld 16 5) (w.fld 0 16))) else
  if w.fld 26 6 = 0x1d then .ok (.instr (.jal (w.fld 21 5) (w.fld 0 21))) else
  if w.fld 26 6 = 0x1e then .ok (.instr (.jalr (w.fld 21 5) (w.fld 16 5) (w.fld 0 16))) else
  if w.fld 26 6 = 0x1f then if w.fld 0 16 = 0x0 then .ok (.instr (.loop (w.fld 21 5) (w.fld 16 5))) else .error (.field .app) else
  if w.fld 26 6 = 0x20 then if w.fld 0 16 = 0x0 then .ok (.instr (.nest (w.fld 21 5) (w.fld 16 5))) else .error (.field .app) else
  if w.fld 26 6 = 0x21 then decodeFlt w else
  if w.fld 26 6 = 0x22 then decodeLend w else
  if w.fld 26 6 = 0x23 then decodeVcfg w else
  if w.fld 26 6 = 0x24 then decodeVint w else
  if w.fld 26 6 = 0x25 then decodeVints w else
  if w.fld 26 6 = 0x26 then decodeVflt w else
  if w.fld 26 6 = 0x27 then decodeVflts w else
  if w.fld 26 6 = 0x28 then decodeVfix w else
  if w.fld 26 6 = 0x29 then decodeVcvt w else
  if w.fld 26 6 = 0x2a then decodeVperm w else
  if w.fld 26 6 = 0x2b then decodeVred w else
  if w.fld 26 6 = 0x2c then decodeVmask w else
  if w.fld 26 6 = 0x2d then .ok (.instr (.vidx (w.fld 20 6) (w.fld 10 10) (w.fld 0 10))) else
  if w.fld 26 6 = 0x2e then decodeVld w else
  if w.fld 26 6 = 0x2f then decodeVst w else
  if w.fld 26 6 = 0x30 then decodeVsrt w else
  if w.fld 26 6 = 0x31 then decodeMopa w else
  if w.fld 26 6 = 0x32 then decodeTops w else
  if w.fld 26 6 = 0x33 then decodeQue w else
  if w.fld 26 6 = 0x34 then decodeSync w else
  if w.fld 26 6 = 0x35 then decodeSched w else
  if w.fld 26 6 = 0x36 then decodeSys w else
  if w.fld 26 6 = 0x3f then .ok (.late (.hint (w.fld 0 26))) else
  .error .op

/-- The field and register constraints of a decoded form (R42); of the late forms only clasp has one beyond its zero fields. -/
def Decoded.check : Decoded → Except DecodeError Decoded
  | .instr i => if i.wellFormed then .ok (.instr i) else .error (.field i.lowestLevel)
  | .late (.clasp a d) => if d ≠ 0 then .ok (.late (.clasp a d)) else .error (.field .app)
  | .late l => .ok (.late l)

/-- The form of a word, or why it is none, in the order of R43: unassigned functions first, then the field and register
constraints, which a privilege level below the form's own turns into PRIV. -/
def decodeWord (w : Word32) : Except DecodeError Decoded :=
  match decodeFields w with
  | .error e => .error e
  | .ok d => d.check

/-- The instruction of a word, or why it is none (R43). -/
noncomputable def decode (w : Word32) : Except DecodeError Instr :=
  match decodeWord w with
  | .error e => .error e
  | .ok d => .ok d.toInstr

/-- What the decoder reads from an instruction of the table's bit numbering: every instruction is one 32-bit word (R38), so bits
above 31 belong to no instruction. -/
noncomputable def decodeTableWord (nbits w : Nat) : Option Instr :=
  if nbits = 32 then
    match decode (BitVec.ofNat 32 w) with
    | .ok i => some i
    | .error _ => none
  else none

/-- A word from its fixed fields and, for each operand field, its lowest bit and its value (R39): each value is shifted to its place
and the results are added. -/
def placed (fixed : Nat) (fs : List (Nat × Nat)) : Word32 :=
  BitVec.ofNat 32 (fs.foldl (fun acc f => acc + f.2 * 2 ^ f.1) fixed)

/-- The word of an instruction (R39): each field shifted to its place, and the results added. An event has no word (0). -/
def encode : Instr → Word32
  | .add d a b => placed 0x04000000 [(21, d.toNat), (16, a.toNat), (11, b.toNat)]
  | .sub d a b => placed 0x04000001 [(21, d.toNat), (16, a.toNat), (11, b.toNat)]
  | .and d a b => placed 0x04000002 [(21, d.toNat), (16, a.toNat), (11, b.toNat)]
  | .or d a b => placed 0x04000003 [(21, d.toNat), (16, a.toNat), (11, b.toNat)]
  | .xor d a b => placed 0x04000004 [(21, d.toNat), (16, a.toNat), (11, b.toNat)]
  | .sll d a b => placed 0x04000005 [(21, d.toNat), (16, a.toNat), (11, b.toNat)]
  | .srl d a b => placed 0x04000006 [(21, d.toNat), (16, a.toNat), (11, b.toNat)]
  | .sra d a b => placed 0x04000007 [(21, d.toNat), (16, a.toNat), (11, b.toNat)]
  | .slt d a b => placed 0x04000008 [(21, d.toNat), (16, a.toNat), (11, b.toNat)]
  | .sltu d a b => placed 0x04000009 [(21, d.toNat), (16, a.toNat), (11, b.toNat)]
  | .mul d a b => placed 0x0400000a [(21, d.toNat), (16, a.toNat), (11, b.toNat)]
  | .mulh d a b => placed 0x0400000b [(21, d.toNat), (16, a.toNat), (11, b.toNat)]
  | .mulhu d a b => placed 0x0400000c [(21, d.toNat), (16, a.toNat), (11, b.toNat)]
  | .div d a b => placed 0x0400000d [(21, d.toNat), (16, a.toNat), (11, b.toNat)]
  | .divu d a b => placed 0x0400000e [(21, d.toNat), (16, a.toNat), (11, b.toNat)]
  | .rem d a b => placed 0x0400000f [(21, d.toNat), (16, a.toNat), (11, b.toNat)]
  | .remu d a b => placed 0x04000010 [(21, d.toNat), (16, a.toNat), (11, b.toNat)]
  | .min d a b => placed 0x04000011 [(21, d.toNat), (16, a.toNat), (11, b.toNat)]
  | .max d a b => placed 0x04000012 [(21, d.toNat), (16, a.toNat), (11, b.toNat)]
  | .minu d a b => placed 0x04000013 [(21, d.toNat), (16, a.toNat), (11, b.toNat)]
  | .maxu d a b => placed 0x04000014 [(21, d.toNat), (16, a.toNat), (11, b.toNat)]
  | .clz d a => placed 0x04000015 [(21, d.toNat), (16, a.toNat)]
  | .ctz d a => placed 0x04000016 [(21, d.toNat), (16, a.toNat)]
  | .popc d a => placed 0x04000017 [(21, d.toNat), (16, a.toNat)]
  | .rev8 d a => placed 0x04000018 [(21, d.toNat), (16, a.toNat)]
  | .sextB d a => placed 0x04000019 [(21, d.toNat), (16, a.toNat)]
  | .sextH d a => placed 0x0400001a [(21, d.toNat), (16, a.toNat)]
  | .sextW d a => placed 0x0400001b [(21, d.toNat), (16, a.toNat)]
  | .addi d a i => placed 0x08000000 [(21, d.toNat), (16, a.toNat), (0, i.toNat)]
  | .andi d a i => placed 0x0c000000 [(21, d.toNat), (16, a.toNat), (0, i.toNat)]
  | .ori d a i => placed 0x10000000 [(21, d.toNat), (16, a.toNat), (0, i.toNat)]
  | .xori d a i => placed 0x14000000 [(21, d.toNat), (16, a.toNat), (0, i.toNat)]
  | .slti d a i => placed 0x18000000 [(21, d.toNat), (16, a.toNat), (0, i.toNat)]
  | .sltiu d a i => placed 0x1c000000 [(21, d.toNat), (16, a.toNat), (0, i.toNat)]
  | .slli d a n => placed 0x20000000 [(21, d.toNat), (16, a.toNat), (0, n.toNat)]
  | .srli d a n => placed 0x20000040 [(21, d.toNat), (16, a.toNat), (0, n.toNat)]
  | .srai d a n => placed 0x20000080 [(21, d.toNat), (16, a.toNat), (0, n.toNat)]
  | .lui d i => placed 0x24000000 [(21, d.toNat), (0, i.toNat)]
  | .auipc d i => placed 0x28000000 [(21, d.toNat), (0, i.toNat)]
  | .lb d a i => placed 0x2c000000 [(21, d.toNat), (16, a.toNat), (0, i.toNat)]
  | .lbu d a i => placed 0x30000000 [(21, d.toNat), (16, a.toNat), (0, i.toNat)]
  | .lh d a i => placed 0x34000000 [(21, d.toNat), (16, a.toNat), (0, i.toNat)]
  | .lhu d a i => placed 0x38000000 [(21, d.toNat), (16, a.toNat), (0, i.toNat)]
  | .lw d a i => placed 0x3c000000 [(21, d.toNat), (16, a.toNat), (0, i.toNat)]
  | .lwu d a i => placed 0x40000000 [(21, d.toNat), (16, a.toNat), (0, i.toNat)]
  | .ld d a i => placed 0x44000000 [(21, d.toNat), (16, a.toNat), (0, i.toNat)]
  | .sb s a i => placed 0x48000000 [(21, s.toNat), (16, a.toNat), (0, i.toNat)]
  | .sh s a i => placed 0x4c000000 [(21, s.toNat), (16, a.toNat), (0, i.toNat)]
  | .sw s a i => placed 0x50000000 [(21, s.toNat), (16, a.toNat), (0, i.toNat)]
  | .sd s a i => placed 0x54000000 [(21, s.toNat), (16, a.toNat), (0, i.toNat)]
  | .amoAdd d a b o s w => placed 0x58000000 [(21, d.toNat), (16, a.toNat), (11, b.toNat), (5, o.toNat), (2, s.toNat), (0, w.toNat)]
  | .amoAnd d a b o s w => placed 0x58000080 [(21, d.toNat), (16, a.toNat), (11, b.toNat), (5, o.toNat), (2, s.toNat), (0, w.toNat)]
  | .amoOr d a b o s w => placed 0x58000100 [(21, d.toNat), (16, a.toNat), (11, b.toNat), (5, o.toNat), (2, s.toNat), (0, w.toNat)]
  | .amoXor d a b o s w => placed 0x58000180 [(21, d.toNat), (16, a.toNat), (11, b.toNat), (5, o.toNat), (2, s.toNat), (0, w.toNat)]
  | .amoMin d a b o s w => placed 0x58000200 [(21, d.toNat), (16, a.toNat), (11, b.toNat), (5, o.toNat), (2, s.toNat), (0, w.toNat)]
  | .amoMax d a b o s w => placed 0x58000280 [(21, d.toNat), (16, a.toNat), (11, b.toNat), (5, o.toNat), (2, s.toNat), (0, w.toNat)]
  | .amoMinu d a b o s w => placed 0x58000300 [(21, d.toNat), (16, a.toNat), (11, b.toNat), (5, o.toNat), (2, s.toNat), (0, w.toNat)]
  | .amoMaxu d a b o s w => placed 0x58000380 [(21, d.toNat), (16, a.toNat), (11, b.toNat), (5, o.toNat), (2, s.toNat), (0, w.toNat)]
  | .amoSwap d a b o s w => placed 0x58000400 [(21, d.toNat), (16, a.toNat), (11, b.toNat), (5, o.toNat), (2, s.toNat), (0, w.toNat)]
  | .amoCas d a b o s w => placed 0x58000480 [(21, d.toNat), (16, a.toNat), (11, b.toNat), (5, o.toNat), (2, s.toNat), (0, w.toNat)]
  | .beq a b i => placed 0x5c000000 [(21, a.toNat), (16, b.toNat), (0, i.toNat)]
  | .bne a b i => placed 0x60000000 [(21, a.toNat), (16, b.toNat), (0, i.toNat)]
  | .blt a b i => placed 0x64000000 [(21, a.toNat), (16, b.toNat), (0, i.toNat)]
  | .bge a b i => placed 0x68000000 [(21, a.toNat), (16, b.toNat), (0, i.toNat)]
  | .bltu a b i => placed 0x6c000000 [(21, a.toNat), (16, b.toNat), (0, i.toNat)]
  | .bgeu a b i => placed 0x70000000 [(21, a.toNat), (16, b.toNat), (0, i.toNat)]
  | .jal d i => placed 0x74000000 [(21, d.toNat), (0, i.toNat)]
  | .jalr d a i => placed 0x78000000 [(21, d.toNat), (16, a.toNat), (0, i.toNat)]
  | .loop a l => placed 0x7c000000 [(21, a.toNat), (16, l.toNat)]
  | .nest a l => placed 0x80000000 [(21, a.toNat), (16, l.toNat)]
  | .fadd d a b t => placed 0x84000000 [(21, d.toNat), (16, a.toNat), (11, b.toNat), (4, t.toNat)]
  | .fsub d a b t => placed 0x84000040 [(21, d.toNat), (16, a.toNat), (11, b.toNat), (4, t.toNat)]
  | .fmul d a b t => placed 0x84000080 [(21, d.toNat), (16, a.toNat), (11, b.toNat), (4, t.toNat)]
  | .fdiv d a b t => placed 0x840000c0 [(21, d.toNat), (16, a.toNat), (11, b.toNat), (4, t.toNat)]
  | .fsqrt d a t => placed 0x84000100 [(21, d.toNat), (16, a.toNat), (4, t.toNat)]
  | .fmin d a b t => placed 0x84000140 [(21, d.toNat), (16, a.toNat), (11, b.toNat), (4, t.toNat)]
  | .fmax d a b t => placed 0x84000180 [(21, d.toNat), (16, a.toNat), (11, b.toNat), (4, t.toNat)]
  | .feq d a b t => placed 0x840001c0 [(21, d.toNat), (16, a.toNat), (11, b.toNat), (4, t.toNat)]
  | .flt d a b t => placed 0x84000200 [(21, d.toNat), (16, a.toNat), (11, b.toNat), (4, t.toNat)]
  | .fle d a b t => placed 0x84000240 [(21, d.toNat), (16, a.toNat), (11, b.toNat), (4, t.toNat)]
  | .fcvt d a t v => placed 0x84000280 [(21, d.toNat), (16, a.toNat), (4, t.toNat), (0, v.toNat)]
  | .fclass d a t => placed 0x840002c0 [(21, d.toNat), (16, a.toNat), (4, t.toNat)]
  | .fsgnj d a b t => placed 0x84000300 [(21, d.toNat), (16, a.toNat), (11, b.toNat), (4, t.toNat)]
  | .fsgnjn d a b t => placed 0x84000301 [(21, d.toNat), (16, a.toNat), (11, b.toNat), (4, t.toNat)]
  | .fsgnjx d a b t => placed 0x84000302 [(21, d.toNat), (16, a.toNat), (11, b.toNat), (4, t.toNat)]
  | .lend n k p c e => placed 0x88000000 [(25, n.toNat), (24, k.toNat), (19, p.toNat), (13, c.toNat), (12, e.toNat)]
  | .vsetvl d a s e => placed 0x8c000000 [(21, d.toNat), (16, a.toNat), (6, s.toNat), (4, e.toNat)]
  | .vgetvl q => placed 0x8c000001 [(21, q.toNat)]
  | .vadd d a b m => placed 0x90000000 [(20, d.toNat), (14, a.toNat), (8, b.toNat), (7, m.toNat)]
  | .vsub d a b m => placed 0x90000001 [(20, d.toNat), (14, a.toNat), (8, b.toNat), (7, m.toNat)]
  | .vmul d a b m => placed 0x90000002 [(20, d.toNat), (14, a.toNat), (8, b.toNat), (7, m.toNat)]
  | .vmulh d a b m u => placed 0x90000003 [(20, d.toNat), (14, a.toNat), (8, b.toNat), (7, m.toNat), (6, u.toNat)]
  | .vdiv d a b m u => placed 0x90000004 [(20, d.toNat), (14, a.toNat), (8, b.toNat), (7, m.toNat), (6, u.toNat)]
  | .vrem d a b m u => placed 0x90000005 [(20, d.toNat), (14, a.toNat), (8, b.toNat), (7, m.toNat), (6, u.toNat)]
  | .vmin d a b m u => placed 0x90000006 [(20, d.toNat), (14, a.toNat), (8, b.toNat), (7, m.toNat), (6, u.toNat)]
  | .vmax d a b m u => placed 0x90000007 [(20, d.toNat), (14, a.toNat), (8, b.toNat), (7, m.toNat), (6, u.toNat)]
  | .vand d a b m => placed 0x90000008 [(20, d.toNat), (14, a.toNat), (8, b.toNat), (7, m.toNat)]
  | .vor d a b m => placed 0x90000009 [(20, d.toNat), (14, a.toNat), (8, b.toNat), (7, m.toNat)]
  | .vxor d a b m => placed 0x9000000a [(20, d.toNat), (14, a.toNat), (8, b.toNat), (7, m.toNat)]
  | .vsll d a b m => placed 0x9000000b [(20, d.toNat), (14, a.toNat), (8, b.toNat), (7, m.toNat)]
  | .vsrl d a b m => placed 0x9000000c [(20, d.toNat), (14, a.toNat), (8, b.toNat), (7, m.toNat)]
  | .vsra d a b m => placed 0x9000000d [(20, d.toNat), (14, a.toNat), (8, b.toNat), (7, m.toNat)]
  | .vseq d a b m => placed 0x9000000e [(20, d.toNat), (14, a.toNat), (8, b.toNat), (7, m.toNat)]
  | .vsne d a b m => placed 0x9000000f [(20, d.toNat), (14, a.toNat), (8, b.toNat), (7, m.toNat)]
  | .vslt d a b m u => placed 0x90000010 [(20, d.toNat), (14, a.toNat), (8, b.toNat), (7, m.toNat), (6, u.toNat)]
  | .vsle d a b m u => placed 0x90000011 [(20, d.toNat), (14, a.toNat), (8, b.toNat), (7, m.toNat), (6, u.toNat)]
  | .vsel d a b => placed 0x90000012 [(20, d.toNat), (14, a.toNat), (8, b.toNat)]
  | .vmv d a m => placed 0x90000013 [(20, d.toNat), (14, a.toNat), (7, m.toNat)]
  | .vpopc d a m => placed 0x90000014 [(20, d.toNat), (14, a.toNat), (7, m.toNat)]
  | .vxorpop d a b m => placed 0x90000015 [(20, d.toNat), (14, a.toNat), (8, b.toNat), (7, m.toNat)]
  | .vclz d a m => placed 0x90000016 [(20, d.toNat), (14, a.toNat), (7, m.toNat)]
  | .vrecAdd d a m => placed 0x90000018 [(20, d.toNat), (14, a.toNat), (7, m.toNat)]
  | .vrecMax d a m u => placed 0x90000019 [(20, d.toNat), (14, a.toNat), (7, m.toNat), (6, u.toNat)]
  | .vrecLin d a b m => placed 0x9000001a [(20, d.toNat), (14, a.toNat), (8, b.toNat), (7, m.toNat)]
  | .vaddVx d a b m => placed 0x94000000 [(20, d.toNat), (14, a.toNat), (9, b.toNat), (8, m.toNat)]
  | .vsubVx d a b m => placed 0x94000001 [(20, d.toNat), (14, a.toNat), (9, b.toNat), (8, m.toNat)]
  | .vmulVx d a b m => placed 0x94000002 [(20, d.toNat), (14, a.toNat), (9, b.toNat), (8, m.toNat)]
  | .vmulhVx d a b m u => placed 0x94000003 [(20, d.toNat), (14, a.toNat), (9, b.toNat), (8, m.toNat), (6, u.toNat)]
  | .vdivVx d a b m u => placed 0x94000004 [(20, d.toNat), (14, a.toNat), (9, b.toNat), (8, m.toNat), (6, u.toNat)]
  | .vremVx d a b m u => placed 0x94000005 [(20, d.toNat), (14, a.toNat), (9, b.toNat), (8, m.toNat), (6, u.toNat)]
  | .vminVx d a b m u => placed 0x94000006 [(20, d.toNat), (14, a.toNat), (9, b.toNat), (8, m.toNat), (6, u.toNat)]
  | .vmaxVx d a b m u => placed 0x94000007 [(20, d.toNat), (14, a.toNat), (9, b.toNat), (8, m.toNat), (6, u.toNat)]
  | .vandVx d a b m => placed 0x94000008 [(20, d.toNat), (14, a.toNat), (9, b.toNat), (8, m.toNat)]
  | .vorVx d a b m => placed 0x94000009 [(20, d.toNat), (14, a.toNat), (9, b.toNat), (8, m.toNat)]
  | .vxorVx d a b m => placed 0x9400000a [(20, d.toNat), (14, a.toNat), (9, b.toNat), (8, m.toNat)]
  | .vsllVx d a b m => placed 0x9400000b [(20, d.toNat), (14, a.toNat), (9, b.toNat), (8, m.toNat)]
  | .vsrlVx d a b m => placed 0x9400000c [(20, d.toNat), (14, a.toNat), (9, b.toNat), (8, m.toNat)]
  | .vsraVx d a b m => placed 0x9400000d [(20, d.toNat), (14, a.toNat), (9, b.toNat), (8, m.toNat)]
  | .vseqVx d a b m => placed 0x9400000e [(20, d.toNat), (14, a.toNat), (9, b.toNat), (8, m.toNat)]
  | .vsneVx d a b m => placed 0x9400000f [(20, d.toNat), (14, a.toNat), (9, b.toNat), (8, m.toNat)]
  | .vsltVx d a b m u => placed 0x94000010 [(20, d.toNat), (14, a.toNat), (9, b.toNat), (8, m.toNat), (6, u.toNat)]
  | .vsleVx d a b m u => placed 0x94000011 [(20, d.toNat), (14, a.toNat), (9, b.toNat), (8, m.toNat), (6, u.toNat)]
  | .vbcast d b m => placed 0x94000013 [(20, d.toNat), (9, b.toNat), (8, m.toNat)]
  | .vclset b => placed 0x9400001b [(9, b.toNat)]
  | .vidxs d b m => placed 0x9400001c [(20, d.toNat), (9, b.toNat), (8, m.toNat)]
  | .vfadd d a b m k => placed 0x98000000 [(20, d.toNat), (14, a.toNat), (8, b.toNat), (7, m.toNat), (6, k.toNat)]
  | .vfsub d a b m k => placed 0x98000001 [(20, d.toNat), (14, a.toNat), (8, b.toNat), (7, m.toNat), (6, k.toNat)]
  | .vfmul d a b m k => placed 0x98000002 [(20, d.toNat), (14, a.toNat), (8, b.toNat), (7, m.toNat), (6, k.toNat)]
  | .vfdiv d a b m k => placed 0x98000003 [(20, d.toNat), (14, a.toNat), (8, b.toNat), (7, m.toNat), (6, k.toNat)]
  | .vfsqrt d a m k => placed 0x98000004 [(20, d.toNat), (14, a.toNat), (7, m.toNat), (6, k.toNat)]
  | .vfmadd d a b m k => placed 0x98000005 [(20, d.toNat), (14, a.toNat), (8, b.toNat), (7, m.toNat), (6, k.toNat)]
  | .vfmin d a b m k => placed 0x98000006 [(20, d.toNat), (14, a.toNat), (8, b.toNat), (7, m.toNat), (6, k.toNat)]
  | .vfmax d a b m k => placed 0x98000007 [(20, d.toNat), (14, a.toNat), (8, b.toNat), (7, m.toNat), (6, k.toNat)]
  | .vfeq d a b m k => placed 0x98000008 [(20, d.toNat), (14, a.toNat), (8, b.toNat), (7, m.toNat), (6, k.toNat)]
  | .vflt d a b m k => placed 0x98000009 [(20, d.toNat), (14, a.toNat), (8, b.toNat), (7, m.toNat), (6, k.toNat)]
  | .vfle d a b m k => placed 0x9800000a [(20, d.toNat), (14, a.toNat), (8, b.toNat), (7, m.toNat), (6, k.toNat)]
  | .vfexp2 d a m k => placed 0x9800000b [(20, d.toNat), (14, a.toNat), (7, m.toNat), (6, k.toNat)]
  | .vfcvt d a c m => placed 0x9800000c [(20, d.toNat), (14, a.toNat), (8, c.toNat), (7, m.toNat)]
  | .vfclass d a m k => placed 0x9800000d [(20, d.toNat), (14, a.toNat), (7, m.toNat), (6, k.toNat)]
  | .vfaddVf d a b m k => placed 0x9c000000 [(20, d.toNat), (14, a.toNat), (9, b.toNat), (8, m.toNat), (6, k.toNat)]
  | .vfsubVf d a b m k => placed 0x9c000001 [(20, d.toNat), (14, a.toNat), (9, b.toNat), (8, m.toNat), (6, k.toNat)]
  | .vfmulVf d a b m k => placed 0x9c000002 [(20, d.toNat), (14, a.toNat), (9, b.toNat), (8, m.toNat), (6, k.toNat)]
  | .vfdivVf d a b m k => placed 0x9c000003 [(20, d.toNat), (14, a.toNat), (9, b.toNat), (8, m.toNat), (6, k.toNat)]
  | .vfmaddVf d a b m k => placed 0x9c000005 [(20, d.toNat), (14, a.toNat), (9, b.toNat), (8, m.toNat), (6, k.toNat)]
  | .vfminVf d a b m k => placed 0x9c000006 [(20, d.toNat), (14, a.toNat), (9, b.toNat), (8, m.toNat), (6, k.toNat)]
  | .vfmaxVf d a b m k => placed 0x9c000007 [(20, d.toNat), (14, a.toNat), (9, b.toNat), (8, m.toNat), (6, k.toNat)]
  | .vfeqVf d a b m k => placed 0x9c000008 [(20, d.toNat), (14, a.toNat), (9, b.toNat), (8, m.toNat), (6, k.toNat)]
  | .vfltVf d a b m k => placed 0x9c000009 [(20, d.toNat), (14, a.toNat), (9, b.toNat), (8, m.toNat), (6, k.toNat)]
  | .vfleVf d a b m k => placed 0x9c00000a [(20, d.toNat), (14, a.toNat), (9, b.toNat), (8, m.toNat), (6, k.toNat)]
  | .vwmul d a b m u => placed 0xa0000000 [(20, d.toNat), (14, a.toNat), (8, b.toNat), (7, m.toNat), (6, u.toNat)]
  | .vwmacc d a b m u => placed 0xa0000001 [(20, d.toNat), (14, a.toNat), (8, b.toNat), (7, m.toNat), (6, u.toNat)]
  | .vwadd d a b m u => placed 0xa0000002 [(20, d.toNat), (14, a.toNat), (8, b.toNat), (7, m.toNat), (6, u.toNat)]
  | .vnclip d a b m u => placed 0xa0000003 [(20, d.toNat), (14, a.toNat), (8, b.toNat), (7, m.toNat), (6, u.toNat)]
  | .vsadd d a b m u => placed 0xa0000004 [(20, d.toNat), (14, a.toNat), (8, b.toNat), (7, m.toNat), (6, u.toNat)]
  | .vssub d a b m u => placed 0xa0000005 [(20, d.toNat), (14, a.toNat), (8, b.toNat), (7, m.toNat), (6, u.toNat)]
  | .vaadd d a b m u => placed 0xa0000006 [(20, d.toNat), (14, a.toNat), (8, b.toNat), (7, m.toNat), (6, u.toNat)]
  | .vhad d a n m => placed 0xa4000000 [(20, d.toNat), (14, a.toNat), (8, n.toNat), (7, m.toNat)]
  | .vhadC a n m => placed 0xa4000001 [(14, a.toNat), (8, n.toNat), (7, m.toNat)]
  | .vqnt d a c m t => placed 0xa4000008 [(20, d.toNat), (14, a.toNat), (8, c.toNat), (7, m.toNat), (0, t.toNat)]
  | .vdqnt d a c m t => placed 0xa4000010 [(20, d.toNat), (14, a.toNat), (8, c.toNat), (7, m.toNat), (0, t.toNat)]
  | .vqntC d c m t => placed 0xa4000018 [(20, d.toNat), (8, c.toNat), (7, m.toNat), (0, t.toNat)]
  | .vrand d h o m => placed 0xa4000020 [(20, d.toNat), (14, h.toNat), (8, o.toNat), (7, m.toNat)]
  | .vslideup d a b m => placed 0xa8000000 [(20, d.toNat), (14, a.toNat), (8, b.toNat), (7, m.toNat)]
  | .vslidedn d a b m => placed 0xa8000001 [(20, d.toNat), (14, a.toNat), (8, b.toNat), (7, m.toNat)]
  | .vperm d a b m => placed 0xa8000002 [(20, d.toNat), (14, a.toNat), (8, b.toNat), (7, m.toNat)]
  | .vzip d a b m => placed 0xa8000003 [(20, d.toNat), (14, a.toNat), (8, b.toNat), (7, m.toNat)]
  | .vunzip d a m => placed 0xa8000004 [(20, d.toNat), (14, a.toNat), (7, m.toNat)]
  | .vcmprs d a m => placed 0xa8000005 [(20, d.toNat), (14, a.toNat), (7, m.toNat)]
  | .vexpand d a m => placed 0xa8000006 [(20, d.toNat), (14, a.toNat), (7, m.toNat)]
  | .vredsum q a m u => placed 0xac000000 [(20, q.toNat), (14, a.toNat), (7, m.toNat), (6, u.toNat)]
  | .vredmax q a m u => placed 0xac000001 [(20, q.toNat), (14, a.toNat), (7, m.toNat), (6, u.toNat)]
  | .vredmin q a m u => placed 0xac000002 [(20, q.toNat), (14, a.toNat), (7, m.toNat), (6, u.toNat)]
  | .vredand q a m => placed 0xac000003 [(20, q.toNat), (14, a.toNat), (7, m.toNat)]
  | .vredor q a m => placed 0xac000004 [(20, q.toNat), (14, a.toNat), (7, m.toNat)]
  | .vfredsum q a m k => placed 0xac000005 [(20, q.toNat), (14, a.toNat), (7, m.toNat), (6, k.toNat)]
  | .vmand d a b m => placed 0xb0000000 [(20, d.toNat), (14, a.toNat), (8, b.toNat), (7, m.toNat)]
  | .vmor d a b m => placed 0xb0000001 [(20, d.toNat), (14, a.toNat), (8, b.toNat), (7, m.toNat)]
  | .vmxor d a b m => placed 0xb0000002 [(20, d.toNat), (14, a.toNat), (8, b.toNat), (7, m.toNat)]
  | .vmnot d a m => placed 0xb0000003 [(20, d.toNat), (14, a.toNat), (7, m.toNat)]
  | .vfirst q a m => placed 0xb0000004 [(20, q.toNat), (14, a.toNat), (7, m.toNat)]
  | .vcount q a m => placed 0xb0000005 [(20, q.toNat), (14, a.toNat), (7, m.toNat)]
  | .vidx d s p => placed 0xb4000000 [(20, d.toNat), (10, s.toNat), (0, p.toNat)]
  | .vld d a m w => placed 0xb8000000 [(20, d.toNat), (15, a.toNat), (8, m.toNat), (0, w.toNat)]
  | .vldStrided d a b m w => placed 0xb8000020 [(20, d.toNat), (15, a.toNat), (9, b.toNat), (8, m.toNat), (0, w.toNat)]
  | .vldIndexed d a v m w => placed 0xb8000040 [(20, d.toNat), (15, a.toNat), (9, v.toNat), (8, m.toNat), (0, w.toNat)]
  | .vldSeg d a m n w => placed 0xb8000060 [(20, d.toNat), (15, a.toNat), (8, m.toNat), (2, n.toNat), (0, w.toNat)]
  | .vldF d a m w => placed 0xb8000080 [(20, d.toNat), (15, a.toNat), (8, m.toNat), (0, w.toNat)]
  | .vldFSeg d a m n w => placed 0xb80000a0 [(20, d.toNat), (15, a.toNat), (8, m.toNat), (2, n.toNat), (0, w.toNat)]
  | .vldSegIndexed d a v m n w => placed 0xb80000c0 [(20, d.toNat), (15, a.toNat), (9, v.toNat), (8, m.toNat), (2, n.toNat), (0, w.toNat)]
  | .vst s a m w => placed 0xbc000000 [(20, s.toNat), (15, a.toNat), (8, m.toNat), (0, w.toNat)]
  | .vstStrided s a b m w => placed 0xbc000020 [(20, s.toNat), (15, a.toNat), (9, b.toNat), (8, m.toNat), (0, w.toNat)]
  | .vstIndexed s a v m w => placed 0xbc000040 [(20, s.toNat), (15, a.toNat), (9, v.toNat), (8, m.toNat), (0, w.toNat)]
  | .vstSeg s a m n w => placed 0xbc000060 [(20, s.toNat), (15, a.toNat), (8, m.toNat), (2, n.toNat), (0, w.toNat)]
  | .vstN s a m w => placed 0xbc000080 [(20, s.toNat), (15, a.toNat), (8, m.toNat), (0, w.toNat)]
  | .vstNSeg s a m n w => placed 0xbc0000a0 [(20, s.toNat), (15, a.toNat), (8, m.toNat), (2, n.toNat), (0, w.toNat)]
  | .vstNIndexed s a v m w => placed 0xbc0000c0 [(20, s.toNat), (15, a.toNat), (9, v.toNat), (8, m.toNat), (0, w.toNat)]
  | .vsort d a p s k => placed 0xc0000000 [(20, d.toNat), (14, a.toNat), (9, p.toNat), (8, s.toNat), (0, k.toNat)]
  | .vmrg d a b k => placed 0xc0000008 [(20, d.toNat), (14, a.toNat), (8, b.toNat), (0, k.toNat)]
  | .vmrgc q a b k => placed 0xc0000010 [(20, q.toNat), (14, a.toNat), (8, b.toNat), (0, k.toNat)]
  | .visec d a b k => placed 0xc0000018 [(20, d.toNat), (14, a.toNat), (8, b.toNat), (0, k.toNat)]
  | .vuniq d a k => placed 0xc0000020 [(20, d.toNat), (14, a.toNat), (0, k.toNat)]
  | .vrank d a b k => placed 0xc0000028 [(20, d.toNat), (14, a.toNat), (8, b.toNat), (0, k.toNat)]
  | .vrankLe d a b k => placed 0xc0000030 [(20, d.toNat), (14, a.toNat), (8, b.toNat), (0, k.toNat)]
  | .vpart d a b k => placed 0xc0000038 [(20, d.toNat), (14, a.toNat), (8, b.toNat), (0, k.toNat)]
  | .vtopk d a b k => placed 0xc0000040 [(20, d.toNat), (14, a.toNat), (8, b.toNat), (0, k.toNat)]
  | .vcmpt d a k => placed 0xc0000048 [(20, d.toNat), (14, a.toNat), (0, k.toNat)]
  | .vchks a s k => placed 0xc0000050 [(14, a.toNat), (8, s.toNat), (0, k.toNat)]
  | .vfacet q a => placed 0xc0000058 [(20, q.toNat), (14, a.toNat)]
  | .mopa t a b m f => placed 0xc4000000 [(24, t.toNat), (18, a.toNat), (12, b.toNat), (11, m.toNat), (7, f.toNat)]
  | .mopaS t a b m f => placed 0xc4000001 [(24, t.toNat), (18, a.toNat), (12, b.toNat), (11, m.toNat), (7, f.toNat)]
  | .mopaW t a w m f => placed 0xc4000002 [(24, t.toNat), (18, a.toNat), (12, w.toNat), (11, m.toNat), (7, f.toNat)]
  | .mopaGr t a s f => placed 0xc4000004 [(24, t.toNat), (18, a.toNat), (12, s.toNat), (7, f.toNat)]
  | .tzero t => placed 0xc8000000 [(24, t.toNat)]
  | .tanchor t a => placed 0xc8000001 [(24, t.toNat), (12, a.toNat)]
  | .tres t f => placed 0xc8000002 [(24, t.toNat), (7, f.toNat)]
  | .tmovr t d c f => placed 0xc8000003 [(24, t.toNat), (18, d.toNat), (12, c.toNat), (7, f.toNat)]
  | .tmovw t a c f => placed 0xc8000004 [(24, t.toNat), (18, a.toNat), (12, c.toNat), (7, f.toNat)]
  | .tldRaw t a => placed 0xc8000005 [(24, t.toNat), (12, a.toNat)]
  | .tldCan t a f => placed 0xc8000006 [(24, t.toNat), (12, a.toNat), (7, f.toNat)]
  | .tstRaw t a => placed 0xc8000007 [(24, t.toNat), (12, a.toNat)]
  | .tstCan t a f => placed 0xc8000008 [(24, t.toNat), (12, a.toNat), (7, f.toNat)]
  | .cbld t a => placed 0xc8000009 [(24, t.toNat), (12, a.toNat)]
  | .qpush q s => placed 0xcc000000 [(22, q.toNat), (16, s.toNat)]
  | .qpop q d => placed 0xcc000020 [(22, q.toNat), (16, d.toNat)]
  | .qstat q c => placed 0xcc000040 [(22, q.toNat), (12, c.toNat)]
  | .copy c a => placed 0xcc000060 [(12, c.toNat), (0, a.toNat)]
  | .vgthr v c a => placed 0xcc200080 [(16, v.toNat), (12, c.toNat), (0, a.toNat)]
  | .drain c => placed 0xcc0000a0 [(12, c.toNat)]
  | .fence s k => placed 0xd0000000 [(2, s.toNat), (0, k.toNat)]
  | .vlsync => placed 0xd0100000 []
  | .vfenceD => placed 0xd0200000 []
  | .waitge a b w => placed 0xd0300000 [(15, a.toNat), (10, b.toNat), (0, w.toNat)]
  | .waiteq a b w => placed 0xd0400000 [(15, a.toNat), (10, b.toNat), (0, w.toNat)]
  | .launch a d => placed 0xd4000000 [(15, a.toNat), (5, d.toNat)]
  | .launchNode a b d => placed 0xd4000001 [(15, a.toNat), (10, b.toNat), (5, d.toNat)]
  | .cancel a d => placed 0xd4100000 [(15, a.toNat), (5, d.toNat)]
  | .cread a d => placed 0xd4200000 [(15, a.toNat), (5, d.toNat)]
  | .creadT a d => placed 0xd4200001 [(15, a.toNat), (5, d.toNat)]
  | .uend => placed 0xd4300000 []
  | .yield => placed 0xd4400000 []
  | .clasp a d => placed 0xd4500000 [(15, a.toNat), (5, d.toNat)]
  | .claspCfg a b d => placed 0xd4500001 [(15, a.toNat), (10, b.toNat), (5, d.toNat)]
  | .clarr a q => placed 0xd4600000 [(15, a.toNat), (5, q.toNat)]
  | .clwait a b => placed 0xd4700000 [(15, a.toNat), (10, b.toNat)]
  | .grant a b d => placed 0xd4800000 [(15, a.toNat), (10, b.toNat), (5, d.toNat)]
  | .csrr d c => placed 0xd8000000 [(21, d.toNat), (4, c.toNat)]
  | .csrw a c => placed 0xd8000001 [(16, a.toNat), (4, c.toNat)]
  | .csrs a c => placed 0xd8000002 [(16, a.toNat), (4, c.toNat)]
  | .csrc a c => placed 0xd8000003 [(16, a.toNat), (4, c.toNat)]
  | .ecall => placed 0xd8000004 []
  | .ebrk => placed 0xd8000005 []
  | .eret => placed 0xd8000006 []
  | .ctxsave a => placed 0xd8000007 [(16, a.toNat)]
  | .ctxrst a => placed 0xd8000008 [(16, a.toNat)]
  | .tlbinv d a => placed 0xd8000009 [(21, d.toNat), (16, a.toNat)]
  | .placew d a => placed 0xd800000a [(21, d.toNat), (16, a.toNat)]
  | .vfset a v => placed 0xd800000b [(16, a.toNat), (4, v.toNat)]
  | .snap => placed 0xd800000c []
  | .wfi => placed 0xd800000d []
  | .hint h => placed 0xfc000000 [(0, h.toNat)]
  | .illegalWord w _ => w
  | .waitSatisfied .. | .claspWake .. | .tlbinvComplete .. | .accessPerform .. | .wcbEarlyDrain .. | .scoreboardWaitEnd .. | .copyCommandStart .. | .copyCommandRetire .. | .counterIncrement .. | .journalRelease .. | .dispatcherPop .. | .gangAdmit .. | .unitHandOut .. | .unitPreload .. | .prologueComplete .. | .unitStart .. | .budget .. | .reclaim .. | .timer .. | .preempt .. | .cancelled .. | .stragglerFlag .. | .theftRequest .. | .theftReply .. | .regenerationRun .. | .rfill .. | .randomFillDone .. | .snapshotLineCopy .. | .snapshotComplete .. | .remoteRefusal .. | .partialStoreError .. | .coreFailed .. | .dieLost .. | .hbmStackLost .. | .linkLanesFailed .. | .linkLost .. | .softErrorThreshold .. | .linkTraining .. | .gtsSync .. | .hostMemoryAccess .. | .boot .. | .bootImageLoaded .. | .hypContextStart .. | .plreq .. | .powerTransitionDone .. | .twarn .. | .ttrip .. | .mcaddr .. | .jrctr .. | .regenRegister .. | .regenUnregister .. | .replace .. | .domain .. | .reset .. | .functionLevelReset .. | .conventionalReset .. | .powerOnReset .. | .controlWindowWrite .. | .twarnCrossing .. | .warnClear .. | .ttripCrossing .. | .tripTimerExpiry .. | .immediateTrip .. | .regenerationRunComplete .. | .deviceMemberArrival .. => 0

/-- The word of a late form (see `LateInstr`). -/
def LateInstr.encode : LateInstr → Word32
  | .waitge a b w => placed 0xd0300000 [(15, a.toNat), (10, b.toNat), (0, w.toNat)]
  | .waiteq a b w => placed 0xd0400000 [(15, a.toNat), (10, b.toNat), (0, w.toNat)]
  | .launch a d => placed 0xd4000000 [(15, a.toNat), (5, d.toNat)]
  | .launchNode a b d => placed 0xd4000001 [(15, a.toNat), (10, b.toNat), (5, d.toNat)]
  | .cancel a d => placed 0xd4100000 [(15, a.toNat), (5, d.toNat)]
  | .cread a d => placed 0xd4200000 [(15, a.toNat), (5, d.toNat)]
  | .creadT a d => placed 0xd4200001 [(15, a.toNat), (5, d.toNat)]
  | .clasp a d => placed 0xd4500000 [(15, a.toNat), (5, d.toNat)]
  | .claspCfg a b d => placed 0xd4500001 [(15, a.toNat), (10, b.toNat), (5, d.toNat)]
  | .clarr a q => placed 0xd4600000 [(15, a.toNat), (5, q.toNat)]
  | .clwait a b => placed 0xd4700000 [(15, a.toNat), (10, b.toNat)]
  | .grant a b d => placed 0xd4800000 [(15, a.toNat), (10, b.toNat), (5, d.toNat)]
  | .ctxsave a => placed 0xd8000007 [(16, a.toNat)]
  | .ctxrst a => placed 0xd8000008 [(16, a.toNat)]
  | .tlbinv d a => placed 0xd8000009 [(21, d.toNat), (16, a.toNat)]
  | .placew d a => placed 0xd800000a [(21, d.toNat), (16, a.toNat)]
  | .vfset a v => placed 0xd800000b [(16, a.toNat), (4, v.toNat)]
  | .hint h => placed 0xfc000000 [(0, h.toNat)]

end Sys2Proof
end

