-- ==== Sys2Proof/Config.lean ====
section
/-! DEFINITION. What an implementation of the G9 fixes and the values the manual leaves open. A constant without a body is a
free value: no proof can see it (log entries 4, 11, 16). -/

namespace Sys2Proof.Config

/-- FREE VALUE (log 4): the core clocks that pass in the step numbered by its argument. -/
opaque clk : Nat → Nat

/-- FREE VALUE (log 4): the nanoseconds of domain time that pass in the step numbered by its argument. -/
opaque ns : Nat → Nat

/-- FREE VALUE (log 11): the carry bits that a stored raw image holds for a cell (R102: any split of X may be held). -/
opaque rawCarries : Nat → BitVec 8

/-- FREE VALUE (log 16): the output of the dispatcher's hardware LFSR (R313). -/
opaque lfsr : Nat → Nat

/-- FREE VALUE (log 26): what an amo returns from a word whose data is uncorrectable (R389 discards its write and states no value). -/
opaque lostData : Nat → BitVec 64

/-- FREE VALUE (log 27): the anchor under which the cells of a float tile are read that a hand-made raw image has loaded with no anchor
and sums that are not 0 (R205 accepts the image, R102 gives such a cell no value). -/
opaque unsetAnchor : Int

/-- FREE VALUE (log 18): whether the job given second is resident on the device given first (R351). -/
opaque residentOn : Nat → Nat → Bool

/-- FREE VALUE (log 18): whether the device given first runs the ASID given second (R324). -/
opaque asidOn : Nat → Nat → Bool

/-- Physical core slots of a die (R1). -/
def slotsPerDie : Nat := 52

/-- Cores of a die that are enabled (R1). -/
def enabledPerDie : Nat := 48

/-- Compute dies of the package (R1). -/
def dies : Nat := 4

/-- Banks of a stack that are offered to jobs (R352). -/
def banksPerStack : Nat := 44

/-- Bytes of a core's polder, 1.5 MiB (R212). -/
def polderBytes : Nat := 0x180000

/-- Bytes of a core's weight buffer, 768 KiB (R212). -/
def wbufBytes : Nat := 0xC0000

/-- DESIGN CHOICE (log 10): the logical HBM bank of channel 0 through which job 0's bootstrap tables reach device-reserved
memory (R428 gives the path, not its address). -/
def reservedBank : Nat := 62

/-- DESIGN CHOICE (log 10): offset of the ASID table in the reserved bank (R357). -/
def asidTableOff : Nat := 0

/-- DESIGN CHOICE (log 10): offset of job 0's bootstrap L3 table in the reserved bank (R427). -/
def bootL3Off : Nat := 0x10000

/-- DESIGN CHOICE (log 10): offset of the bootstrap L2 table that covers virtual address 0 and the reserved window. -/
def bootL2Off : Nat := 0x20000

/-- DESIGN CHOICE (log 10): offset of the bootstrap L1 table that maps the ASID table and the tables. -/
def bootL1Off : Nat := 0x30000

/-- DESIGN CHOICE (log 10): offset of the bootstrap L2 table that covers the 512 MiB region of HENTRY, when it needs one of its
own. -/
def bootL2HostOff : Nat := 0x40000

/-- DESIGN CHOICE (log 10): virtual address at which the bootstrap tables map the first page of the reserved bank (the ASID
table): the top 512 MiB of the address space. -/
def reservedVa : Nat := 0x7FFFFFE0000000

/-- DESIGN CHOICE (log 10): offset in device-reserved memory of the area that SNAPBASE counts from (R413). -/
def snapAreaOff : Nat := 0x100000000

end Sys2Proof.Config
end

