-- ==== Sys2Proof/Machine/State.lean ====
section
/-! DEFINITION. The state of a G9: the contexts of its cores (R34), the memories they reach (R28, R211), and the device around
them (R37). Everything is plain data. -/

namespace Sys2Proof.Machine

/-- Why the machine stops. -/
inductive Fault where
  /-- Raised by a move that hands the turn to a context number the package does not have (R1: 416 contexts). Safe: no context of
  the hardware has such a number, so no behaviour of the hardware is lost. -/
  | noSuchContext (c : Nat)
  deriving DecidableEq, Repr

/-- Why an instruction has no meaning. -/
inductive Refusal where
  /-- Raised by an arm of `exec` whose meaning is not written. Safe: the machine stops where the hardware goes on. -/
  | notModelled (mnemonic : String)
  deriving DecidableEq, Repr

/-- Memory: cells at physical keys, in one canonical form (see `Memory.wf`). -/
abbrev Memory := List Host.Cell

/-! ## State of one context -/

/-- The lend latch (R75, R135): neg, kind, pred, the captured predicate, dc_en, dcopy; whether its successor has begun; and the
successor's address, the only word that it governs. -/
structure Latch where
  neg : Bool
  kind : Bool
  pred : BitVec 5
  pv : Bool
  dcEn : Bool
  dcopy : BitVec 6
  begun : Bool
  succ : Word
  deriving DecidableEq, Repr

/-- An entry of the vector instruction queue or of the trap frame (R12, R13, R374). -/
structure VEntry where
  instr : Instr
  pc : Word
  op1 : Word
  op2 : Word
  latch : Option Latch
  deriving DecidableEq, Repr

/-- The active loop or nest body (R122 to R131): the address of the loop or nest word, its count or block register, the body
words held in the loop buffer, the index of the next body word, and for nest the bytes of its block. -/
structure LoopSt where
  head : Word
  xa : BitVec 5
  body : List Word32
  idx : Nat
  nest : Option (List Byte)
  deriving DecidableEq, Repr

/-- The state of a tile (R101). -/
inductive TState where
  | empty | redundant | resolved
  deriving DecidableEq, Repr

/-- The mode of a tile (R101). -/
inductive TMode where
  | none | float | integer
  deriving DecidableEq, Repr

/-- The shape class of a tile (R188, R190). -/
inductive TClass where
  | none | narrow | half | f32 | f64
  deriving DecidableEq, Repr

/-- A cell (R102, R109): its integer X, its flags N, P and M, and the held value of a resolved tile. -/
structure TCell where
  x : Int
  n : Bool
  p : Bool
  m : Bool
  held : Nat
  deriving DecidableEq, Repr

/-- A tile (R101, R190, R204): its cells by cell number, ascending; a cell not listed has X = 0, no flag and held value 0. -/
structure Tile where
  state : TState
  mode : TMode
  cls : TClass
  anchor : Option Int
  rfmt : Nat
  cells : List (Nat × TCell)
  /-- A parity error that a tile instruction will report (R389). -/
  bad : Bool
  deriving DecidableEq, Repr

/-- What a channel command does (R252, R254, R261): a copy with its block and nest block, a gather with its descriptor, vl, row
numbers and field orders, or the address of a block that the engine has not read. -/
inductive CmdKind where
  | copy (block nest : List Byte)
  | gather (desc : List Byte) (k p : List Word)
  | push (addr : Word)
  deriving DecidableEq, Repr

/-- A command of a channel, with the rights it was pushed under (R350), its scoreboard range (R221), and how many stores its context
and the other context of the core had put into the access path by then: those of its own come before the engine's reads (R252), and
none of them is held by its range (R221, R274). -/
structure Cmd where
  kind : CmdKind
  asid : BitVec 13
  priv : Priv
  board : Option (Nat × Nat)
  after : Nat
  other : Nat
  deriving DecidableEq, Repr

/-- A command that the engine has started, with the job of its ASID then (R360), the bytes it has still to write, the destinations of its
elements: key, size, address (R259, R391), whether it is a stream-out (R257), and the slots of a gather's out-of-range requests that the
engine has still to serve, each as its destinations (R264). -/
structure Started where
  cmd : Cmd
  job : Nat
  writes : List (Nat × Byte)
  dests : List (Nat × Nat × Word)
  so : Bool
  zeros : List (List (Nat × Nat × Word))
  deriving DecidableEq, Repr

/-- A copy channel (R250 to R267). -/
structure Chan where
  cmds : List Cmd
  started : Option Started
  halted : Bool
  ecause : Nat
  eaddr : Word
  /-- The uend that has raised the cause (R267). -/
  reported : Option Word
  oob : Nat
  done : Nat
  deriving DecidableEq, Repr

/-- A random handle (R402). -/
structure Handle where
  valid : Bool
  key : Word
  stream : Word
  deriving DecidableEq, Repr

/-- A unit, as the walker hands it out (R30, R32, R308): the die and counter that count it, in the shadow bank or not, its arming,
its ordinal and indices, and the facts of its launch that its context needs. -/
structure UnitSt where
  die : Nat
  ctr : Nat
  shadow : Bool
  arm : Nat
  ord : Nat
  idx : List Nat
  /-- The logical core that the unit is placed on (R309), by which its drained writes are ranked (R223); none where it is not placed. -/
  lcore : Option Nat
  prio : Nat
  gang : Bool
  rst : Bool
  det : Bool
  /-- The prologue has finished (R310, R333). -/
  ready : Bool
  /-- A unit that is started again after a loss, with the physical core that it must not go to (R385). -/
  avoid : Option Nat
  deriving DecidableEq, Repr

/-- What a context runs. -/
inductive RunState where
  /-- No unit and no task. -/
  | off
  | running
  /-- Stopped by a double trap (R376) or a failed core (R394). -/
  | stopped
  deriving DecidableEq, Repr

/-- Where an access goes: its key, whether the page is host-shared (R218), covered by snapshots (R224), in host memory (R257). -/
structure Loc where
  key : Nat
  hs : Bool
  snap : Bool
  host : Bool
  deriving DecidableEq, Repr

/-- A location with its slice class, 8 for LANE (R216). -/
structure Place where
  loc : Loc
  cls : Nat
  va : Word
  deriving DecidableEq, Repr

/-- A refused access: a cause with its tval; or uncorrectable data of a space, with the address of the word that fails (R389, R391). -/
inductive Refused where
  | cause (c : Nat) (tval : Word)
  | ecc (sp : Nat) (va : Word)
  deriving DecidableEq, Repr

/-- The accesses of a word that has been translated, in order: the place of each, or its refusal, and its bytes. -/
abbrev Located := List (Except Refused Place × Nat)

/-- What the SCT waits for, when it waits. -/
inductive Stall where
  /-- Space in the VIQ (R12), or an entry of it to commit (R15, R81). -/
  | viq
  /-- An entry of a queue (R29). -/
  | pop
  /-- A memory word (R248). -/
  | word
  /-- Episode `e` of the clasp named by `w`, after an arrival (R341), or without one by clwait (R343) or by a clasp that an eret resumes
  (R341). -/
  | clasp (w e : Word)
  | clwait (w e : Word)
  /-- Episode `e`, before an arrival (R341). -/
  | arrive (w e : Word)
  /-- Completion of an invalidation (R360). -/
  | tlb
  /-- A channel to become empty or its started commands to retire (R267, R337, R380). -/
  | chan
  /-- The end of the previous snapshot (R225). -/
  | snap
  /-- An asynchronous cause (R411). -/
  | wfi
  /-- A scoreboard range (R221), at an access of `n` bytes: its place once it has been translated, which it keeps (R354). -/
  | board (at_ : Option Place) (n : Nat)
  deriving DecidableEq, Repr

/-- A store that waits in a slice queue (R217), or a barrier among them (R245, R246): the bytes it will write at physical keys, its
slice class (R216; 8 for none), whether its page is host-shared (R218), and what it holds back as a barrier: 0 nothing, 1 the stores
behind it, 2 the loads too. -/
structure Pend where
  writes : List (Nat × Byte)
  cls : Nat
  hs : Bool
  barrier : Nat
  /-- The ASID, its job then, and the address of the translation it was made under (R360), and the key that the address stands for. -/
  asid : BitVec 13
  job : Nat
  va : Word
  key : Nat
  /-- Its space and the PC of its word, which a record names (R391). -/
  sp : Nat
  pc : Word
  /-- How many stores of the context entered the access path before it (R252). -/
  num : Nat
  /-- A line that leaves the write-combining buffer (R223). -/
  drain : Bool
  /-- The ranges of the stores that it performs: key and bytes (R227). -/
  parts : List (Nat × Nat)
  /-- The instruction that it belongs to: how many stores of the context had entered the access path before its first one (R389). -/
  word : Nat
  deriving DecidableEq, Repr

/-- A line of the write-combining buffer (R222): its number, the step in which it was entered, its bytes, the ranges of its stores, and
of the last of them the ASID with its job then, space and PC; `va` is the address of the line's first byte. -/
structure WLine where
  line : Nat
  age : Nat
  writes : List (Nat × Byte)
  parts : List (Nat × Nat)
  asid : BitVec 13
  job : Nat
  va : Word
  sp : Nat
  pc : Word
  deriving DecidableEq, Repr

/-- A pending asynchronous cause of a kind that can pend more than once (R371): its tval, whether it is taken at hyp (R370, R392), and
the tenure of the context that it is addressed to, where it ends with that tenure (R489). -/
structure Pending where
  tval : Word
  hyp : Bool
  tenure : Option Nat
  deriving DecidableEq, Repr

/-- The state of one context (R34). -/
structure Ctx where
  x : Vector Word 32
  pc : Word
  v : Vector VWord 64
  facets : Vector (BitVec 16) 64
  tiles : Vector Tile 4
  cb : Vector (BitVec 256) 4
  hl : VWord
  cl : Word
  latch : Option Latch
  /-- The latch held aside for the trapped context (R372). -/
  heldLatch : Option Latch
  q : Vector (List Word) 8
  ch : Vector Chan 8
  rh : Vector Handle 16
  rhsel : BitVec 4
  vl : Nat
  vtype : BitVec 5
  vmt : BitVec 4
  vrm : BitVec 2
  vsat : Bool
  vfs : Word
  vnotify : Word
  vthr : Word
  frm : BitVec 3
  /-- The SCT's copy of frm (R15). -/
  frmSct : BitVec 3
  fflags : BitVec 5
  hwmReg : Nat
  hwmBytes : Nat
  wfmt : BitVec 4
  priv : Priv
  ppriv : Priv
  tfv : Bool
  skip : Bool
  detm : Bool
  cw : Bool
  cause : Word
  epc : Word
  epcv : Word
  tval : Word
  tvec : Word
  htvec : Word
  asid : BitVec 13
  /-- The grant in force (R22). -/
  lgb : Nat
  lgn : Nat
  trb : Nat
  trn : Nat
  /-- The standing grant (R308, R316, R346). -/
  standLgn : Nat
  standTrn : Nat
  /-- cyc when a reclaim reached the running context, while it has not transferred (R316). -/
  reclaimAt : Option Nat
  budget : Word
  bused : Nat
  armed : Bool
  tmr : Word
  viq : List VEntry
  frame : List VEntry
  frameVf : Bool
  /-- MODEL'S OWN (log 6): how many further SCT words the vector unit stays behind. -/
  lag : Nat
  loop : Option LoopSt
  /-- eret has found epc.LA = 1: the body is to be fetched again (R130). -/
  resume : Bool
  /-- Pending asynchronous causes (R371), each with its tval; TIMER follows from tmr and cyc (R403). -/
  pMcheck : List Pending
  pCancelled : List Pending
  pReclaim : Option Word
  pBudget : Bool
  pPreempt : Bool
  unit : Option UnitSt
  preload : Option UnitSt
  run : RunState
  /-- The number of the unit or task that the context holds (R489). -/
  tenure : Nat
  /-- The lines that this context has in the write-combining buffer, oldest first (R222). -/
  wcb : List WLine
  stores : List Pend
  /-- How many stores have entered the access path (R252). -/
  path : Nat
  /-- Barriers behind memory instructions of the queue that have not entered the access path: how many entries each follows, and what
  it holds back, 3 for a vfence.d that drains (R245, R247); and those that a trap set aside with its frame. -/
  bars : List (Nat × Nat)
  frameBars : List (Nat × Nat)
  /-- What the SCT has put behind the oldest queue entry while that waits in the access path, its addresses translated (R17, R245): stores
  and fences, in order; none while the oldest entry has not entered it. -/
  late : Option (List Pend)
  /-- Where the accesses of that oldest queue entry go, fixed as it entered the access path (R354); read only while `late` is some. -/
  located : Located
  /-- The clasp word of the wait that status.cw marks (R341; log 75). -/
  claspWord : Option Word
  /-- The word to which an eret that found status.cw set has returned: a clasp there is the wait alone (R341). -/
  rejoin : Option Word
  stall : Option Stall
  deriving DecidableEq, Repr

/-! ## State of the device -/

/-- A completion counter (R30, R330). -/
structure Counter where
  armed : Bool
  done : Bool
  canc : Bool
  level : Nat
  count : Nat
  target : Nat
  /-- The key of its parent, and the arming of the parent at the time (R330). -/
  parent : Option Nat
  parentArm : Nat
  asid : BitVec 13
  /-- The arming number (R330). -/
  arm : Nat
  /-- The counted ordinals (R30, R384). -/
  counted : List Nat
  deriving DecidableEq, Repr

/-- An increment on its way to a counter, named by its key (R30, R384). -/
structure Inc where
  key : Nat
  shadow : Bool
  ord : Nat
  arm : Nat
  deriving DecidableEq, Repr

/-- How far a launch has come (R305, R308, R313); `finished` once nothing is left to hand out (R326). -/
inductive Phase where
  | waiting | ready | active | finished
  deriving DecidableEq, Repr

/-- An accepted launch: the journal's copy of the record and its blocks (R332, R383), and what the dispatcher and the walker keep
of it (R308 to R315, R325, R326, R385, R386). -/
structure Launch where
  die : Nat
  ctr : Nat
  shadow : Bool
  arm : Nat
  record : List Byte
  space : List Byte
  pro : List Byte
  proNest : List Byte
  cba : List Byte
  asid : BitVec 13
  /-- The context that accepted it, and that context's tenure (R489). -/
  by_ : Nat
  byTenure : Nat
  phase : Phase
  /-- The order in which it became ready (R313). -/
  readySeq : Nat
  bank : Nat
  passes : Nat
  strict : Bool
  /-- The order in which the walker took it (R308). -/
  takenSeq : Nat
  /-- Ordinals not yet handed out (R325); for a panel `stop` is not used and the cursor counts. -/
  head : Nat
  stop : Nat
  /-- With PLC = 1, the next ordinal of each declared logical core (R309). -/
  cores : List Nat
  /-- The panel cursor (r, c), the band height and the pieces carved (R307). -/
  curR : Nat
  curC : Nat
  band : Nat
  /-- Units taken back: to be handed out before head (R311, R326, R385), each with its indices. -/
  back : List UnitSt
  /-- Ranges given to thieves, not yet counted: device, first, one past the last (R326). -/
  stolen : List (Nat × Nat × Nat)
  lost : List Nat
  /-- A lost unit of a non-restartable launch has ended it (R386): the reason. -/
  failed : Option Nat
  /-- Contexts reserved for a gang (R315). -/
  reserved : List Nat
  /-- For the thief's copy: the owning device, its die, counter and arming (R326). -/
  owner : Option (Nat × Nat × Nat × Nat)
  deriving DecidableEq, Repr

/-- What the device keeps of a save image (R379, R380; log 28): the unit that ctxsave parked, for each channel the kinds of its
commands (0 copy, 1 gather, 2 qpush), the barriers set aside with the frame, whether a BUDGET is pending and the budget armed (R312),
the cancel that has reached the unit and is not taken (R31), the address of the word that the held latch governs (R75), and the clasp word
of the wait that status.cw marks (R341). -/
structure Saved where
  /-- The bytes of the image as they were written: offset and bytes. -/
  parts : List (Nat × List Byte)
  unit : Option UnitSt
  kinds : List (List Nat)
  bars : List (Nat × Nat)
  pBudget : Bool
  pCancelled : List Pending
  armed : Bool
  succ : Word
  clasp : Option Word
  deriving DecidableEq, Repr

/-- A clasp (R320, R322, R340). -/
structure Clasp where
  devices : Bool
  nmem : Nat
  k : Nat
  delta : Nat
  asid : BitVec 13
  /-- The launch it is bound to: die, counter, arming (R340). -/
  bound : Option (Nat × Nat × Nat)
  epoch : Nat
  /-- Arrivals: member, episode, stamp (R320), newest last. -/
  arrivals : List (Nat × Nat × Word)
  /-- How often each rerun member has arrived since its rerun (R344). -/
  replay : List (Nat × Nat)
  /-- Which member was late in which episode (R323). -/
  lateIn : List (Nat × Nat)
  departed : List Nat
  deriving DecidableEq, Repr

/-- A TLB entry (R360, R365): the virtual page base, its size in address bits, the leaf, and whether the leaf lies in device-reserved
memory (R428). -/
structure TlbEntry where
  asid : BitVec 13
  job : Nat
  va : Word
  bits : Nat
  leaf : Word
  boot : Bool
  deriving DecidableEq, Repr

/-- What a run of the regeneration or the fill engine writes (R227, R269), and the physical key of the generation word that it then
raises by one. -/
structure Fill where
  writes : List (Nat × Byte)
  gen : Option Nat
  deriving DecidableEq, Repr

/-- A registered regeneration descriptor (R226, R227, R414): the writes of its TRIG word, the run in progress, and the runs that are
owed: at most one behind a run in progress, and where none is in progress the one that starts next and one behind it. -/
structure Regen where
  addr : Word
  count : Nat
  running : Option Fill
  owed : Nat
  drop : Bool
  deriving DecidableEq, Repr

/-- The snapshot in progress (R224, R225): the memory at the cut, the lines that it covers by ascending key, those copied, the area and
generation word in force, and whether a line did not fit (R414). -/
structure Snap where
  image : Memory
  lines : List Nat
  copied : List Nat
  base : Nat
  size : Nat
  gen : Word
  overflow : Bool
  deriving DecidableEq, Repr

/-- A Brodsy link (R393, R418). -/
structure Link where
  up : Bool
  peer : Nat
  lanes : Nat
  version : Nat
  deriving DecidableEq, Repr

/-- A job ring that is registered (R413, R416). -/
structure JobRing where
  index : Nat
  addr : Word
  die : Nat
  ctr : Nat
  deriving DecidableEq, Repr

/-- A message that leaves for another device (R320, R324, R325, R420): kind, device, and its values. -/
structure Msg where
  kind : Nat
  dev : Nat
  args : List Nat
  bytes : List Byte
  deriving DecidableEq, Repr

/-- The registers of the control window (R413) that hold values, and what the host interface keeps beside them. -/
structure Window where
  state : Nat
  boot : Word
  hentry : Word
  plreq : Word
  twarn : Int
  ttrip : Int
  /-- The sensors' readings in °C by number, die · 64 + sensor; one that is not listed reads 0 (R425). -/
  temps : List (Nat × Int)
  snapBase : Word
  snapGen : Word
  snapSz : Word
  mctgt : Word
  mcsel : Word
  mcaddr : Word
  jrsel : Word
  jraddr : Word
  jrctr : Word
  regRefused : Bool
  replace : Word
  domain : Nat
  /-- PLSTAT's fields (R424). -/
  level : Nat
  busy : Option Nat
  waiting : Option Nat
  refused : Bool
  warn : Bool
  trip : Bool
  /-- The 10 ms timers that run, oldest first: whether a deeper level has been requested since the crossing (R425). -/
  tripTimers : List Bool
  /-- MSI-X vectors raised, oldest first (R413). -/
  msix : List Nat
  /-- The error counts that are not 0, by offset in the window (R388, R413). -/
  errcnt : List (Nat × Word)
  deriving DecidableEq, Repr

/-- The device outside its contexts and memories (R37). -/
structure Dev where
  win : Window
  /-- Place-table entries written since bring-up: key job · 2048 + kind · 1024 + index (R353, R408). -/
  place : List (Nat × Word)
  /-- What bring-up filled job 0's table from: per die the enabled slots, ascending, and the healthy stacks (R427); empty before. -/
  bootSlots : List (List Nat)
  bootStacks : List Nat
  /-- Physical cores in service, idle spares (R1, R394): numbers die · 52 + slot. -/
  enabled : List Nat
  spares : List Nat
  failed : List Nat
  lostDies : List Nat
  lostStacks : List Nat
  links : List Link
  /-- The device has taken gts from its domain since it joined (R421). -/
  gtsTaken : Bool
  counters : List (Nat × Counter)
  shadow : List (Nat × Counter)
  launches : List Launch
  /-- Journal entries not yet released: die · 8192 + counter (R331). -/
  unreleased : List Nat
  incs : List Inc
  /-- The next number for an arming (R330) and for the orders of launches (R308, R313). -/
  seq : Nat
  /-- What belongs to save images and is not among their bytes, newest first, each with the physical key of its image (R379, R380;
  log 28). -/
  images : List (Nat × Saved)
  clasps : List (Nat × Clasp)
  /-- Clasps homed on other devices (R339), by HOME · 256 + ID: this device's arrivals, and the episodes known to have completed. -/
  remote : List (Nat × Nat × Nat)
  /-- Writers of drained bytes: the launch by its arming number, then byte key and logical core (R223). -/
  writers : List (Nat × List (Nat × Nat))
  tlb : List TlbEntry
  /-- MODEL'S OWN (log 8): translations are kept and used again. -/
  tlbOn : Bool
  /-- MODEL'S OWN (log 7): stores wait in the slice queues for ACCESS_PERFORM. -/
  holdStores : Bool
  /-- Uncorrectable 8-byte words, by key (R388, R389). -/
  eccBad : List Nat
  /-- 64 KiB pages of host memory and of other devices that the far side refuses, by key (R367); devices left with no path (R393). -/
  refusing : List Nat
  cutOff : List Nat
  /-- Machine-check rings: job, address, next record number (R390). -/
  mcRings : List (Nat × Word × Nat)
  jobRings : List JobRing
  regens : List Regen
  fills : List Fill
  snap : Option Snap
  /-- Jobs resident on other devices: device, job (R351). -/
  peers : List (Nat × Nat)
  /-- The ASIDs under which jobs are resident on other devices: device, ASID (R324). -/
  peerAsids : List (Nat × Nat)
  /-- Devices flagged by domain clasps (R324). -/
  flagged : Word
  /-- Theft requests that this device has sent and that are not answered: victim, die, counter (R420). -/
  asked : List (Nat × Nat × Nat)
  /-- Theft requests that have arrived here and are not answered: die, counter, units, thief (R325). -/
  thefts : List (Nat × Nat × Nat × Nat)
  /-- Clasps that their home device refuses: HOME, ID, ASID (R339; log 68). -/
  awayRefused : List (Nat × Nat × Nat)
  /-- Messages to other devices, oldest first. -/
  outbox : List Msg
  deriving DecidableEq, Repr

/-! ## The whole -/

/-- MODEL'S OWN (log 5, log 64): which agent moves next. -/
inductive Move where
  /-- An event of the opcode table happens. -/
  | event (i : Instr)
  /-- The turn goes to context `c`. -/
  | turn (c : Nat)
  /-- The context whose turn it is goes on by one step. -/
  | go
  /-- The vector unit of the current context stays behind for `n` further words. -/
  | lag (n : Nat)
  /-- The 32-byte chunk of byte `n` among those that a started command has still to write is written ahead of the rest (R208, R259); of a
  stream-out, the next element (R257). -/
  | land (c ch n : Nat)
  /-- The host or another device writes consecutive bytes of HBM, of host memory or of another device (R412, R416). -/
  | outside (key : Nat) (bytes : List Byte)
  /-- A correctable error of the part whose count lies at place `k` of ERRCNT (R388). -/
  | softError (k : Nat)
  /-- A parity error of tile `t` of a context (R389). -/
  | tileParity (c t : Nat)
  /-- The walker of a die asks a device for `n` units of a launch, named by die and counter, whose record has version `ver` and asks for
  `lg` and `tr` (R324, R418, R420). -/
  | steal (walker victim die ctr ver lg tr n : Nat)
  /-- A theft request reaches this device (R325). -/
  | theft (die ctr n thief : Nat)
  /-- The home device of a clasp comes to refuse contexts of an ASID, or takes them again (R339). -/
  | claspRefuse (home id asid : Nat)
  /-- Sensor `n` has a new reading (R425). -/
  | sense (n : Nat) (deg : Int)
  deriving DecidableEq, Repr

/-- The state of the machine: the context whose turn it is and its number (physical core · 2, plus 1 for the secondary context),
the other contexts that differ from their reset state, the memories, the device, the moves to come, and the clocks. -/
structure State where
  ctx : Ctx
  cur : Nat
  others : List (Nat × Ctx)
  mem : Memory
  dev : Dev
  moves : List Move
  /-- MODEL'S OWN (log 4): the steps taken, to which free values are applied. -/
  steps : Nat
  cyc : Nat
  gts : Nat
  deriving DecidableEq, Repr

/-! ## Reset -/

/-- An empty tile (R101). -/
def Tile.empty : Tile := ⟨.empty, .none, .none, none, 0, [], false⟩

/-- A channel with nothing in it (R266). -/
def Chan.idle : Chan := ⟨[], none, false, 0, 0, none, 0, 0⟩

/-- A context after device reset (R22, R397); `sec` for a secondary context. Registers without a reset value are 0 (log 9). -/
def Ctx.reset (sec : Bool) : Ctx where
  x := Vector.replicate 32 0
  pc := 0
  v := Vector.replicate 64 0
  facets := Vector.replicate 64 0
  tiles := Vector.replicate 4 Tile.empty
  cb := Vector.replicate 4 0
  hl := 0
  cl := 0
  latch := none
  heldLatch := none
  q := Vector.replicate 8 []
  ch := Vector.replicate 8 Chan.idle
  rh := Vector.replicate 16 ⟨false, 0, 0⟩
  rhsel := 0
  vl := 0
  vtype := 0x02
  vmt := 0
  vrm := 0
  vsat := false
  vfs := 0
  vnotify := 0
  vthr := 0
  frm := 0
  frmSct := 0
  fflags := 0
  hwmReg := 0
  hwmBytes := 0
  wfmt := 0
  priv := .app
  ppriv := .app
  tfv := false
  skip := false
  detm := false
  cw := false
  cause := 0
  epc := 0
  epcv := 0
  tval := 0
  tvec := 0
  htvec := 0
  asid := 0
  lgb := 0
  lgn := if sec then 0 else 8
  trb := 0
  trn := if sec then 0 else 8
  standLgn := if sec then 0 else 8
  standTrn := if sec then 0 else 8
  reclaimAt := none
  budget := 0
  bused := 0
  armed := false
  tmr := 0
  viq := []
  frame := []
  frameVf := false
  lag := 0
  loop := none
  resume := false
  pMcheck := []
  pCancelled := []
  pReclaim := none
  pBudget := false
  pPreempt := false
  unit := none
  preload := none
  run := .off
  tenure := 0
  wcb := []
  stores := []
  path := 0
  bars := []
  frameBars := []
  late := none
  located := []
  claspWord := none
  rejoin := none
  stall := none

/-- The control window after reset (R413, R424). -/
def Window.reset : Window where
  state := 0
  boot := 0
  hentry := 0
  plreq := 0
  twarn := 95
  ttrip := 105
  temps := []
  snapBase := 0
  snapGen := 0
  snapSz := 0
  mctgt := 0
  mcsel := 0
  mcaddr := 0
  jrsel := 0
  jraddr := 0
  jrctr := 0
  regRefused := false
  replace := 0
  domain := 0
  level := 0
  busy := none
  waiting := none
  refused := false
  warn := false
  trip := false
  tripTimers := []
  msix := []
  errcnt := []

/-- The physical cores that are enabled as built: slots 0 to 47 of each die (R1; which slots, log 12). -/
def builtEnabled : List Nat :=
  (List.range Config.dies).flatMap fun d => (List.range Config.enabledPerDie).map fun s => d * Config.slotsPerDie + s

/-- The idle spares as built: slots 48 to 51 of each die (R1; log 12). -/
def builtSpares : List Nat :=
  (List.range Config.dies).flatMap fun d =>
    (List.range (Config.slotsPerDie - Config.enabledPerDie)).map fun s => d * Config.slotsPerDie + Config.enabledPerDie + s

/-- The device after reset (R426, R429). -/
def Dev.reset : Dev where
  win := Window.reset
  place := []
  bootSlots := []
  bootStacks := []
  enabled := builtEnabled
  spares := builtSpares
  failed := []
  lostDies := []
  lostStacks := []
  links := List.replicate 18 ⟨false, 0, 8, 0⟩
  gtsTaken := false
  counters := []
  shadow := []
  launches := []
  unreleased := []
  incs := []
  seq := 0
  images := []
  clasps := []
  remote := []
  writers := []
  tlb := []
  tlbOn := false
  holdStores := false
  eccBad := []
  refusing := []
  cutOff := []
  mcRings := []
  jobRings := []
  regens := []
  fills := []
  snap := none
  peers := []
  peerAsids := []
  flagged := 0
  asked := []
  thefts := []
  awayRefused := []
  outbox := []

/-- The machine right after power-on reset (R426): every core held in reset, no memory byte written. -/
def State.reset : State where
  ctx := Ctx.reset false
  cur := 0
  others := []
  mem := []
  dev := Dev.reset
  moves := []
  steps := 0
  cyc := 0
  gts := 0

end Sys2Proof.Machine
end

