-- ==== Sys2Proof/Machine/Mem.lean ====
section
/-! DEFINITION. The bytes of the memories: one list of cells at physical keys. A key is an area number times 2^64 plus an offset in
the area: 0 HBM, 1 polders, 2 weight buffers, 3 lane tables, 4 host memory, 5 device-reserved memory, 6 memory of other devices,
7 the clasp record area (read-only, computed). -/

namespace Sys2Proof.Machine

/-- What a byte that nothing has written reads as: 0 (DESIGN CHOICE, log 3). -/
def unlisted : Byte := 0

/-- The canonical form: addresses strictly rising, no cell that holds what an unlisted address reads as. -/
def Memory.wf : Memory → Bool
  | [] => true
  | [(_, b)] => b != unlisted
  | (a, b) :: (a', b') :: r => decide (a < a') && b != unlisted && Memory.wf ((a', b') :: r)

/-- The byte at a key. -/
def Memory.get : Memory → Nat → Byte
  | [], _ => unlisted
  | (k, b) :: r, a => if k = a then b else if a < k then unlisted else Memory.get r a

/-- The memory with a byte written; writing what an unlisted address reads as removes the cell. -/
def Memory.set : Memory → Nat → Byte → Memory
  | [], a, b => if b = unlisted then [] else [(a, b)]
  | (k, c) :: r, a, b =>
    if a < k then (if b = unlisted then (k, c) :: r else (a, b) :: (k, c) :: r)
    else if a = k then (if b = unlisted then r else (a, b) :: r)
    else (k, c) :: Memory.set r a b

/-- The memory after a list of byte writes, in order. -/
def Memory.setAll (m : Memory) (ws : List (Nat × Byte)) : Memory :=
  ws.foldl (fun m w => m.set w.1 w.2) m

/-- The value of little-endian bytes (R38). -/
def leNat : List Byte → Nat
  | [] => 0
  | b :: r => b.toNat + 256 * leNat r

/-- The `n` little-endian bytes of a value (R38). -/
def leBytes : Nat → Nat → List Byte
  | 0, _ => []
  | n + 1, v => BitVec.ofNat 8 v :: leBytes n (v / 256)

/-- `n` bytes of a list from offset `o`, absent bytes read 0. -/
def slice (bs : List Byte) (o n : Nat) : List Byte :=
  (List.range n).map fun i => bs.getD (o + i) 0

/-- The little-endian value of `n` bytes of a list at offset `o`. -/
def field (bs : List Byte) (o n : Nat) : Nat := leNat (slice bs o n)

/-- Byte writes of consecutive bytes from a key. -/
def writesAt (key : Nat) : List Byte → List (Nat × Byte)
  | [] => []
  | b :: r => (key, b) :: writesAt (key + 1) r

/-- The first key of an area. -/
def area (n : Nat) : Nat := n * 2 ^ 64

/-- HBM: byte `off` of bank `bank` of stack `stack` (R351, R352). -/
def hbmKey (stack bank off : Nat) : Nat := area 0 + (stack * 64 + bank) * 2 ^ 30 + off

/-- The polder of a physical core (R4, R28). -/
def polderKey (core off : Nat) : Nat := area 1 + core * 2 ^ 21 + off

/-- The weight buffer of a physical core (R4, R28). -/
def wbufKey (core off : Nat) : Nat := area 2 + core * 2 ^ 20 + off

/-- Byte `off` of the table of lane `lane` of a physical core (R28, R214). -/
def laneKey (core lane off : Nat) : Nat := area 3 + core * 2 ^ 16 + lane * 2 ^ 10 + off

/-- Host memory at a host physical address (R351). -/
def hostKey (a : Nat) : Nat := area 4 + a

/-- Device-reserved memory (R352). -/
def reservedKey (off : Nat) : Nat := area 5 + off

/-- HBM of another device at a logical physical address of a job there (R351, R366). -/
def peerKey (dev job pa : Nat) : Nat := area 6 + dev * 2 ^ 48 + job * 2 ^ 40 + pa

/-- The clasp record area as a job's reader sees it (R490). -/
def claspKey (job off : Nat) : Nat := area 7 + job * 2 ^ 32 + off

/-- The area of a key. -/
def areaOf (key : Nat) : Nat := key / 2 ^ 64

/-- The physical core of a context number (log 5). -/
def coreOf (c : Nat) : Nat := c / 2

/-- The die of a physical core. -/
def dieOf (core : Nat) : Nat := core / Config.slotsPerDie

/-- The die of the context whose turn it is. -/
def State.die (s : State) : Nat := dieOf (coreOf s.cur)

/-- The lookup of a key in an association list. -/
def lookup {α : Type} (k : Nat) : List (Nat × α) → Option α
  | [] => none
  | (a, b) :: r => if a = k then some b else lookup k r

/-- The association list with a key's value replaced, or added at the end. -/
def assign {α : Type} (k : Nat) (v : α) : List (Nat × α) → List (Nat × α)
  | [] => [(k, v)]
  | (a, b) :: r => if a = k then (k, v) :: r else (a, b) :: assign k v r

/-- The association list without a key. -/
def unassign {α : Type} (k : Nat) (l : List (Nat × α)) : List (Nat × α) := l.filter fun p => p.1 != k

/-! ## Contexts -/

/-- The state of a context by its number. -/
def State.ctxOf (s : State) (c : Nat) : Ctx :=
  if c = s.cur then s.ctx
  else match lookup c s.others with
    | some x => x
    | none => Ctx.reset (c % 2 == 1)

/-- The machine with a context's state replaced. -/
def State.setCtx (s : State) (c : Nat) (x : Ctx) : State :=
  if c = s.cur then { s with ctx := x } else { s with others := assign c x s.others }

/-- The machine with the turn at context `c`. -/
def State.turnTo (s : State) (c : Nat) : State :=
  if c = s.cur then s
  else { s with ctx := s.ctxOf c, others := unassign c (assign s.cur s.ctx s.others), cur := c }

/-- The number of contexts of the package (R1, R21). -/
def numContexts : Nat := 2 * Config.dies * Config.slotsPerDie

/-! ## Clasp records -/

/-- The stamp of a member in an episode, the first recorded (R344). -/
def Clasp.stamp (k : Clasp) (e m : Nat) : Option Word :=
  (k.arrivals.find? fun a => a.1 == m && a.2.1 == e).map fun a => a.2.2

/-- The number of the last 16 completed episodes in which a member was late (R323). -/
def Clasp.late (k : Clasp) (m : Nat) : Nat :=
  (k.lateIn.filter fun p => p.2 == m && decide (k.epoch ≤ p.1 + 16)).length

/-- The flags of a clasp's members (R323). -/
def Clasp.flags (k : Clasp) : Nat :=
  (List.range k.nmem).foldl (fun f m => if k.epoch > 0 ∧ k.k ≤ k.late m then f + 2 ^ m else f) 0

/-- Byte `o` of a clasp's record (R322): stamps of completed episodes only (R323). -/
def Clasp.recordByte (k : Clasp) (o : Nat) : Byte :=
  if o < 8 then BitVec.ofNat 8 (k.epoch / 256 ^ o)
  else if o = 8 then BitVec.ofNat 8 k.nmem
  else if o = 9 then BitVec.ofNat 8 k.k
  else if o < 12 then 0
  else if o < 16 then BitVec.ofNat 8 (k.delta / 256 ^ (o - 12))
  else if o < 24 then BitVec.ofNat 8 (k.flags / 256 ^ (o - 16))
  else if o < 64 then 0
  else if o < 128 then (if o - 64 < k.nmem then BitVec.ofNat 8 (k.late (o - 64)) else 0)
  else if o < 8320 then
    let slot := (o - 128) / 512
    let m := (o - 128) % 512 / 8
    -- the last completed episode that used the slot
    let e := if k.epoch = 0 then none
      else
        let last := k.epoch - 1
        let back := (last + 16 - slot) % 16
        if back ≤ last then some (last - back) else none
    match e with
    | none => 0
    | some e =>
      match k.stamp e m with
      | some t => BitVec.ofNat 8 (t.toNat / 256 ^ ((o - 128) % 8))
      | none => 0
  else 0

/-! ## Reading and writing bytes -/

/-- An ASID's entry in the ASID table (R357), in device-reserved memory (log 10). -/
def State.asidEntry (s : State) (a : BitVec 13) : Nat :=
  leNat ((List.range 8).map fun i => s.mem.get (reservedKey (Config.asidTableOff + 8 * a.toNat + i)))

/-- The job of an ASID (R357). -/
def State.jobOf (s : State) (a : BitVec 13) : Nat := s.asidEntry a / 2 ^ 40 % 256

/-- An ASID entry that is live and well formed (R357). -/
def asidLive (e : Nat) : Bool := e / 2 ^ 63 % 2 == 1 && e / 2 ^ 48 % 2 ^ 14 == 0 && e % 2 ^ 16 == 0

/-- HBM answers: the clocks run, and the power level is not 3 or 4 (R423, R425). -/
def Dev.hbmAwake (d : Dev) : Bool := d.win.state != 6 && decide (d.win.level < 3)

/-- The thermal trip has stopped every clock (R425). -/
def State.tripped (s : State) : Bool := s.dev.win.state == 6

/-- The far side refuses an access to a key (R367, R393). -/
def State.refuses (s : State) (key : Nat) : Bool :=
  s.dev.refusing.contains (key / 65536) || (areaOf key == 6 && s.dev.cutOff.contains (key % 2 ^ 64 / 2 ^ 48))

/-- The byte that a key reads as; 0 where the far side refuses the load (R367). -/
def State.byteAt (s : State) (key : Nat) : Byte :=
  if areaOf key = 7 then
    let off := key % 2 ^ 32
    match lookup (off / 16384) s.dev.clasps with
    | some k => if s.jobOf k.asid = key % 2 ^ 64 / 2 ^ 32 then k.recordByte (off % 16384) else 0
    | none => 0
  else if s.refuses key then 0
  else s.mem.get key

/-- `n` bytes from a key. -/
def State.bytesAt (s : State) (key n : Nat) : List Byte := (List.range n).map fun i => s.byteAt (key + i)

/-- The little-endian value of `n` bytes at a key. -/
def State.natAt (s : State) (key n : Nat) : Nat := leNat (s.bytesAt key n)

/-- A range of bytes meets an uncorrectable 8-byte word (R389). -/
def State.isBad (s : State) (key n : Nat) : Bool :=
  s.dev.eccBad.any fun w => decide (w * 8 < key + n) && decide (key < w * 8 + 8)

/-- The offset of the first byte of a range that lies in an uncorrectable word, 0 where there is none: a record names it (R391). -/
def State.badAt (s : State) (key n : Nat) : Nat := ((List.range n).find? fun o => s.dev.eccBad.contains ((key + o) / 8)).getD 0

/-- Whether a list of writes covers the whole 8-byte word `w` (R389). -/
def coversWord (ws : List (Nat × Byte)) (w : Nat) : Bool :=
  (List.range 8).all fun i => ws.any fun x => x.1 == w * 8 + i

/-- The uncorrectable words that a list of writes meets and does not cover: those writes are discarded (R389). -/
def State.lostWords (s : State) (ws : List (Nat × Byte)) : List Nat :=
  s.dev.eccBad.filter fun w => ws.any (fun x => x.1 / 8 == w) && !coversWord ws w

/-- Byte writes at their locations (R389): a write that covers an uncorrectable word repairs it, and narrower writes into one are
discarded; so are writes that the far side refuses (R367). -/
def State.put (s : State) (ws : List (Nat × Byte)) : State :=
  let lost := s.lostWords ws
  { s with
    mem := s.mem.setAll (ws.filter fun x => !lost.contains (x.1 / 8) && !s.refuses x.1)
    dev := { s.dev with eccBad := s.dev.eccBad.filter fun w => !coversWord ws w } }

/-! ## Lines of a snapshot -/

/-- The place of a line among those of a snapshot. -/
def indexIn (key : Nat) : List Nat → Nat → Option Nat
  | [], _ => none
  | k :: r, n => if k = key then some n else indexIn key r (n + 1)

/-- A line copied to the snapshot area (R225); where it does not fit, the engine stops (R414). Line n of the ascending order lies at
offset 64 n of the area (log 32). -/
def State.copyLine (s : State) (key : Nat) : State :=
  match s.dev.snap with
  | none => s
  | some p =>
    match indexIn key p.lines 0 with
    | none => s
    | some n =>
      if p.copied.contains key || p.overflow then s
      else if p.size < 64 * n + 64 then { s with dev := { s.dev with snap := some { p with overflow := true } } }
      else
        let bytes := (List.range 64).map fun i => p.image.get (key + i)
        let s := s.put (writesAt (reservedKey (Config.snapAreaOff + p.base + 64 * n)) bytes)
        { s with dev := { s.dev with snap := some { p with copied := key :: p.copied } } }

/-- The lines of the snapshot in progress that writes are about to change are copied first (R225). -/
def State.copyFirst (s : State) (ws : List (Nat × Byte)) : State :=
  match s.dev.snap with
  | none => s
  | some p => (p.lines.filter fun k => ws.any fun w => w.1 / 64 * 64 == k).foldl State.copyLine s

/-- Byte writes performed (R225, R389). -/
def State.store (s : State) (ws : List (Nat × Byte)) : State := (s.copyFirst ws).put ws

end Sys2Proof.Machine
end

