-- ==== Sys2Proof/Machine/Nest.lean ====
section
/-! DEFINITION. Nest blocks and their enumerations (R125 to R127). -/

namespace Sys2Proof.Machine

/-- A nest block (R125): NDIM, ORD, the six bounds and the six byte strides. -/
structure NestBlock where
  ndim : Nat
  ord : Nat
  bound : List Nat
  stride : List Int
  deriving DecidableEq, Repr

/-- A 32-bit field read as signed. -/
def sext32 (n : Nat) : Int := (BitVec.ofNat 32 n).toInt

/-- The nest block that 64 bytes hold, if it is valid (R125, R126). -/
def parseNest (bs : List Byte) : Option NestBlock :=
  let h := field bs 0 4
  let ndim := h / 2 ^ 20 % 16
  let ord := h / 2 ^ 16 % 16
  let bound := (List.range 6).map fun k => field bs (8 + 8 * k) 4
  let stride := (List.range 6).map fun k => sext32 (field bs (12 + 8 * k) 4)
  let unused := (List.range 6).all fun k => decide (k < ndim) || field bs (8 + 8 * k) 8 == 0
  if h / 2 ^ 24 = 0x01 ∧ 1 ≤ ndim ∧ ndim ≤ 6 ∧ ord ≤ 3 ∧ (ord ≠ 3 ∨ 2 ≤ ndim) ∧ h % 2 ^ 16 = 0 ∧ field bs 4 4 = 0 ∧
      field bs 56 8 = 0 ∧ unused then some ⟨ndim, ord, bound, stride⟩
  else none

/-- Bound k; 1 beyond the block's dimensions. -/
def NestBlock.bnd (n : NestBlock) (k : Nat) : Nat := if k < n.ndim then n.bound.getD k 1 else 1

/-- The number of tuples. -/
def NestBlock.count (n : NestBlock) : Nat := (List.range 6).foldl (fun p k => p * n.bnd k) 1

/-- The indices with dimensions `ds` counted on, the first of them fastest; none after the last (R127). DESIGN CHOICE (log 80): an index at
or past its bound, which a block that was changed while its body was active leaves (R128), is the last one of its dimension, and goes
back to 0. -/
def advance (n : NestBlock) : List Nat → List Nat → Option (List Nat)
  | [], _ => none
  | d :: ds, j =>
    if j.getD d 0 + 1 < n.bnd d then some (j.set d (j.getD d 0 + 1)) else advance n ds (j.set d 0)

/-- Bit b of j0 and j1 interleaved: Morton code bit 2b is j0[b], bit 2b + 1 is j1[b] (R127). -/
def mortonNext (n : NestBlock) (j0 j1 : Nat) : Option (Nat × Nat) :=
  (List.range 64).findSome? fun p =>
    let b := p / 2
    let own := if p % 2 = 0 then j0 else j1
    if own / 2 ^ b % 2 = 1 then none
    else
      -- bit p set, every lower code bit clear
      let c0 := if p % 2 = 0 then (j0 / 2 ^ b + 1) * 2 ^ b else j0 / 2 ^ (b + 1) * 2 ^ (b + 1)
      let c1 := if p % 2 = 0 then j1 / 2 ^ b * 2 ^ b else (j1 / 2 ^ b + 1) * 2 ^ b
      if c0 < n.bnd 0 ∧ c1 < n.bnd 1 then some (c0, c1) else none

/-- The tuple after `j`; none after the last (R127). DESIGN CHOICE (log 56): in snake order the direction is that of j1 as it
stands, also in a nest of one dimension, whose body may write j1. -/
def NestBlock.next (n : NestBlock) (j : List Nat) : Option (List Nat) :=
  let j0 := j.getD 0 0
  let j1 := j.getD 1 0
  let outer := (List.range n.ndim).drop 1
  if n.ord = 0 then advance n (List.range n.ndim) j
  else if n.ord = 1 then advance n (List.range n.ndim).reverse j
  else if n.ord = 2 then
    let m := if j1 % 2 = 0 then j0 else n.bnd 0 - 1 - j0
    if m + 1 < n.bnd 0 then some (j.set 0 (if j1 % 2 = 0 then j0 + 1 else j0 - 1))
    else
      match advance n outer j with
      | some j' => some (j'.set 0 (if j'.getD 1 0 % 2 = 0 then 0 else n.bnd 0 - 1))
      | none => none
  else
    match mortonNext n j0 j1 with
    | some (a, b) => some ((j.set 0 a).set 1 b)
    | none => advance n (outer.drop 1) ((j.set 0 0).set 1 0)

/-- The indices of a mixed-radix count, the first dimension of `ds` fastest. -/
def digits (n : NestBlock) : List Nat → Nat → List Nat → List Nat
  | [], _, j => j
  | d :: ds, v, j => digits n ds (v / n.bnd d) (j.set d (v % n.bnd d))

/-- The `k`-th tuple of the enumeration, from 0 (R127, R304). -/
def NestBlock.nth (n : NestBlock) (k : Nat) : List Nat :=
  let zero := List.replicate 6 0
  if n.ord = 0 then digits n (List.range n.ndim) k zero
  else if n.ord = 1 then digits n (List.range n.ndim).reverse k zero
  else if n.ord = 2 then
    let j := digits n (List.range n.ndim) k zero
    if j.getD 1 0 % 2 = 0 then j else j.set 0 (n.bnd 0 - 1 - j.getD 0 0)
  else k.rec (motive := fun _ => List Nat) zero fun _ j => (n.next j).getD j

/-- Every tuple in order, at most `fuel` of them after `j`. -/
def NestBlock.walkFrom (n : NestBlock) : Nat → List Nat → List (List Nat)
  | 0, j => [j]
  | f + 1, j =>
    match n.next j with
    | some j' => j :: NestBlock.walkFrom n f j'
    | none => [j]

/-- Every tuple of the enumeration (R127); none when a bound is 0. -/
def NestBlock.tuples (n : NestBlock) : List (List Nat) :=
  if n.count = 0 then [] else n.walkFrom (n.count - 1) (List.replicate 6 0)

end Sys2Proof.Machine
end

