-- ==== Sys2Proof/Machine/Translate.lean ====
section
/-! DEFINITION. Translation (R347 to R366): place tables, page-table walks with their A and D updates, TLB entries, and the
location that an access reaches. -/

namespace Sys2Proof.Machine

/-- The kinds of access that a leaf's rights are checked against (R350). -/
inductive AccKind where
  | load | store | rmw | fetch
  deriving DecidableEq, Repr

/-- The cause of a failed translation (R350). -/
def AccKind.cause : AccKind → Nat
  | .load => 0x05
  | .store => 0x06
  | .rmw => 0x06
  | .fetch => 0x07

/-- An access that writes. -/
def AccKind.writes : AccKind → Bool
  | .load => false
  | .store => true
  | .rmw => true
  | .fetch => false

/-! ## The place table -/

/-- The key of a place-table entry: kind 0 CORE, 1 DIE, 2 BANK (R353). -/
def placeKey (job kind index : Nat) : Nat := job * 4096 + kind * 1024 + index

/-- Job 0's entries as bring-up fills them (R427); 0, not valid, before bring-up. -/
def Dev.bootPlace (d : Dev) (kind index : Nat) : Nat :=
  if d.bootSlots.isEmpty then 0
  else if kind = 0 then
    match d.bootSlots.getD (index / 48) [] with
    | slots =>
      match slots[index % 48]? with
      | some slot => if index < 48 * Config.dies then 2 ^ 63 + (index / 48) * 2 ^ 8 + slot else 0
      | none => 0
  else if kind = 1 then (if index < Config.dies then 2 ^ 63 + index else 0)
  else if index % 64 < Config.banksPerStack ∧ d.bootStacks.contains (index / 64) then
    2 ^ 63 + (index / 64) * 2 ^ 6 + index % 64
  else 0

/-- A place-table entry (R353): as written by placew, else as bring-up left it. -/
def Dev.placeEntry (d : Dev) (job kind index : Nat) : Nat :=
  match lookup (placeKey job kind index) d.place with
  | some w => w.toNat
  | none => if job = 0 then d.bootPlace kind index else 0

/-- A core that a power level gates (R423): at level 2 it is one of the 24 enabled cores in the highest slots of its die, at levels 3
and 4 every core is off. -/
def Dev.gatedAt (d : Dev) (level core : Nat) : Bool :=
  decide (3 ≤ level) ||
    (level == 2 && decide ((d.enabled.filter fun c => dieOf c == dieOf core && decide (core < c)).length < 24))

/-- A core that the current level gates, or the one that a transition leads to. -/
def Dev.gated (d : Dev) (core : Nat) : Bool := d.gatedAt d.win.level core || d.win.busy.any fun l => d.gatedAt l core

/-- A physical core that is enabled and has not failed (R353, R394, R395, R423). -/
def Dev.coreUp (d : Dev) (core : Nat) : Bool :=
  d.enabled.contains core && !d.failed.contains core && !d.lostDies.contains (dieOf core) && !d.gated core

/-- The physical core that a logical core of a job is mapped to (R353). -/
def Dev.physCore (d : Dev) (job l : Nat) : Option Nat :=
  let e := d.placeEntry job 0 l
  let g := d.placeEntry job 1 (e / 2 ^ 8 % 4)
  let core := g % 4 * Config.slotsPerDie + e % 64
  if e / 2 ^ 63 = 1 ∧ g / 2 ^ 63 = 1 ∧ e % 64 < Config.slotsPerDie ∧ d.coreUp core then some core else none

/-- The logical core of a job, the lowest one, that names a physical core; used where a record names a logical core (R391) and
where drains are ordered (R223). -/
def Dev.logCore (d : Dev) (job core : Nat) : Option Nat :=
  (List.range 512).find? fun l => d.physCore job l == some core

/-- A logical HBM address of a job as a physical key (R351): the clasp record bank (R490), or a bank through the job's BANK entry,
unless its stack is lost (R393). The reserved bank of job 0 (log 10) is reached only through an entry that itself lies in
device-reserved memory (R428), which `boot` says. -/
def Dev.hbmLoc (d : Dev) (boot : Bool) (job pa : Nat) : Option Nat :=
  let c := pa / 2 ^ 36
  let b := pa / 2 ^ 30 % 64
  let off := pa % 2 ^ 30
  if 2 ^ 40 ≤ pa then none
  else if c = 15 ∧ b = 63 then (if off < 2 ^ 22 then some (claspKey job off) else none)
  else if boot ∧ job = 0 ∧ c = 0 ∧ b = Config.reservedBank then some (reservedKey off)
  else if Config.banksPerStack ≤ b then none
  else
    let e := d.placeEntry job 2 (c * 64 + b)
    let stack := e / 2 ^ 6 % 16
    if e / 2 ^ 63 = 1 ∧ !d.lostStacks.contains stack ∧ e % 64 < Config.banksPerStack then some (hbmKey stack (e % 64) off) else none

/-! ## Page-table entries -/

/-- The fields of a page-table entry (R348). -/
def pteBit (e n : Nat) : Bool := e / 2 ^ n % 2 == 1
def pteLoc (e : Nat) : Nat := e / 2 ^ 10 % 4
def ptePa (e : Nat) : Nat := e / 2 ^ 16 % 2 ^ 40 * 2 ^ 16
def ptePeer (e : Nat) : Nat := e / 2 ^ 56 % 64

/-- The address bits that an entry of level 3, 2 or 1 leaves as the offset of a leaf (R347). -/
def levelBits (level : Nat) : Nat := 16 + 13 * (level - 1)

/-- An entry that fails translation at its level (R349): not valid, or malformed. -/
def pteBad (level e : Nat) : Bool :=
  !pteBit e 0 || e / 2 ^ 62 != 0 || e / 2 ^ 12 % 8 != 0 || (ptePeer e != 0 && pteLoc e != 3) || (pteBit e 3 && !pteBit e 2) ||
    (if pteBit e 1 then ptePa e % 2 ^ levelBits level != 0 || (pteLoc e == 1 && level != 1)
     else level == 1 || pteLoc e != 0 || decide (2 ^ 40 ≤ ptePa e))

/-- What a walk finds: the leaf, its level and its key, or the failure; `bad` when an entry's word is uncorrectable (R389). -/
inductive Walk where
  | leaf (e level key : Nat)
  | fail
  | bad
  deriving DecidableEq, Repr

/-- The entries read from a table down (R349); `boot` says whether the entry that names the table lies in device-reserved memory, as
those of the ASID table do (R428). -/
def State.walkFrom (s : State) (job va : Nat) : Nat → Bool → Nat → Walk
  | 0, _, _ => .fail
  | level + 1, boot, table =>
    match s.dev.hbmLoc boot job (table + 8 * (va / 2 ^ levelBits (level + 1) % 2 ^ 13)) with
    | none => .fail
    | some key =>
      if s.isBad key 8 then .bad
      else
        let e := s.natAt key 8
        if pteBad (level + 1) e then .fail
        else if pteBit e 1 then .leaf e (level + 1) key
        else State.walkFrom s job va level (areaOf key == 5) (ptePa e)

/-- A walk under an ASID (R349, R357). -/
def State.walk (s : State) (asid : BitVec 13) (va : Nat) : Walk :=
  let a := s.asidEntry asid
  if asidLive a then s.walkFrom (a / 2 ^ 40 % 256) va 3 true (a / 2 ^ 16 % 2 ^ 24 * 2 ^ 16) else .fail

/-- The A and D bits that a walk sets (R361). -/
def pteTouched (e : Nat) (k : AccKind) : Nat :=
  let e := if pteBit e 8 then e else e + 2 ^ 8
  if k.writes && !pteBit e 9 then e + 2 ^ 9 else e

/-- A leaf written back with its A and D bits. -/
def State.touch (s : State) (key e : Nat) (k : AccKind) : State :=
  if pteTouched e k = e then s
  else
    let ws := writesAt key (leBytes 8 (pteTouched e k))
    let s := s.copyFirst ws
    { s with mem := s.mem.setAll ws }

/-- The TLB entry that answers for an address (R360, R365, R366): of the ASID, or of its job where G = 1, and never of another job. -/
def State.tlbFind (s : State) (asid : BitVec 13) (va : Nat) (k : AccKind) : Option TlbEntry :=
  if s.dev.tlbOn then
    s.dev.tlb.find? fun t =>
      (t.asid == asid || pteBit t.leaf.toNat 7) && t.job == s.jobOf asid && va / 2 ^ t.bits == t.va.toNat / 2 ^ t.bits &&
        (!k.writes || pteBit t.leaf.toNat 9)
  else none

/-- A leaf as an access finds it: the entry, the address bits that it leaves as the offset, whether it lies in device-reserved memory
(R428), and whether a walk has read it now. -/
structure Leaf where
  entry : Nat
  bits : Nat
  boot : Bool
  fresh : Bool
  deriving DecidableEq, Repr

/-- The leaf for an address with the machine after the walk and its A and D updates (R361); none for a failure, which is one of an
uncorrectable entry where the flag says so. -/
def State.leafFor (s : State) (asid : BitVec 13) (va : Nat) (k : AccKind) : Option Leaf × Bool × State :=
  match s.tlbFind asid va k with
  | some t => (some ⟨t.leaf.toNat, t.bits, t.boot, false⟩, false, s)
  | none =>
    match s.walk asid va with
    | .fail => (none, false, s)
    | .bad => (none, true, s)
    | .leaf e level key => (some ⟨pteTouched e k, levelBits level, areaOf key == 5, true⟩, false, s.touch key e k)

/-- An address of another device's HBM that an access may reach (R351), as one of LOC 00 on that device: a bank, or in its clasp record bank
the record area, which no access writes (R490). -/
def peerReaches (pa : Nat) (writes : Bool) : Bool :=
  decide (pa < 2 ^ 40) &&
    (decide (pa / 2 ^ 30 % 64 < Config.banksPerStack) ||
      (pa / 2 ^ 36 == 15 && pa / 2 ^ 30 % 64 == 63 && decide (pa % 2 ^ 30 < 2 ^ 22) && !writes))

/-- The location behind a leaf (R351). What a job reaches on another device is its own there: that device's place tables keep the jobs
apart (R366). -/
def State.locOf (s : State) (asid : BitVec 13) (va : Nat) (l : Leaf) (k : AccKind) : Except Refused Loc :=
  let e := l.entry
  let a := s.asidEntry asid
  let job := a / 2 ^ 40 % 256
  let pa := ptePa e + va % 2 ^ l.bits
  let fail := Except.error (Refused.cause k.cause (BitVec.ofNat 64 va))
  let hbm := match s.dev.hbmLoc l.boot job pa with
    | some key => if areaOf key = 7 ∧ k.writes then fail else .ok ⟨key, pteBit e 5, pteBit e 6, false⟩
    | none => fail
  match pteLoc e with
  | 0 => hbm
  | 1 =>
    let slot := pa / 2 ^ 16 % 32
    match s.dev.physCore job (pa / 2 ^ 21 % 512) with
    | some core =>
      if 2 ^ 30 ≤ pa ∨ 24 ≤ slot then .error (.cause 0x08 (BitVec.ofNat 64 va))
      else .ok ⟨polderKey core (pa % 2 ^ 21), pteBit e 5, pteBit e 6, false⟩
    | none => .error (.cause 0x08 (BitVec.ofNat 64 va))
  | 2 => if a / 2 ^ 62 % 2 = 1 then .ok ⟨hostKey pa, pteBit e 5, false, true⟩ else fail
  | _ =>
    if ptePeer e = s.dev.win.domain then hbm
    else if s.dev.peers.contains (ptePeer e, job) ∧ peerReaches pa k.writes then .ok ⟨peerKey (ptePeer e) job pa, pteBit e 5, false, false⟩
    else fail

/-- The rights that an access needs of a leaf (R350). -/
def leafAllows (e : Nat) (k : AccKind) (priv : Priv) : Bool :=
  (match k with
    | .load => pteBit e 2
    | .store => pteBit e 3
    | .rmw => pteBit e 2 && pteBit e 3
    | .fetch => pteBit e 4) && (priv != .app || !pteBit e 15)

/-- A translation that succeeded, kept where translations are (log 8): the entry covers the page that the leaf maps (R360). A failed
one is never kept (R359, R362). -/
def State.keepLeaf (s : State) (asid : BitVec 13) (va : Word) (l : Leaf) : State :=
  if s.dev.tlbOn && l.fresh then
    { s with dev := { s.dev with tlb := ⟨asid, s.jobOf asid, va, l.bits, BitVec.ofNat 64 l.entry, l.boot⟩ :: s.dev.tlb } }
  else s

/-- The translation of a GLOBAL address under an ASID and a privilege level (R229, R347 to R351, R361). The machine returned holds
the A and D updates of the walk, made whether or not the checks of the leaf pass, and the TLB entry of one that succeeds. -/
def State.translate (s : State) (asid : BitVec 13) (priv : Priv) (k : AccKind) (va : Word) : Except Refused Loc × State :=
  if 2 ^ 55 ≤ va.toNat then (.error (.cause k.cause va), s)
  else
    match s.leafFor asid va.toNat k with
    | (none, true, s') => (.error (.ecc 0 va), s')
    | (none, false, s') => (.error (.cause k.cause va), s')
    | (some l, _, s') =>
      if leafAllows l.entry k priv then
        match s'.locOf asid va.toNat l k with
        | .ok loc => (.ok loc, s'.keepLeaf asid va l)
        | .error r => (.error r, s')
      else (.error (.cause k.cause va), s')

end Sys2Proof.Machine
end

