-- ==== Sys2Proof/Machine/Ops.lean ====
section
/-! DEFINITION. The named operations over registers and memory, the end of an SCT word, machine-check records, taking an exception
and returning from one. -/

namespace Sys2Proof.Machine

/-- What a step or a meaning answers. -/
abbrev Res := Host.Outcome State Fault Refusal

/-! ## Registers -/

/-- Register x[r]; x0 reads 0 (R34, R41). -/
def Ctx.getX (c : Ctx) (r : BitVec 5) : Word := if r = 0 then 0 else c.x[r.toNat]

/-- A write of x[r]; a write of x0 is discarded (R41). -/
def Ctx.setX (c : Ctx) (r : BitVec 5) (v : Word) : Ctx := if r = 0 then c else { c with x := c.x.set r.toNat v }

/-- Register x[r] of the context whose turn it is. -/
def State.getX (s : State) (r : BitVec 5) : Word := s.ctx.getX r

/-- A write of x[r] of the context whose turn it is. -/
def State.setX (s : State) (r : BitVec 5) (v : Word) : State := { s with ctx := s.ctx.setX r v }

/-- A change of the context whose turn it is. -/
def State.onCtx (s : State) (f : Ctx → Ctx) : State := { s with ctx := f s.ctx }

/-- A change of the device. -/
def State.onDev (s : State) (f : Dev → Dev) : State := { s with dev := f s.dev }

/-- A change of the control window. -/
def State.onWin (s : State) (f : Window → Window) : State := { s with dev := { s.dev with win := f s.dev.win } }

/-- The sticky float flags with more of them set (R92). -/
def State.orFlags (s : State) (fl : BitVec 5) : State := { s with ctx := { s.ctx with fflags := s.ctx.fflags ||| fl } }

/-- A PC as a CSR holds it (R129, R397). -/
def pcBits (v : Word) : Nat := v.toNat % 2 ^ 55 / 4 * 4

/-- The program counter plus a word offset, modulo 2^55 (R118, R119). -/
def pcPlus (pc : Word) (d : Int) : Word := BitVec.ofInt 64 ((pc.toNat + d) % 2 ^ 55)

/-! ## The end of an SCT word -/

/-- The indices that a nest body holds in j0 to j5 (R33). -/
def Ctx.tuple (c : Ctx) : List Nat := (List.range 6).map fun k => (c.getX (BitVec.ofNat 5 (19 + k))).toNat

/-- The indices written to j0 to j5. -/
def Ctx.setTuple (c : Ctx) (j : List Nat) : Ctx :=
  (List.range 6).foldl (fun c k => c.setX (BitVec.ofNat 5 (19 + k)) (BitVec.ofNat 64 (j.getD k 0))) c

/-- The address of the first body word. -/
def LoopSt.first (l : LoopSt) : Word := pcPlus l.head 4

/-- The address past the body. -/
def LoopSt.past (l : LoopSt) : Word := pcPlus l.head (4 + 4 * l.body.length)

/-- The context after the last word of a body has completed: the count or the tuple advances, and the body starts again or ends
(R124, R128). DESIGN CHOICE (log 56): a j register beyond the nest's dimensions, which its body may write (R123), keeps what the
body wrote. -/
def Ctx.nextPass (c : Ctx) (l : LoopSt) : Ctx :=
  let again := fun (c : Ctx) => { c with pc := l.first, loop := some { l with idx := 0 } }
  let finish := fun (c : Ctx) => { c with pc := l.past, loop := none }
  match l.nest with
  | none =>
    let n := c.getX l.xa - 1
    let c := c.setX l.xa n
    if n = 0 then finish c else again c
  | some bs =>
    match parseNest bs with
    | none => finish c
    | some b =>
      match b.next c.tuple with
      | some j => again (c.setTuple j)
      | none => finish c

/-- The completion of an SCT word that does not branch: the next word follows, in a body or outside it; the lend latch has been
used (R137) and nothing is waited for. -/
def Ctx.retire (c : Ctx) : Ctx :=
  let c := { c with latch := none, stall := none }
  match c.loop with
  | none => { c with pc := pcPlus c.pc 4 }
  | some l =>
    if l.idx + 1 < l.body.length then { c with pc := pcPlus c.pc 4, loop := some { l with idx := l.idx + 1 } }
    else c.nextPass l

/-- The completion of an SCT word (see `Ctx.retire`). -/
def State.retire (s : State) : State := { s with ctx := s.ctx.retire }

/-- The completion of an SCT word that goes to `target` (R118 to R120); a body holds no such word (R123). -/
def State.retireTo (s : State) (target : Word) : State :=
  { s with ctx := { s.ctx with latch := none, stall := none, pc := target, loop := none } }

/-- The SCT waits at its word, which it executes again; the vector unit catches up meanwhile (log 6). A
lend successor that waits for a queue or a memory word has begun (R75). -/
def State.stallFor (s : State) (k : Stall) : State :=
  let begins := k == .pop || k == .word
  { s with ctx := { s.ctx with
      stall := some k, lag := 0, latch := s.ctx.latch.map fun l => { l with begun := l.begun || begins } } }

/-! ## Performing writes -/

/-- The bytes of a machine-check record (R391). -/
structure Record where
  kind : Nat
  space : Nat
  detail : Nat
  addr : Word
  pc : Word
  lcore : Nat
  sec : Nat
  asid : BitVec 13
  ctr : Nat
  tail : List Byte
  deriving DecidableEq, Repr

/-- The 64 bytes of record number `seq` (R391). -/
def Record.bytes (r : Record) (seq gts : Nat) : List Byte :=
  leBytes 8 seq ++ leBytes 1 0x01 ++ leBytes 1 r.kind ++ leBytes 1 r.space ++ leBytes 1 0 ++ leBytes 4 r.detail ++
    leBytes 8 r.addr.toNat ++ leBytes 8 r.pc.toNat ++ leBytes 2 r.lcore ++ leBytes 1 r.sec ++ leBytes 1 0 ++
    leBytes 2 r.asid.toNat ++ leBytes 2 r.ctr ++ leBytes 8 gts ++ slice r.tail 0 16

/-- Sixty-four bytes appended to the machine-check ring of the job of an ASID (R390), through that ASID's translation (log 21); the
answer is the record's address, 0 when no ring is registered, its page does not translate, or HBM is in self-refresh (R423; log 35). -/
def State.appendRecord (s : State) (asid : BitVec 13) (bytes : Nat → List Byte) : State × Word :=
  let job := s.jobOf asid
  match (if s.dev.hbmAwake then lookup job s.dev.mcRings else none) with
  | none => (s, 0)
  | some (ring, seq) =>
    let at_ := ring + BitVec.ofNat 64 (64 * (seq % 4096))
    match s.translate asid .hyp .store at_ with
    | (.ok l, s) =>
      ((s.store (writesAt l.key (bytes seq))).onDev fun d => { d with mcRings := assign job (ring, seq + 1) d.mcRings }, at_)
    | (.error _, s) => (s, 0)

/-- A machine-check record written (R390, R391). -/
def State.record (s : State) (ringAsid : BitVec 13) (r : Record) : State × Word :=
  s.appendRecord ringAsid fun seq => r.bytes seq s.gts

/-- The key of the TRIG word of a regeneration descriptor and its period N, under job 0 (R226, R414), with the machine after the
descriptor was read. DESIGN CHOICE (log 93): the descriptor is read again at every store. -/
def State.trigOf (s : State) (addr : Word) : Option (Nat × Nat) × State :=
  match s.translate 0 .hyp .load addr with
  | (.ok l, s) =>
    match (s.translate 0 .hyp .load (BitVec.ofNat 64 (s.natAt l.key 8))).1 with
    | .ok t => (some (t.key, s.natAt (l.key + 8) 4), s)
    | .error _ => (none, s)
  | (.error _, s) => (none, s)

/-- A descriptor after one more write of its TRIG word of period `n` (R227): at a multiple of `n` a run is owed, at most one behind
the run in progress or the one that starts next. DESIGN CHOICE (log 83): a descriptor with N = 0 starts no run, and one with an address
that is not aligned, or with bytes that should be zero, runs as it stands. -/
def Regen.count1 (n : Nat) (r : Regen) : Regen :=
  let hit := n != 0 && (r.count + 1) % n == 0 && !r.drop
  { r with
    count := r.count + 1
    owed := if hit then Nat.min (r.owed + 1) (if r.running.isSome then 1 else 2) else r.owed }

/-- A range of stored bytes meets the 8 bytes at a key. -/
def meetsWord (key : Nat) (r : Nat × Nat) : Bool := decide (key < r.1 + r.2) && decide (r.1 < key + 8)

/-- The regeneration descriptors after stores to these ranges (R227): every store of a TRIG word counts once. -/
def State.countTriggers (s : State) (parts : List (Nat × Nat)) : State :=
  s.dev.regens.foldl (fun s r =>
    match s.trigOf r.addr with
    | (some (key, n), s) =>
      let hits := (parts.filter (meetsWord key)).length
      s.onDev fun d => { d with regens := d.regens.map fun q => if q.addr == r.addr then (Regen.count1 n)^[hits] q else q }
    | (none, s) => s) s

/-- The fields of a record that name context `c` as the consumer (R391). DESIGN CHOICE (log 96): LCORE is 0 where no logical core of its
job names its physical core. -/
def State.recordOf (s : State) (c kind space : Nat) (addr : Word) : Record :=
  let x := s.ctxOf c
  { kind, space, detail := 0, addr, pc := x.pc,
    lcore := (s.dev.logCore (s.jobOf x.asid) (coreOf c)).getD 0, sec := c % 2, asid := x.asid, ctr := 0, tail := [] }

/-- An asynchronous machine check made pending for a context (R371, R392). -/
def State.pendMcheck (s : State) (c : Nat) (p : Pending) : State :=
  let x := s.ctxOf c
  s.setCtx c { x with pMcheck := x.pMcheck ++ [p] }

/-- What a record says of the place of an access (R391): its space, its address, and the PC of its word, 0 for an engine. -/
structure Spot where
  sp : Nat
  va : Word
  pc : Word
  deriving DecidableEq, Repr

/-- A machine check asynchronous to context `c` for an access at a place (R391, R392): its record, and the cause made pending. -/
def State.report (s : State) (c kind : Nat) (p : Spot) : State :=
  match s.record (s.ctxOf c).asid { s.recordOf c kind p.sp p.va with pc := p.pc } with
  | (s, a) => s.pendMcheck c ⟨a, false, none⟩

/-- A load of context `c` that the far side refuses, when it is performed (R367, kind REFUSED). -/
def State.noteRefused (s : State) (c key : Nat) (p : Spot) : State := if s.refuses key then s.report c 4 p else s

/-- The first written key of each 64 KiB page that the far side refuses (R367). -/
def State.refusedKeys (s : State) (ws : List (Nat × Byte)) : List Nat :=
  (ws.filter fun w => s.refuses w.1).foldl (fun ks w => if ks.any fun k => k / 65536 == w.1 / 65536 then ks else ks ++ [w.1]) []

/-- Stores to these ranges have been performed: the triggers that they have written are counted (R227). -/
def State.noteStores (s : State) (parts : List (Nat × Nat)) : State :=
  if parts.isEmpty || s.dev.regens.isEmpty then s else s.countTriggers parts

/-- Writes performed (R225, R227, R389): memory, then the triggers that the stores among them, `parts`, have written. -/
def State.settleWrites (s : State) (parts : List (Nat × Nat)) (ws : List (Nat × Byte)) : State := (s.store ws).noteStores parts

/-- The first of the written keys that lies in the 8-byte word `w`. -/
def firstIn (ws : List (Nat × Byte)) (w : Nat) : Nat := ((ws.find? fun x => x.1 / 8 == w).map (·.1)).getD (w * 8)

/-- Writes of context `c` performed: every uncorrectable word that they do not cover (R389, PARTIAL) and every page that the far side
refuses (R367) is a machine check of that context at the place that `spot` gives for its key. -/
def State.perform (s : State) (c : Nat) (spot : Nat → Spot) (parts : List (Nat × Nat)) (ws : List (Nat × Byte)) : State :=
  let lost := (s.lostWords ws).map (firstIn ws)
  let refused := s.refusedKeys ws
  let s := lost.foldl (fun s k => s.report c 2 (spot k)) s
  let s := refused.foldl (fun s k => s.report c 4 (spot k)) s
  s.settleWrites parts ws

/-! ## Taking an exception -/

/-- A store enters the access path, numbered (R252). -/
def Ctx.enqueue (c : Ctx) (p : Pend) : Ctx := { c with stores := c.stores ++ [{ p with num := c.path }], path := c.path + 1 }

/-- A buffered line as it leaves the buffer. -/
def WLine.pend (l : WLine) : Pend :=
  { writes := l.writes, cls := l.line % 8, hs := false, barrier := 0, asid := l.asid, job := l.job, va := l.va, key := 64 * l.line, sp := l.sp, pc := l.pc,
    num := 0, drain := true, parts := l.parts, word := 0 }

/-- The buffered lines that a test selects leave the buffer for the access path, oldest first. -/
def Ctx.leave (c : Ctx) (f : WLine → Bool) : Ctx :=
  (c.wcb.filter f).foldl (fun c l => c.enqueue l.pend) { c with wcb := c.wcb.filter fun l => !f l }

/-- A barrier among the stores. -/
def Pend.fence (kind : Nat) : Pend := ⟨[], 8, false, kind, 0, 0, 0, 0, 15, 0, 0, false, [], 0⟩

/-- A barrier at the end of the access path (R245); one of kind 3, a vfence.d that drains, puts the buffered lines before it (R247). -/
def Ctx.placeBar (c : Ctx) (kind : Nat) : Ctx :=
  let c := if kind = 3 then c.leave fun _ => true else c
  if c.stores.isEmpty then c else c.enqueue (Pend.fence (Nat.min kind 2))

/-- Byte writes merged into a line's writes. -/
def mergeLine (old ws : List (Nat × Byte)) : List (Nat × Byte) := ws.foldl (fun l w => assign w.1 w.2 l) old

/-- A store put into its line of the buffer (R222), or into a new one. -/
def Ctx.buffer (c : Ctx) (age : Nat) (p : Pend) : Ctx :=
  let line := p.key / 64
  let va := p.va - BitVec.ofNat 64 (p.key % 64)
  if c.wcb.any fun l => l.line == line then
    { c with wcb := c.wcb.map fun l =>
        if l.line == line then { l with writes := mergeLine l.writes p.writes, parts := l.parts ++ p.parts, va, sp := p.sp, pc := p.pc } else l }
  else { c with wcb := c.wcb ++ [⟨line, age, mergeLine [] p.writes, p.parts, p.asid, p.job, va, p.sp, p.pc⟩] }

/-- A buffered line of a store's bytes that another ASID, or this one for another job, has written. -/
def Pend.otherLine (p : Pend) (l : WLine) : Bool := l.line == p.key / 64 && (l.asid != p.asid || l.job != p.job)

/-- A store goes into the write-combining buffer: of a deterministic context, to GLOBAL or POLDER, on no host-shared page (R222). -/
def Ctx.buffers (c : Ctx) (p : Pend) : Bool := c.detm && (p.sp == 0 || p.sp == 1) && !p.hs

/-- A store that bypasses the buffer enters its slice queue (R217). It sends an older buffered line of its bytes ahead of it, so that the
youngest store is the one that a load finds (R217, R222). -/
def Ctx.bypass (c : Ctx) (p : Pend) : Ctx := (if c.wcb.isEmpty then c else c.leave fun l => l.line == p.key / 64).enqueue p

/-- A store or a fence that the SCT has put behind the oldest entry enters the access path; `num` is the step in which it was put there. -/
def Ctx.land (c : Ctx) (p : Pend) : Ctx :=
  if p.barrier ≠ 0 then c.placeBar p.barrier
  else if c.buffers p then (if c.wcb.any p.otherLine then c.leave p.otherLine else c).buffer p.num p
  else c.bypass { p with word := c.path }

/-- What the SCT has put behind the oldest entry enters the access path, once that entry has left the queue (R17, R19, R245). -/
def Ctx.landLate (c : Ctx) : Ctx :=
  match c.late with
  | none => c
  | some ps => ps.foldl Ctx.land { c with late := none }

/-- What still follows queue entries takes its place in the access path behind what has entered it, as a trap takes those entries out: what
the handler accesses comes after it too (R245, R273). -/
def Ctx.landBars (c : Ctx) : Ctx := c.bars.foldl (fun c b => c.placeBar b.2) c.landLate

/-- The fences that follow queue entries, which a trap sets aside with its frame: how many entries each follows, and its kind (R245). -/
def Ctx.fences (c : Ctx) : List (Nat × Nat) :=
  (((c.late.getD []).filter fun p => p.barrier != 0).map fun p => (1, p.barrier)) ++ c.bars

/-- epc for the next SCT word: LA and LP inside an active body (R129, R130); unchanged while an eret into a body has not refetched
it (R130). -/
def Ctx.epcNow (c : Ctx) : Word :=
  if c.resume then c.epc
  else
    match c.loop with
    | none => c.pc
    | some l => BitVec.ofNat 64 (2 ^ 63 + l.idx % 32 * 2 ^ 55 + c.pc.toNat % 2 ^ 55)

/-- The cause CSR (R369). -/
def causeWord (int vec : Bool) (code : Nat) : Word :=
  BitVec.ofNat 64 ((if int then 2 ^ 63 else 0) + (if vec then 2 ^ 8 else 0) + code % 256)

/-- The context after trap entry (R370, R372): the issued entries go to the frame, the cause registers are written, the level rises,
the pending latch is held aside, the fences take their place, and the handler starts at the vector. `hyp` sends the trap to hyp whatever the level (R392). An
interrupted clasp wait leaves CW set (R341). -/
def Ctx.enterTrap (c : Ctx) (hyp int vec : Bool) (code : Nat) (tval : Word) : Ctx :=
  let toHyp := hyp || c.priv == .hyp
  let waiting := match c.stall with
    | some (.clasp w _) => some w
    | _ => none
  { c with
    frame := c.viq
    frameVf := vec
    viq := []
    bars := []
    frameBars := c.fences
    late := none
    stores := c.landBars.stores
    wcb := c.landBars.wcb
    path := c.landBars.path
    epcv := match c.viq with
      | [] => 0
      | e :: _ => e.pc
    cause := causeWord int vec code
    tval
    epc := c.epcNow
    ppriv := c.priv
    priv := if toHyp then .hyp else .sup
    tfv := true
    cw := c.cw || waiting.isSome
    claspWord := if waiting.isSome then waiting else c.claspWord
    rejoin := none
    heldLatch := c.latch.map fun l => { l with begun := false }
    latch := none
    loop := none
    resume := false
    stall := none
    lag := 0
    vfs := if vec then BitVec.ofNat 64 (c.vfs.toNat / 256 * 256 + code % 256) else c.vfs
    pc := if toHyp then c.htvec else c.tvec }

/-- The context that takes CORE and DOUBLE records: MCTGT names a logical core of job 0 (R392, R413). -/
def State.mcTarget (s : State) : Option Nat :=
  match s.dev.physCore 0 (s.dev.win.mctgt.toNat % 512) with
  | some core => some (core * 2 + s.dev.win.mctgt.toNat / 512 % 2)
  | none => none

/-- The PC of the oldest queue entry, whose commit an access or a trap of the vector unit belongs to (R391). -/
def Ctx.headPc (c : Ctx) : Word := (c.viq.head?.map (·.pc)).getD 0

/-- A double trap (R376): the context stops with its frame intact, and MCHECK goes to hyp with a record of kind DOUBLE, whose PC is that
of the SCT's word or, with `vec`, of the oldest queue entry (R391). -/
def State.doubleTrap (s : State) (vec : Bool) : State :=
  let r := { s.recordOf s.cur 7 15 0 with pc := if vec then s.ctx.headPc else s.ctx.pc }
  let s := s.onCtx fun c => { c with run := .stopped, stall := none }
  match s.record 0 r with
  | (s, a) =>
    match s.mcTarget with
    | some t => s.pendMcheck t ⟨a, true, none⟩
    | none => s

/-- The lines in a core's buffer (R222). -/
def State.wcbLines (s : State) (core : Nat) : Nat := (s.ctxOf (core * 2)).wcb.length + (s.ctxOf (core * 2 + 1)).wcb.length

/-- The context of a core that holds the oldest line of its buffer (R222). -/
def State.oldestIn (s : State) (core : Nat) : Option Nat :=
  match (s.ctxOf (core * 2)).wcb, (s.ctxOf (core * 2 + 1)).wcb with
  | [], [] => none
  | _ :: _, [] => some (core * 2)
  | [], _ :: _ => some (core * 2 + 1)
  | a :: _, b :: _ => some (if b.age < a.age then core * 2 + 1 else core * 2)

/-- The oldest line of a buffer leaves it for the access path. -/
def Ctx.leaveOne (c : Ctx) : Ctx :=
  match c.wcb with
  | [] => c
  | l :: r => ({ c with wcb := r } : Ctx).enqueue l.pend

/-- The `n` oldest lines of a core's buffer leave it for the access path (R222). -/
def State.leaveOldest (s : State) (core : Nat) : Nat → State
  | 0 => s
  | n + 1 =>
    match s.oldestIn core with
    | none => s
    | some c => State.leaveOldest (s.setCtx c (s.ctxOf c).leaveOne) core n

/-- What a core's buffer holds above its 4,096 lines leaves it, oldest first (R222). -/
def State.spill (s : State) : State :=
  let n := s.wcbLines (coreOf s.cur)
  if n ≤ 4096 then s else s.leaveOldest (coreOf s.cur) (n - 4096)

/-- A context that has entered a trap takes its place; where the stores behind an entry that waited have gone into the write-combining
buffer with it, the buffer keeps to its size (R222). -/
def State.intoHandler (s : State) (c : Ctx) : State :=
  let t : State := { s with ctx := c }
  if s.ctx.late.isSome then t.spill else t

/-- TAKING AN EXCEPTION (R370, R372, R376): `vec` for a trap raised by the oldest queue entry at its commit, `int` for an
asynchronous cause. -/
def State.takeTrap (s : State) (int vec : Bool) (code : Nat) (tval : Word) : State :=
  if s.ctx.tfv && !int then s.doubleTrap vec else s.intoHandler (s.ctx.enterTrap false int vec code tval)

/-- A synchronous trap raised by the SCT's word (R370): epc is that word. -/
def State.trap (s : State) (code : Nat) (tval : Word) : State := s.takeTrap false false code tval

/-- A trap with epc past the SCT's word (R338, R404); in a handler the double trap of the word, which has not completed (R376, R391). -/
def State.trapPast (s : State) (code : Nat) (tval : Word) : State :=
  if s.ctx.tfv then s.trap code tval else s.retire.trap code tval

/-- A refused access raised by the SCT's word: its cause, or the machine check of an uncorrectable word (R389, kind READ). -/
def State.refuse (s : State) (r : Refused) : State :=
  match r with
  | .cause c t => s.trap c t
  | .ecc sp va =>
    match s.record s.ctx.asid (s.recordOf s.cur 1 sp va) with
    | (s, a) => s.trap 0x12 a

/-! ## Return from an exception -/

/-- The command slots of a channel in use (R266): those of commands that have neither started nor halted. -/
def Chan.used (k : Chan) : Nat := k.cmds.length - (if k.halted then 1 else 0)

/-- The channel whose ECAUSE an entry raises at its commit, where it is halted (R265, R319): always for a drain, for the words that
push where no slot is free. -/
def Ctx.raisesHalt (c : Ctx) : Instr → Option (BitVec 3)
  | .drain k => if c.ch[(k.setWidth 3).toNat].halted then some (k.setWidth 3) else none
  | .copy k _ | .vgthr _ k _ | .qpush k _ =>
    if c.ch[(k.setWidth 3).toNat].halted ∧ 16 ≤ c.ch[(k.setWidth 3).toNat].used then some (k.setWidth 3) else none
  | _ => none

/-- A halted channel whose command is tried again, or discarded (R265, R319). -/
def Chan.resume (k : Chan) (discard : Bool) : Chan :=
  { k with halted := false, ecause := 0, eaddr := 0, reported := none, cmds := if discard then k.cmds.tail else k.cmds }

/-- The channels when an eret ends the trap that reported a halted one (R265, R267, R319): the entry that is issued again lets the
engine try its channel's command again, a skipped one discards it, and a return to the uend that reported lets it be tried again. -/
def Ctx.afterHalt (c : Ctx) : Vector Chan 8 :=
  if c.frameVf then
    match c.frame.head?.bind fun e => c.raisesHalt e.instr with
    | some k => c.ch.set k.toNat (c.ch[k.toNat].resume c.skip)
    | none => c.ch
  else c.ch.map fun k => if k.halted && k.reported == some c.epc then k.resume false else k

/-- The SCT's copy of frm after the frame's writes of frm have been issued again (R15, R375). -/
def frmAfter (frm : BitVec 3) (es : List VEntry) : BitVec 3 :=
  es.foldl (fun f e => match e.instr with
    | .csrw _ n => if n = 0x008 then e.op1.setWidth 3 else f
    | .csrs _ n => if n = 0x008 then f ||| e.op1.setWidth 3 else f
    | .csrc _ n => if n = 0x008 then f &&& ~~~(e.op1.setWidth 3) else f
    | _ => f) frm

/-- Where eret goes: the word that epc names (R375). -/
def Ctx.eretTo (c : Ctx) : Word := BitVec.ofNat 64 (pcBits c.epc)

/-- The entries that eret issues again (R375): the frame, without entry 0 where SKIP says so. -/
def Ctx.replayed (c : Ctx) : List VEntry := if c.cause.toNat / 256 % 2 == 1 && c.skip then c.frame.drop 1 else c.frame

/-- The latch that eret makes pending again: the one held aside, where eret goes to the word that it governs (R75, R375). -/
def Ctx.heldFor (c : Ctx) : Option Latch := c.heldLatch.filter fun l => l.succ == c.eretTo

/-- eret (R375, R404): the frame is issued again, without entry 0 where SKIP says so; the level returns to PPRIV; the latch held
aside is pending again; the SCT goes on at epc, inside the body where LA is set (R130), and a clasp there is the wait that CW marks (R341). DESIGN CHOICE (log 97): where software has cleared
TFV the latch that was held aside stays so. -/
def Ctx.eret (c : Ctx) : Ctx :=
  let vec := c.cause.toNat / 256 % 2 == 1
  { c with
    viq := if c.tfv then c.replayed else c.viq
    frmSct := if c.tfv then frmAfter c.frm c.replayed else c.frmSct
    ch := if c.tfv then c.afterHalt else c.ch
    frame := []
    bars := if c.tfv then (if vec && c.skip then c.frameBars.map fun b => (b.1 - 1, b.2) else c.frameBars) else c.bars
    frameBars := []
    frameVf := false
    skip := false
    tfv := false
    priv := c.ppriv
    ppriv := .app
    latch := if c.tfv then c.heldFor else c.latch
    heldLatch := if c.tfv then none else c.heldLatch
    loop := none
    resume := c.epc.toNat / 2 ^ 63 == 1
    stall := none
    rejoin := if c.cw then some c.eretTo else none
    pc := c.eretTo }

/-! ## Asynchronous causes -/

/-- The deadline of tmr has passed (R403). -/
def Ctx.timerDue (c : Ctx) (cyc : Nat) : Bool := c.tmr != 0 && decide (c.tmr.toNat ≤ cyc)

/-- A pending asynchronous cause that may be taken: its code and tval, whether hyp takes it, and the context with that cause taken. -/
structure Taken where
  code : Nat
  tval : Word
  hyp : Bool
  ctx : Ctx
  deriving DecidableEq, Repr

/-- The first pending asynchronous cause in the order of R371. -/
def Ctx.nextAsync (c : Ctx) (cyc : Nat) : Option Taken :=
  match c.pMcheck with
  | a :: r => some ⟨0x12, a.tval, a.hyp, { c with pMcheck := r }⟩
  | [] =>
    match c.pCancelled with
    | a :: r => some ⟨0x13, a.tval, a.hyp, { c with pCancelled := r }⟩
    | [] =>
      match c.pReclaim with
      | some a => some ⟨0x11, a, false, { c with pReclaim := none }⟩
      | none =>
        if c.pBudget then some ⟨0x10, c.budget, false, { c with pBudget := false }⟩
        else if c.pPreempt then some ⟨0x20, 0, false, { c with pPreempt := false }⟩
        else if c.timerDue cyc then some ⟨0x21, 0, false, { c with tmr := 0 }⟩
        else none

/-- The context after it has entered the trap of an asynchronous cause. -/
def Taken.enter (t : Taken) : Ctx := t.ctx.enterTrap t.hyp true false t.code t.tval

/-- The context once the unit or task that it held has ended: it has a new tenure, and what was addressed to the old one ends with it
(R489). -/
def Ctx.newTenure (c : Ctx) : Ctx :=
  { c with
    tenure := c.tenure + 1
    pMcheck := c.pMcheck.filter fun p => p.tenure.isNone
    pCancelled := c.pCancelled.filter fun p => p.tenure.isNone }

/-- The context is at a safe point at which asynchronous causes are not held (R31, R75, R138, R371); a wfi completes before a cause is
taken (R411). -/
def Ctx.safePoint (c : Ctx) : Bool :=
  c.run == .running && !c.tfv &&
    (match c.stall with
      | some (.board _ _) | some .wfi => false
      | _ => true) &&
    (match c.latch with
      | none => true
      | some l => l.begun && c.stall.isSome)

/-- The context after it has taken its first pending asynchronous cause, where it may (R371). -/
def Ctx.takeAsync (c : Ctx) (cyc : Nat) : Option Ctx :=
  if c.safePoint then (c.nextAsync cyc).map Taken.enter else none

/-! ## Fetching -/

/-- The word at an address as the SCT fetches it (R38, R121, R347, R350): the address fails outside 55 bits or at a page without X. -/
def State.fetchAt (s : State) (va : Word) : Except Refused Word32 × State :=
  match s.translate s.ctx.asid s.ctx.priv .fetch va with
  | (.error r, s) => (.error r, s)
  | (.ok l, s) =>
    if s.isBad l.key 4 then (.error (.ecc 0 va), s)
    else (.ok (BitVec.ofNat 32 (s.natAt l.key 4)), s.noteRefused s.cur l.key ⟨0, va, va⟩)

/-- A class Z or kind D word waits until the VIQ is empty (R81, R398), then goes on. -/
def State.whenDrained (s : State) (k : State → Res) : Res :=
  if s.ctx.viq.isEmpty then k s else .next (s.stallFor .viq)

/-- The lowest level that may execute a word: below it the word raises PRIV (R43, R69, R329), with the word as tval. -/
def State.needs (s : State) (p : Priv) (word : Word32) (k : State → Res) : Res :=
  if s.ctx.priv.rank < p.rank then .next (s.trap 0x03 (word.setWidth 64)) else k s

end Sys2Proof.Machine
end

