-- ==== Sys2Proof/Machine/Operands.lean ====
section
/-! DEFINITION. Operand forms and integer functions that more than one family uses: bit counts, division with its boundary results,
elements of vector registers, masks, and the scale block. -/

namespace Sys2Proof.Machine

/-- 1 or 0 (R11, R113). -/
def flag01 (b : Bool) : Word := if b then 1 else 0

/-- The one bits among the low `w` bits of a value. -/
def onesCount : Nat → Nat → Nat
  | 0, _ => 0
  | w + 1, v => v % 2 + onesCount w (v / 2)

/-- The leading zero bits of a value of `w` bits; `w` when it is 0. -/
def leadZeros : Nat → Nat → Nat
  | 0, _ => 0
  | w + 1, v => if v / 2 ^ w % 2 = 1 then 0 else 1 + leadZeros w v

/-- The trailing zero bits of a value of `w` bits; `w` when it is 0. -/
def trailZeros : Nat → Nat → Nat
  | 0, _ => 0
  | w + 1, v => if v % 2 = 1 then 0 else 1 + trailZeros w (v / 2)

/-- Signed division toward zero with the boundary results of R114: all ones for a zero divisor; the overflow wraps to a. -/
def divS {w : Nat} (a b : BitVec w) : BitVec w := if b = 0 then BitVec.allOnes w else BitVec.ofInt w (a.toInt.tdiv b.toInt)

/-- Unsigned division; all ones for a zero divisor (R114). -/
def divU {w : Nat} (a b : BitVec w) : BitVec w := if b = 0 then BitVec.allOnes w else a / b

/-- Signed remainder, with the sign of a; a for a zero divisor, 0 where the quotient overflows (R114). -/
def remS {w : Nat} (a b : BitVec w) : BitVec w := if b = 0 then a else BitVec.ofInt w (a.toInt.tmod b.toInt)

/-- Unsigned remainder; a for a zero divisor (R114). -/
def remU {w : Nat} (a b : BitVec w) : BitVec w := if b = 0 then a else a % b

/-! ## Vector configuration -/

/-- The element width of a SEW code: 8, 16, 32 or 64 (R51). -/
def sewOf (code : Nat) : Nat := 8 * 2 ^ (code % 4)

/-- The element width in force (R52). -/
def Ctx.sew (c : Ctx) : Nat := sewOf c.vtype.toNat

/-- The scale block of vtype; none for the reserved codes (R51). -/
def Ctx.scaleBlock (c : Ctx) : Option Nat :=
  match c.vtype.toNat / 4 with
  | 0 => some 1
  | 1 => some 8
  | 2 => some 16
  | 3 => some 32
  | 4 => some 64
  | _ => none

/-- VLMAX at an element width (R23). -/
def vlmaxOf (lgn sew : Nat) : Nat := lgn * 256 / sew

/-- VLMAX in force (R23). -/
def Ctx.vlmax (c : Ctx) : Nat := vlmaxOf c.lgn c.sew

/-! ## Elements -/

/-- `n` bits of a register from bit `lo`, as a value. -/
def vbits (v : VWord) (lo n : Nat) : Nat := v.toNat / 2 ^ lo % 2 ^ n

/-- A register with `n` bits from bit `lo` replaced. -/
def setVbits (v : VWord) (lo n val : Nat) : VWord :=
  BitVec.ofNat 2048 (v.toNat / 2 ^ (lo + n) * 2 ^ (lo + n) + val % 2 ^ n * 2 ^ lo + v.toNat % 2 ^ lo)

/-- Element `i` of a register at width `w` bits, inside the grant; 0 outside it (R23). -/
def elemIn (lgn w : Nat) (v : VWord) (i : Nat) : Nat := if (i + 1) * w ≤ lgn * 256 then vbits v (i * w) w else 0

/-- A register number with `k` added (a pair, a group, a payload partner); numbers run to 63. -/
def vreg (r : BitVec 6) (k : Nat) : BitVec 6 := r + BitVec.ofNat 6 k

/-- The contents of v[r]. -/
def Ctx.getV (c : Ctx) (r : BitVec 6) : VWord := c.v[r.toNat]

/-- The register v[r] replaced whole. -/
def Ctx.putV (c : Ctx) (r : BitVec 6) (w : VWord) : Ctx := { c with v := c.v.set r.toNat w }

/-- The facet of v[r] (R166). -/
def Ctx.getFacet (c : Ctx) (r : BitVec 6) : BitVec 16 := c.facets[r.toNat]

/-- The facet of v[r] replaced. -/
def Ctx.putFacet (c : Ctx) (r : BitVec 6) (f : BitVec 16) : Ctx := { c with facets := c.facets.set r.toNat f }

/-- Element `i` of v[r] at SEW (R139). -/
def Ctx.elem (c : Ctx) (r : BitVec 6) (i : Nat) : Nat := elemIn c.lgn c.sew (c.getV r) i

/-- rd(v, j): element j where 0 ≤ j < vl and inside the grant, else 0 (R139). -/
def Ctx.rd (c : Ctx) (r : BitVec 6) (j : Int) : Nat := if 0 ≤ j ∧ j < c.vl then c.elem r j.toNat else 0

/-- Bit `i` of v0, the mask of element i (R52). -/
def Ctx.maskBit (c : Ctx) (i : Nat) : Bool := (c.getV 0).getLsbD i

/-- Element `i` is active: below vl, and unmasked or its mask bit set (R140). -/
def Ctx.active (c : Ctx) (m : BitVec 1) (i : Nat) : Bool := decide (i < c.vl) && (m == 0 || c.maskBit i)

/-- The active elements, ascending (R140). -/
def Ctx.actives (c : Ctx) (m : BitVec 1) : List Nat := (List.range c.vl).filter (c.active m)

/-- A value of `w` bits read as signed. -/
def toSigned (w v : Nat) : Int := if v % 2 ^ w < 2 ^ w / 2 then (v % 2 ^ w : Nat) else (v % 2 ^ w : Nat) - (2 ^ w : Nat)

/-- An integer modulo 2^w. -/
def wrap (w : Nat) (v : Int) : Nat := (v % (2 ^ w : Nat)).toNat

/-- A value of `w` bits read as signed or unsigned. -/
def readInt (u : Bool) (w v : Nat) : Int := if u then (v : Int) else toSigned w v

/-! ## Writing vector registers -/

/-- A byte outside the hwm rectangle reads 0 (R32): the registers are kept so, bytes outside the rectangle of (reg, bytes) set to 0
(R378). -/
def trimV (v : Vector VWord 64) (reg bytes : Nat) : Vector VWord 64 :=
  Vector.ofFn fun n : Fin 64 => if n.val ≤ reg then BitVec.ofNat 2048 (v[n.val].toNat % 2 ^ (8 * bytes)) else 0

/-- The hwm rectangle raised to at least register `reg` and `bytes` bytes. The bytes that enter it are 0 already, since every byte
outside it is kept 0 (R142, R378). -/
def Ctx.raiseHwm (c : Ctx) (reg bytes : Nat) : Ctx :=
  { c with hwmReg := Nat.max c.hwmReg reg, hwmBytes := Nat.max c.hwmBytes bytes }

/-- Elements of width `w` written to v[r]: (element, value) pairs, in order. -/
def putElems (w : Nat) (v : VWord) (es : List (Nat × Nat)) : VWord := es.foldl (fun v e => setVbits v (e.1 * w) w e.2) v

/-- A vector result: (element, value) pairs of width `w` bits written to v[r] at a commit, those inside the grant (R23); hwm rises to
cover them (R142) and the register's facet is cleared (R141). -/
def Ctx.writeV (c : Ctx) (r : BitVec 6) (w : Nat) (es : List (Nat × Nat)) : Ctx :=
  let es := es.filter fun e => decide ((e.1 + 1) * w ≤ c.lgn * 256)
  let c := c.putFacet r 0
  match es with
  | [] => c
  | _ =>
    let top := es.foldl (fun t e => Nat.max t (((e.1 + 1) * w + 7) / 8)) 0
    let c := c.raiseHwm r.toNat top
    c.putV r (putElems w (c.getV r) es)

end Sys2Proof.Machine
end

