-- ==== Sys2Proof/Machine/Access.lean ====
section
/-! DEFINITION. The access path of a context (R211 to R223, R228, R229): the four spaces, slice queues and barriers, the range
scoreboard, and the write-combining buffer with its drain. -/

namespace Sys2Proof.Machine

/-- An instruction that reads or writes memory as class VM (R81, R195 to R208), or a drain, which later accesses wait for too (R265). -/
def isVm : Instr → Bool
  | .vld .. | .vldStrided .. | .vldIndexed .. | .vldSeg .. | .vldF .. | .vldFSeg .. | .vldSegIndexed .. => true
  | .vst .. | .vstStrided .. | .vstIndexed .. | .vstSeg .. | .vstN .. | .vstNSeg .. | .vstNIndexed .. => true
  | .mopaW .. | .mopaGr .. | .tldRaw .. | .tldCan .. | .tstRaw .. | .tstCan .. | .cbld .. | .drain .. => true
  | _ => false

/-- An older vector memory instruction has not entered the access path, or a drain has not committed: scalar memory words wait
(R17, R265). -/
def Ctx.vmWaits (c : Ctx) : Bool := c.viq.any fun e => isVm e.instr

/-- The oldest entry has been translated and waits in the access path, and no other vector memory instruction of the queue has still to
enter it: a store or fence of the SCT goes behind that entry, and the SCT goes on (R17, R245). -/
def Ctx.entered (c : Ctx) : Bool :=
  c.late.isSome && (match c.viq with
    | e :: r => isVm e.instr && !r.any fun e => isVm e.instr
    | [] => false)

/-- The slice class of an address (R216). -/
def sliceOf (va : Nat) : Nat := va / 64 % 8

/-! ## Spaces -/

/-- The place of an address in space `sp`, 0 GLOBAL, 1 POLDER, 2 LANE, 3 WBUF (R211, R212); `lane` is the physical lane of a LANE
access, none where the mode is not indexed. -/
def State.placeOf (s : State) (sp : Nat) (k : AccKind) (lane : Option Nat) (va : Word) : Except Refused Place × State :=
  let core := coreOf s.cur
  let a := va.toNat
  let local_ := fun key cls => (Except.ok ⟨⟨key, false, false, false⟩, cls, va⟩, s)
  let no := (Except.error (Refused.cause 0x08 va), s)
  match sp with
  | 0 =>
    match s.translate s.ctx.asid s.ctx.priv k va with
    | (.ok l, s) => (.ok ⟨l, sliceOf a, va⟩, s)
    | (.error r, s) => (.error r, s)
  | 1 =>
    match s.dev.physCore (s.jobOf s.ctx.asid) (a / 2 ^ 21 % 512) with
    | some p => if a < 2 ^ 30 ∧ a % 2 ^ 21 < Config.polderBytes then local_ (polderKey p (a % 2 ^ 21)) (sliceOf a) else no
    | none => no
  | 2 =>
    match lane with
    | some l => if a < 0x400 then local_ (laneKey core l a) 8 else no
    | none => no
  | _ => if a < Config.wbufBytes then local_ (wbufKey core a) (sliceOf a) else no

/-- The place of a naturally aligned access of `w` bytes (R228): MISALIGN comes first (R212). -/
def State.aligned (s : State) (sp : Nat) (k : AccKind) (lane : Option Nat) (w : Nat) (va : Word) : Except Refused Place × State :=
  if va.toNat % w ≠ 0 then (.error (.cause 0x04 va), s) else s.placeOf sp k lane va

/-- The place of a naturally aligned access of the SCT to GLOBAL, which it keeps where a scoreboard range holds the word once it has entered
the access path (R354). -/
def State.alignedOnce (s : State) (k : AccKind) (w : Nat) (va : Word) : Except Refused Place × State :=
  if va.toNat % w ≠ 0 then (.error (.cause 0x04 va), s)
  else
    match s.ctx.stall with
    | some (.board (some p) _) => if p.va = va then (.ok p, s) else s.aligned 0 k none w va
    | _ => s.aligned 0 k none w va

/-- Where the accesses of the oldest queue entry go, once it has entered the access path (R354); before that, nothing. -/
def Ctx.headPlaces (c : Ctx) : Located := if c.late.isSome then c.located else []

/-! ## The scoreboard -/

/-- The scoreboard ranges of a physical core: those of the commands of its two contexts (R221). -/
def State.boards (s : State) (core : Nat) : List (Nat × Nat) :=
  [core * 2, core * 2 + 1].flatMap fun c =>
    (s.ctxOf c).ch.toList.flatMap fun k =>
      (k.cmds.filterMap (·.board)) ++ (match k.started with
        | some st => st.cmd.board.toList
        | none => [])

/-- A range of bytes meets a scoreboard range of the own polder (R221). -/
def State.onBoard (s : State) (key n : Nat) : Bool :=
  let core := coreOf s.cur
  (s.boards core).any fun b => decide (key < polderKey core b.2) && decide (polderKey core b.1 < key + n)

/-- The number of the other context of a context's core (R21). -/
def otherOf (c : Nat) : Nat := c / 2 * 2 + (1 - c % 2)

/-- The commands of a context that are queued or started. -/
def Ctx.commands (c : Ctx) : List Cmd := c.ch.toList.flatMap fun k => k.cmds ++ (k.started.map (·.cmd)).toList

/-- A scoreboard range holds a store of the context whose turn it is: one of a command that had committed when the store entered the
access path (R221, R274). -/
def State.holds (s : State) (p : Pend) : Bool :=
  let own := s.ctx.commands.filterMap fun k => if k.after ≤ p.num then k.board else none
  let other := (s.ctxOf (otherOf s.cur)).commands.filterMap fun k => if k.other ≤ p.num then k.board else none
  let core := coreOf s.cur
  (own ++ other).any fun b => p.writes.any fun w => decide (polderKey core b.1 ≤ w.1) && decide (w.1 < polderKey core b.2)

/-- A list of writes meets a scoreboard range. -/
def State.writesOnBoard (s : State) (ws : List (Nat × Byte)) : Bool := ws.any fun w => s.onBoard w.1 1

/-! ## Slice queues -/

/-- Two stores that are performed in the order in which they came (R217, R218). -/
def Pend.ordered (p q : Pend) : Bool := p.cls == q.cls || (p.hs && q.hs)

/-- A store that must wait for one of `before` (R217, R218, R245). -/
def Pend.waits (p : Pend) (before : List Pend) : Bool := before.any fun q => q.barrier != 0 || q.ordered p

/-- The stores that may be performed now, and those that wait: behind one of their own order, behind a barrier, or for a scoreboard
range. A barrier with nothing before it has done its work. -/
def splitReady (blocked : Pend → Bool) : List Pend → List Pend → List Pend × List Pend
  | kept, [] => ([], kept)
  | kept, p :: r =>
    if p.barrier ≠ 0 then
      if kept.isEmpty then splitReady blocked kept r else splitReady blocked (kept ++ [p]) r
    else if p.waits kept || blocked p then splitReady blocked (kept ++ [p]) r
    else
      match splitReady blocked kept r with
      | (go, stay) => (p :: go, stay)

/-- The place that a record gives for a byte of a store (R391). -/
def Pend.spot (p : Pend) (key : Nat) : Spot := ⟨p.sp, p.va + BitVec.ofNat 64 (key - p.key), p.pc⟩

/-- The launch that a context's unit belongs to, as the key of the kept writers (R223): its arming number, which no other launch of the
device has, and which stays where its die is lost (R395). -/
def Ctx.launchKey (c : Ctx) : Option Nat := c.unit.map (·.arm)

/-- The drained writes that settle, and the kept writers after them (R223): a write from logical core `l` loses where a higher core of
the launch has written. -/
def settleDrain (l : Nat) : List (Nat × Byte) → List (Nat × Nat) → List (Nat × Byte) × List (Nat × Nat)
  | [], wr => ([], wr)
  | w :: r, wr =>
    match lookup w.1 wr with
    | some h =>
      if l < h then settleDrain l r wr
      else match settleDrain l r (assign w.1 l wr) with
        | (ws, wr) => (w :: ws, wr)
    | none =>
      match settleDrain l r (assign w.1 l wr) with
      | (ws, wr) => (w :: ws, wr)

/-- The logical core by which the drained writes of a context are ranked (R223, R276): the one that its unit is placed on (R309), else
the lowest that names its physical core (log 54). -/
def State.drainRank (s : State) : Nat :=
  match s.ctx.unit.bind (·.lcore) with
  | some l => l
  | none => (s.dev.logCore (s.jobOf s.ctx.asid) (coreOf s.cur)).getD 0

/-- A store of the context whose turn it is performed; of a drained line the bytes that settle (R223). -/
def State.performPend (s : State) (p : Pend) : State :=
  match (if p.drain then s.ctx.launchKey else none) with
  | none => s.perform s.cur p.spot p.parts p.writes
  | some key =>
    match settleDrain s.drainRank p.writes ((lookup key s.dev.writers).getD []) with
    | (ws, wr) => (s.onDev fun d => { d with writers := assign key wr d.writers }).perform s.cur p.spot p.parts ws

/-- The stores among `ps` that belong to the instruction of a narrow store into an uncorrectable word and cover that word together with
it (R389); none for another store, or where they leave some of its bytes. -/
def Pend.mates (bad : List Nat) (ps : List Pend) (p : Pend) : List Pend :=
  let w := p.key / 8
  let ms := ps.filter fun q => q.barrier == 0 && !q.drain && q.word == p.word && q.key / 8 == w
  if !p.drain && bad.contains w && decide (p.writes.length < 8) && coversWord ((p :: ms).flatMap (·.writes)) w then ms else []

/-- The stores of a list to host-shared pages before the last of `ms` (R218). -/
def hsBefore (ms : List Pend) : List Pend → List Pend
  | [] => []
  | q :: r => if r.any ms.contains then (if q.hs && q.barrier == 0 then q :: hsBefore ms r else hsBefore ms r) else []

/-- What is performed in one with a store, of those that follow it: its mates, and on a host-shared page the elements between it and them,
so that none of them is passed (R282, R389). -/
def Pend.group (bad : List Nat) (later : List Pend) (p : Pend) : List Pend :=
  let ms := p.mates bad later
  ms ++ (if p.hs then hsBefore ms later else [])

/-- A store performed as one with those. -/
def Pend.joined (p : Pend) (ms : List Pend) : Pend :=
  { p with writes := (p :: ms).flatMap (·.writes), parts := (p :: ms).flatMap (·.parts) }

/-- Stores in order, those of one instruction that cover an uncorrectable word together as one: a vector store writes the word whole, and
repairs it (R389). -/
def joinWords (bad : List Nat) : Nat → List Pend → List Pend
  | 0, ps => ps
  | _, [] => []
  | n + 1, p :: r =>
    let ms := p.mates bad r
    p.joined ms :: joinWords bad n (r.filter fun q => !ms.contains q)

/-- Stores performed, in order (R217). -/
def State.performAll (s : State) (ps : List Pend) : State :=
  (if s.dev.eccBad.isEmpty then ps else joinWords s.dev.eccBad ps.length ps).foldl State.performPend s

/-- Every store of the context that may be performed is performed. -/
def State.performReady (s : State) : State :=
  match splitReady s.holds [] s.ctx.stores with
  | (go, stay) => (s.onCtx fun c => { c with stores := stay }).performAll go

/-- The stores performed where none is held back by choice (log 7). -/
def State.settle (s : State) : State := if s.dev.holdStores then s else s.performReady

/-- The stores of context `c` performed where none is held back by choice. -/
def State.settleOf (s : State) (c : Nat) : State :=
  if (s.ctxOf c).stores.isEmpty then s else (s.turnTo c).settle.turnTo s.cur

/-- The stores of both contexts of a context's core that nothing holds any more, once scoreboard ranges have gone (R221). -/
def State.settleCore (s : State) (c : Nat) : State := (s.settleOf (c / 2 * 2)).settleOf (c / 2 * 2 + 1)

/-- Which stores must be performed before an access that follows those with `need` in order, and every barrier of at least `lvl`: those,
what comes before one of them in its order, and everything before a barrier that the access or one of them stands behind. Returned
with the stores that must be and whether everything before the list must be. -/
def markNeeded (lvl : Nat) (need : Pend → Bool) : List Pend → List (Pend × Bool) × List Pend × Bool
  | [] => ([], [], false)
  | p :: r =>
    match markNeeded lvl need r with
    | (ms, later, all) =>
      if p.barrier ≠ 0 then
        let all' := all || !later.isEmpty || decide (lvl ≤ p.barrier)
        ((p, all') :: ms, later, all')
      else if all || need p || later.any p.ordered then ((p, true) :: ms, p :: later, all)
      else ((p, false) :: ms, later, all)

/-- The stores with `need`, and what they or the access stand behind, are performed; none where a scoreboard range holds one of them
(R221). `lvl` is 2 for a load, 1 for an access that writes, 3 where no barrier counts. -/
def State.force (s : State) (lvl : Nat) (need : Pend → Bool) : Option State :=
  match s.ctx.stores with
  | [] => some s
  | ps =>
    let ms := (markNeeded lvl need ps).1
    let go := (ms.filter (·.2)).map (·.1)
    if go.any s.holds then none
    else some ((s.onCtx fun c => { c with stores := (ms.filter fun m => !m.2).map (·.1) }).performAll (go.filter fun p => p.barrier == 0))

/-- What stands before the barriers that hold loads is performed ahead of the translation of an access, whose walk reads (R245, R358);
none where that waits. A store behind a barrier that holds only stores does not wait here: it takes its place behind it (R245). -/
def State.behindBarriers (s : State) : Option State := s.force 2 fun _ => false

/-- A store that the SCT has put behind the oldest entry stands before a fence that holds loads. -/
def lateHolds : List Pend → Bool
  | [] => false
  | p :: r => (p.barrier == 0 && r.any fun q => decide (2 ≤ q.barrier)) || lateHolds r

/-- What stands before the fences that hold loads is performed ahead of the walk of a word of the SCT (R245, R358): the stores in the
access path also before a fence that still follows queue entries, and the buffered lines before a vfence.d that drains. For those entries
the SCT does not wait (R245). None where a scoreboard range holds one of the stores, or one still waits behind the oldest entry. -/
def State.beforeFetch (s : State) : Option State :=
  if lateHolds (s.ctx.late.getD []) then none
  else
    (if s.ctx.fences.any fun b => b.2 == 3 then s.onCtx fun c => c.leave fun _ => true else s).force 2 fun _ =>
      s.ctx.fences.any fun b => decide (2 ≤ b.2)

/-- A translation under the own ASID that needs no walk: a TLB entry answers, or the address is refused before one (R347, R360). -/
def State.walkFree (s : State) (k : AccKind) (va : Word) : Bool :=
  decide (2 ^ 55 ≤ va.toNat) || (s.tlbFind s.ctx.asid va.toNat k).isSome

/-- The machine in which the addresses of a vector memory word are translated (R358): what stands before the fences that hold loads is
performed ahead of a walk. Where a scoreboard range holds one of those stores, a word that needs no walk goes on, and its accesses take
their place behind the fence (R245); none for one that needs a walk. No fence orders LANE accesses (R245), and an entry that has entered
the access path is translated already. -/
def State.translating (s : State) (lane free : Bool) : Option State :=
  if lane || s.ctx.late.isSome then some s
  else
    match s.behindBarriers with
    | some t => some t
    | none => if free then some s else none

/-- The stores that come before an access to a place in its orders (R217, R218). -/
def Place.after (p : Place) (q : Pend) : Bool := q.cls == p.cls || (q.hs && p.loc.hs)

/-! ## The write-combining buffer -/

/-- Every line of the context whose turn it is leaves the buffer (R223). -/
def State.drainOut (s : State) : State := if s.ctx.wcb.isEmpty then s else s.onCtx fun c => c.leave fun _ => true

/-- The `n` oldest lines of a core's buffer are drained (R222). -/
def State.drainOldest (s : State) (core : Nat) : Nat → State
  | 0 => s
  | n + 1 =>
    match s.oldestIn core with
    | none => s
    | some c => State.drainOldest ((s.setCtx c (s.ctxOf c).leaveOne).settleOf c) core n

/-- A store enters the buffer; a line of it that another ASID, or this one for another job, has written leaves first, and where the
buffer is full the oldest lines of the core are drained (R222). DESIGN CHOICE (log 91): the line keeps the physical place that the store's
address had as the store entered the buffer (R354), and drains there. -/
def State.bufferStore (s : State) (p : Pend) : State :=
  let s := if s.ctx.wcb.any p.otherLine then (s.onCtx fun c => c.leave p.otherLine).settle else s
  let s := if !(s.ctx.wcb.any fun l => l.line == p.key / 64) && decide (4096 ≤ s.wcbLines (coreOf s.cur)) then
    s.drainOldest (coreOf s.cur) (s.wcbLines (coreOf s.cur) - 4095) else s
  s.onCtx fun c => c.buffer s.steps p

/-! ## Barriers -/

/-- A barrier at the end of the access path (see `Ctx.placeBar`). -/
def State.placeBar (s : State) (kind : Nat) : State :=
  let s := s.onCtx fun c => c.placeBar kind
  if s.ctx.stores.isEmpty then s else s.settle

/-- One past the place of the youngest entry that has still to enter the access path; 0 where there is none. -/
def Ctx.lastVm (c : Ctx) : Nat := ((List.range c.viq.length).filter fun n => (c.viq[n]?).any fun e => isVm e.instr).foldl (fun _ n => n + 1) 0

/-- A barrier put behind every older access: those in the access path, and those of the entries that have still to enter it (R245). -/
def State.barrier (s : State) (kind : Nat) : State :=
  if s.ctx.lastVm = 0 then s.placeBar kind
  else if s.ctx.entered then s.onCtx fun c => { c with late := some (c.late.getD [] ++ [Pend.fence kind]) }
  else s.onCtx fun c => { c with bars := c.bars ++ [(c.lastVm, kind)] }

/-- The barriers that follow no entry any more enter the access path. -/
def State.settleBars (s : State) : State :=
  let arrived := s.ctx.bars.filter fun b => b.1 == 0
  if arrived.isEmpty then s
  else arrived.foldl (fun s b => s.placeBar b.2) (s.onCtx fun c => { c with bars := c.bars.filter fun b => b.1 != 0 })

/-- The barriers after one queue entry has committed (R245). -/
def State.advanceBars (s : State) : State :=
  if s.ctx.bars.isEmpty then s else (s.onCtx fun c => { c with bars := c.bars.map fun b => (b.1 - 1, b.2) }).settleBars

/-- What the SCT has put behind the oldest entry enters the access path (see `Ctx.landLate`); the write-combining buffer keeps to its size
(R222). -/
def State.landLate (s : State) : State :=
  if s.ctx.late.isSome then
    let t := s.onCtx Ctx.landLate
    if t.wcbLines (coreOf t.cur) ≤ 4096 then t.settle else t.spill.settleCore t.cur
  else s

/-! ## Loads and stores -/

/-- The bytes of a range as the context's own loads find them (R217, R222): a buffered byte is younger than a waiting store of it (see
`State.writeAt`), which is younger than memory. -/
def State.ownBytes (s : State) (key n : Nat) : List Byte :=
  let waiting := (s.ctx.stores.flatMap (·.writes)).reverse
  (List.range n).map fun i =>
    let k := key + i
    match ((s.ctx.wcb.find? fun l => l.line == k / 64).bind fun l => lookup k l.writes) with
    | some b => b
    | none =>
      match lookup k waiting with
      | some b => b
      | none => s.byteAt k

/-- What a read of a place finds. -/
inductive Found where
  /-- Its value, and the machine after the stores that come before it. -/
  | value (v : Nat) (s : State)
  /-- It waits for a scoreboard range (R221). -/
  | held
  /-- Uncorrectable data, with the address of the word that fails (R389, R391). -/
  | bad (va : Word)
  deriving DecidableEq, Repr

/-- A read of `n` bytes at a place by the word at `pc` (R217, R221); one that the far side refuses reads 0 and is reported (R367). -/
def State.readAt (s : State) (p : Place) (pc : Word) (n : Nat) : Found :=
  if s.onBoard p.loc.key n then .held
  else
    match s.force 2 p.after with
    | none => .held
    | some s =>
      if s.isBad p.loc.key n then .bad (p.va + BitVec.ofNat 64 (s.badAt p.loc.key n))
      else .value (leNat (s.ownBytes p.loc.key n)) (s.noteRefused s.cur p.loc.key ⟨0, p.va, pc⟩)

/-- A store of consecutive bytes at a place by the word at `pc`, one of those of instruction `word`, under an ASID of a job. -/
def Place.pend (p : Place) (asid : BitVec 13) (job sp : Nat) (pc : Word) (word : Nat) (bs : List Byte) : Pend :=
  { writes := writesAt p.loc.key bs, cls := p.cls, hs := p.loc.hs, barrier := 0, asid, job, va := p.va, key := p.loc.key, sp, pc, num := 0,
    drain := false, parts := [(p.loc.key, bs.length)], word }

/-- A store enters the access path: the buffer of a deterministic context (R222), or its slice queue (R217). -/
def State.enter (s : State) (p : Pend) : State := if s.ctx.buffers p then s.bufferStore p else s.onCtx fun c => c.bypass p

/-- A store of the SCT: it enters the access path, or stands behind the oldest entry that waits there. -/
def State.putStore (s : State) (p : Pend) : State :=
  if s.ctx.entered then s.onCtx fun c => { c with late := some (c.late.getD [] ++ [{ p with num := s.steps }]) } else s.enter p

/-- A store of bytes at a place, as it enters the access path, or its lane's table. -/
def State.writeAs (s : State) (word sp : Nat) (p : Place) (pc : Word) (bs : List Byte) : State :=
  let q := p.pend s.ctx.asid (s.jobOf s.ctx.asid) sp pc word bs
  if sp == 2 then s.perform s.cur q.spot q.parts q.writes else s.enter q

/-- A store of bytes at a place as the first of its instruction. -/
def State.writeAt (s : State) (sp : Nat) (p : Place) (pc : Word) (bs : List Byte) : State := s.writeAs s.ctx.path sp p pc bs

/-- A release before an access (R222, R234, R243): the buffer is drained and every older store performed; none where one of them is held
(R221). -/
def State.release (s : State) : Option State := s.drainOut.force 1 fun _ => true

/-- One indivisible read and write of `n` bytes at a place (R233, R243) by the word at `pc`: the old value and the machine. A word of
uncorrectable data keeps its value, and the issuing context takes a PARTIAL check (R389); what is read there is free (log 26). -/
def State.rmw (s : State) (p : Place) (pc : Word) (n : Nat) (f : Nat → Nat) : Nat × State :=
  if s.isBad p.loc.key n then ((Config.lostData s.steps).toNat % 2 ^ (8 * n), s.report s.cur 2 ⟨0, p.va, pc⟩)
  else
    let old := s.natAt p.loc.key n
    let q := p.pend s.ctx.asid (s.jobOf s.ctx.asid) 0 pc s.ctx.path (leBytes n (f old))
    (old, s.perform s.cur q.spot q.parts q.writes)

/-! ## Contiguous ranges -/

/-- The pages or the window that a contiguous range meets, in ascending order, each with its place or its refusal and its bytes (R208,
R362): in GLOBAL one for each 64 KiB page; a range that runs past a window is refused at the first byte beyond. `fuel` bounds the
pages. -/
def State.pieces (s : State) (sp : Nat) (k : AccKind) : Nat → Word → Nat → List (Except Refused Place × Nat) × State
  | 0, _, _ => ([], s)
  | fuel + 1, va, n =>
    if n = 0 then ([], s)
    else
      let room := match sp with
        | 0 => 65536 - va.toNat % 65536
        | 1 => Config.polderBytes - va.toNat % 2 ^ 21
        | _ => Config.wbufBytes - va.toNat
      match s.placeOf sp k none va with
      | (p, s) =>
        if n ≤ room then ([(p, n)], s)
        else if sp = 0 then
          match State.pieces s sp k fuel (va + BitVec.ofNat 64 room) (n - room) with
          | (ps, s) => ((p, room) :: ps, s)
        else ([(p, room), (.error (.cause 0x08 (va + BitVec.ofNat 64 room)), n - room)], s)

/-- The places of a range, all translated before any byte moves (R208), or its first refusal with the number of pages that failed
translation (R362). -/
def placed (ps : List (Except Refused Place × Nat)) : Except (Refused × Nat) (List (Place × Nat)) :=
  let failed := (ps.filter fun p => match p.1 with
    | .error (.cause c _) => c == 0x05 || c == 0x06
    | _ => false).length
  match ps.findSome? fun p => match p.1 with
    | .error r => some r
    | .ok _ => none with
  | some r => .error (r, failed)
  | none => .ok (ps.filterMap fun p => match p.1 with
    | .ok q => some (q, p.2)
    | .error _ => none)

/-- A contiguous range as places of one page or window each (R208). -/
def State.span (s : State) (sp : Nat) (k : AccKind) (fuel : Nat) (va : Word) (n : Nat) :
    Except (Refused × Nat) (List (Place × Nat)) × State :=
  match s.pieces sp k fuel va n with
  | (ps, s) => (placed ps, s)

/-- The range of the oldest queue entry, whose places stay as they are once it has entered the access path (R354). -/
def State.spanOnce (s : State) (sp : Nat) (k : AccKind) (fuel : Nat) (va : Word) (n : Nat) :
    Except (Refused × Nat) (List (Place × Nat)) × State :=
  match s.ctx.headPlaces with
  | [] => s.span sp k fuel va n
  | ps => (placed ps, s)

/-- What a read of a range finds. -/
inductive FoundBytes where
  | bytes (bs : List Byte) (s : State)
  | held
  | bad (va : Word)
  deriving DecidableEq, Repr

/-- A store that comes before an access to a range in its orders (R217, R218). -/
def spanAfter (ps : List (Place × Nat)) (q : Pend) : Bool :=
  ps.any fun p => (q.hs && p.1.loc.hs) ||
    (List.range (Nat.min 8 ((p.1.va.toNat % 64 + p.2 + 63) / 64))).any fun k => q.cls == (sliceOf p.1.va.toNat + k) % 8

/-- The pieces of a range that the far side refuses, reported (R367). -/
def State.noteSpan (s : State) (ps : List (Place × Nat)) : State :=
  ps.foldl (fun s p => s.noteRefused s.cur p.1.loc.key ⟨0, p.1.va, s.ctx.headPc⟩) s

/-- The bytes of a range, as the context's own loads find them (R208, R217, R221, R367). -/
def State.readSpan (s : State) (ps : List (Place × Nat)) : FoundBytes :=
  if ps.any fun p => s.onBoard p.1.loc.key p.2 then .held
  else
    match s.force 2 (spanAfter ps) with
    | none => .held
    | some s =>
      match ps.find? fun p => s.isBad p.1.loc.key p.2 with
      | some p => .bad (p.1.va + BitVec.ofNat 64 (s.badAt p.1.loc.key p.2))
      | none => .bytes (ps.flatMap fun p => s.ownBytes p.1.loc.key p.2) (s.noteSpan ps)

/-- Bytes written to one page or window from its place on, 64 bytes at a time in ascending order (R208). -/
def State.writePieces (s : State) (sp : Nat) (p : Place) : Nat → Nat → List Byte → State
  | 0, _, _ => s
  | fuel + 1, o, bs =>
    match bs with
    | [] => s
    | _ =>
      let va := p.va + BitVec.ofNat 64 o
      let p' : Place := ⟨{ p.loc with key := p.loc.key + o }, sliceOf va.toNat, va⟩
      State.writePieces (s.writeAt sp p' s.ctx.headPc (bs.take 64)) sp p fuel (o + 64) (bs.drop 64)

/-- Bytes written to a range (R208). -/
def State.writeSpan (s : State) (sp : Nat) : List (Place × Nat) → List Byte → State
  | [], _ => s
  | (p, n) :: ps, bs => State.writeSpan (s.writePieces sp p (n / 64 + 1) 0 (bs.take n)) sp ps (bs.drop n)

/-! ## Whole blocks -/

/-- `n` bytes at a virtual address under an ASID and level, as they stand in memory (R347, R367, R389), for context `c`: read by its
engine (`pc` 0) or by its word at `pc`. -/
def State.readBlock (s : State) (c : Nat) (pc : Word) (asid : BitVec 13) (priv : Priv) : Nat → Word → Nat → Except Refused (List Byte) × State
  | 0, _, _ => (.ok [], s)
  | fuel + 1, va, n =>
    if n = 0 then (.ok [], s)
    else
      let here := Nat.min n (65536 - va.toNat % 65536)
      match s.translate asid priv .load va with
      | (.error r, s) => (.error r, s)
      | (.ok l, s) =>
        if s.isBad l.key here then (.error (.ecc 0 (va + BitVec.ofNat 64 (s.badAt l.key here))), s)
        else
          let bs := s.bytesAt l.key here
          match State.readBlock (s.noteRefused c l.key ⟨0, va, pc⟩) c pc asid priv fuel (va + BitVec.ofNat 64 here) (n - here) with
          | (.ok r, s') => (.ok (bs ++ r), s')
          | (.error r, s') => (.error r, s')

/-- Some bytes of a block lie on a scoreboard range of the own polder, so that a read of the block by a word of the context waits
(R221). -/
def State.blockHeld (s : State) : Nat → Word → Nat → Bool
  | 0, _, _ => false
  | fuel + 1, va, n =>
    if n = 0 then false
    else
      let here := Nat.min n (65536 - va.toNat % 65536)
      (match (s.translate s.ctx.asid s.ctx.priv .load va).1 with
        | .ok l => s.onBoard l.key here
        | .error _ => false) || s.blockHeld fuel (va + BitVec.ofNat 64 here) (n - here)

/-- A block read by the SCT's word (R221, R347); no refusal where the word waits for a scoreboard range. -/
def State.readOwn (s : State) (fuel : Nat) (va : Word) (n : Nat) : Except (Option Refused) (List Byte) × State :=
  if s.blockHeld fuel va n then (.error none, s)
  else
    match s.readBlock s.cur s.ctx.pc s.ctx.asid s.ctx.priv fuel va n with
    | (.ok bs, s) => (.ok bs, s)
    | (.error r, s) => (.error (some r), s)

/-- The SCT's word after a block that it could not read: it waits, or takes the trap of the refusal. -/
def State.unread (s : State) (r : Option Refused) : State :=
  match r with
  | some r => s.refuse r
  | none => s.stallFor .chan

end Sys2Proof.Machine
end

