-- ==== Sys2Proof/Machine/Issue.lean ====
section
/-! DEFINITION. The vector instruction queue (R12 to R19): issue, commit in order, lend successors (R72, R73, R136), queue results
(R29), and what an instruction's destinations are. -/

namespace Sys2Proof.Machine

/-- What an entry does when it reaches the commit point. -/
inductive Commit where
  /-- It commits, with the machine it leaves. -/
  | done (s : State)
  /-- It waits, with nothing changed (R18). -/
  | wait
  /-- It has been translated and waits in the access path (R17, R221, R245), where its accesses keep their places (R354); the machine carries
  what the translation leaves, and nothing else has changed. -/
  | held (s : State) (ps : Located)
  /-- It raises a cause with a tval (R45); the machine carries what the failed check leaves. -/
  | trap (cause : Nat) (tval : Word) (s : State)

/-- The x register that a form writes in the SCT (R73, R123). -/
def xDest : Instr → Option (BitVec 5)
  | .add d .. | .sub d .. | .and d .. | .or d .. | .xor d .. | .sll d .. | .srl d .. | .sra d .. | .slt d .. | .sltu d .. => some d
  | .mul d .. | .mulh d .. | .mulhu d .. | .div d .. | .divu d .. | .rem d .. | .remu d .. => some d
  | .min d .. | .max d .. | .minu d .. | .maxu d .. | .clz d .. | .ctz d .. | .popc d .. | .rev8 d .. => some d
  | .sextB d .. | .sextH d .. | .sextW d .. | .addi d .. | .andi d .. | .ori d .. | .xori d .. | .slti d .. => some d
  | .sltiu d .. | .slli d .. | .srli d .. | .srai d .. | .lui d .. | .auipc d .. => some d
  | .lb d .. | .lbu d .. | .lh d .. | .lhu d .. | .lw d .. | .lwu d .. | .ld d .. => some d
  | .amoAdd d .. | .amoAnd d .. | .amoOr d .. | .amoXor d .. | .amoMin d .. | .amoMax d .. | .amoMinu d .. => some d
  | .amoMaxu d .. | .amoSwap d .. | .amoCas d .. | .jal d .. | .jalr d .. => some d
  | .fadd d .. | .fsub d .. | .fmul d .. | .fdiv d .. | .fsqrt d .. | .fmin d .. | .fmax d .. | .feq d .. | .flt d .. => some d
  | .fle d .. | .fcvt d .. | .fclass d .. | .fsgnj d .. | .fsgnjn d .. | .fsgnjx d .. | .vsetvl d .. | .qpop _ d => some d
  | _ => none

/-- The first v register that a form writes and how many follow each other from it (R73). -/
def vDest : Instr → Option (BitVec 6 × Nat)
  | .vadd d .. | .vsub d .. | .vmul d .. | .vmulh d .. | .vdiv d .. | .vrem d .. | .vmin d .. | .vmax d .. | .vand d .. => some (d, 1)
  | .vor d .. | .vxor d .. | .vsll d .. | .vsrl d .. | .vsra d .. | .vseq d .. | .vsne d .. | .vslt d .. | .vsle d .. => some (d, 1)
  | .vsel d .. | .vmv d .. | .vpopc d .. | .vxorpop d .. | .vclz d .. | .vrecAdd d .. | .vrecMax d .. | .vrecLin d .. => some (d, 1)
  | .vaddVx d .. | .vsubVx d .. | .vmulVx d .. | .vmulhVx d .. | .vdivVx d .. | .vremVx d .. | .vminVx d .. => some (d, 1)
  | .vmaxVx d .. | .vandVx d .. | .vorVx d .. | .vxorVx d .. | .vsllVx d .. | .vsrlVx d .. | .vsraVx d .. => some (d, 1)
  | .vseqVx d .. | .vsneVx d .. | .vsltVx d .. | .vsleVx d .. | .vbcast d .. | .vidxs d .. | .vidx d .. => some (d, 1)
  | .vfadd d .. | .vfsub d .. | .vfmul d .. | .vfdiv d .. | .vfsqrt d .. | .vfmadd d .. | .vfmin d .. | .vfmax d .. => some (d, 1)
  | .vfeq d .. | .vflt d .. | .vfle d .. | .vfexp2 d .. | .vfcvt d .. | .vfclass d .. | .vfaddVf d .. | .vfsubVf d .. => some (d, 1)
  | .vfmulVf d .. | .vfdivVf d .. | .vfmaddVf d .. | .vfminVf d .. | .vfmaxVf d .. | .vfeqVf d .. | .vfltVf d .. => some (d, 1)
  | .vfleVf d .. | .vnclip d .. | .vsadd d .. | .vssub d .. | .vaadd d .. | .vhad d .. | .vqnt d .. | .vdqnt d .. => some (d, 1)
  | .vqntC d .. | .vrand d .. | .vslideup d .. | .vslidedn d .. | .vperm d .. | .vcmprs d .. | .vexpand d .. => some (d, 1)
  | .vmand d .. | .vmor d .. | .vmxor d .. | .vmnot d .. => some (d, 1)
  | .vwmul d .. | .vwmacc d .. | .vwadd d .. | .vzip d .. | .vunzip d .. | .vmrg d .. | .vpart d .. => some (d, 2)
  | .vld d .. | .vldStrided d .. | .vldIndexed d .. | .vldF d .. => some (d, 1)
  | .vldSeg d _ _ n _ | .vldFSeg d _ _ n _ | .vldSegIndexed d _ _ _ n _ => some (d, n.toNat + 1)
  | .vsort d .. | .visec d .. | .vuniq d .. | .vrank d .. | .vrankLe d .. | .vtopk d .. | .vcmpt d .. | .tmovr _ d .. => some (d, 1)
  | _ => none

/-- A write, set or clear of an in-order CSR, which enters the VIQ (R12, R15): vl, vtype, vmt, vrm, vthr, vnotify, wfmt, frm. -/
def inOrderCsr (c : BitVec 12) : Bool := (csrRights c).map (·.kind) == some .inOrder

/-- A form that enters the VIQ (R12): majors 0x23 to 0x33 but for qpop, and writes of in-order CSRs. -/
def entersViq : Instr → Bool
  | .vsetvl .. | .vgetvl .. | .vclset .. => true
  | .vredsum .. | .vredmax .. | .vredmin .. | .vredand .. | .vredor .. | .vfredsum .. | .vfirst .. | .vcount .. | .vhadC .. => true
  | .vst .. | .vstStrided .. | .vstIndexed .. | .vstSeg .. | .vstN .. | .vstNSeg .. | .vstNIndexed .. => true
  | .vmrgc .. | .vchks .. | .vfacet .. | .mopa .. | .mopaS .. | .mopaW .. | .mopaGr .. | .tzero .. | .tanchor .. | .tres .. => true
  | .tmovw .. | .tldRaw .. | .tldCan .. | .tstRaw .. | .tstCan .. | .cbld .. | .qpush .. | .qstat .. | .copy .. => true
  | .vgthr .. | .drain .. => true
  | .csrw _ c | .csrs _ c | .csrc _ c => inOrderCsr c
  | i => (vDest i).isSome

/-! ## Copies of registers -/

/-- The pairing bit of a facet (R166). -/
def facetP (f : BitVec 16) : Bool := f.getLsbD 12

/-- The granted bytes of v[a] of `src` copied into v[d] (R150). -/
def Ctx.copyBytes (c src : Ctx) (d a : BitVec 6) : Ctx :=
  let n := src.lgn * 256
  let old := (c.getV d).toNat
  let c := if n = 0 then c else c.raiseHwm d.toNat (n / 8)
  c.putV d (BitVec.ofNat 2048 (old / 2 ^ n * 2 ^ n + (src.getV a).toNat % 2 ^ n))

/-- A register whose number lies in v2 to v31, so that it has a payload partner 32 above (R150). -/
def hasPartner (d : BitVec 6) : Bool := decide (2 ≤ d.toNat ∧ d.toNat ≤ 31)

/-- A whole-register copy, as an unmasked vmv makes it (R136, R150). -/
def Ctx.moveReg (c src : Ctx) (d a : BitVec 6) : Ctx :=
  let f := src.getFacet a
  let c := c.copyBytes src d a
  if facetP f then
    if hasPartner d then ((c.putFacet d f).copyBytes src (vreg d 32) (vreg a 32)).putFacet (vreg d 32) 0
    else c.putFacet d (f &&& 0xEFFF)
  else c.putFacet d f

/-- A group copied register by register, every source read before any destination is written (R136). -/
def Ctx.moveGroup (c : Ctx) (d a : BitVec 6) (k : Nat) : Ctx :=
  (List.range k).foldl (fun x j => x.moveReg c (vreg d j) (vreg a j)) c

/-! ## Commit -/

/-- The predicate of a latch when its successor reaches the vector unit (R136). -/
def Latch.holds (l : Latch) (v0 : VWord) : Bool := (if l.kind then v0.getLsbD 0 else l.pv) != l.neg

/-- An entry at the commit point: a lend successor whose predicate is false is skipped, with its copy (R136). -/
def State.guarded (s : State) (e : VEntry) (go : State → Commit) : Commit :=
  match e.latch with
  | none => go s
  | some l =>
    if l.holds (s.ctx.getV 0) then go s
    else if l.dcEn then
      match vDest e.instr with
      | some (d, k) => .done (s.onCtx fun c => c.moveGroup d l.dcopy k)
      | none => .done s
    else .done s

/-- The oldest entry leaves the queue, and what stands behind it in the access path follows. -/
def State.popHead (s : State) : State := (s.onCtx fun c => { c with viq := c.viq.tail }).landLate.advanceBars

/-- The oldest entry enters the access path and waits there, with its accesses at these places (R354); the fences that follow it stand
behind it (R245). -/
def State.enterHead (s : State) (ps : Located) : State :=
  if s.ctx.late.isSome then s
  else s.onCtx fun c =>
    { c with
      late := some ((c.bars.filter fun b => decide (b.1 ≤ 1)).map fun b => Pend.fence b.2)
      bars := c.bars.filter fun b => !decide (b.1 ≤ 1)
      located := ps }

/-- The oldest entry commits, waits or traps (R14, R18, R45). -/
def State.commitWith (s : State) (e : VEntry) (go : State → Commit) : State :=
  match s.guarded e go with
  | .done s => s.popHead
  | .wait => s
  | .held t ps => t.enterHead ps
  | .trap c t s => s.takeTrap false true c t

/-- Issue (R12, R13): the word enters the queue with the values it captures and the latch, and the SCT goes on; a full queue stalls
it. An entry that finds the queue empty commits at once, unless the vector unit stays behind (log 6). -/
def State.issue (s : State) (i : Instr) (op1 op2 : Word) (go : State → Commit) : Res :=
  if 64 ≤ s.ctx.viq.length then .next (s.stallFor .viq)
  else
    let e : VEntry := ⟨i, s.ctx.pc, op1, op2, s.ctx.latch.map fun l => { l with begun := false }⟩
    let idle := s.ctx.viq.isEmpty && s.ctx.lag == 0
    let s := (s.onCtx fun c => { c with viq := c.viq ++ [e] }).retire
    .next (if idle then s.commitWith e go else s)

/-- A change of the context at a commit. -/
def State.commitCtx (s : State) (f : Ctx → Ctx) : Commit := .done (s.onCtx f)

/-- Cause 0x02 at the commit (R143). -/
def State.badField (s : State) (i : Instr) : Commit := .trap 0x02 ((encode i).setWidth 64) s

/-- A refused access at a commit: its cause, or the machine check of an uncorrectable word (R389, kind READ), whose record names the
oldest entry's PC (R391). -/
def State.refuseCommit (s : State) (r : Refused) : Commit :=
  match r with
  | .cause c t => .trap c t s
  | .ecc sp va =>
    let rec_ := { s.recordOf s.cur 1 sp va with pc := s.ctx.headPc }
    match s.record s.ctx.asid rec_ with
    | (s, a) => .trap 0x12 a s

/-- vfs with its NPG field (R238, R401). -/
def setNpg (vfs : Word) (n : Nat) : Word :=
  BitVec.ofNat 64 (vfs.toNat / 2 ^ 33 * 2 ^ 33 + Nat.min n 64 * 2 ^ 26 + vfs.toNat % 2 ^ 26)

/-- NPG as a trap of a vector memory instruction leaves it. -/
def State.withNpg (s : State) (n : Nat) : State := s.onCtx fun c => { c with vfs := setNpg c.vfs n }

/-- A result pushed to q0 to q7; a full queue holds the instruction (R18, R29). -/
def State.pushQ (s : State) (q : BitVec 3) (v : Word) : Commit :=
  let old := s.ctx.q[q.toNat]
  if 8 ≤ old.length then .wait else .done (s.onCtx fun c => { c with q := c.q.set q.toNat (old ++ [v]) })

/-! ## Words that are not instructions -/

/-- The cause of a rejected word at a privilege level (R43, R66). -/
def illegalCause (e : DecodeError) (p : Priv) : Nat :=
  match e with
  | .op => 0x01
  | .field lvl => if p.rank < lvl.rank then 0x03 else 0x02
  | .queue => 0x0C

/-- A rejected word is VIQ-bound (R12, R45): majors 0x23 to 0x33, but for the function of qpop. -/
def illegalEnters (w : Word32) : Bool :=
  decide (0x23 ≤ (w.fld 26 6).toNat ∧ (w.fld 26 6).toNat ≤ 0x33) && !(w.fld 26 6 == 0x33 && w.fld 5 7 == 1)

/-- The commit of a rejected word (R45). -/
def commitIllegalWord (w : BitVec 32) (e : DecodeError) (s : State) : Commit := .trap (illegalCause e s.ctx.priv) (w.setWidth 64) s

/-- A fetched word that is not an instruction (R44, R45): the cause of R43 at once for an SCT-bound word and for the successor of a
lend, whose latch is cleared (R74); a VIQ-bound word is issued as faulting and traps at its commit. -/
def execIllegalWord (w : BitVec 32) (e : DecodeError) (s : State) : Res :=
  if illegalEnters w && (s.ctx.latch.isNone || e == .queue) then s.issue (.illegalWord w e) 0 0 (commitIllegalWord w e)
  else .next ((s.onCtx fun c => { c with latch := none }).trap (illegalCause e s.ctx.priv) (w.setWidth 64))

end Sys2Proof.Machine
end

