-- ==== Sys2Proof/Machine/Alu.lean ====
section
/-! DEFINITION. The ALU, immediate, branch and jump families (R112 to R121). Each executes in the SCT, sets no flag and raises no
cause beyond decode, jalr's apart. -/

namespace Sys2Proof.Machine

/-- An x register written and the word completed. -/
def State.writeX (s : State) (d : BitVec 5) (v : Word) : Res := .next (s.setX d v).retire

/-- A branch: taken to (PC + 4 × sext(off16)) mod 2^55, else to the next word (R118). -/
def State.branch (s : State) (taken : Bool) (off : BitVec 16) : Res :=
  if taken then .next (s.retireTo (pcPlus s.ctx.pc (4 * off.toInt))) else .next s.retire

/-- add: a + b modulo 2^64 (R113). -/
def execAdd (d a b : BitVec 5) (s : State) : Res :=
  s.writeX d (s.getX a + s.getX b)

/-- sub: a − b modulo 2^64 (R113). -/
def execSub (d a b : BitVec 5) (s : State) : Res :=
  s.writeX d (s.getX a - s.getX b)

/-- and, bitwise (R113). -/
def execAnd (d a b : BitVec 5) (s : State) : Res :=
  s.writeX d (s.getX a &&& s.getX b)

/-- or, bitwise (R113). -/
def execOr (d a b : BitVec 5) (s : State) : Res :=
  s.writeX d (s.getX a ||| s.getX b)

/-- xor, bitwise (R113). -/
def execXor (d a b : BitVec 5) (s : State) : Res :=
  s.writeX d (s.getX a ^^^ s.getX b)

/-- sll: shift left by b[5:0] (R113). -/
def execSll (d a b : BitVec 5) (s : State) : Res :=
  s.writeX d (s.getX a <<< ((s.getX b).toNat % 64))

/-- srl: shift right with zeros by b[5:0] (R113). -/
def execSrl (d a b : BitVec 5) (s : State) : Res :=
  s.writeX d (s.getX a >>> ((s.getX b).toNat % 64))

/-- sra: shift right with copies of a[63] by b[5:0] (R113). -/
def execSra (d a b : BitVec 5) (s : State) : Res :=
  s.writeX d ((s.getX a).sshiftRight ((s.getX b).toNat % 64))

/-- slt: 1 if a < b signed, else 0 (R113). -/
def execSlt (d a b : BitVec 5) (s : State) : Res :=
  s.writeX d (flag01 ((s.getX a).slt (s.getX b)))

/-- sltu: 1 if a < b unsigned, else 0 (R113). -/
def execSltu (d a b : BitVec 5) (s : State) : Res :=
  s.writeX d (flag01 ((s.getX a).ult (s.getX b)))

/-- mul: bits [63:0] of the product (R113). -/
def execMul (d a b : BitVec 5) (s : State) : Res :=
  s.writeX d (s.getX a * s.getX b)

/-- mulh: bits [127:64] of the signed product (R113). -/
def execMulh (d a b : BitVec 5) (s : State) : Res :=
  s.writeX d (BitVec.ofInt 64 ((s.getX a).toInt * (s.getX b).toInt / 2 ^ 64))

/-- mulhu: bits [127:64] of the unsigned product (R113). -/
def execMulhu (d a b : BitVec 5) (s : State) : Res :=
  s.writeX d (BitVec.ofNat 64 ((s.getX a).toNat * (s.getX b).toNat / 2 ^ 64))

/-- div: signed quotient toward zero; all ones for b = 0; −2^63 ÷ −1 gives −2^63 (R113, R114). -/
def execDiv (d a b : BitVec 5) (s : State) : Res :=
  s.writeX d (divS (s.getX a) (s.getX b))

/-- divu: unsigned quotient; all ones for b = 0 (R113, R114). -/
def execDivu (d a b : BitVec 5) (s : State) : Res :=
  s.writeX d (divU (s.getX a) (s.getX b))

/-- rem: signed remainder with the sign of a; a for b = 0; 0 for −2^63 rem −1 (R113, R114). -/
def execRem (d a b : BitVec 5) (s : State) : Res :=
  s.writeX d (remS (s.getX a) (s.getX b))

/-- remu: unsigned remainder; a for b = 0 (R113, R114). -/
def execRemu (d a b : BitVec 5) (s : State) : Res :=
  s.writeX d (remU (s.getX a) (s.getX b))

/-- min: the lesser, signed (R113). -/
def execMin (d a b : BitVec 5) (s : State) : Res :=
  s.writeX d (if (s.getX b).slt (s.getX a) then s.getX b else s.getX a)

/-- max: the greater, signed (R113). -/
def execMax (d a b : BitVec 5) (s : State) : Res :=
  s.writeX d (if (s.getX a).slt (s.getX b) then s.getX b else s.getX a)

/-- minu: the lesser, unsigned (R113). -/
def execMinu (d a b : BitVec 5) (s : State) : Res :=
  s.writeX d (if (s.getX b).ult (s.getX a) then s.getX b else s.getX a)

/-- maxu: the greater, unsigned (R113). -/
def execMaxu (d a b : BitVec 5) (s : State) : Res :=
  s.writeX d (if (s.getX a).ult (s.getX b) then s.getX b else s.getX a)

/-- clz: leading zero bits of a; 64 when a = 0 (R113). -/
def execClz (d a : BitVec 5) (s : State) : Res :=
  s.writeX d (BitVec.ofNat 64 (leadZeros 64 (s.getX a).toNat))

/-- ctz: trailing zero bits of a; 64 when a = 0 (R113). -/
def execCtz (d a : BitVec 5) (s : State) : Res :=
  s.writeX d (BitVec.ofNat 64 (trailZeros 64 (s.getX a).toNat))

/-- popc: one bits of a (R113). -/
def execPopc (d a : BitVec 5) (s : State) : Res :=
  s.writeX d (BitVec.ofNat 64 (onesCount 64 (s.getX a).toNat))

/-- rev8: the bytes of a in reverse order (R113). -/
def execRev8 (d a : BitVec 5) (s : State) : Res :=
  s.writeX d (BitVec.ofNat 64 (leNat (leBytes 8 (s.getX a).toNat).reverse))

/-- sext.b (R113). -/
def execSextB (d a : BitVec 5) (s : State) : Res :=
  s.writeX d (((s.getX a).setWidth 8).signExtend 64)

/-- sext.h (R113). -/
def execSextH (d a : BitVec 5) (s : State) : Res :=
  s.writeX d (((s.getX a).setWidth 16).signExtend 64)

/-- sext.w (R113). -/
def execSextW (d a : BitVec 5) (s : State) : Res :=
  s.writeX d (((s.getX a).setWidth 32).signExtend 64)

/-- addi: a + sext(imm16) (R115). -/
def execAddi (d a : BitVec 5) (i_ : BitVec 16) (s : State) : Res :=
  s.writeX d (s.getX a + i_.signExtend 64)

/-- andi: a and zext(imm16) (R115). -/
def execAndi (d a : BitVec 5) (i_ : BitVec 16) (s : State) : Res :=
  s.writeX d (s.getX a &&& i_.zeroExtend 64)

/-- ori: a or zext(imm16) (R115). -/
def execOri (d a : BitVec 5) (i_ : BitVec 16) (s : State) : Res :=
  s.writeX d (s.getX a ||| i_.zeroExtend 64)

/-- xori: a xor zext(imm16) (R115). -/
def execXori (d a : BitVec 5) (i_ : BitVec 16) (s : State) : Res :=
  s.writeX d (s.getX a ^^^ i_.zeroExtend 64)

/-- slti: 1 if a < sext(imm16) signed, else 0 (R115). -/
def execSlti (d a : BitVec 5) (i_ : BitVec 16) (s : State) : Res :=
  s.writeX d (flag01 ((s.getX a).slt (i_.signExtend 64)))

/-- sltiu: 1 if a < sext(imm16) unsigned, else 0 (R115). -/
def execSltiu (d a : BitVec 5) (i_ : BitVec 16) (s : State) : Res :=
  s.writeX d (flag01 ((s.getX a).ult (i_.signExtend 64)))

/-- slli (R116). -/
def execSlli (d a : BitVec 5) (n : BitVec 6) (s : State) : Res :=
  s.writeX d (s.getX a <<< n.toNat)

/-- srli (R116). -/
def execSrli (d a : BitVec 5) (n : BitVec 6) (s : State) : Res :=
  s.writeX d (s.getX a >>> n.toNat)

/-- srai (R116). -/
def execSrai (d a : BitVec 5) (n : BitVec 6) (s : State) : Res :=
  s.writeX d ((s.getX a).sshiftRight n.toNat)

/-- lui: sext64(imm21 << 11) (R117). -/
def execLui (d : BitVec 5) (i_ : BitVec 21) (s : State) : Res :=
  s.writeX d ((i_ ++ (0 : BitVec 11)).signExtend 64)

/-- auipc: PC + sext64(imm21 << 11) (R117). -/
def execAuipc (d : BitVec 5) (i_ : BitVec 21) (s : State) : Res :=
  s.writeX d (s.ctx.pc + (i_ ++ (0 : BitVec 11)).signExtend 64)

/-- beq: branch when equal (R118). -/
def execBeq (a b : BitVec 5) (i_ : BitVec 16) (s : State) : Res :=
  s.branch (s.getX a == s.getX b) i_

/-- bne: branch when not equal (R118). -/
def execBne (a b : BitVec 5) (i_ : BitVec 16) (s : State) : Res :=
  s.branch (s.getX a != s.getX b) i_

/-- blt: branch when signed less (R118). -/
def execBlt (a b : BitVec 5) (i_ : BitVec 16) (s : State) : Res :=
  s.branch ((s.getX a).slt (s.getX b)) i_

/-- bge: branch when signed greater or equal (R118). -/
def execBge (a b : BitVec 5) (i_ : BitVec 16) (s : State) : Res :=
  s.branch (!(s.getX a).slt (s.getX b)) i_

/-- bltu: branch when unsigned less (R118). -/
def execBltu (a b : BitVec 5) (i_ : BitVec 16) (s : State) : Res :=
  s.branch ((s.getX a).ult (s.getX b)) i_

/-- bgeu: branch when unsigned greater or equal (R118). -/
def execBgeu (a b : BitVec 5) (i_ : BitVec 16) (s : State) : Res :=
  s.branch (!(s.getX a).ult (s.getX b)) i_

/-- jal: xd := PC + 4, then PC := (PC + 4 × off21) mod 2^55 (R119). -/
def execJal (d : BitVec 5) (i_ : BitVec 21) (s : State) : Res :=
  .next ((s.setX d (s.ctx.pc + 4)).retireTo (pcPlus s.ctx.pc (4 * i_.toInt)))

/-- jalr: the target x[xa] + sext(imm16) must be 4-byte aligned (0x04) and below 2^55 (0x07), else xd is unchanged; then xd := PC + 4
and PC := target (R120). -/
def execJalr (d a : BitVec 5) (i_ : BitVec 16) (s : State) : Res :=
  let target := s.getX a + i_.signExtend 64
  if target.toNat % 4 ≠ 0 then .next (s.trap 0x04 target)
  else if 2 ^ 55 ≤ target.toNat then .next (s.trap 0x07 target)
  else .next ((s.setX d (s.ctx.pc + 4)).retireTo target)

end Sys2Proof.Machine
end

