-- ==== Sys2Proof/Machine/ScalarMem.lean ====
section
/-! DEFINITION. Scalar loads and stores and the amo family (R228 to R235). -/

namespace Sys2Proof.Machine

/-- What a word of class SM that waits as `w` waits for while an older vector memory instruction has not entered the access path (R17): a
wait word's stall is a safe point from its beginning (R31, R75, R248), that of another word is none while a lend governs it. -/
def Stall.first : Stall → Stall
  | .word => .word
  | _ => .viq

/-- A word of class SM: it waits while an older vector memory instruction has not entered the access path (R17), and, as `w` says, behind
the barriers that hold its translation (R245, R358). -/
def State.inOrder (s : State) (w : Stall) (k : State → Res) : Res :=
  if s.ctx.vmWaits then .next (s.stallFor w.first)
  else
    match s.behindBarriers with
    | none => .next (s.stallFor w)
    | some s => k s

/-- The address x[xa] + sext(imm16) (R230). -/
def State.addrSI (s : State) (a : BitVec 5) (i : BitVec 16) : Word := s.getX a + i.signExtend 64

/-- A scalar load of `w` bytes, extended by `ext` (R230, R231). -/
def State.loadX (s : State) (d a : BitVec 5) (i : BitVec 16) (w : Nat) (ext : Nat → Word) : Res :=
  s.inOrder (.board none 0) fun s =>
    match s.alignedOnce .load w (s.addrSI a i) with
    | (.error r, s) => .next (s.refuse r)
    | (.ok p, s) =>
      match s.readAt p s.ctx.pc w with
      | .held => .next (s.stallFor (.board (some p) w))
      | .bad va => .next (s.refuse (.ecc 0 va))
      | .value v s => s.writeX d (ext v)

/-- A scalar store as it executes (R230, R231): translated, and put at the end of the access path. -/
def State.storeNow (s : State) (x a : BitVec 5) (i : BitVec 16) (w : Nat) : Res :=
  match s.aligned 0 .store none w (s.addrSI a i) with
  | (.error r, s) => .next (s.refuse r)
  | (.ok p, s) =>
    .next (s.putStore (p.pend s.ctx.asid (s.jobOf s.ctx.asid) 0 s.ctx.pc s.ctx.path (leBytes w (s.getX x).toNat))).settle.retire

/-- A scalar store of the low `w` bytes of x[xs] (R230, R231). A fence does not stall it (R245): behind one whose older stores a scoreboard
range holds, it takes its place in the access path, and so it does behind an oldest queue entry that waits there, but for a store that needs
a walk, whose reads a fence holds too (R358). -/
def State.storeX (s : State) (x a : BitVec 5) (i : BitVec 16) (w : Nat) : Res :=
  let free := decide ((s.addrSI a i).toNat % w ≠ 0) || s.walkFree .store (s.addrSI a i)
  if s.ctx.entered then
    match s.beforeFetch with
    | some t => t.storeNow x a i w
    | none => if free then s.storeNow x a i w else .next (s.stallFor .chan)
  else if s.behindBarriers.isNone && !s.ctx.vmWaits && free then s.storeNow x a i w
  else s.inOrder .chan fun s => s.storeNow x a i w

/-- The width of an amo (R49). -/
def amoWidth (w : BitVec 1) : Nat := if w = 0 then 4 else 8

/-- A value of `w` bytes, sign-extended (R233). -/
def sextBytes (w v : Nat) : Word := BitVec.ofInt 64 (toSigned (8 * w) v)

/-- An amo (R233 to R235): the read and the write of one location are one access; the old value goes to xd. Every order and scope is
met: an amo comes after the older stores of its class and the lines that leave the buffer before it (R222), and with rel after all of
them (R234). -/
def State.amo (s : State) (d a b : BitVec 5) (o : BitVec 2) (w : BitVec 1) (f : Nat → Nat → Nat → Nat) : Res :=
  s.inOrder (.board none 0) fun s =>
    let n := amoWidth w
    let addr := s.getX a
    let vb := (s.getX b).toNat % 2 ^ (8 * n)
    let vc := (s.getX d).toNat % 2 ^ (8 * n)
    match s.alignedOnce .rmw n addr with
    | (.error r, s) => .next (s.refuse r)
    | (.ok p, s) =>
      match (if s.onBoard p.loc.key n then none else s.drainOut.force 1 fun q => o.getLsbD 1 || q.drain || p.after q) with
      | none => .next (s.stallFor (.board (some p) n))
      | some s =>
        match s.rmw p s.ctx.pc n fun old => f old vb vc with
        | (old, s) => s.writeX d (sextBytes n old)

/-- lb: a sign-extended byte (R230). -/
def execLb (d a : BitVec 5) (i : BitVec 16) (s : State) : Res := s.loadX d a i 1 (sextBytes 1)

/-- lbu: a zero-extended byte (R230). -/
def execLbu (d a : BitVec 5) (i : BitVec 16) (s : State) : Res := s.loadX d a i 1 (BitVec.ofNat 64)

/-- lh: a sign-extended halfword (R230). -/
def execLh (d a : BitVec 5) (i : BitVec 16) (s : State) : Res := s.loadX d a i 2 (sextBytes 2)

/-- lhu: a zero-extended halfword (R230). -/
def execLhu (d a : BitVec 5) (i : BitVec 16) (s : State) : Res := s.loadX d a i 2 (BitVec.ofNat 64)

/-- lw: a sign-extended word (R230). -/
def execLw (d a : BitVec 5) (i : BitVec 16) (s : State) : Res := s.loadX d a i 4 (sextBytes 4)

/-- lwu: a zero-extended word (R230). -/
def execLwu (d a : BitVec 5) (i : BitVec 16) (s : State) : Res := s.loadX d a i 4 (BitVec.ofNat 64)

/-- ld: a doubleword (R230). -/
def execLd (d a : BitVec 5) (i : BitVec 16) (s : State) : Res := s.loadX d a i 8 (BitVec.ofNat 64)

/-- sb: the low 1 byte of x[xs] (R230). -/
def execSb (x a : BitVec 5) (i : BitVec 16) (s : State) : Res := s.storeX x a i 1

/-- sh: the low 2 bytes of x[xs] (R230). -/
def execSh (x a : BitVec 5) (i : BitVec 16) (s : State) : Res := s.storeX x a i 2

/-- sw: the low 4 bytes of x[xs] (R230). -/
def execSw (x a : BitVec 5) (i : BitVec 16) (s : State) : Res := s.storeX x a i 4

/-- sd: the low 8 bytes of x[xs] (R230). -/
def execSd (x a : BitVec 5) (i : BitVec 16) (s : State) : Res := s.storeX x a i 8

/-- amo.add: the sum, modulo 2^(8w) (R233). -/
def execAmoAdd (d a b : BitVec 5) (o : BitVec 2) (_sc : BitVec 3) (w : BitVec 1) (s : State) : Res :=
  s.amo d a b o w (fun old b _ => (old + b) % 2 ^ (8 * amoWidth w))

/-- amo.and: bitwise and (R233). -/
def execAmoAnd (d a b : BitVec 5) (o : BitVec 2) (_sc : BitVec 3) (w : BitVec 1) (s : State) : Res :=
  s.amo d a b o w (fun old b _ => old &&& b)

/-- amo.or: bitwise or (R233). -/
def execAmoOr (d a b : BitVec 5) (o : BitVec 2) (_sc : BitVec 3) (w : BitVec 1) (s : State) : Res :=
  s.amo d a b o w (fun old b _ => old ||| b)

/-- amo.xor: bitwise xor (R233). -/
def execAmoXor (d a b : BitVec 5) (o : BitVec 2) (_sc : BitVec 3) (w : BitVec 1) (s : State) : Res :=
  s.amo d a b o w (fun old b _ => old ^^^ b)

/-- amo.min: the lesser, signed (R233). -/
def execAmoMin (d a b : BitVec 5) (o : BitVec 2) (_sc : BitVec 3) (w : BitVec 1) (s : State) : Res :=
  s.amo d a b o w (fun old b _ => if toSigned (8 * amoWidth w) b < toSigned (8 * amoWidth w) old then b else old)

/-- amo.max: the greater, signed (R233). -/
def execAmoMax (d a b : BitVec 5) (o : BitVec 2) (_sc : BitVec 3) (w : BitVec 1) (s : State) : Res :=
  s.amo d a b o w (fun old b _ => if toSigned (8 * amoWidth w) old < toSigned (8 * amoWidth w) b then b else old)

/-- amo.minu: the lesser, unsigned (R233). -/
def execAmoMinu (d a b : BitVec 5) (o : BitVec 2) (_sc : BitVec 3) (w : BitVec 1) (s : State) : Res :=
  s.amo d a b o w (fun old b _ => Nat.min old b)

/-- amo.maxu: the greater, unsigned (R233). -/
def execAmoMaxu (d a b : BitVec 5) (o : BitVec 2) (_sc : BitVec 3) (w : BitVec 1) (s : State) : Res :=
  s.amo d a b o w (fun old b _ => Nat.max old b)

/-- amo.swap: the new value (R233). -/
def execAmoSwap (d a b : BitVec 5) (o : BitVec 2) (_sc : BitVec 3) (w : BitVec 1) (s : State) : Res :=
  s.amo d a b o w (fun _ b _ => b)

/-- amo.cas: the new value where the old one equals x[xd], else the old one, which is written too (R233). -/
def execAmoCas (d a b : BitVec 5) (o : BitVec 2) (_sc : BitVec 3) (w : BitVec 1) (s : State) : Res :=
  s.amo d a b o w (fun old b c => if old = c then b else old)

end Sys2Proof.Machine
end

