-- ==== Sys2Proof/Machine/Control.lean ====
section
/-! DEFINITION. The loop buffer (R122 to R131) and the lend prefix (R135 to R138). -/

namespace Sys2Proof.Machine

/-- The words of a body, fetched one after another from `va`; the first that fails raises its cause (R123). -/
def State.fetchBody (s : State) : Nat → Word → Except Refused (List Word32) × State
  | 0, _ => (.ok [], s)
  | n + 1, va =>
    match s.fetchAt va with
    | (.error r, s) => (.error r, s)
    | (.ok w, s) =>
      match State.fetchBody s n (pcPlus va 4) with
      | (.ok ws, s) => (.ok (w :: ws), s)
      | (.error r, s) => (.error r, s)

/-- The x register that an instruction word writes; none for a word that is no instruction (R123). -/
def wordDest (w : Word32) : Option (BitVec 5) :=
  match decodeWord w with
  | .ok (.instr i) => xDest i
  | _ => none

/-- A body word that makes its body invalid, the writes of j registers apart (R123). DEDUCED (log 40): a word counts as a lend, as
one of the other majors that the rule names does, by its major alone, also where one of its fields makes it no instruction. -/
def badBodyWord (xa : BitVec 5) (isLast : Bool) (w : Word32) : Bool :=
  let op := (w.fld 26 6).toNat
  decide (0x17 ≤ op ∧ op ≤ 0x20) || op == 0x35 || op == 0x36 || (isLast && op == 0x22) || wordDest w == some xa

/-- A fetch from some addresses: what stands before the fences that hold loads is performed ahead of its walk (R358). Where a scoreboard
range holds one of those stores, a fetch that needs a walk waits, and another goes on, since a fence does not stall the SCT (R245;
log 7). -/
def State.fetching (s : State) (vas : List Word) (k : State → Res) : Res :=
  match s.beforeFetch with
  | some t => k t
  | none => if vas.all (s.walkFree .fetch) then k s else .next (s.stallFor .chan)

/-- The addresses of `n` words from one on. -/
def wordsFrom (va : Word) (n : Nat) : List Word := (List.range n).map fun k => pcPlus va (4 * k)

/-- The SCT's next word has to wait for the walk of its fetch (see `State.fetching`). -/
def State.fetchWaits (s : State) : Bool := s.ctx.loop.isNone && s.beforeFetch.isNone && !s.walkFree .fetch s.ctx.pc

/-- The SCT's next word: from the loop buffer while a body is active (R123), else fetched. -/
def State.sctWord (s : State) : Except Refused Word32 × State :=
  match s.ctx.loop with
  | some l => (.ok (l.body.getD l.idx 0), s)
  | none => (s.beforeFetch.getD s).fetchAt s.ctx.pc

/-- The index of the first word of a body that has a fault. -/
def firstBad (f : Bool → Word32 → Bool) : List Word32 → Nat → Option Nat
  | [], _ => none
  | w :: r, k => if f r.isEmpty w then some k else firstBad f r (k + 1)

/-- A word that writes one of j0 to j(ndim − 1) (R123). -/
def writesIndex (ndim : Nat) (w : Word32) : Bool :=
  match wordDest w with
  | some d => decide (19 ≤ d.toNat ∧ d.toNat < 19 + ndim)
  | none => false

/-- The bytes of the nest block at x[xa], read as a scalar load (R126), or why they are not: a cause, or a wait for a scoreboard
range. -/
inductive BlockRead where
  | bytes (bs : List Byte) (s : State)
  | refused (r : Refused) (s : State)
  | held (p : Place)

/-- The nest block at an address (R125, R126). -/
def State.readNest (s : State) (va : Word) : BlockRead :=
  match s.alignedOnce .load 64 va with
  | (.error r, s) => .refused r s
  | (.ok p, s) =>
    match s.readAt p s.ctx.pc 64 with
    | .held => .held p
    | .bad va => .refused (.ecc 0 va) s
    | .value _ s =>
      let bs := s.ownBytes p.loc.key 64
      if (parseNest bs).isSome then .bytes bs s else .refused (.cause 0x14 va) s

/-- loop (R123, R124). -/
def execLoop (a l : BitVec 5) (s : State) : Res :=
  let first := pcPlus s.ctx.pc 4
  s.fetching (wordsFrom first (l.toNat + 1)) fun s =>
    match s.fetchBody (l.toNat + 1) first with
    | (.error r, s) => .next (s.refuse r)
    | (.ok body, s) =>
      match firstBad (badBodyWord a) body 0 with
      | some k => .next (s.trap 0x14 (pcPlus first (4 * k)))
      | none =>
        let lp : LoopSt := ⟨s.ctx.pc, a, body, 0, none⟩
        let s := s.retire
        .next (s.onCtx fun c => if c.getX a = 0 then { c with pc := lp.past } else { c with pc := first, loop := some lp })

/-- nest (R123, R125 to R128). -/
def execNest (a l : BitVec 5) (s : State) : Res :=
  s.inOrder (.board none 0) fun s =>
    let first := pcPlus s.ctx.pc 4
    match s.fetchBody (l.toNat + 1) first with
    | (.error r, s) => .next (s.refuse r)
    | (.ok body, s) =>
      match firstBad (badBodyWord a) body 0 with
      | some k => .next (s.trap 0x14 (pcPlus first (4 * k)))
      | none =>
        match s.readNest (s.getX a) with
        | .held p => .next (s.stallFor (.board (some p) 64))
        | .refused r s => .next (s.refuse r)
        | .bytes bs s =>
          match parseNest bs with
          | none => .next (s.trap 0x14 (s.getX a))
          | some b =>
            match firstBad (fun _ => writesIndex b.ndim) body 0 with
            | some k => .next (s.trap 0x14 (pcPlus first (4 * k)))
            | none =>
              let lp : LoopSt := ⟨s.ctx.pc, a, body, 0, some bs⟩
              let s := s.retire
              .next (s.onCtx fun c =>
                let c := c.setTuple []
                if b.count = 0 then { c with pc := lp.past } else { c with pc := first, loop := some lp })

/-- The refetch of an active body after an eret with LA = 1 (R130), whose block is read in order, as the nest word reads it (R17, R245);
a trap leaves epc as it was. DESIGN CHOICE (log 78): the checks of R123 are those of loop and nest as they execute, and are not made
again, so a body that was changed meanwhile runs as it stands. -/
def State.refetch (s : State) : Res :=
  let lp : Nat := s.ctx.epc.toNat / 2 ^ 55 % 32
  let head := pcPlus s.ctx.pc (-(4 * lp + 4 : Nat))
  let resumed := fun (s : State) (a : BitVec 5) (body : List Word32) (nest : Option (List Byte)) =>
    (Host.Outcome.next (s.onCtx fun c => { c with loop := some ⟨head, a, body, lp, nest⟩, resume := false, stall := none }) : Res)
  s.fetching [head] fun s =>
    match s.fetchAt head with
    | (.error r, s) => .next (s.refuse r)
    | (.ok w, s) =>
      match decodeWord w with
      | .ok (.instr (.loop a l)) =>
        if l.toNat < lp then .next (s.trap 0x14 head)
        else
          s.fetching (wordsFrom (pcPlus head 4) (l.toNat + 1)) fun s =>
            match s.fetchBody (l.toNat + 1) (pcPlus head 4) with
            | (.error r, s) => .next (s.refuse r)
            | (.ok body, s) => resumed s a body none
      | .ok (.instr (.nest a l)) =>
        if l.toNat < lp then .next (s.trap 0x14 head)
        else
          s.fetching (wordsFrom (pcPlus head 4) (l.toNat + 1)) fun s =>
            match s.fetchBody (l.toNat + 1) (pcPlus head 4) with
            | (.error r, s) => .next (s.refuse r)
            | (.ok body, s) =>
              s.inOrder (.board none 0) fun s =>
                match s.readNest (s.getX a) with
                | .held p => .next (s.stallFor (.board (some p) 64))
                | .refused r s => .next (s.refuse r)
                | .bytes bs s => resumed s a body (some bs)
      | _ => .next (s.trap 0x14 head)

/-- lend (R75, R136): the latch captures its fields and, with kind 0, whether x[pred] is not 0. -/
def execLend (n k : BitVec 1) (p : BitVec 5) (c : BitVec 6) (e : BitVec 1) (s : State) : Res :=
  let latch : Latch := ⟨n == 1, k == 1, p, k == 0 && s.getX p != 0, e == 1, c, false, pcPlus s.ctx.pc 4⟩
  .next (s.retire.onCtx fun x => { x with latch := some latch })

/-- A word that may follow a lend (R72): no lend, loop, nest, SYS or SCHED word. -/
def mayFollowLend : Decoded → Bool
  | .instr (.lend ..) | .instr (.loop ..) | .instr (.nest ..) => false
  | .instr (.csrr ..) | .instr (.csrw ..) | .instr (.csrs ..) | .instr (.csrc ..) => false
  | .instr .uend | .instr .yield | .instr .ecall | .instr .ebrk | .instr .eret | .instr .snap | .instr .wfi => false
  | .instr _ => true
  | .late (.waitge ..) | .late (.waiteq ..) | .late (.hint ..) => true
  | .late _ => false

/-- A decoded word that enters the VIQ (R12). -/
def decodedEnters : Decoded → Bool
  | .instr i => entersViq i
  | .late _ => false

/-- The x register that a decoded word writes in the SCT. -/
def decodedDest : Decoded → Option (BitVec 5)
  | .instr i => xDest i
  | .late _ => none

/-- A form whose destination is a register pair (R42, R73). -/
def pairDest : Instr → Bool
  | .vwmul .. | .vwmacc .. | .vwadd .. | .vzip .. | .vunzip .. | .vmrg .. | .vpart .. => true
  | _ => false

/-- A decoded word is eligible as the successor of a lend (R72, R73). -/
def Latch.eligible (l : Latch) (i : Decoded) : Bool :=
  mayFollowLend i && (!l.kind || decodedEnters i) &&
    (!l.dcEn ||
      (match i with
        | .instr (.vsetvl ..) => !l.kind && !l.dcopy.getLsbD 5
        | .instr j =>
          match xDest j with
          | some _ => !l.dcopy.getLsbD 5
          | none =>
            match vDest j with
            | some (_, k) => decide (l.dcopy.toNat + k ≤ 64) && (!pairDest j || !l.dcopy.getLsbD 0)
            | none => false
        | .late _ => false))

/-- A successor that executes in the SCT and whose predicate is false (R136): its x destination receives x[dcopy] where there is
one, and the word completes. -/
def State.skip (s : State) (l : Latch) (d : Option (BitVec 5)) : State :=
  match d with
  | some d => (if l.dcEn then s.setX d (s.getX (l.dcopy.setWidth 5)) else s).retire
  | none => s.retire

end Sys2Proof.Machine
end

