-- ==== Sys2Proof/Machine/Flags.lean ====
section
/-! DEFINITION. The float flags (R92) and fixed-point rounding and saturation (R98 to R100). -/

namespace Sys2Proof.Machine

/-- The flags of fflags (R92). -/
def flagNV : BitVec 5 := 0x10
def flagDZ : BitVec 5 := 0x08
def flagOF : BitVec 5 := 0x04
def flagUF : BitVec 5 := 0x02
def flagNX : BitVec 5 := 0x01

/-- The OR of a list of flags (R92). -/
def orAll (fs : List (BitVec 5)) : BitVec 5 := fs.foldl (· ||| ·) 0

/-- A right shift by `d` rounded under vrm (R99). -/
def fixShift (rm : BitVec 2) (x : Int) (d : Nat) : Int :=
  if d = 0 then x
  else
    let q := x / 2 ^ d
    let r := (x % 2 ^ d).toNat
    let half := 2 ^ (d - 1)
    let odd := q % 2 == 1
    let inc : Bool := match rm.toNat with
      | 0 => decide (half ≤ r)
      | 1 => decide (half < r) || (r == half && odd)
      | 2 => false
      | _ => !odd && r != 0
    if inc then q + 1 else q

/-- The least and the greatest value of a `w`-bit type (R100). -/
def typeMin (u : Bool) (w : Nat) : Int := if u then 0 else -(2 ^ (w - 1) : Nat)
def typeMax (u : Bool) (w : Nat) : Int := if u then (2 ^ w : Nat) - 1 else (2 ^ (w - 1) : Nat) - 1

/-- A value replaced by the nearest bound of its type, and whether it was (R100). -/
def saturate (u : Bool) (w : Nat) (v : Int) : Nat × Bool :=
  if v < typeMin u w then (wrap w (typeMin u w), true)
  else if typeMax u w < v then (wrap w (typeMax u w), true)
  else (wrap w v, false)

end Sys2Proof.Machine
end

