-- ==== Sys2Proof/Machine/Float.lean ====
section
/-! DEFINITION. Floating point (R83 to R93, R133): the formats, exact values, one rounding of an exact result, and the operations
that the scalar, vector and tile families share. -/

namespace Sys2Proof.Machine

/-- The floating-point types (R83). -/
inductive FType where
  | f64 | f32 | f16 | bf16 | e4m3 | e5m2 | e2m1
  deriving DecidableEq, Repr

/-- Width, exponent bits, fraction bits and bias of a type (R83). -/
def FType.width : FType → Nat
  | .f64 => 64
  | .f32 => 32
  | .f16 => 16
  | .bf16 => 16
  | .e4m3 => 8
  | .e5m2 => 8
  | .e2m1 => 4

def FType.fbits : FType → Nat
  | .f64 => 52
  | .f32 => 23
  | .f16 => 10
  | .bf16 => 7
  | .e4m3 => 3
  | .e5m2 => 2
  | .e2m1 => 1

def FType.bias : FType → Int
  | .f64 => 1023
  | .f32 => 127
  | .f16 => 15
  | .bf16 => 127
  | .e4m3 => 7
  | .e5m2 => 15
  | .e2m1 => 1

/-- The exponent field's width (R83). -/
def FType.ebits (t : FType) : Nat := t.width - 1 - t.fbits

/-- A type with infinities (R83). -/
def FType.hasInf : FType → Bool
  | .e4m3 => false
  | .e2m1 => false
  | _ => true

/-- The code of the largest finite value (R83, R84). -/
def FType.maxCode (t : FType) : Nat :=
  match t with
  | .e4m3 => 0x7E
  | .e2m1 => 0x7
  | t => (2 ^ t.ebits - 1) * 2 ^ t.fbits - 1

/-- The code of +infinity (R83). -/
def FType.infCode (t : FType) : Nat := (2 ^ t.ebits - 1) * 2 ^ t.fbits

/-- The canonical NaN (R86); e2m1 has none, and delivers +0 (R91). -/
def FType.nanCode : FType → Nat
  | .f64 => 0x7FF8000000000000
  | .f32 => 0x7FC00000
  | .f16 => 0x7E00
  | .bf16 => 0x7FC0
  | .e4m3 => 0x7F
  | .e5m2 => 0x7E
  | .e2m1 => 0x0

/-- The bit of the sign (R83). -/
def FType.signBit (t : FType) : Nat := 2 ^ (t.width - 1)

/-- What a code stands for (R84): a NaN, signalling or not (R86); an infinity; or m × 2^e, with its sign. -/
inductive FVal where
  | nan (sig : Bool)
  | inf (neg : Bool)
  | fin (neg : Bool) (m : Nat) (e : Int)
  deriving DecidableEq, Repr

/-- The value of a code (R84, R86). -/
def FType.decode (t : FType) (code : Nat) : FVal :=
  let neg := code / t.signBit % 2 == 1
  let ef := code / 2 ^ t.fbits % 2 ^ t.ebits
  let fr := code % 2 ^ t.fbits
  let emin := 1 - t.bias
  let ordinary := if ef = 0 then FVal.fin neg fr (emin - t.fbits) else .fin neg (2 ^ t.fbits + fr) (ef - t.bias - t.fbits)
  match t with
  | .e4m3 => if ef = 15 ∧ fr = 7 then .nan false else ordinary
  | .e2m1 => ordinary
  | t =>
    if ef = 2 ^ t.ebits - 1 then (if fr = 0 then .inf neg else .nan (decide (fr < 2 ^ (t.fbits - 1)))) else ordinary

/-- The rounding modes of frm, reserved codes as rne; an instruction that rounds refuses those first (R87). -/
inductive RMode where
  | rne | rtz | rdn | rup | rmm
  deriving DecidableEq, Repr

/-- A reserved frm (R87). -/
def frmReserved (frm : BitVec 3) : Bool := decide (5 ≤ frm.toNat)

/-- The rounding mode of frm (R87). -/
def rmOf (frm : BitVec 3) : RMode :=
  match frm.toNat with
  | 1 => .rtz
  | 2 => .rdn
  | 3 => .rup
  | 4 => .rmm
  | _ => .rne

/-- Whether a rounding picks the candidate of greater magnitude (R88): `odd` the lower candidate's last bit, `cmp` how the
remainder lies to half a quantum, `rest` whether it is not 0. -/
def roundsUp (rm : RMode) (neg odd : Bool) (cmp : Ordering) (rest : Bool) : Bool :=
  match rm with
  | .rtz => false
  | .rdn => neg && rest
  | .rup => !neg && rest
  | .rne => cmp == .gt || (cmp == .eq && odd)
  | .rmm => cmp != .lt

/-- m × 2^e (plus something less than one unit of m when `sticky`) as a multiple of 2^q: the lower candidate, how the remainder lies
to half of 2^q, and whether it is not 0. -/
def quantise (m : Nat) (e q : Int) (sticky : Bool) : Nat × Ordering × Bool :=
  if q ≤ e then (m * 2 ^ (e - q).toNat, .lt, sticky)
  else
    let d := (q - e).toNat
    if Nat.log2 m + 2 ≤ d then (0, .lt, decide (m ≠ 0) || sticky)
    else
      let r := m % 2 ^ d
      let half := 2 ^ (d - 1)
      let cmp : Ordering := if r < half then .lt else if r = half then (if sticky then .gt else .eq) else .gt
      (m / 2 ^ d, cmp, decide (r ≠ 0) || sticky)

/-- The overflow result with its sign (R89). -/
def overflowCode (t : FType) (rm : RMode) (neg : Bool) : Nat :=
  let toMax := match rm with
    | .rtz => true
    | .rdn => !neg
    | .rup => neg
    | _ => false
  (if t.hasInf && !toMax then t.infCode else t.maxCode) + (if neg then t.signBit else 0)

/-- ONE ROUNDING of the exact magnitude m × 2^e, m > 0 (with `sticky`, a little more than it), under R88 to R90: the code and the
flags. -/
def roundMag (t : FType) (rm : RMode) (neg : Bool) (m : Nat) (e : Int) (sticky : Bool) : Nat × BitVec 5 :=
  let emin := 1 - t.bias
  let top : Int := Nat.log2 m + e
  let base := if top < emin then emin else top
  match quantise m e (base - t.fbits) sticky with
  | (sig, cmp, rest) =>
    let sig := if roundsUp rm neg (sig % 2 == 1) cmp rest then sig + 1 else sig
    let code := (base - emin).toNat * 2 ^ t.fbits + sig
    if t.maxCode < code then (overflowCode t rm neg, flagOF ||| flagNX)
    else
      (code + (if neg then t.signBit else 0),
        (if rest then flagNX else 0) ||| (if rest && decide (top < emin) then flagUF else 0))

/-- A zero with its sign. -/
def zeroCode (t : FType) (neg : Bool) : Nat := if neg then t.signBit else 0

/-- The rounding of an exact signed value x × 2^e; an exact zero is +0, or −0 under rdn (R85). -/
def roundInt (t : FType) (rm : RMode) (x e : Int) : Nat × BitVec 5 :=
  if x = 0 then (zeroCode t (rm == .rdn), 0) else roundMag t rm (decide (x < 0)) x.natAbs e false

/-- A value delivered into a type with one rounding (R91): the canonical NaN, an infinity (±max and OF in a type without one), a
signed zero, or a rounding. `nv` is set for a signalling NaN, and for any NaN into e2m1. -/
def FVal.into (t : FType) (rm : RMode) : FVal → Nat × BitVec 5
  | .nan sig => (t.nanCode, if sig || t == .e2m1 then flagNV else 0)
  | .inf neg => if t.hasInf then (t.infCode + zeroCode t neg, 0) else (t.maxCode + zeroCode t neg, flagOF)
  | .fin neg m e => if m = 0 then (zeroCode t neg, 0) else roundMag t rm neg m e false

/-- A signalling NaN (R86). -/
def FVal.isSig : FVal → Bool
  | .nan s => s
  | _ => false

def FVal.isNan : FVal → Bool
  | .nan _ => true
  | _ => false

/-- The canonical NaN with nv when asked (R86). -/
def nanOut (t : FType) (nv : Bool) : Nat × BitVec 5 := (t.nanCode, if nv then flagNV else 0)

/-- The signed integer of a finite value at exponent `e0`, which is not above its own. -/
def atExp (neg : Bool) (m : Nat) (e e0 : Int) : Int :=
  let v : Int := (m * 2 ^ (e - e0).toNat : Nat)
  if neg then -v else v

/-- The exact sum of two finite values, rounded once; the sign of an exact zero by R85. -/
def addFin (t : FType) (rm : RMode) (na : Bool) (ma : Nat) (ea : Int) (nb : Bool) (mb : Nat) (eb : Int) : Nat × BitVec 5 :=
  let e0 := if ea ≤ eb then ea else eb
  let x := atExp na ma ea e0 + atExp nb mb eb e0
  if x = 0 then (zeroCode t (if ma = 0 ∧ mb = 0 ∧ na = nb then na else rm == .rdn), 0) else roundInt t rm x e0

/-- a + b (R93, R133). -/
def fAdd (t : FType) (rm : RMode) (a b : FVal) : Nat × BitVec 5 :=
  match a, b with
  | .nan _, _ => nanOut t (a.isSig || b.isSig)
  | _, .nan _ => nanOut t (a.isSig || b.isSig)
  | .inf na, .inf nb => if na = nb then (t.infCode + zeroCode t na, 0) else nanOut t true
  | .inf na, .fin .. => (t.infCode + zeroCode t na, 0)
  | .fin .., .inf nb => (t.infCode + zeroCode t nb, 0)
  | .fin na ma ea, .fin nb mb eb => addFin t rm na ma ea nb mb eb

/-- A value with its sign reversed. -/
def FVal.negate : FVal → FVal
  | .nan s => .nan s
  | .inf n => .inf !n
  | .fin n m e => .fin (!n) m e

/-- a − b (R93, R133). -/
def fSub (t : FType) (rm : RMode) (a b : FVal) : Nat × BitVec 5 := fAdd t rm a b.negate

/-- The exact product, or none for 0 × ±inf; a NaN operand gives a NaN, signalling if one is. -/
def FVal.mul (a b : FVal) : Option FVal :=
  match a, b with
  | .nan s, b => some (.nan (s || b.isSig))
  | a, .nan s => some (.nan (s || a.isSig))
  | .inf na, .inf nb => some (.inf (na != nb))
  | .inf na, .fin nb m _ => if m = 0 then none else some (.inf (na != nb))
  | .fin na m _, .inf nb => if m = 0 then none else some (.inf (na != nb))
  | .fin na ma ea, .fin nb mb eb => some (.fin (na != nb) (ma * mb) (ea + eb))

/-- a × b (R93, R133). -/
def fMul (t : FType) (rm : RMode) (a b : FVal) : Nat × BitVec 5 :=
  match a.mul b with
  | none => nanOut t true
  | some p => p.into t rm

/-- a × b + c with one rounding (R93): 0 × ±inf is invalid whatever c holds. -/
def fFma (t : FType) (rm : RMode) (a b c : FVal) : Nat × BitVec 5 :=
  match a.mul b with
  | none => nanOut t true
  | some p => fAdd t rm p c

/-- a ÷ b (R93, R133). -/
def fDiv (t : FType) (rm : RMode) (a b : FVal) : Nat × BitVec 5 :=
  match a, b with
  | .nan _, _ => nanOut t (a.isSig || b.isSig)
  | _, .nan _ => nanOut t (a.isSig || b.isSig)
  | .inf _, .inf _ => nanOut t true
  | .inf na, .fin nb _ _ => (t.infCode + zeroCode t (na != nb), 0)
  | .fin na _ _, .inf nb => (zeroCode t (na != nb), 0)
  | .fin na ma ea, .fin nb mb eb =>
    if mb = 0 then (if ma = 0 then nanOut t true else (t.infCode + zeroCode t (na != nb), flagDZ))
    else if ma = 0 then (zeroCode t (na != nb), 0)
    else
      let k := t.fbits + 4 + Nat.log2 mb
      roundMag t rm (na != nb) (ma * 2 ^ k / mb) (ea - k - eb) (ma * 2 ^ k % mb != 0)

/-- The integer square root, bit by bit from bit `i - 1` down. -/
def isqrtFrom (n : Nat) : Nat → Nat → Nat
  | 0, r => r
  | i + 1, r => isqrtFrom n i (if (r + 2 ^ i) * (r + 2 ^ i) ≤ n then r + 2 ^ i else r)

/-- √a (R93, R133). -/
def fSqrt (t : FType) (rm : RMode) (a : FVal) : Nat × BitVec 5 :=
  match a with
  | .nan s => nanOut t s
  | .inf neg => if neg then nanOut t true else (t.infCode, 0)
  | .fin neg m e =>
    if m = 0 then (zeroCode t neg, 0)
    else if neg then nanOut t true
    else
      -- an even exponent, and bits enough that the root has more than the type's precision
      let k := 2 * (t.fbits + 4) + (if (e % 2) = 0 then 0 else 1)
      let n := m * 2 ^ k
      let r := isqrtFrom n (Nat.log2 n / 2 + 1) 0
      roundMag t rm false r ((e - k) / 2) (r * r != n)

/-- The order of two values that are not NaN; −0 equals +0. -/
def FVal.cmp (a b : FVal) : Ordering :=
  match a, b with
  | .inf na, .inf nb => compare (if na then (0 : Nat) else 1) (if nb then 0 else 1)
  | .inf na, _ => if na then .lt else .gt
  | _, .inf nb => if nb then .gt else .lt
  | .fin na ma ea, .fin nb mb eb =>
    let e0 := if ea ≤ eb then ea else eb
    compare (atExp na ma ea e0) (atExp nb mb eb e0)
  | _, _ => .eq

/-- minimumNumber and maximumNumber (R93): −0 below +0, a single NaN ignored, two NaNs give the canonical NaN; a signalling NaN sets
nv (R133). The delivered operand keeps its bits. -/
def fMinMax (t : FType) (max : Bool) (ca cb : Nat) : Nat × BitVec 5 :=
  let a := t.decode ca
  let b := t.decode cb
  let fl := if a.isSig || b.isSig then flagNV else 0
  let keepA : Bool := match a.cmp b with
    | .lt => !max
    | .gt => max
    | .eq => if max then ca / t.signBit % 2 == 0 else ca / t.signBit % 2 == 1
  if a.isNan && b.isNan then (t.nanCode, fl)
  else if a.isNan then (cb, fl)
  else if b.isNan then (ca, fl)
  else (if keepA then ca else cb, fl)

/-- The comparisons (R93): equal (quiet), less, less or equal (signalling); a comparison with NaN is false. -/
def fEq (a b : FVal) : Bool × BitVec 5 :=
  (!a.isNan && !b.isNan && a.cmp b == .eq, if a.isSig || b.isSig then flagNV else 0)

def fLt (a b : FVal) : Bool × BitVec 5 :=
  (!a.isNan && !b.isNan && a.cmp b == .lt, if a.isNan || b.isNan then flagNV else 0)

def fLe (a b : FVal) : Bool × BitVec 5 :=
  (!a.isNan && !b.isNan && a.cmp b != .gt, if a.isNan || b.isNan then flagNV else 0)

/-- The class mask (R133). -/
def fClass (t : FType) (code : Nat) : Nat :=
  let neg := code / t.signBit % 2 == 1
  match t.decode code with
  | .nan sig => if sig then 2 ^ 8 else 2 ^ 9
  | .inf neg => if neg then 2 ^ 0 else 2 ^ 7
  | .fin _ m _ =>
    if m = 0 then (if neg then 2 ^ 3 else 2 ^ 4)
    else if code / 2 ^ t.fbits % 2 ^ t.ebits = 0 then (if neg then 2 ^ 2 else 2 ^ 5)
    else if neg then 2 ^ 1 else 2 ^ 6

/-- Float to integer of `w` bits (R91): NaN gives 0 and a value outside the range the nearest bound, each with nv; an inexact result
in range sets nx. -/
def fToInt (u : Bool) (w : Nat) (rm : RMode) (a : FVal) : Nat × BitVec 5 :=
  match a with
  | .nan _ => (0, flagNV)
  | .inf neg => (wrap w (if neg then typeMin u w else typeMax u w), flagNV)
  | .fin neg m e =>
    match quantise m e 0 false with
    | (q, cmp, rest) =>
      let q := if roundsUp rm neg (q % 2 == 1) cmp rest then q + 1 else q
      let v : Int := if neg then -(q : Int) else q
      match saturate u w v with
      | (r, true) => (r, flagNV)
      | (r, false) => (r, if rest then flagNX else 0)

/-- Integer to float, one rounding (R91); 0 gives +0. -/
def intToF (t : FType) (rm : RMode) (v : Int) : Nat × BitVec 5 := if v = 0 then (0, 0) else roundInt t rm v 0

/-- floor(ln 2 × 2^320). -/
def ln2Bits : Nat := 0xb17217f7d1cf79abc9e3b39803f2f6af40f343267298b62d8a0d175b8baafa2be7b876206debac98

/-- The Taylor sum of exp(y) at 320 fractional bits: `n` further terms from the k-th. -/
def expTerms (y : Nat) : Nat → Nat → Nat → Nat → Nat
  | 0, _, _, acc => acc
  | n + 1, k, term, acc =>
    let term' := term * y / 2 ^ 320 / k
    expTerms y n (k + 1) term' (acc + term')

/-- floor(2^x × 2^p) for a fraction 0 < x < 1 given as num ÷ 2^den, where 2^x is never a multiple of 2^−p: the sum at 320 bits is
within 2^−300 of 2^x, and 1 < 2^x < 2 decides the two ends (log 13). -/
def exp2Frac (num den p : Nat) : Nat :=
  let x := num * 2 ^ 320 / 2 ^ den
  let y := x * ln2Bits / 2 ^ 320
  let v := expTerms y 90 1 (2 ^ 320) (2 ^ 320)
  let r := (v + 2 ^ 10) / 2 ^ (320 - p)
  if r < 2 ^ p then 2 ^ p else if 2 ^ (p + 1) ≤ r then 2 ^ (p + 1) - 1 else r

/-- 2^a, correctly rounded (R151). -/
def fExp2 (t : FType) (rm : RMode) (a : FVal) : Nat × BitVec 5 :=
  match a with
  | .nan s => nanOut t s
  | .inf neg => (if neg then 0 else t.infCode, 0)
  | .fin neg m e =>
    if m = 0 then roundMag t rm false 1 0 false
    else if 0 ≤ e then roundMag t rm false 1 (if neg then -((m * 2 ^ e.toNat : Nat) : Int) else (m * 2 ^ e.toNat : Nat)) false
    else
      let k := (-e).toNat
      let v : Int := if neg then -(m : Int) else m
      let n := v / 2 ^ k
      let num := (v % 2 ^ k).toNat
      if num = 0 then roundMag t rm false 1 n false
      else
        let p := t.fbits + 4
        roundMag t rm false (exp2Frac num k p) (n - p) true

end Sys2Proof.Machine
end

