-- ==== Sys2Proof/Machine/Grant.lean ====
section
/-! DEFINITION. Grants of lane groups and tile rows (R21 to R25, R316, R346). -/

namespace Sys2Proof.Machine

/-- The grant of a context set, with the places of R21 and R22. -/
def Ctx.withGrant (x : Ctx) (sec : Bool) (lgn trn : Nat) : Ctx :=
  { x with
    lgn, trn
    lgb := if sec && lgn != 0 then 8 - lgn else 0
    trb := if sec && trn != 0 then 8 - trn else 0 }

/-- The lane groups and tile rows ÷ 16 that context `c` could hold now: its standing grant, less what the other context has not
given up (R346). -/
def State.avail (s : State) (c : Nat) : Nat × Nat :=
  let x := s.ctxOf c
  let o := s.ctxOf (otherOf c)
  (Nat.min x.standLgn (8 - o.lgn), Nat.min x.standTrn (8 - o.trn))

/-- A context without a unit takes its standing grant as far as it is free (R316, R346), but for added tile rows, which it takes at its
next unit start (R346). Its vl stays within VLMAX (R23). -/
def State.regrantIdle (s : State) (c : Nat) : State :=
  let x := s.ctxOf c
  if x.unit.isSome then s
  else
    let y := { x.withGrant (c % 2 == 1) (s.avail c).1 (Nat.min x.trn (s.avail c).2) with reclaimAt := none }
    s.setCtx c { y with vl := Nat.min y.vl y.vlmax }

/-- Both contexts of a core after a change of either (R346). -/
def State.regrantCore (s : State) (c : Nat) : State := (s.regrantIdle c).regrantIdle (otherOf c)

/-- The LGN that a vsetvl of the context whose turn it is computes with: a smaller standing grant at once (R316), a larger one when the
other context holds none of the added groups (R346). -/
def State.issueLgn (s : State) : Nat :=
  let stand := s.ctx.standLgn
  if stand ≤ s.ctx.lgn then stand
  else if stand + (s.ctxOf (otherOf s.cur)).lgn ≤ 8 then stand
  else s.ctx.lgn

/-- The lane groups that a vsetvl which computed with `n` of them holds from its commit on: no more than its context holds or may take now
(R21, R346), where the vsetvl is one that an eret has issued again. -/
def State.lanesFor (s : State) (n : Nat) : Nat := Nat.min n (Nat.max s.ctx.lgn (s.avail s.cur).1)

/-- The lane groups transferred at the commit of a vsetvl that computed with `n` of them (R316, R346). -/
def State.takeLanes (s : State) (n : Nat) : State :=
  let n := s.lanesFor n
  if n = s.ctx.lgn then s
  else
    let s := s.onCtx fun c =>
      let c := c.withGrant (s.cur % 2 == 1) n c.trn
      { c with reclaimAt := if c.lgn ≤ c.standLgn ∧ c.trn ≤ c.standTrn then none else c.reclaimAt }
    s.regrantIdle (otherOf s.cur)

/-- A standing grant set for context `c`: a context without a unit takes it at once; a decrease for a running unit is a reclaim (R316,
R346). DESIGN CHOICE (log 87): each grant is a request of its own, which starts the deadline again and takes the place of an earlier one
with the RECLAIM that was pending for it. -/
def State.setStanding (s : State) (c lgn trn : Nat) : State :=
  let x := s.ctxOf c
  let waits := x.unit.isSome && (decide (lgn < x.lgn) || decide (trn < x.trn))
  (s.setCtx c { x with standLgn := lgn, standTrn := trn, reclaimAt := if waits then some s.cyc else none, pReclaim := none }).regrantCore c

/-- The requested grant of a context in the layout of R22: the tval of RECLAIM (R368). -/
def Ctx.requested (x : Ctx) (sec : Bool) : Word :=
  let y := x.withGrant sec x.standLgn x.standTrn
  BitVec.ofNat 64 (y.lgb * 2 ^ 16 + y.lgn * 2 ^ 12 + y.trb * 2 ^ 8 + y.trn * 2 ^ 4 + if sec then 1 else 0)

end Sys2Proof.Machine
end

