-- ==== Sys2Proof/Machine/VInt.lean ====
section
/-! DEFINITION. The configuration, integer, scalar-operand and index families (R147 to R150, R158, R159, R161). -/

namespace Sys2Proof.Machine

/-! ## Configuration -/

/-- The commit of vsetvl (R147): `op1` holds the vl computed at issue (R374); `op2` one more than the LGN that it was computed with,
whose lane groups transfer now (R316, R346), 0 in an entry that a restored image brought back. vl stays within VLMAX (R23), where the
entry was issued again under fewer groups (log 70). -/
def commitVsetvl (_d _a : BitVec 5) (sc : BitVec 3) (e : BitVec 2) (op1 op2 : Word) (s : State) : Commit :=
  let s := if op2 = 0 then s else s.takeLanes (op2.toNat - 1)
  s.commitCtx fun c =>
    let c := { c with vtype := BitVec.ofNat 5 (4 * sc.toNat + e.toNat) }
    { c with vl := Nat.min op1.toNat c.vlmax }

/-- The vl that vsetvl computes at issue (R16, R147). -/
def State.newVl (s : State) (a : BitVec 5) (e : BitVec 2) : Nat := Nat.min (s.getX a).toNat (vlmaxOf s.issueLgn (sewOf e.toNat))

/-- vsetvl (R147): xd is written at issue, in the SCT; after a kind 0 lend whose predicate is false it keeps its value or takes
x[dcopy]. -/
def execVsetvl (d a : BitVec 5) (sc : BitVec 3) (e : BitVec 2) (s : State) : Res :=
  let n := BitVec.ofNat 64 (s.newVl a e)
  let g := BitVec.ofNat 64 (s.issueLgn + 1)
  let s' := match s.ctx.latch with
    | some l => if !l.kind && !l.holds 0 then (if l.dcEn then s.setX d (s.getX (l.dcopy.setWidth 5)) else s) else s.setX d n
    | none => s.setX d n
  if 64 ≤ s.ctx.viq.length then .next (s.stallFor .viq) else s'.issue (.vsetvl d a sc e) n g (commitVsetvl d a sc e n g)

/-- The commit of vgetvl (R148). -/
def commitVgetvl (q : BitVec 3) (s : State) : Commit := s.pushQ q (BitVec.ofNat 64 s.ctx.vl)

/-- vgetvl: the vl in force at its commit, pushed to a queue (R148). -/
def execVgetvl (q : BitVec 3) (s : State) : Res := s.issue (.vgetvl q) 0 0 (commitVgetvl q)

/-! ## Elementwise shapes -/

/-- One value for each active element (R149). -/
def State.mapV (s : State) (d : BitVec 6) (m : BitVec 1) (f : Nat → Nat) : Commit :=
  s.commitCtx fun c => c.writeV d c.sew ((c.actives m).map fun i => (i, f i))

/-- Two register operands (R149). -/
def State.vv (s : State) (d a b : BitVec 6) (m : BitVec 1) (f : Nat → Nat → Nat → Nat) : Commit :=
  s.mapV d m fun i => f s.ctx.sew (s.ctx.elem a i) (s.ctx.elem b i)

/-- The second operand is x[xb][SEW − 1 : 0], captured at issue (R149). -/
def State.vx (s : State) (d a : BitVec 6) (x : Word) (m : BitVec 1) (f : Nat → Nat → Nat → Nat) : Commit :=
  s.mapV d m fun i => f s.ctx.sew (s.ctx.elem a i) (x.toNat % 2 ^ s.ctx.sew)

/-- One register operand (R149). -/
def State.v1 (s : State) (d a : BitVec 6) (m : BitVec 1) (f : Nat → Nat → Nat) : Commit :=
  s.mapV d m fun i => f s.ctx.sew (s.ctx.elem a i)

/-- One mask bit for each active element (R149). -/
def State.mapBit (s : State) (d : BitVec 6) (m : BitVec 1) (f : Nat → Bool) : Commit :=
  s.commitCtx fun c => c.writeV d 1 ((c.actives m).map fun i => (i, if f i then 1 else 0))

/-- A comparison of two registers (R149). -/
def State.cmpVV (s : State) (d a b : BitVec 6) (m : BitVec 1) (f : Nat → Nat → Nat → Bool) : Commit :=
  s.mapBit d m fun i => f s.ctx.sew (s.ctx.elem a i) (s.ctx.elem b i)

/-- A comparison with a scalar (R149). -/
def State.cmpVX (s : State) (d a : BitVec 6) (x : Word) (m : BitVec 1) (f : Nat → Nat → Nat → Bool) : Commit :=
  s.mapBit d m fun i => f s.ctx.sew (s.ctx.elem a i) (x.toNat % 2 ^ s.ctx.sew)

/-! ## Element functions, at `w` bits (R149) -/

def iAdd (w a b : Nat) : Nat := (a + b) % 2 ^ w
def iSub (w a b : Nat) : Nat := wrap w ((a : Int) - b)
def iMul (w a b : Nat) : Nat := a * b % 2 ^ w
def iMulh (u : Bool) (w a b : Nat) : Nat := wrap w (readInt u w a * readInt u w b / (2 ^ w : Nat))
/-- Division with the boundary results of R114. -/
def iDiv (u : Bool) (w a b : Nat) : Nat := if b = 0 then 2 ^ w - 1 else wrap w ((readInt u w a).tdiv (readInt u w b))
def iRem (u : Bool) (w a b : Nat) : Nat := if b = 0 then a else wrap w ((readInt u w a).tmod (readInt u w b))
def iMin (u : Bool) (w a b : Nat) : Nat := if readInt u w b < readInt u w a then b else a
def iMax (u : Bool) (w a b : Nat) : Nat := if readInt u w a < readInt u w b then b else a
def iAnd (_w a b : Nat) : Nat := a &&& b
def iOr (_w a b : Nat) : Nat := a ||| b
def iXor (_w a b : Nat) : Nat := a ^^^ b
def iSll (w a b : Nat) : Nat := a * 2 ^ (b % w) % 2 ^ w
def iSrl (w a b : Nat) : Nat := a / 2 ^ (b % w)
def iSra (w a b : Nat) : Nat := wrap w (toSigned w a / (2 ^ (b % w) : Nat))
def iEq (_w a b : Nat) : Bool := a == b
def iNe (_w a b : Nat) : Bool := a != b
def iLt (u : Bool) (w a b : Nat) : Bool := decide (readInt u w a < readInt u w b)
def iLe (u : Bool) (w a b : Nat) : Bool := decide (readInt u w a ≤ readInt u w b)

/-! ## VINT and VINTS -/

/-- The commit of vadd. -/
def commitVadd (d : BitVec 6) (a : BitVec 6) (b : BitVec 6) (m : BitVec 1) (s : State) : Commit := s.vv d a b m iAdd

/-- vadd: a + b, element by element (R149). -/
def execVadd (d : BitVec 6) (a : BitVec 6) (b : BitVec 6) (m : BitVec 1) (s : State) : Res :=
  s.issue (.vadd d a b m) 0 0 (commitVadd d a b m)

/-- The commit of vsub. -/
def commitVsub (d : BitVec 6) (a : BitVec 6) (b : BitVec 6) (m : BitVec 1) (s : State) : Commit := s.vv d a b m iSub

/-- vsub: a − b, element by element (R149). -/
def execVsub (d : BitVec 6) (a : BitVec 6) (b : BitVec 6) (m : BitVec 1) (s : State) : Res :=
  s.issue (.vsub d a b m) 0 0 (commitVsub d a b m)

/-- The commit of vmul. -/
def commitVmul (d : BitVec 6) (a : BitVec 6) (b : BitVec 6) (m : BitVec 1) (s : State) : Commit := s.vv d a b m iMul

/-- vmul: the low bits of a × b, element by element (R149). -/
def execVmul (d : BitVec 6) (a : BitVec 6) (b : BitVec 6) (m : BitVec 1) (s : State) : Res :=
  s.issue (.vmul d a b m) 0 0 (commitVmul d a b m)

/-- The commit of vmulh. -/
def commitVmulh (d : BitVec 6) (a : BitVec 6) (b : BitVec 6) (m : BitVec 1) (u : BitVec 1) (s : State) : Commit := s.vv d a b m (iMulh (u == 1))

/-- vmulh: the high bits of the exact product, element by element (R149). -/
def execVmulh (d : BitVec 6) (a : BitVec 6) (b : BitVec 6) (m : BitVec 1) (u : BitVec 1) (s : State) : Res :=
  s.issue (.vmulh d a b m u) 0 0 (commitVmulh d a b m u)

/-- The commit of vdiv. -/
def commitVdiv (d : BitVec 6) (a : BitVec 6) (b : BitVec 6) (m : BitVec 1) (u : BitVec 1) (s : State) : Commit := s.vv d a b m (iDiv (u == 1))

/-- vdiv: the quotient, with the boundary results of R114, element by element (R149). -/
def execVdiv (d : BitVec 6) (a : BitVec 6) (b : BitVec 6) (m : BitVec 1) (u : BitVec 1) (s : State) : Res :=
  s.issue (.vdiv d a b m u) 0 0 (commitVdiv d a b m u)

/-- The commit of vrem. -/
def commitVrem (d : BitVec 6) (a : BitVec 6) (b : BitVec 6) (m : BitVec 1) (u : BitVec 1) (s : State) : Commit := s.vv d a b m (iRem (u == 1))

/-- vrem: the remainder, with the boundary results of R114, element by element (R149). -/
def execVrem (d : BitVec 6) (a : BitVec 6) (b : BitVec 6) (m : BitVec 1) (u : BitVec 1) (s : State) : Res :=
  s.issue (.vrem d a b m u) 0 0 (commitVrem d a b m u)

/-- The commit of vmin. -/
def commitVmin (d : BitVec 6) (a : BitVec 6) (b : BitVec 6) (m : BitVec 1) (u : BitVec 1) (s : State) : Commit := s.vv d a b m (iMin (u == 1))

/-- vmin: the lesser, element by element (R149). -/
def execVmin (d : BitVec 6) (a : BitVec 6) (b : BitVec 6) (m : BitVec 1) (u : BitVec 1) (s : State) : Res :=
  s.issue (.vmin d a b m u) 0 0 (commitVmin d a b m u)

/-- The commit of vmax. -/
def commitVmax (d : BitVec 6) (a : BitVec 6) (b : BitVec 6) (m : BitVec 1) (u : BitVec 1) (s : State) : Commit := s.vv d a b m (iMax (u == 1))

/-- vmax: the greater, element by element (R149). -/
def execVmax (d : BitVec 6) (a : BitVec 6) (b : BitVec 6) (m : BitVec 1) (u : BitVec 1) (s : State) : Res :=
  s.issue (.vmax d a b m u) 0 0 (commitVmax d a b m u)

/-- The commit of vand. -/
def commitVand (d : BitVec 6) (a : BitVec 6) (b : BitVec 6) (m : BitVec 1) (s : State) : Commit := s.vv d a b m iAnd

/-- vand: bitwise and, element by element (R149). -/
def execVand (d : BitVec 6) (a : BitVec 6) (b : BitVec 6) (m : BitVec 1) (s : State) : Res :=
  s.issue (.vand d a b m) 0 0 (commitVand d a b m)

/-- The commit of vor. -/
def commitVor (d : BitVec 6) (a : BitVec 6) (b : BitVec 6) (m : BitVec 1) (s : State) : Commit := s.vv d a b m iOr

/-- vor: bitwise or, element by element (R149). -/
def execVor (d : BitVec 6) (a : BitVec 6) (b : BitVec 6) (m : BitVec 1) (s : State) : Res :=
  s.issue (.vor d a b m) 0 0 (commitVor d a b m)

/-- The commit of vxor. -/
def commitVxor (d : BitVec 6) (a : BitVec 6) (b : BitVec 6) (m : BitVec 1) (s : State) : Commit := s.vv d a b m iXor

/-- vxor: bitwise exclusive or, element by element (R149). -/
def execVxor (d : BitVec 6) (a : BitVec 6) (b : BitVec 6) (m : BitVec 1) (s : State) : Res :=
  s.issue (.vxor d a b m) 0 0 (commitVxor d a b m)

/-- The commit of vsll. -/
def commitVsll (d : BitVec 6) (a : BitVec 6) (b : BitVec 6) (m : BitVec 1) (s : State) : Commit := s.vv d a b m iSll

/-- vsll: a shifted left by b mod SEW, element by element (R149). -/
def execVsll (d : BitVec 6) (a : BitVec 6) (b : BitVec 6) (m : BitVec 1) (s : State) : Res :=
  s.issue (.vsll d a b m) 0 0 (commitVsll d a b m)

/-- The commit of vsrl. -/
def commitVsrl (d : BitVec 6) (a : BitVec 6) (b : BitVec 6) (m : BitVec 1) (s : State) : Commit := s.vv d a b m iSrl

/-- vsrl: a shifted right with zeros by b mod SEW, element by element (R149). -/
def execVsrl (d : BitVec 6) (a : BitVec 6) (b : BitVec 6) (m : BitVec 1) (s : State) : Res :=
  s.issue (.vsrl d a b m) 0 0 (commitVsrl d a b m)

/-- The commit of vsra. -/
def commitVsra (d : BitVec 6) (a : BitVec 6) (b : BitVec 6) (m : BitVec 1) (s : State) : Commit := s.vv d a b m iSra

/-- vsra: a shifted right with copies of its sign by b mod SEW, element by element (R149). -/
def execVsra (d : BitVec 6) (a : BitVec 6) (b : BitVec 6) (m : BitVec 1) (s : State) : Res :=
  s.issue (.vsra d a b m) 0 0 (commitVsra d a b m)

/-- The commit of vseq. -/
def commitVseq (d : BitVec 6) (a : BitVec 6) (b : BitVec 6) (m : BitVec 1) (s : State) : Commit := s.cmpVV d a b m iEq

/-- vseq: mask bit i says whether a = b (R149). -/
def execVseq (d : BitVec 6) (a : BitVec 6) (b : BitVec 6) (m : BitVec 1) (s : State) : Res :=
  s.issue (.vseq d a b m) 0 0 (commitVseq d a b m)

/-- The commit of vsne. -/
def commitVsne (d : BitVec 6) (a : BitVec 6) (b : BitVec 6) (m : BitVec 1) (s : State) : Commit := s.cmpVV d a b m iNe

/-- vsne: mask bit i says whether a ≠ b (R149). -/
def execVsne (d : BitVec 6) (a : BitVec 6) (b : BitVec 6) (m : BitVec 1) (s : State) : Res :=
  s.issue (.vsne d a b m) 0 0 (commitVsne d a b m)

/-- The commit of vslt. -/
def commitVslt (d : BitVec 6) (a : BitVec 6) (b : BitVec 6) (m : BitVec 1) (u : BitVec 1) (s : State) : Commit := s.cmpVV d a b m (iLt (u == 1))

/-- vslt: mask bit i says whether a < b (R149). -/
def execVslt (d : BitVec 6) (a : BitVec 6) (b : BitVec 6) (m : BitVec 1) (u : BitVec 1) (s : State) : Res :=
  s.issue (.vslt d a b m u) 0 0 (commitVslt d a b m u)

/-- The commit of vsle. -/
def commitVsle (d : BitVec 6) (a : BitVec 6) (b : BitVec 6) (m : BitVec 1) (u : BitVec 1) (s : State) : Commit := s.cmpVV d a b m (iLe (u == 1))

/-- vsle: mask bit i says whether a ≤ b (R149). -/
def execVsle (d : BitVec 6) (a : BitVec 6) (b : BitVec 6) (m : BitVec 1) (u : BitVec 1) (s : State) : Res :=
  s.issue (.vsle d a b m u) 0 0 (commitVsle d a b m u)

/-- The commit of vsel. -/
def commitVsel (d : BitVec 6) (a : BitVec 6) (b : BitVec 6) (s : State) : Commit := s.mapV d 0 fun i => if s.ctx.maskBit i then s.ctx.elem a i else s.ctx.elem b i

/-- vsel: a where bit i of v0 is 1, else b (R149). -/
def execVsel (d : BitVec 6) (a : BitVec 6) (b : BitVec 6) (s : State) : Res :=
  s.issue (.vsel d a b) 0 0 (commitVsel d a b)

/-- The commit of vmv. -/
def commitVmv (d : BitVec 6) (a : BitVec 6) (m : BitVec 1) (s : State) : Commit := if m = 0 then s.commitCtx fun c => c.moveReg c d a else s.mapV d m (s.ctx.elem a)

/-- vmv: the granted bytes with the facet, or the active elements where masked (R150). -/
def execVmv (d : BitVec 6) (a : BitVec 6) (m : BitVec 1) (s : State) : Res :=
  s.issue (.vmv d a m) 0 0 (commitVmv d a m)

/-- The commit of vpopc. -/
def commitVpopc (d : BitVec 6) (a : BitVec 6) (m : BitVec 1) (s : State) : Commit := s.v1 d a m onesCount

/-- vpopc: the number of one bits (R149). -/
def execVpopc (d : BitVec 6) (a : BitVec 6) (m : BitVec 1) (s : State) : Res :=
  s.issue (.vpopc d a m) 0 0 (commitVpopc d a m)

/-- The commit of vxorpop. -/
def commitVxorpop (d : BitVec 6) (a : BitVec 6) (b : BitVec 6) (m : BitVec 1) (s : State) : Commit := s.vv d a b m fun w a b => onesCount w (a ^^^ b)

/-- vxorpop: the number of one bits of a xor b (R149). -/
def execVxorpop (d : BitVec 6) (a : BitVec 6) (b : BitVec 6) (m : BitVec 1) (s : State) : Res :=
  s.issue (.vxorpop d a b m) 0 0 (commitVxorpop d a b m)

/-- The commit of vclz. -/
def commitVclz (d : BitVec 6) (a : BitVec 6) (m : BitVec 1) (s : State) : Commit := s.v1 d a m leadZeros

/-- vclz: the leading zero bits, SEW for 0 (R149). -/
def execVclz (d : BitVec 6) (a : BitVec 6) (m : BitVec 1) (s : State) : Res :=
  s.issue (.vclz d a m) 0 0 (commitVclz d a m)

/-- The commit of vadd with a scalar. -/
def commitVaddVx (d : BitVec 6) (a : BitVec 6) (_b : BitVec 5) (m : BitVec 1) (op1 : Word) (s : State) : Commit := s.vx d a op1 m iAdd

/-- vadd with x[xb] as b: a + b (R149). -/
def execVaddVx (d : BitVec 6) (a : BitVec 6) (b : BitVec 5) (m : BitVec 1) (s : State) : Res :=
  s.issue (.vaddVx d a b m) (s.getX b) 0 (commitVaddVx d a b m (s.getX b))

/-- The commit of vsub with a scalar. -/
def commitVsubVx (d : BitVec 6) (a : BitVec 6) (_b : BitVec 5) (m : BitVec 1) (op1 : Word) (s : State) : Commit := s.vx d a op1 m iSub

/-- vsub with x[xb] as b: a − b (R149). -/
def execVsubVx (d : BitVec 6) (a : BitVec 6) (b : BitVec 5) (m : BitVec 1) (s : State) : Res :=
  s.issue (.vsubVx d a b m) (s.getX b) 0 (commitVsubVx d a b m (s.getX b))

/-- The commit of vmul with a scalar. -/
def commitVmulVx (d : BitVec 6) (a : BitVec 6) (_b : BitVec 5) (m : BitVec 1) (op1 : Word) (s : State) : Commit := s.vx d a op1 m iMul

/-- vmul with x[xb] as b: the low bits of a × b (R149). -/
def execVmulVx (d : BitVec 6) (a : BitVec 6) (b : BitVec 5) (m : BitVec 1) (s : State) : Res :=
  s.issue (.vmulVx d a b m) (s.getX b) 0 (commitVmulVx d a b m (s.getX b))

/-- The commit of vmulh with a scalar. -/
def commitVmulhVx (d : BitVec 6) (a : BitVec 6) (_b : BitVec 5) (m : BitVec 1) (u : BitVec 1) (op1 : Word) (s : State) : Commit := s.vx d a op1 m (iMulh (u == 1))

/-- vmulh with x[xb] as b: the high bits of the exact product (R149). -/
def execVmulhVx (d : BitVec 6) (a : BitVec 6) (b : BitVec 5) (m : BitVec 1) (u : BitVec 1) (s : State) : Res :=
  s.issue (.vmulhVx d a b m u) (s.getX b) 0 (commitVmulhVx d a b m u (s.getX b))

/-- The commit of vdiv with a scalar. -/
def commitVdivVx (d : BitVec 6) (a : BitVec 6) (_b : BitVec 5) (m : BitVec 1) (u : BitVec 1) (op1 : Word) (s : State) : Commit := s.vx d a op1 m (iDiv (u == 1))

/-- vdiv with x[xb] as b: the quotient, with the boundary results of R114 (R149). -/
def execVdivVx (d : BitVec 6) (a : BitVec 6) (b : BitVec 5) (m : BitVec 1) (u : BitVec 1) (s : State) : Res :=
  s.issue (.vdivVx d a b m u) (s.getX b) 0 (commitVdivVx d a b m u (s.getX b))

/-- The commit of vrem with a scalar. -/
def commitVremVx (d : BitVec 6) (a : BitVec 6) (_b : BitVec 5) (m : BitVec 1) (u : BitVec 1) (op1 : Word) (s : State) : Commit := s.vx d a op1 m (iRem (u == 1))

/-- vrem with x[xb] as b: the remainder, with the boundary results of R114 (R149). -/
def execVremVx (d : BitVec 6) (a : BitVec 6) (b : BitVec 5) (m : BitVec 1) (u : BitVec 1) (s : State) : Res :=
  s.issue (.vremVx d a b m u) (s.getX b) 0 (commitVremVx d a b m u (s.getX b))

/-- The commit of vmin with a scalar. -/
def commitVminVx (d : BitVec 6) (a : BitVec 6) (_b : BitVec 5) (m : BitVec 1) (u : BitVec 1) (op1 : Word) (s : State) : Commit := s.vx d a op1 m (iMin (u == 1))

/-- vmin with x[xb] as b: the lesser (R149). -/
def execVminVx (d : BitVec 6) (a : BitVec 6) (b : BitVec 5) (m : BitVec 1) (u : BitVec 1) (s : State) : Res :=
  s.issue (.vminVx d a b m u) (s.getX b) 0 (commitVminVx d a b m u (s.getX b))

/-- The commit of vmax with a scalar. -/
def commitVmaxVx (d : BitVec 6) (a : BitVec 6) (_b : BitVec 5) (m : BitVec 1) (u : BitVec 1) (op1 : Word) (s : State) : Commit := s.vx d a op1 m (iMax (u == 1))

/-- vmax with x[xb] as b: the greater (R149). -/
def execVmaxVx (d : BitVec 6) (a : BitVec 6) (b : BitVec 5) (m : BitVec 1) (u : BitVec 1) (s : State) : Res :=
  s.issue (.vmaxVx d a b m u) (s.getX b) 0 (commitVmaxVx d a b m u (s.getX b))

/-- The commit of vand with a scalar. -/
def commitVandVx (d : BitVec 6) (a : BitVec 6) (_b : BitVec 5) (m : BitVec 1) (op1 : Word) (s : State) : Commit := s.vx d a op1 m iAnd

/-- vand with x[xb] as b: bitwise and (R149). -/
def execVandVx (d : BitVec 6) (a : BitVec 6) (b : BitVec 5) (m : BitVec 1) (s : State) : Res :=
  s.issue (.vandVx d a b m) (s.getX b) 0 (commitVandVx d a b m (s.getX b))

/-- The commit of vor with a scalar. -/
def commitVorVx (d : BitVec 6) (a : BitVec 6) (_b : BitVec 5) (m : BitVec 1) (op1 : Word) (s : State) : Commit := s.vx d a op1 m iOr

/-- vor with x[xb] as b: bitwise or (R149). -/
def execVorVx (d : BitVec 6) (a : BitVec 6) (b : BitVec 5) (m : BitVec 1) (s : State) : Res :=
  s.issue (.vorVx d a b m) (s.getX b) 0 (commitVorVx d a b m (s.getX b))

/-- The commit of vxor with a scalar. -/
def commitVxorVx (d : BitVec 6) (a : BitVec 6) (_b : BitVec 5) (m : BitVec 1) (op1 : Word) (s : State) : Commit := s.vx d a op1 m iXor

/-- vxor with x[xb] as b: bitwise exclusive or (R149). -/
def execVxorVx (d : BitVec 6) (a : BitVec 6) (b : BitVec 5) (m : BitVec 1) (s : State) : Res :=
  s.issue (.vxorVx d a b m) (s.getX b) 0 (commitVxorVx d a b m (s.getX b))

/-- The commit of vsll with a scalar. -/
def commitVsllVx (d : BitVec 6) (a : BitVec 6) (_b : BitVec 5) (m : BitVec 1) (op1 : Word) (s : State) : Commit := s.vx d a op1 m iSll

/-- vsll with x[xb] as b: a shifted left by b mod SEW (R149). -/
def execVsllVx (d : BitVec 6) (a : BitVec 6) (b : BitVec 5) (m : BitVec 1) (s : State) : Res :=
  s.issue (.vsllVx d a b m) (s.getX b) 0 (commitVsllVx d a b m (s.getX b))

/-- The commit of vsrl with a scalar. -/
def commitVsrlVx (d : BitVec 6) (a : BitVec 6) (_b : BitVec 5) (m : BitVec 1) (op1 : Word) (s : State) : Commit := s.vx d a op1 m iSrl

/-- vsrl with x[xb] as b: a shifted right with zeros by b mod SEW (R149). -/
def execVsrlVx (d : BitVec 6) (a : BitVec 6) (b : BitVec 5) (m : BitVec 1) (s : State) : Res :=
  s.issue (.vsrlVx d a b m) (s.getX b) 0 (commitVsrlVx d a b m (s.getX b))

/-- The commit of vsra with a scalar. -/
def commitVsraVx (d : BitVec 6) (a : BitVec 6) (_b : BitVec 5) (m : BitVec 1) (op1 : Word) (s : State) : Commit := s.vx d a op1 m iSra

/-- vsra with x[xb] as b: a shifted right with copies of its sign by b mod SEW (R149). -/
def execVsraVx (d : BitVec 6) (a : BitVec 6) (b : BitVec 5) (m : BitVec 1) (s : State) : Res :=
  s.issue (.vsraVx d a b m) (s.getX b) 0 (commitVsraVx d a b m (s.getX b))

/-- The commit of vseq with a scalar. -/
def commitVseqVx (d : BitVec 6) (a : BitVec 6) (_b : BitVec 5) (m : BitVec 1) (op1 : Word) (s : State) : Commit := s.cmpVX d a op1 m iEq

/-- vseq with x[xb] as b: mask bit i says whether a = b (R149). -/
def execVseqVx (d : BitVec 6) (a : BitVec 6) (b : BitVec 5) (m : BitVec 1) (s : State) : Res :=
  s.issue (.vseqVx d a b m) (s.getX b) 0 (commitVseqVx d a b m (s.getX b))

/-- The commit of vsne with a scalar. -/
def commitVsneVx (d : BitVec 6) (a : BitVec 6) (_b : BitVec 5) (m : BitVec 1) (op1 : Word) (s : State) : Commit := s.cmpVX d a op1 m iNe

/-- vsne with x[xb] as b: mask bit i says whether a ≠ b (R149). -/
def execVsneVx (d : BitVec 6) (a : BitVec 6) (b : BitVec 5) (m : BitVec 1) (s : State) : Res :=
  s.issue (.vsneVx d a b m) (s.getX b) 0 (commitVsneVx d a b m (s.getX b))

/-- The commit of vslt with a scalar. -/
def commitVsltVx (d : BitVec 6) (a : BitVec 6) (_b : BitVec 5) (m : BitVec 1) (u : BitVec 1) (op1 : Word) (s : State) : Commit := s.cmpVX d a op1 m (iLt (u == 1))

/-- vslt with x[xb] as b: mask bit i says whether a < b (R149). -/
def execVsltVx (d : BitVec 6) (a : BitVec 6) (b : BitVec 5) (m : BitVec 1) (u : BitVec 1) (s : State) : Res :=
  s.issue (.vsltVx d a b m u) (s.getX b) 0 (commitVsltVx d a b m u (s.getX b))

/-- The commit of vsle with a scalar. -/
def commitVsleVx (d : BitVec 6) (a : BitVec 6) (_b : BitVec 5) (m : BitVec 1) (u : BitVec 1) (op1 : Word) (s : State) : Commit := s.cmpVX d a op1 m (iLe (u == 1))

/-- vsle with x[xb] as b: mask bit i says whether a ≤ b (R149). -/
def execVsleVx (d : BitVec 6) (a : BitVec 6) (b : BitVec 5) (m : BitVec 1) (u : BitVec 1) (s : State) : Res :=
  s.issue (.vsleVx d a b m u) (s.getX b) 0 (commitVsleVx d a b m u (s.getX b))

/-- The commit of vbcast. -/
def commitVbcast (d : BitVec 6) (_b : BitVec 5) (m : BitVec 1) (op1 : Word) (s : State) : Commit := s.mapV d m fun _ => op1.toNat % 2 ^ s.ctx.sew

/-- vbcast: the scalar in every active element (R149). -/
def execVbcast (d : BitVec 6) (b : BitVec 5) (m : BitVec 1) (s : State) : Res :=
  s.issue (.vbcast d b m) (s.getX b) 0 (commitVbcast d b m (s.getX b))

/-! ## Recurrences (R158, R159) -/

/-- The running values along the elements, from element `i` on: the (element, value) pairs of the active ones, and the last. -/
def recur (act : Nat → Bool) (g : Nat → Nat → Nat) : Nat → Nat → Nat → List (Nat × Nat) × Nat
  | 0, _, y => ([], y)
  | n + 1, i, y =>
    if act i then
      match recur act g n (i + 1) (g i y) with
      | (es, last) => ((i, g i y) :: es, last)
    else recur act g n (i + 1) y

/-- A vrec instruction: the values carried through cl (R158). -/
def State.vrec (s : State) (d : BitVec 6) (m : BitVec 1) (u : Bool) (g : Nat → Nat → Nat) : Commit :=
  s.commitCtx fun c =>
    let w := c.sew
    match recur (c.active m) g c.vl 0 (c.cl.toNat % 2 ^ w) with
    | (es, y) =>
      let c' := c.writeV d w es
      if c.vl = 0 then c' else { c' with cl := BitVec.ofInt 64 (readInt u w y) }

/-- The commit of vrec.add. -/
def commitVrecAdd (d : BitVec 6) (a : BitVec 6) (m : BitVec 1) (s : State) : Commit := s.vrec d m false fun i y => iAdd s.ctx.sew y (s.ctx.elem a i)

/-- vrec.add: the running sum (R158). -/
def execVrecAdd (d : BitVec 6) (a : BitVec 6) (m : BitVec 1) (s : State) : Res :=
  s.issue (.vrecAdd d a m) 0 0 (commitVrecAdd d a m)

/-- The commit of vrec.max. -/
def commitVrecMax (d : BitVec 6) (a : BitVec 6) (m : BitVec 1) (u : BitVec 1) (s : State) : Commit := s.vrec d m (u == 1) fun i y => iMax (u == 1) s.ctx.sew y (s.ctx.elem a i)

/-- vrec.max: the running maximum, signed or unsigned (R158). -/
def execVrecMax (d : BitVec 6) (a : BitVec 6) (m : BitVec 1) (u : BitVec 1) (s : State) : Res :=
  s.issue (.vrecMax d a m u) 0 0 (commitVrecMax d a m u)

/-- The commit of vrec.lin. -/
def commitVrecLin (d : BitVec 6) (a : BitVec 6) (b : BitVec 6) (m : BitVec 1) (s : State) : Commit := s.vrec d m false fun i y => (s.ctx.elem a i * y + s.ctx.elem b i) % 2 ^ s.ctx.sew

/-- vrec.lin: a × y + b (R158). -/
def execVrecLin (d : BitVec 6) (a : BitVec 6) (b : BitVec 6) (m : BitVec 1) (s : State) : Res :=
  s.issue (.vrecLin d a b m) 0 0 (commitVrecLin d a b m)

/-- The commit of vclset. -/
def commitVclset (_b : BitVec 5) (op1 : Word) (s : State) : Commit := s.commitCtx fun c => { c with cl := op1 }

/-- vclset: cl takes x[xb] (R159). -/
def execVclset (b : BitVec 5) (s : State) : Res :=
  s.issue (.vclset b) (s.getX b) 0 (commitVclset b (s.getX b))

/-! ## Index generation (R161) -/

/-- The commit of vidxs. -/
def commitVidxs (d : BitVec 6) (_b : BitVec 5) (m : BitVec 1) (op1 : Word) (s : State) : Commit := s.mapV d m fun i => (op1.toNat + i) % 2 ^ s.ctx.sew

/-- vidxs: x[xb] + i (R161). -/
def execVidxs (d : BitVec 6) (b : BitVec 5) (m : BitVec 1) (s : State) : Res :=
  s.issue (.vidxs d b m) (s.getX b) 0 (commitVidxs d b m (s.getX b))

/-- The commit of vidx. -/
def commitVidx (d : BitVec 6) (st : BitVec 10) (p : BitVec 10) (s : State) : Commit := s.mapV d 0 fun i => wrap s.ctx.sew (st.toInt + i * p.toInt)

/-- vidx: start + i × step, unmasked (R161). -/
def execVidx (d : BitVec 6) (st : BitVec 10) (p : BitVec 10) (s : State) : Res :=
  s.issue (.vidx d st p) 0 0 (commitVidx d st p)

end Sys2Proof.Machine
end

