-- ==== Sys2Proof/Machine/VFlt.lean ====
section
/-! DEFINITION. The vector float family (R143, R151, R152). -/

namespace Sys2Proof.Machine

/-- The float type of an element width: f16, f32 or f64, or bf16 for the second kind (R55, R143). -/
def floatKind (bf : Bool) (sew : Nat) : Option FType :=
  if bf then (if sew = 16 then some .bf16 else none)
  else if sew = 16 then some .f16
  else if sew = 32 then some .f32
  else if sew = 64 then some .f64
  else none

/-- The checks of R143: the element width, and a reserved frm where the instruction rounds (R87). -/
def State.floatOp (s : State) (i : Instr) (bf rounds : Bool) (go : FType → RMode → Commit) : Commit :=
  match floatKind bf s.ctx.sew with
  | none => s.badField i
  | some t => if rounds && frmReserved s.ctx.frm then s.badField i else go t (rmOf s.ctx.frm)

/-- One result with its flags for each active element; the flags are those of the active elements (R144). -/
def State.mapF (s : State) (d : BitVec 6) (m : BitVec 1) (f : Nat → Nat × BitVec 5) : Commit :=
  let es := (s.ctx.actives m).map fun i => (i, f i)
  .done ((s.onCtx fun c => c.writeV d c.sew (es.map fun e => (e.1, e.2.1))).orFlags (orAll (es.map fun e => e.2.2)))

/-- One mask bit with its flags for each active element. -/
def State.mapFBit (s : State) (d : BitVec 6) (m : BitVec 1) (f : Nat → Bool × BitVec 5) : Commit :=
  let es := (s.ctx.actives m).map fun i => (i, f i)
  .done ((s.onCtx fun c => c.writeV d 1 (es.map fun e => (e.1, if e.2.1 then 1 else 0))).orFlags (orAll (es.map fun e => e.2.2)))

/-- The value of element `i` of a register. -/
def State.fel (s : State) (t : FType) (r : BitVec 6) (i : Nat) : FVal := t.decode (s.ctx.elem r i)

/-- The code and the value of a captured scalar (R55). -/
def scalarCode (t : FType) (x : Word) : Nat := x.toNat % 2 ^ t.width
def scalarF (t : FType) (x : Word) : FVal := t.decode (scalarCode t x)

/-- The commit of vfadd. -/
def commitVfadd (d : BitVec 6) (a : BitVec 6) (b : BitVec 6) (m : BitVec 1) (k : BitVec 1) (s : State) : Commit :=
  s.floatOp (.vfadd d a b m k) (k == 1) true fun t rm =>
    s.mapF d m fun i => fAdd t rm (s.fel t a i) (s.fel t b i)

/-- vfadd: round(a + b) (R151). -/
def execVfadd (d : BitVec 6) (a : BitVec 6) (b : BitVec 6) (m : BitVec 1) (k : BitVec 1) (s : State) : Res :=
  s.issue (.vfadd d a b m k) 0 0 (commitVfadd d a b m k)

/-- The commit of vfaddVf. -/
def commitVfaddVf (d : BitVec 6) (a : BitVec 6) (b : BitVec 5) (m : BitVec 1) (k : BitVec 1) (op1 : Word) (s : State) : Commit :=
  s.floatOp (.vfaddVf d a b m k) (k == 1) true fun t rm =>
    s.mapF d m fun i => fAdd t rm (s.fel t a i) (scalarF t op1)

/-- vfadd with x[xb] as b: round(a + b) (R151). -/
def execVfaddVf (d : BitVec 6) (a : BitVec 6) (b : BitVec 5) (m : BitVec 1) (k : BitVec 1) (s : State) : Res :=
  s.issue (.vfaddVf d a b m k) (s.getX b) 0 (commitVfaddVf d a b m k (s.getX b))

/-- The commit of vfsub. -/
def commitVfsub (d : BitVec 6) (a : BitVec 6) (b : BitVec 6) (m : BitVec 1) (k : BitVec 1) (s : State) : Commit :=
  s.floatOp (.vfsub d a b m k) (k == 1) true fun t rm =>
    s.mapF d m fun i => fSub t rm (s.fel t a i) (s.fel t b i)

/-- vfsub: round(a − b) (R151). -/
def execVfsub (d : BitVec 6) (a : BitVec 6) (b : BitVec 6) (m : BitVec 1) (k : BitVec 1) (s : State) : Res :=
  s.issue (.vfsub d a b m k) 0 0 (commitVfsub d a b m k)

/-- The commit of vfsubVf. -/
def commitVfsubVf (d : BitVec 6) (a : BitVec 6) (b : BitVec 5) (m : BitVec 1) (k : BitVec 1) (op1 : Word) (s : State) : Commit :=
  s.floatOp (.vfsubVf d a b m k) (k == 1) true fun t rm =>
    s.mapF d m fun i => fSub t rm (s.fel t a i) (scalarF t op1)

/-- vfsub with x[xb] as b: round(a − b) (R151). -/
def execVfsubVf (d : BitVec 6) (a : BitVec 6) (b : BitVec 5) (m : BitVec 1) (k : BitVec 1) (s : State) : Res :=
  s.issue (.vfsubVf d a b m k) (s.getX b) 0 (commitVfsubVf d a b m k (s.getX b))

/-- The commit of vfmul. -/
def commitVfmul (d : BitVec 6) (a : BitVec 6) (b : BitVec 6) (m : BitVec 1) (k : BitVec 1) (s : State) : Commit :=
  s.floatOp (.vfmul d a b m k) (k == 1) true fun t rm =>
    s.mapF d m fun i => fMul t rm (s.fel t a i) (s.fel t b i)

/-- vfmul: round(a × b) (R151). -/
def execVfmul (d : BitVec 6) (a : BitVec 6) (b : BitVec 6) (m : BitVec 1) (k : BitVec 1) (s : State) : Res :=
  s.issue (.vfmul d a b m k) 0 0 (commitVfmul d a b m k)

/-- The commit of vfmulVf. -/
def commitVfmulVf (d : BitVec 6) (a : BitVec 6) (b : BitVec 5) (m : BitVec 1) (k : BitVec 1) (op1 : Word) (s : State) : Commit :=
  s.floatOp (.vfmulVf d a b m k) (k == 1) true fun t rm =>
    s.mapF d m fun i => fMul t rm (s.fel t a i) (scalarF t op1)

/-- vfmul with x[xb] as b: round(a × b) (R151). -/
def execVfmulVf (d : BitVec 6) (a : BitVec 6) (b : BitVec 5) (m : BitVec 1) (k : BitVec 1) (s : State) : Res :=
  s.issue (.vfmulVf d a b m k) (s.getX b) 0 (commitVfmulVf d a b m k (s.getX b))

/-- The commit of vfdiv. -/
def commitVfdiv (d : BitVec 6) (a : BitVec 6) (b : BitVec 6) (m : BitVec 1) (k : BitVec 1) (s : State) : Commit :=
  s.floatOp (.vfdiv d a b m k) (k == 1) true fun t rm =>
    s.mapF d m fun i => fDiv t rm (s.fel t a i) (s.fel t b i)

/-- vfdiv: round(a ÷ b) (R151). -/
def execVfdiv (d : BitVec 6) (a : BitVec 6) (b : BitVec 6) (m : BitVec 1) (k : BitVec 1) (s : State) : Res :=
  s.issue (.vfdiv d a b m k) 0 0 (commitVfdiv d a b m k)

/-- The commit of vfdivVf. -/
def commitVfdivVf (d : BitVec 6) (a : BitVec 6) (b : BitVec 5) (m : BitVec 1) (k : BitVec 1) (op1 : Word) (s : State) : Commit :=
  s.floatOp (.vfdivVf d a b m k) (k == 1) true fun t rm =>
    s.mapF d m fun i => fDiv t rm (s.fel t a i) (scalarF t op1)

/-- vfdiv with x[xb] as b: round(a ÷ b) (R151). -/
def execVfdivVf (d : BitVec 6) (a : BitVec 6) (b : BitVec 5) (m : BitVec 1) (k : BitVec 1) (s : State) : Res :=
  s.issue (.vfdivVf d a b m k) (s.getX b) 0 (commitVfdivVf d a b m k (s.getX b))

/-- The commit of vfmadd. -/
def commitVfmadd (d : BitVec 6) (a : BitVec 6) (b : BitVec 6) (m : BitVec 1) (k : BitVec 1) (s : State) : Commit :=
  s.floatOp (.vfmadd d a b m k) (k == 1) true fun t rm =>
    s.mapF d m fun i => fFma t rm (s.fel t a i) (s.fel t b i) (s.fel t d i)

/-- vfmadd: round(a × b + d), fused (R151). -/
def execVfmadd (d : BitVec 6) (a : BitVec 6) (b : BitVec 6) (m : BitVec 1) (k : BitVec 1) (s : State) : Res :=
  s.issue (.vfmadd d a b m k) 0 0 (commitVfmadd d a b m k)

/-- The commit of vfmaddVf. -/
def commitVfmaddVf (d : BitVec 6) (a : BitVec 6) (b : BitVec 5) (m : BitVec 1) (k : BitVec 1) (op1 : Word) (s : State) : Commit :=
  s.floatOp (.vfmaddVf d a b m k) (k == 1) true fun t rm =>
    s.mapF d m fun i => fFma t rm (s.fel t a i) (scalarF t op1) (s.fel t d i)

/-- vfmadd with x[xb] as b: round(a × b + d), fused (R151). -/
def execVfmaddVf (d : BitVec 6) (a : BitVec 6) (b : BitVec 5) (m : BitVec 1) (k : BitVec 1) (s : State) : Res :=
  s.issue (.vfmaddVf d a b m k) (s.getX b) 0 (commitVfmaddVf d a b m k (s.getX b))

/-- The commit of vfmin. -/
def commitVfmin (d : BitVec 6) (a : BitVec 6) (b : BitVec 6) (m : BitVec 1) (k : BitVec 1) (s : State) : Commit :=
  s.floatOp (.vfmin d a b m k) (k == 1) false fun t _ =>
    s.mapF d m fun i => fMinMax t false (s.ctx.elem a i) (s.ctx.elem b i)

/-- vfmin: minimumNumber (R151). -/
def execVfmin (d : BitVec 6) (a : BitVec 6) (b : BitVec 6) (m : BitVec 1) (k : BitVec 1) (s : State) : Res :=
  s.issue (.vfmin d a b m k) 0 0 (commitVfmin d a b m k)

/-- The commit of vfminVf. -/
def commitVfminVf (d : BitVec 6) (a : BitVec 6) (b : BitVec 5) (m : BitVec 1) (k : BitVec 1) (op1 : Word) (s : State) : Commit :=
  s.floatOp (.vfminVf d a b m k) (k == 1) false fun t _ =>
    s.mapF d m fun i => fMinMax t false (s.ctx.elem a i) (scalarCode t op1)

/-- vfmin with x[xb] as b: minimumNumber (R151). -/
def execVfminVf (d : BitVec 6) (a : BitVec 6) (b : BitVec 5) (m : BitVec 1) (k : BitVec 1) (s : State) : Res :=
  s.issue (.vfminVf d a b m k) (s.getX b) 0 (commitVfminVf d a b m k (s.getX b))

/-- The commit of vfmax. -/
def commitVfmax (d : BitVec 6) (a : BitVec 6) (b : BitVec 6) (m : BitVec 1) (k : BitVec 1) (s : State) : Commit :=
  s.floatOp (.vfmax d a b m k) (k == 1) false fun t _ =>
    s.mapF d m fun i => fMinMax t true (s.ctx.elem a i) (s.ctx.elem b i)

/-- vfmax: maximumNumber (R151). -/
def execVfmax (d : BitVec 6) (a : BitVec 6) (b : BitVec 6) (m : BitVec 1) (k : BitVec 1) (s : State) : Res :=
  s.issue (.vfmax d a b m k) 0 0 (commitVfmax d a b m k)

/-- The commit of vfmaxVf. -/
def commitVfmaxVf (d : BitVec 6) (a : BitVec 6) (b : BitVec 5) (m : BitVec 1) (k : BitVec 1) (op1 : Word) (s : State) : Commit :=
  s.floatOp (.vfmaxVf d a b m k) (k == 1) false fun t _ =>
    s.mapF d m fun i => fMinMax t true (s.ctx.elem a i) (scalarCode t op1)

/-- vfmax with x[xb] as b: maximumNumber (R151). -/
def execVfmaxVf (d : BitVec 6) (a : BitVec 6) (b : BitVec 5) (m : BitVec 1) (k : BitVec 1) (s : State) : Res :=
  s.issue (.vfmaxVf d a b m k) (s.getX b) 0 (commitVfmaxVf d a b m k (s.getX b))

/-- The commit of vfeq. -/
def commitVfeq (d : BitVec 6) (a : BitVec 6) (b : BitVec 6) (m : BitVec 1) (k : BitVec 1) (s : State) : Commit :=
  s.floatOp (.vfeq d a b m k) (k == 1) false fun t _ =>
    s.mapFBit d m fun i => fEq (s.fel t a i) (s.fel t b i)

/-- vfeq: mask bit i says whether a = b, quiet (R151). -/
def execVfeq (d : BitVec 6) (a : BitVec 6) (b : BitVec 6) (m : BitVec 1) (k : BitVec 1) (s : State) : Res :=
  s.issue (.vfeq d a b m k) 0 0 (commitVfeq d a b m k)

/-- The commit of vfeqVf. -/
def commitVfeqVf (d : BitVec 6) (a : BitVec 6) (b : BitVec 5) (m : BitVec 1) (k : BitVec 1) (op1 : Word) (s : State) : Commit :=
  s.floatOp (.vfeqVf d a b m k) (k == 1) false fun t _ =>
    s.mapFBit d m fun i => fEq (s.fel t a i) (scalarF t op1)

/-- vfeq with x[xb] as b: mask bit i says whether a = b, quiet (R151). -/
def execVfeqVf (d : BitVec 6) (a : BitVec 6) (b : BitVec 5) (m : BitVec 1) (k : BitVec 1) (s : State) : Res :=
  s.issue (.vfeqVf d a b m k) (s.getX b) 0 (commitVfeqVf d a b m k (s.getX b))

/-- The commit of vflt. -/
def commitVflt (d : BitVec 6) (a : BitVec 6) (b : BitVec 6) (m : BitVec 1) (k : BitVec 1) (s : State) : Commit :=
  s.floatOp (.vflt d a b m k) (k == 1) false fun t _ =>
    s.mapFBit d m fun i => fLt (s.fel t a i) (s.fel t b i)

/-- vflt: mask bit i says whether a < b, signalling (R151). -/
def execVflt (d : BitVec 6) (a : BitVec 6) (b : BitVec 6) (m : BitVec 1) (k : BitVec 1) (s : State) : Res :=
  s.issue (.vflt d a b m k) 0 0 (commitVflt d a b m k)

/-- The commit of vfltVf. -/
def commitVfltVf (d : BitVec 6) (a : BitVec 6) (b : BitVec 5) (m : BitVec 1) (k : BitVec 1) (op1 : Word) (s : State) : Commit :=
  s.floatOp (.vfltVf d a b m k) (k == 1) false fun t _ =>
    s.mapFBit d m fun i => fLt (s.fel t a i) (scalarF t op1)

/-- vflt with x[xb] as b: mask bit i says whether a < b, signalling (R151). -/
def execVfltVf (d : BitVec 6) (a : BitVec 6) (b : BitVec 5) (m : BitVec 1) (k : BitVec 1) (s : State) : Res :=
  s.issue (.vfltVf d a b m k) (s.getX b) 0 (commitVfltVf d a b m k (s.getX b))

/-- The commit of vfle. -/
def commitVfle (d : BitVec 6) (a : BitVec 6) (b : BitVec 6) (m : BitVec 1) (k : BitVec 1) (s : State) : Commit :=
  s.floatOp (.vfle d a b m k) (k == 1) false fun t _ =>
    s.mapFBit d m fun i => fLe (s.fel t a i) (s.fel t b i)

/-- vfle: mask bit i says whether a ≤ b, signalling (R151). -/
def execVfle (d : BitVec 6) (a : BitVec 6) (b : BitVec 6) (m : BitVec 1) (k : BitVec 1) (s : State) : Res :=
  s.issue (.vfle d a b m k) 0 0 (commitVfle d a b m k)

/-- The commit of vfleVf. -/
def commitVfleVf (d : BitVec 6) (a : BitVec 6) (b : BitVec 5) (m : BitVec 1) (k : BitVec 1) (op1 : Word) (s : State) : Commit :=
  s.floatOp (.vfleVf d a b m k) (k == 1) false fun t _ =>
    s.mapFBit d m fun i => fLe (s.fel t a i) (scalarF t op1)

/-- vfle with x[xb] as b: mask bit i says whether a ≤ b, signalling (R151). -/
def execVfleVf (d : BitVec 6) (a : BitVec 6) (b : BitVec 5) (m : BitVec 1) (k : BitVec 1) (s : State) : Res :=
  s.issue (.vfleVf d a b m k) (s.getX b) 0 (commitVfleVf d a b m k (s.getX b))

/-- The commit of vfsqrt. -/
def commitVfsqrt (d : BitVec 6) (a : BitVec 6) (m : BitVec 1) (k : BitVec 1) (s : State) : Commit :=
  s.floatOp (.vfsqrt d a m k) (k == 1) true fun t rm => s.mapF d m fun i => fSqrt t rm (s.fel t a i)

/-- vfsqrt: round(√a) (R151). -/
def execVfsqrt (d : BitVec 6) (a : BitVec 6) (m : BitVec 1) (k : BitVec 1) (s : State) : Res :=
  s.issue (.vfsqrt d a m k) 0 0 (commitVfsqrt d a m k)

/-- The commit of vfexp2. -/
def commitVfexp2 (d : BitVec 6) (a : BitVec 6) (m : BitVec 1) (k : BitVec 1) (s : State) : Commit :=
  s.floatOp (.vfexp2 d a m k) (k == 1) true fun t rm => s.mapF d m fun i => fExp2 t rm (s.fel t a i)

/-- vfexp2: 2^a, correctly rounded (R151). -/
def execVfexp2 (d : BitVec 6) (a : BitVec 6) (m : BitVec 1) (k : BitVec 1) (s : State) : Res :=
  s.issue (.vfexp2 d a m k) 0 0 (commitVfexp2 d a m k)

/-- The commit of vfclass. -/
def commitVfclass (d : BitVec 6) (a : BitVec 6) (m : BitVec 1) (k : BitVec 1) (s : State) : Commit :=
  s.floatOp (.vfclass d a m k) (k == 1) false fun t _ => s.mapF d m fun i => (fClass t (s.ctx.elem a i), 0)

/-- vfclass: the class mask (R151). -/
def execVfclass (d : BitVec 6) (a : BitVec 6) (m : BitVec 1) (k : BitVec 1) (s : State) : Res :=
  s.issue (.vfclass d a m k) 0 0 (commitVfclass d a m k)

/-- The commit of vfcvt. -/
def commitVfcvt (d : BitVec 6) (a : BitVec 6) (c : BitVec 6) (m : BitVec 1) (s : State) : Commit :=
  s.floatOp (.vfcvt d a c m) false true fun t rm =>
    let w := s.ctx.sew
    if 4 ≤ c.toNat ∧ w ≠ 16 then s.badField (.vfcvt d a c m)
    else
      s.mapF d m fun i =>
        let x := s.ctx.elem a i
        match c.toNat with
        | 0 => fToInt false w rm (t.decode x)
        | 1 => fToInt true w rm (t.decode x)
        | 2 => intToF t rm (toSigned w x)
        | 3 => intToF t rm x
        | 4 => (FType.f16.decode x).into .bf16 rm
        | _ => (FType.bf16.decode x).into .f16 rm

/-- vfcvt: the conversion of the code in vb (R152). -/
def execVfcvt (d : BitVec 6) (a : BitVec 6) (c : BitVec 6) (m : BitVec 1) (s : State) : Res :=
  s.issue (.vfcvt d a c m) 0 0 (commitVfcvt d a c m)

end Sys2Proof.Machine
end

