-- ==== Sys2Proof/Machine/VFix.lean ====
section
/-! DEFINITION. The fixed-point, mask, permutation and reduction families (R153 to R157, R160, R110). -/

namespace Sys2Proof.Machine

/-! ## Pairs -/

/-- Register and element of element `i` of a pair of `h` elements a register (the pair view). -/
def pairAt (r : BitVec 6) (h i : Nat) : BitVec 6 × Nat := if i < h then (r, i) else (vreg r 1, i - h)

/-- The elements of width `w` in one register of a pair under the grant. -/
def Ctx.perReg (c : Ctx) (w : Nat) : Nat := c.lgn * 256 / w

/-- Element `i` of a pair at width `w`. -/
def Ctx.pairElem (c : Ctx) (r : BitVec 6) (w i : Nat) : Nat :=
  match pairAt r (c.perReg w) i with
  | (r, j) => elemIn c.lgn w (c.getV r) j

/-- Elements of a pair written; both registers' facets are cleared (R141). -/
def Ctx.writePair (c : Ctx) (r : BitVec 6) (w : Nat) (es : List (Nat × Nat)) : Ctx :=
  let h := c.perReg w
  let lo := es.filter fun e => decide (e.1 < h)
  let hi := (es.filter fun e => decide (h ≤ e.1)).map fun e => (e.1 - h, e.2)
  (c.writeV r w lo).writeV (vreg r 1) w hi

/-! ## VFIX (R153) -/

/-- A widening function needs an element width below 64 (R143). -/
def State.widening (s : State) (i : Instr) (go : Nat → Commit) : Commit :=
  if s.ctx.sew = 64 then s.badField i else go s.ctx.sew

/-- A wide result for each active element. -/
def State.mapWide (s : State) (d : BitVec 6) (m : BitVec 1) (w : Nat) (f : Nat → Int) : Commit :=
  s.commitCtx fun c => c.writePair d (2 * w) ((c.actives m).map fun i => (i, wrap (2 * w) (f i)))

/-- A saturated result for each active element; any replacement sets vsat (R100). -/
def State.mapSat (s : State) (d : BitVec 6) (m : BitVec 1) (u : Bool) (f : Nat → Int) : Commit :=
  let es := (s.ctx.actives m).map fun i => (i, saturate u s.ctx.sew (f i))
  s.commitCtx fun c => { c.writeV d c.sew (es.map fun e => (e.1, e.2.1)) with vsat := c.vsat || es.any fun e => e.2.2 }

/-- The commit of vwmul. -/
def commitVwmul (d : BitVec 6) (a : BitVec 6) (b : BitVec 6) (m : BitVec 1) (u : BitVec 1) (s : State) : Commit :=
  s.widening (.vwmul d a b m u) fun w => s.mapWide d m w fun i =>
    readInt (u == 1) s.ctx.sew (s.ctx.elem a i) * readInt (u == 1) s.ctx.sew (s.ctx.elem b i)

/-- vwmul: the exact product, in a pair (R153). -/
def execVwmul (d : BitVec 6) (a : BitVec 6) (b : BitVec 6) (m : BitVec 1) (u : BitVec 1) (s : State) : Res :=
  s.issue (.vwmul d a b m u) 0 0 (commitVwmul d a b m u)

/-- The commit of vwmacc. -/
def commitVwmacc (d : BitVec 6) (a : BitVec 6) (b : BitVec 6) (m : BitVec 1) (u : BitVec 1) (s : State) : Commit :=
  s.widening (.vwmacc d a b m u) fun w => s.mapWide d m w fun i =>
    (s.ctx.pairElem d (2 * w) i : Int) + readInt (u == 1) s.ctx.sew (s.ctx.elem a i) * readInt (u == 1) s.ctx.sew (s.ctx.elem b i)

/-- vwmacc: the product added to the wide element, modulo 2^(2·SEW) (R153). -/
def execVwmacc (d : BitVec 6) (a : BitVec 6) (b : BitVec 6) (m : BitVec 1) (u : BitVec 1) (s : State) : Res :=
  s.issue (.vwmacc d a b m u) 0 0 (commitVwmacc d a b m u)

/-- The commit of vwadd. -/
def commitVwadd (d : BitVec 6) (a : BitVec 6) (b : BitVec 6) (m : BitVec 1) (u : BitVec 1) (s : State) : Commit :=
  s.widening (.vwadd d a b m u) fun w => s.mapWide d m w fun i =>
    readInt (u == 1) s.ctx.sew (s.ctx.elem a i) + readInt (u == 1) s.ctx.sew (s.ctx.elem b i)

/-- vwadd: the exact sum, in a pair (R153). -/
def execVwadd (d : BitVec 6) (a : BitVec 6) (b : BitVec 6) (m : BitVec 1) (u : BitVec 1) (s : State) : Res :=
  s.issue (.vwadd d a b m u) 0 0 (commitVwadd d a b m u)

/-- The commit of vnclip. -/
def commitVnclip (d : BitVec 6) (a : BitVec 6) (b : BitVec 6) (m : BitVec 1) (u : BitVec 1) (s : State) : Commit :=
  s.widening (.vnclip d a b m u) fun w => s.mapSat d m (u == 1) fun i =>
    fixShift s.ctx.vrm (readInt (u == 1) (2 * w) (s.ctx.pairElem a (2 * w) i)) (s.ctx.elem b i % (2 * w))

/-- vnclip: the wide element of pair va, shifted right under vrm and saturated (R153). -/
def execVnclip (d : BitVec 6) (a : BitVec 6) (b : BitVec 6) (m : BitVec 1) (u : BitVec 1) (s : State) : Res :=
  s.issue (.vnclip d a b m u) 0 0 (commitVnclip d a b m u)

/-- The commit of vsadd. -/
def commitVsadd (d : BitVec 6) (a : BitVec 6) (b : BitVec 6) (m : BitVec 1) (u : BitVec 1) (s : State) : Commit :=
  s.mapSat d m (u == 1) fun i => readInt (u == 1) s.ctx.sew (s.ctx.elem a i) + readInt (u == 1) s.ctx.sew (s.ctx.elem b i)

/-- vsadd: the sum, saturated (R153). -/
def execVsadd (d : BitVec 6) (a : BitVec 6) (b : BitVec 6) (m : BitVec 1) (u : BitVec 1) (s : State) : Res :=
  s.issue (.vsadd d a b m u) 0 0 (commitVsadd d a b m u)

/-- The commit of vssub. -/
def commitVssub (d : BitVec 6) (a : BitVec 6) (b : BitVec 6) (m : BitVec 1) (u : BitVec 1) (s : State) : Commit :=
  s.mapSat d m (u == 1) fun i => readInt (u == 1) s.ctx.sew (s.ctx.elem a i) - readInt (u == 1) s.ctx.sew (s.ctx.elem b i)

/-- vssub: the difference, saturated (R153). -/
def execVssub (d : BitVec 6) (a : BitVec 6) (b : BitVec 6) (m : BitVec 1) (u : BitVec 1) (s : State) : Res :=
  s.issue (.vssub d a b m u) 0 0 (commitVssub d a b m u)

/-- The commit of vaadd. -/
def commitVaadd (d : BitVec 6) (a : BitVec 6) (b : BitVec 6) (m : BitVec 1) (u : BitVec 1) (s : State) : Commit :=
  s.mapV d m fun i => wrap s.ctx.sew (fixShift s.ctx.vrm (readInt (u == 1) s.ctx.sew (s.ctx.elem a i) + readInt (u == 1) s.ctx.sew (s.ctx.elem b i)) 1)

/-- vaadd: the exact sum shifted right by 1 under vrm; it does not saturate (R153). -/
def execVaadd (d : BitVec 6) (a : BitVec 6) (b : BitVec 6) (m : BitVec 1) (u : BitVec 1) (s : State) : Res :=
  s.issue (.vaadd d a b m u) 0 0 (commitVaadd d a b m u)

/-! ## VMASK (R154) -/

/-- Bit `i` of a register inside the grant. -/
def Ctx.bitOf (c : Ctx) (r : BitVec 6) (i : Nat) : Bool := elemIn c.lgn 1 (c.getV r) i == 1

/-- The commit of vmand. -/
def commitVmand (d : BitVec 6) (a : BitVec 6) (b : BitVec 6) (m : BitVec 1) (s : State) : Commit :=
  s.mapBit d m fun i => s.ctx.bitOf a i && s.ctx.bitOf b i

/-- vmand, bit by bit (R154). -/
def execVmand (d : BitVec 6) (a : BitVec 6) (b : BitVec 6) (m : BitVec 1) (s : State) : Res :=
  s.issue (.vmand d a b m) 0 0 (commitVmand d a b m)

/-- The commit of vmor. -/
def commitVmor (d : BitVec 6) (a : BitVec 6) (b : BitVec 6) (m : BitVec 1) (s : State) : Commit :=
  s.mapBit d m fun i => s.ctx.bitOf a i || s.ctx.bitOf b i

/-- vmor, bit by bit (R154). -/
def execVmor (d : BitVec 6) (a : BitVec 6) (b : BitVec 6) (m : BitVec 1) (s : State) : Res :=
  s.issue (.vmor d a b m) 0 0 (commitVmor d a b m)

/-- The commit of vmxor. -/
def commitVmxor (d : BitVec 6) (a : BitVec 6) (b : BitVec 6) (m : BitVec 1) (s : State) : Commit :=
  s.mapBit d m fun i => s.ctx.bitOf a i != s.ctx.bitOf b i

/-- vmxor, bit by bit (R154). -/
def execVmxor (d : BitVec 6) (a : BitVec 6) (b : BitVec 6) (m : BitVec 1) (s : State) : Res :=
  s.issue (.vmxor d a b m) 0 0 (commitVmxor d a b m)

/-- The commit of vmnot. -/
def commitVmnot (d : BitVec 6) (a : BitVec 6) (m : BitVec 1) (s : State) : Commit :=
  s.mapBit d m fun i => !s.ctx.bitOf a i

/-- vmnot, bit by bit (R154). -/
def execVmnot (d : BitVec 6) (a : BitVec 6) (m : BitVec 1) (s : State) : Res :=
  s.issue (.vmnot d a m) 0 0 (commitVmnot d a m)

/-- The commit of vfirst. -/
def commitVfirst (q : BitVec 3) (a : BitVec 6) (m : BitVec 1) (s : State) : Commit :=
  s.pushQ q (match (s.ctx.actives m).find? (s.ctx.bitOf a) with
    | some i => BitVec.ofNat 64 i
    | none => BitVec.allOnes 64)

/-- vfirst: the least active i whose bit is 1, or all ones (R154). -/
def execVfirst (q : BitVec 3) (a : BitVec 6) (m : BitVec 1) (s : State) : Res :=
  s.issue (.vfirst q a m) 0 0 (commitVfirst q a m)

/-- The commit of vcount. -/
def commitVcount (q : BitVec 3) (a : BitVec 6) (m : BitVec 1) (s : State) : Commit :=
  s.pushQ q (BitVec.ofNat 64 ((s.ctx.actives m).filter (s.ctx.bitOf a)).length)

/-- vcount: the number of active bits that are 1 (R154). -/
def execVcount (q : BitVec 3) (a : BitVec 6) (m : BitVec 1) (s : State) : Res :=
  s.issue (.vcount q a m) 0 0 (commitVcount q a m)

/-! ## VPERM (R155 to R157) -/

/-- The commit of vslideup. -/
def commitVslideup (d : BitVec 6) (a : BitVec 6) (_b : BitVec 5) (m : BitVec 1) (op1 : Word) (s : State) : Commit :=
  s.mapV d m fun i => s.ctx.rd a ((i : Int) - op1.toNat)

/-- vslideup: element i − n (R155). -/
def execVslideup (d : BitVec 6) (a : BitVec 6) (b : BitVec 5) (m : BitVec 1) (s : State) : Res :=
  s.issue (.vslideup d a b m) (s.getX b) 0 (commitVslideup d a b m (s.getX b))

/-- The commit of vslidedn. -/
def commitVslidedn (d : BitVec 6) (a : BitVec 6) (_b : BitVec 5) (m : BitVec 1) (op1 : Word) (s : State) : Commit :=
  s.mapV d m fun i => s.ctx.rd a (i + op1.toNat)

/-- vslidedn: element i + n (R155). -/
def execVslidedn (d : BitVec 6) (a : BitVec 6) (b : BitVec 5) (m : BitVec 1) (s : State) : Res :=
  s.issue (.vslidedn d a b m) (s.getX b) 0 (commitVslidedn d a b m (s.getX b))

/-- The commit of vperm. -/
def commitVperm (d : BitVec 6) (a : BitVec 6) (b : BitVec 6) (m : BitVec 1) (s : State) : Commit :=
  s.mapV d m fun i => s.ctx.rd a (s.ctx.elem b i)

/-- vperm: the element that vb names (R155). -/
def execVperm (d : BitVec 6) (a : BitVec 6) (b : BitVec 6) (m : BitVec 1) (s : State) : Res :=
  s.issue (.vperm d a b m) 0 0 (commitVperm d a b m)

/-- The commit of vzip. -/
def commitVzip (d : BitVec 6) (a : BitVec 6) (b : BitVec 6) (m : BitVec 1) (s : State) : Commit :=
  s.commitCtx fun c => c.writePair d c.sew
    ((c.actives m).flatMap fun i => [(2 * i, c.elem a i), (2 * i + 1, c.elem b i)])

/-- vzip: the elements of va and vb in turn, in a pair (R155). -/
def execVzip (d : BitVec 6) (a : BitVec 6) (b : BitVec 6) (m : BitVec 1) (s : State) : Res :=
  s.issue (.vzip d a b m) 0 0 (commitVzip d a b m)

/-- The commit of vunzip. -/
def commitVunzip (d : BitVec 6) (a : BitVec 6) (m : BitVec 1) (s : State) : Commit :=
  s.commitCtx fun c =>
    let es := (c.actives m).map fun i => (i, c.pairElem a c.sew (2 * i), c.pairElem a c.sew (2 * i + 1))
    (c.writeV d c.sew (es.map fun e => (e.1, e.2.1))).writeV (vreg d 1) c.sew (es.map fun e => (e.1, e.2.2))

/-- vunzip: the even elements of the pair va to vd, the odd ones to vd + 1 (R155). -/
def execVunzip (d : BitVec 6) (a : BitVec 6) (m : BitVec 1) (s : State) : Res :=
  s.issue (.vunzip d a m) 0 0 (commitVunzip d a m)

/-- The commit of vcmprs. -/
def commitVcmprs (d : BitVec 6) (a : BitVec 6) (m : BitVec 1) (s : State) : Commit :=
  s.commitCtx fun c =>
    let from_ := c.actives m
    let k := from_.length
    let rest := (List.range (c.vl - k)).map fun j => (k + j, 0)
    let c' := c.writeV d c.sew (((List.range k).zip (from_.map (c.elem a))) ++ rest)
    let c'' := if hasPartner d then c'.writeV (vreg d 32) c.sew (((List.range k).zip from_) ++ rest) else c'
    { c'' with vl := k }

/-- vcmprs: the active elements packed, with their indices in the partner; vl takes their number (R156). -/
def execVcmprs (d : BitVec 6) (a : BitVec 6) (m : BitVec 1) (s : State) : Res :=
  s.issue (.vcmprs d a m) 0 0 (commitVcmprs d a m)

/-- The commit of vexpand. -/
def commitVexpand (d : BitVec 6) (a : BitVec 6) (m : BitVec 1) (s : State) : Commit :=
  s.commitCtx fun c =>
    let places := c.actives m
    c.writeV d c.sew (places.zip ((List.range places.length).map fun k => c.rd a k))

/-- vexpand: successive elements of va into the active places (R157). -/
def execVexpand (d : BitVec 6) (a : BitVec 6) (m : BitVec 1) (s : State) : Res :=
  s.issue (.vexpand d a m) 0 0 (commitVexpand d a m)

/-! ## VRED (R110, R160) -/

/-- The active elements of a register. -/
def Ctx.activeElems (c : Ctx) (a : BitVec 6) (m : BitVec 1) : List Nat := (c.actives m).map (c.elem a)

/-- A reduction's result, extended (R144). -/
def extResult (u : Bool) (w v : Nat) : Word := BitVec.ofInt 64 (readInt u w v)

/-- The commit of vredsum. -/
def commitVredsum (q : BitVec 3) (a : BitVec 6) (m : BitVec 1) (u : BitVec 1) (s : State) : Commit :=
  s.pushQ q (extResult (u == 1) s.ctx.sew ((s.ctx.activeElems a m).sum % 2 ^ s.ctx.sew))

/-- vredsum: the sum modulo 2^SEW (R160). -/
def execVredsum (q : BitVec 3) (a : BitVec 6) (m : BitVec 1) (u : BitVec 1) (s : State) : Res :=
  s.issue (.vredsum q a m u) 0 0 (commitVredsum q a m u)

/-- The commit of vredmax. -/
def commitVredmax (q : BitVec 3) (a : BitVec 6) (m : BitVec 1) (u : BitVec 1) (s : State) : Commit :=
  s.pushQ q (extResult (u == 1) s.ctx.sew
    ((s.ctx.activeElems a m).foldl (iMax (u == 1) s.ctx.sew) (wrap s.ctx.sew (typeMin (u == 1) s.ctx.sew))))

/-- vredmax: the greatest element; the least of the type where none is active (R160). -/
def execVredmax (q : BitVec 3) (a : BitVec 6) (m : BitVec 1) (u : BitVec 1) (s : State) : Res :=
  s.issue (.vredmax q a m u) 0 0 (commitVredmax q a m u)

/-- The commit of vredmin. -/
def commitVredmin (q : BitVec 3) (a : BitVec 6) (m : BitVec 1) (u : BitVec 1) (s : State) : Commit :=
  s.pushQ q (extResult (u == 1) s.ctx.sew
    ((s.ctx.activeElems a m).foldl (iMin (u == 1) s.ctx.sew) (wrap s.ctx.sew (typeMax (u == 1) s.ctx.sew))))

/-- vredmin: the least element; the greatest of the type where none is active (R160). -/
def execVredmin (q : BitVec 3) (a : BitVec 6) (m : BitVec 1) (u : BitVec 1) (s : State) : Res :=
  s.issue (.vredmin q a m u) 0 0 (commitVredmin q a m u)

/-- The commit of vredand. -/
def commitVredand (q : BitVec 3) (a : BitVec 6) (m : BitVec 1) (s : State) : Commit :=
  s.pushQ q (BitVec.ofNat 64 ((s.ctx.activeElems a m).foldl (· &&& ·) (2 ^ s.ctx.sew - 1)))

/-- vredand: bitwise and (R160). -/
def execVredand (q : BitVec 3) (a : BitVec 6) (m : BitVec 1) (s : State) : Res :=
  s.issue (.vredand q a m) 0 0 (commitVredand q a m)

/-- The commit of vredor. -/
def commitVredor (q : BitVec 3) (a : BitVec 6) (m : BitVec 1) (s : State) : Commit :=
  s.pushQ q (BitVec.ofNat 64 ((s.ctx.activeElems a m).foldl (· ||| ·) 0))

/-- vredor: bitwise or (R160). -/
def execVredor (q : BitVec 3) (a : BitVec 6) (m : BitVec 1) (s : State) : Res :=
  s.issue (.vredor q a m) 0 0 (commitVredor q a m)

/-- The exact sum of values, rounded once (R85, R110). DEDUCED (log 71): a sum whose terms are all +0 is +0 in every mode, as the rule of
IEEE 754 that R85 names keeps it for two zeros of one sign. -/
def exactSum (t : FType) (rm : RMode) (vs : List FVal) : Nat × BitVec 5 :=
  let pos := vs.any fun v => v == .inf false
  let neg := vs.any fun v => v == .inf true
  if vs.any FVal.isNan then nanOut t (vs.any FVal.isSig || (pos && neg))
  else if pos && neg then nanOut t true
  else if pos || neg then (t.infCode + zeroCode t neg, 0)
  else if vs.isEmpty then (0, 0)
  else
    let e0 := 1 - t.bias - t.fbits
    let x := vs.foldl (fun (x : Int) v => match v with
      | .fin n m e => x + atExp n m e e0
      | _ => x) 0
    if x = 0 then
      let minus := vs.all fun v => match v with
        | .fin n m _ => n && m == 0
        | _ => false
      let plus := vs.all fun v => match v with
        | .fin n m _ => !n && m == 0
        | _ => false
      (zeroCode t (if minus then true else if plus then false else rm == .rdn), 0)
    else roundInt t rm x e0

/-- The commit of vfredsum. -/
def commitVfredsum (q : BitVec 3) (a : BitVec 6) (m : BitVec 1) (k : BitVec 1) (s : State) : Commit :=
  s.floatOp (.vfredsum q a m k) (k == 1) true fun t rm =>
    let r := exactSum t rm ((s.ctx.activeElems a m).map t.decode)
    match s.pushQ q (BitVec.ofNat 64 r.1) with
    | .done s => .done (s.orFlags r.2)
    | c => c

/-- vfredsum: the exact sum, rounded once (R110). -/
def execVfredsum (q : BitVec 3) (a : BitVec 6) (m : BitVec 1) (k : BitVec 1) (s : State) : Res :=
  s.issue (.vfredsum q a m k) 0 0 (commitVfredsum q a m k)

end Sys2Proof.Machine
end

