-- ==== Sys2Proof/Machine/VCvt.lean ====
section
/-! DEFINITION. Hadamard stages, quantisation with scales and codebooks, and random numbers (R94 to R96, R111, R162 to R165). -/

namespace Sys2Proof.Machine

/-! ## Hadamard stages -/

/-- The float type of a Hadamard stage or of a quantiser's wide side; none at SEW 8 (R143). -/
def wideKind (sew : Nat) : Option FType :=
  if sew = 16 then some .bf16 else if sew = 32 then some .f32 else if sew = 64 then some .f64 else none

/-- One stage at distance `d` over the elements that `get` reads (R111): (element, value) pairs of the active places and the flags; `t`
is none at SEW 8, where the stage works modulo 2^8. -/
def Ctx.stage (c : Ctx) (t : Option FType) (rm : RMode) (d : Nat) (m : BitVec 1) (get : Nat → Nat) : List (Nat × Nat) × BitVec 5 :=
  let rd := fun i => if i < c.vl then get i else 0
  let es := (c.actives m).map fun j =>
    let low := j / d % 2 == 0
    let x := rd (if low then j else j - d)
    let y := rd (if low then j + d else j)
    match t with
    | none => (j, if low then (iAdd 8 x y, (0 : BitVec 5)) else (iSub 8 x y, 0))
    | some t => (j, if low then fAdd t rm (t.decode x) (t.decode y) else fSub t rm (t.decode x) (t.decode y))
  (es.map fun e => (e.1, e.2.1), orAll (es.map fun e => e.2.2))

/-- Elements written to the chain latch, inside the grant (R162). -/
def Ctx.writeHl (c : Ctx) (w : Nat) (es : List (Nat × Nat)) : Ctx :=
  { c with hl := putElems w c.hl (es.filter fun e => decide ((e.1 + 1) * w ≤ c.lgn * 256)) }

/-- A float type rounds under frm, so a reserved frm raises 0x02 (R87); SEW 8 does not read it. -/
def State.stageOp (s : State) (i : Instr) (go : Option FType → Commit) : Commit :=
  match wideKind s.ctx.sew with
  | none => go none
  | some t => if frmReserved s.ctx.frm then s.badField i else go (some t)

/-- The commit of vhad. -/
def commitVhad (d a n : BitVec 6) (m : BitVec 1) (s : State) : Commit :=
  s.stageOp (.vhad d a n m) fun t =>
    let r := s.ctx.stage t (rmOf s.ctx.frm) (2 ^ n.toNat) m (s.ctx.elem a)
    .done ((s.onCtx fun c => c.writeV d c.sew r.1).orFlags r.2)

/-- vhad: one Hadamard stage at distance 2^vb (R111, R162). -/
def execVhad (d a n : BitVec 6) (m : BitVec 1) (s : State) : Res := s.issue (.vhad d a n m) 0 0 (commitVhad d a n m)

/-- The commit of vhad.c: va = 0 reads hl. -/
def commitVhadC (a n : BitVec 6) (m : BitVec 1) (s : State) : Commit :=
  s.stageOp (.vhadC a n m) fun t =>
    let get := if a = 0 then elemIn s.ctx.lgn s.ctx.sew s.ctx.hl else s.ctx.elem a
    let r := s.ctx.stage t (rmOf s.ctx.frm) (2 ^ n.toNat) m get
    .done ((s.onCtx fun c => c.writeHl c.sew r.1).orFlags r.2)

/-- vhad.c: one Hadamard stage written to hl (R111, R162). -/
def execVhadC (a n : BitVec 6) (m : BitVec 1) (s : State) : Res := s.issue (.vhadC a n m) 0 0 (commitVhadC a n m)

/-! ## Codes -/

/-- The narrow targets (R57): e4m3, e5m2, e2m1, a codebook, s8. -/
inductive Narrow where
  | float (t : FType)
  | book (b : BitVec 2)
  | s8
  deriving DecidableEq, Repr

/-- The narrow type of a word (R57). -/
def narrowOf (t : BitVec 3) (c : BitVec 2) : Narrow :=
  match t.toNat with
  | 0 => .float .e4m3
  | 1 => .float .e5m2
  | 2 => .float .e2m1
  | 3 => .book c
  | _ => .s8

/-- The width of a code: a nibble for e2m1 and cb4, else a byte (R163). -/
def Narrow.width : Narrow → Nat
  | .float .e2m1 => 4
  | .book _ => 4
  | _ => 8

/-- Entry `k` of a codebook, a bf16 value (R94). -/
def Ctx.cbEntry (c : Ctx) (b : BitVec 2) (k : Nat) : FVal := FType.bf16.decode ((c.cb[b.toNat]).toNat / 2 ^ (16 * k) % 2 ^ 16)

/-- A value as a signed integer at exponent `e0`. -/
def FVal.at_ (v : FVal) (e0 : Int) : Int :=
  match v with
  | .fin n m e => atExp n m e e0
  | _ => 0

/-- The exponent of a finite value, 0 for the others. -/
def FVal.exp : FVal → Int
  | .fin _ _ e => e
  | _ => 0

/-- The distance of an entry from x for the choice of R95, as a pair compared in order: infinite distances after finite ones; for
x = ±inf, how far the entry lies from that end. -/
def cbDistance (x entry : FVal) (e0 : Int) : Nat × Int :=
  match x, entry with
  | .inf neg, .inf n => if n = neg then (0, 0) else (2, 0)
  | .inf neg, v => (1, if neg then v.at_ e0 else -(v.at_ e0))
  | _, .inf _ => (1, 0)
  | x, v => (0, ((x.at_ e0 - v.at_ e0).natAbs : Int))

/-- The code of an exact value under a codebook (R95): the least distance, then an even code, then the lower; and the flags. -/
def cbQuantise (entries : List FVal) (x : FVal) : Nat × BitVec 5 :=
  let cand := ((List.range 16).zip entries).filter fun p => !p.2.isNan
  if x.isNan || cand.isEmpty then (0, flagNV)
  else
    let e0 := (cand.map fun p => p.2.exp).foldl (fun a b => if b < a then b else a) x.exp
    let key := fun (p : Nat × FVal) => (cbDistance x p.2 e0, p.1 % 2, p.1)
    let less := fun (a b : (Nat × Int) × Nat × Nat) =>
      decide (a.1.1 < b.1.1) || (a.1.1 == b.1.1 && (decide (a.1.2 < b.1.2) || (a.1.2 == b.1.2 &&
        (decide (a.2.1 < b.2.1) || (a.2.1 == b.2.1 && decide (a.2.2 < b.2.2))))))
    match cand with
    | [] => (0, flagNV)
    | p :: r =>
      let best := r.foldl (fun b q => if less (key q) (key b) then q else b) p
      let same := cbDistance x best.2 e0 == (0, 0)
      let isInf := match x with
        | .inf _ => true
        | _ => false
      (best.1, (if isInf then flagOF else 0) ||| (if same then 0 else flagNX))

/-- A value delivered into a narrow type (R163). -/
def Ctx.quantiseTo (c : Ctx) (t : Narrow) (rm : RMode) (x : Option FVal) : Nat × BitVec 5 :=
  match t with
  | .float ft =>
    match x with
    | none => nanOut ft true
    | some v => v.into ft rm
  | .s8 => fToInt false 8 rm (x.getD (.nan true))
  | .book b =>
    let r := cbQuantise ((List.range 16).map (c.cbEntry b)) (x.getD (.nan true))
    (r.1, r.2 ||| (match x with
      | some v => if v.isSig then flagNV else 0
      | none => flagNV))

/-- The exact value of a code (R94, R164). -/
def Ctx.codeValue (c : Ctx) (t : Narrow) (code : Nat) : FVal :=
  match t with
  | .float ft => ft.decode code
  | .book b => c.cbEntry b (code % 16)
  | .s8 => let v := toSigned 8 code
           .fin (decide (v < 0)) v.natAbs 0

/-- scale(i) (R96): bf16 element floor(i ÷ B) of v1; +0 above 127 or outside the grant. -/
def Ctx.scaleAt (c : Ctx) (block i : Nat) : FVal :=
  let k := i / block
  FType.bf16.decode (if k ≤ 127 then elemIn c.lgn 16 (c.getV 1) k else 0)

/-- The checks of the quantisers: the wide type (R143), the scale block (R399), a reserved frm where the word rounds (R87). -/
def State.scaleOp (s : State) (i : Instr) (rounds : Bool) (go : FType → Nat → RMode → Commit) : Commit :=
  match wideKind s.ctx.sew, s.ctx.scaleBlock with
  | some t, some b => if rounds && frmReserved s.ctx.frm then s.badField i else go t b (rmOf s.ctx.frm)
  | _, _ => s.badField i

/-- The quantisation of the elements that `get` reads (R163). -/
def State.quantise (s : State) (i : Instr) (d : BitVec 6) (t : Narrow) (m : BitVec 1) (get : Nat → Nat) : Commit :=
  let rounds := match t with
    | .book _ => false
    | _ => true
  s.scaleOp i rounds fun wide block rm =>
    let es := (s.ctx.actives m).map fun j => (j, s.ctx.quantiseTo t rm ((wide.decode (get j)).mul (s.ctx.scaleAt block j)))
    .done ((s.onCtx fun c => c.writeV d t.width (es.map fun e => (e.1, e.2.1))).orFlags (orAll (es.map fun e => e.2.2)))

/-- The commit of vqnt. -/
def commitVqnt (d a : BitVec 6) (c : BitVec 2) (m : BitVec 1) (t : BitVec 3) (s : State) : Commit :=
  s.quantise (.vqnt d a c m t) d (narrowOf t c) m (s.ctx.elem a)

/-- vqnt: each element times its scale, delivered into a narrow type (R96, R163). -/
def execVqnt (d a : BitVec 6) (c : BitVec 2) (m : BitVec 1) (t : BitVec 3) (s : State) : Res :=
  s.issue (.vqnt d a c m t) 0 0 (commitVqnt d a c m t)

/-- The commit of vqnt.c. -/
def commitVqntC (d : BitVec 6) (c : BitVec 2) (m : BitVec 1) (t : BitVec 3) (s : State) : Commit :=
  s.quantise (.vqntC d c m t) d (narrowOf t c) m (elemIn s.ctx.lgn s.ctx.sew s.ctx.hl)

/-- vqnt.c: as vqnt, reading hl (R163). -/
def execVqntC (d : BitVec 6) (c : BitVec 2) (m : BitVec 1) (t : BitVec 3) (s : State) : Res :=
  s.issue (.vqntC d c m t) 0 0 (commitVqntC d c m t)

/-- The commit of vdqnt. -/
def commitVdqnt (d a : BitVec 6) (c : BitVec 2) (m : BitVec 1) (t : BitVec 3) (s : State) : Commit :=
  s.scaleOp (.vdqnt d a c m t) true fun wide block rm =>
    let n := narrowOf t c
    s.mapF d m fun j =>
      match (s.ctx.codeValue n (elemIn s.ctx.lgn n.width (s.ctx.getV a) j)).mul (s.ctx.scaleAt block j) with
      | none => nanOut wide true
      | some v => v.into wide rm

/-- vdqnt: each code's exact value times its scale, rounded once (R164). -/
def execVdqnt (d a : BitVec 6) (c : BitVec 2) (m : BitVec 1) (t : BitVec 3) (s : State) : Res :=
  s.issue (.vdqnt d a c m t) 0 0 (commitVdqnt d a c m t)

/-! ## Random numbers (R165) -/

/-- One round of Philox-4×32-10. -/
def philoxRound (c : Nat × Nat × Nat × Nat) (k0 k1 : Nat) : Nat × Nat × Nat × Nat :=
  match c with
  | (c0, c1, c2, c3) =>
    let p0 := 0xD2511F53 * c0
    let p1 := 0xCD9E8D57 * c2
    (p1 / 2 ^ 32 ^^^ c1 ^^^ k0, p1 % 2 ^ 32, p0 / 2 ^ 32 ^^^ c3 ^^^ k1, p0 % 2 ^ 32)

/-- `n` rounds, the key advancing between them. -/
def philoxRounds : Nat → Nat × Nat × Nat × Nat → Nat → Nat → Nat × Nat × Nat × Nat
  | 0, c, _, _ => c
  | n + 1, c, k0, k1 => philoxRounds n (philoxRound c k0 k1) ((k0 + 0x9E3779B9) % 2 ^ 32) ((k1 + 0xBB67AE85) % 2 ^ 32)

/-- The block of a counter under a key and a stream (R165). -/
def philox (key stream n : Nat) : Nat × Nat × Nat × Nat :=
  philoxRounds 10 (n % 2 ^ 32, n / 2 ^ 32 % 2 ^ 32, stream % 2 ^ 32, stream / 2 ^ 32 % 2 ^ 32) (key % 2 ^ 32) (key / 2 ^ 32 % 2 ^ 32)

/-- The commit of vrand: `op1` holds x[xh], `op2` x[xoff]. -/
def commitVrand (d : BitVec 6) (_h _o : BitVec 5) (m : BitVec 1) (op1 op2 : Word) (s : State) : Commit :=
  match s.ctx.rh.toList[op1.toNat]? with
  | some ⟨true, key, stream⟩ =>
    s.mapV d m fun i =>
      match philox key.toNat stream.toNat ((op2.toNat + i) % 2 ^ 64) with
      | (c0, c1, _, _) => if s.ctx.sew = 64 then c0 + c1 * 2 ^ 32 else c0 % 2 ^ s.ctx.sew
  | _ => .trap 0x08 op1 s

/-- vrand: Philox output of a valid handle in the active elements; any other handle raises ACCESS (R165). -/
def execVrand (d : BitVec 6) (h o : BitVec 5) (m : BitVec 1) (s : State) : Res :=
  s.issue (.vrand d h o m) (s.getX h) (s.getX o) (commitVrand d h o m (s.getX h) (s.getX o))

end Sys2Proof.Machine
end

