-- ==== Sys2Proof/Machine/Tile.lean ====
section
/-! DEFINITION. Tiles: shapes, cells and their exact arithmetic (R101 to R109, R188 to R191), resolve and reads, and the images (R204 to
R206). -/

namespace Sys2Proof.Machine

/-! ## Formats and shapes -/

/-- The float type of a fmt code (R64); none for s8 and s32. -/
def fmtFloat (f : Nat) : Option FType :=
  match f with
  | 0 => some .e4m3
  | 1 => some .e5m2
  | 3 => some .bf16
  | 4 => some .f16
  | 5 => some .f32
  | 6 => some .f64
  | _ => none

/-- The width of a fmt code's values. -/
def fmtWidth (f : Nat) : Nat :=
  match fmtFloat f with
  | some t => t.width
  | none => if f = 2 then 8 else 32

/-- The shape class of a fmt code (R188). -/
def fmtClass (f : Nat) : TClass :=
  match f with
  | 0 => .narrow
  | 1 => .narrow
  | 2 => .narrow
  | 3 => .half
  | 4 => .half
  | 5 => .f32
  | _ => .f64

/-- The mode of a fmt code (R101). -/
def fmtMode (f : Nat) : TMode := if f = 2 then .integer else .float

/-- Rows of a class under the full row grant (R188); 128 for none (R190). -/
def TClass.rows : TClass → Nat
  | .f32 => 64
  | .f64 => 32
  | _ => 128

/-- Columns of a class (R188); 192 for none (R190). -/
def TClass.cols : TClass → Nat
  | .half => 96
  | .f32 => 96
  | .f64 => 64
  | _ => 192

/-- Mg (R189). -/
def Ctx.tileRows (c : Ctx) (k : TClass) : Nat := k.rows * c.trn / 8

/-- The tile `t` of a context. -/
def Ctx.tile (c : Ctx) (t : BitVec 2) : Tile := c.tiles[t.toNat]

/-- The tile `t` replaced. -/
def Ctx.putTile (c : Ctx) (t : BitVec 2) (x : Tile) : Ctx := { c with tiles := c.tiles.set t.toNat x }

/-! ## Cells -/

/-- An untouched cell. -/
def TCell.zero : TCell := ⟨0, false, false, false, 0⟩

/-- Bits of the window with the guard: 68, or 272 for a grouped cell (R102, R109). -/
def TClass.bits : TClass → Nat
  | .f64 => 272
  | _ => 68

/-- Bits of the window: 64, or 256 (R102, R109). -/
def TClass.window : TClass → Nat
  | .f64 => 256
  | _ => 64

/-- The exponent of the unit below the anchor: 56, or 248 (R102, R109). -/
def TClass.below : TClass → Int
  | .f64 => 248
  | _ => 56

/-- The anchor in force; an unset one of a loaded image is free (log 27). -/
def Tile.anchorNow (t : Tile) : Int := t.anchor.getD Config.unsetAnchor

/-- The exponent of a cell's unit: A − 56 or A − 248 in float mode, 0 in integer mode (R102, R109). -/
def Tile.unitExp (t : Tile) : Int := if t.mode = .integer then 0 else t.anchorNow - t.cls.below

/-- floor(v × 2^k). -/
def floorScale (v k : Int) : Int := if 0 ≤ k then v * (2 ^ k.toNat : Nat) else v / (2 ^ (-k).toNat : Nat)

/-- A finite value as a term of a tile: floor(v ÷ unit), or none outside the term range (R104). -/
def Tile.term (t : Tile) (neg : Bool) (m : Nat) (e : Int) : Option Int :=
  let v : Int := if neg then -(m : Int) else m
  let k := floorScale v (e - t.unitExp)
  let lim : Int := (2 ^ (t.cls.bits - 1) : Nat)
  if -lim ≤ k ∧ k < lim then some k else none

/-- A term added to a cell, modulo 2^68 or 2^272 read as signed (R102, R104, R109). -/
def TCell.add (c : TCell) (bits : Nat) (k : Int) : TCell := { c with x := toSigned bits (wrap bits (c.x + k)) }

/-- A product's effect on a cell (R104); none is a product that is 0 × ±inf. -/
def Tile.addTo (t : Tile) (c : TCell) (p : Option FVal) : TCell :=
  match p with
  | none => { c with n := true }
  | some (.nan _) => { c with n := true }
  | some (.inf neg) => if neg then { c with m := true } else { c with p := true }
  | some (.fin neg m e) =>
    if m = 0 then c
    else
      match t.term neg m e with
      | some k => c.add t.cls.bits k
      | none => if neg then { c with m := true } else { c with p := true }

/-- A product sets nv: 0 × ±inf, or a signalling NaN operand (R104). -/
def productNv (p : Option FVal) : Bool :=
  match p with
  | none => true
  | some v => v.isSig

/-- The greatest floor(log2 |v|) over the finite nonzero values (R103). -/
def emaxOf (vs : List (Option FVal)) : Option Int :=
  vs.foldl (fun (b : Option Int) v => match v with
    | some (.fin _ m e) =>
      if m = 0 then b
      else
        let l : Int := (Nat.log2 m : Int) + e
        match b with
        | some x => if x < l then some l else b
        | none => some l
    | _ => b) none

/-- The anchor set from values where it is unset (R103, R191). -/
def Tile.anchored (t : Tile) (vs : List (Option FVal)) : Tile :=
  if t.mode = .float ∧ t.anchor = none then
    match emaxOf vs with
    | some e => { t with anchor := some (if e + 8 < -2048 then -2048 else if 2047 < e + 8 then 2047 else e + 8) }
    | none => t
  else t

/-- Changes of cells in ascending order applied to cells in ascending order; cells left untouched are not listed. -/
def mergeCells (f : TCell → List (Option FVal) → TCell) : Nat → List (Nat × TCell) → List (Nat × List (Option FVal)) → List (Nat × TCell)
  | 0, cs, _ => cs
  | _ + 1, cs, [] => cs
  | n + 1, [], (k, ps) :: r =>
    let c := f TCell.zero ps
    if c = TCell.zero then mergeCells f n [] r else (k, c) :: mergeCells f n [] r
  | n + 1, (k', c') :: cs, (k, ps) :: r =>
    if k' < k then (k', c') :: mergeCells f n cs ((k, ps) :: r)
    else if k' = k then
      let c := f c' ps
      if c = TCell.zero then mergeCells f n cs r else (k, c) :: mergeCells f n cs r
    else
      let c := f TCell.zero ps
      if c = TCell.zero then mergeCells f n ((k', c') :: cs) r else (k, c) :: mergeCells f n ((k', c') :: cs) r

/-- Changes of cells applied to a tile. -/
def Tile.change (t : Tile) (f : TCell → List (Option FVal) → TCell) (ps : List (Nat × List (Option FVal))) : Tile :=
  { t with cells := mergeCells f (t.cells.length + ps.length) t.cells ps }

/-! ## Held values, resolve and reads -/

/-- The value that a held code stands for (R106, R206). -/
def heldValue (rfmt held : Nat) : FVal :=
  match fmtFloat rfmt with
  | some t => t.decode held
  | none => let v := toSigned 32 held
            .fin (decide (v < 0)) v.natAbs 0

/-- A value delivered in a format of a tile read (R106, R202): a float type, or s32. -/
def deliver (f : Nat) (rm : RMode) (v : FVal) : Nat × BitVec 5 :=
  match fmtFloat f with
  | some t => v.into t rm
  | none => fToInt false 32 rm v

/-- A resolved cell converted back (R107). DESIGN CHOICE (log 55): of a float tile that never had an anchor a value that is not zero is
counted under `Config.unsetAnchor`, and a value of an integer tile that is no integer is rounded down. -/
def Tile.backCell (t : Tile) (c : TCell) : TCell :=
  match heldValue t.rfmt c.held with
  | .nan _ => { TCell.zero with n := true }
  | .inf neg => if neg then { TCell.zero with m := true } else { TCell.zero with p := true }
  | .fin neg m e =>
    if m = 0 then TCell.zero
    else
      match t.term neg m e with
      | some k => { TCell.zero with x := k }
      | none => if neg then { TCell.zero with m := true } else { TCell.zero with p := true }

/-- A tile with every cell converted back, where it is resolved (R107). -/
def Tile.back (t : Tile) : Tile :=
  if t.state = .resolved then
    { t with state := .redundant, rfmt := 0,
             cells := (t.cells.map fun p => (p.1, t.backCell p.2)).filter fun p => p.2 != TCell.zero }
  else t

/-- What resolving a cell delivers (R106). -/
def Tile.resolveCell (t : Tile) (f : Nat) (rm : RMode) (c : TCell) : Nat × BitVec 5 :=
  let neg := decide (c.x < 0)
  let lim : Int := (2 ^ (t.cls.window - 1) : Nat)
  let bound := wrap 32 (if neg then typeMin false 32 else typeMax false 32)
  if c.n || (c.p && c.m) then
    match fmtFloat f with
    | some ft => (ft.nanCode, if c.p && c.m then flagNV else 0)
    | none => (0, flagNV)
  else if c.p || c.m then deliver f rm (.inf c.m)
  else if c.x < -lim ∨ lim ≤ c.x then
    match fmtFloat f with
    | some ft => (overflowCode ft rm neg, flagOF ||| flagNX)
    | none => (bound, flagOF ||| flagNX)
  else if c.x = 0 then (0, 0)
  else deliver f rm (.fin neg c.x.natAbs t.unitExp)

/-- read(): what a read of a cell delivers (R108, R202). -/
def Tile.read (t : Tile) (f : Nat) (rm : RMode) (c : TCell) : Nat × BitVec 5 :=
  match t.state with
  | .empty => (0, 0)
  | .redundant => t.resolveCell f rm c
  | .resolved => deliver f rm (heldValue t.rfmt c.held)

/-- The cell with a number. -/
def Tile.cell (t : Tile) (n : Nat) : TCell := (lookup n t.cells).getD TCell.zero

/-- A tile resolved into a format, with the flags (R106, R201). -/
def Tile.resolve (t : Tile) (f : Nat) (rm : RMode) : Tile × BitVec 5 :=
  if t.state = .empty then (t, 0)
  else
    let rs := t.cells.map fun p => (p.1, t.read f rm p.2)
    ({ t with state := .resolved, rfmt := f,
              cells := (rs.map fun p => (p.1, { TCell.zero with held := p.2.1 })).filter fun p => p.2 != TCell.zero },
      orAll (rs.map fun p => p.2.2))

/-! ## Raw images (R204, R205) -/

/-- The code of a class, state and mode in the header. -/
def TClass.code : TClass → Nat
  | .none => 0
  | .narrow => 1
  | .half => 2
  | .f32 => 3
  | .f64 => 4

def TState.code : TState → Nat
  | .empty => 0
  | .redundant => 1
  | .resolved => 2

def TMode.code : TMode → Nat
  | .none => 0
  | .float => 1
  | .integer => 2

/-- The 64-byte header of a raw image. -/
def Tile.header (t : Tile) : List Byte :=
  let b1 := (if t.anchor.isSome then 128 else 0) + t.cls.code * 16 + t.state.code * 4 + t.mode.code
  leBytes 1 1 ++ leBytes 1 b1 ++ leBytes 2 (wrap 16 (t.anchor.getD 0)) ++ leBytes 1 (if t.state = .resolved then t.rfmt else 0) ++
    List.replicate 59 0

/-- The amount that carry bits stand for: Σ ck × 2^(8k + 8) (R102). -/
def carrySum (c : Nat) : Nat := (List.range 8).foldl (fun a k => a + c / 2 ^ k % 2 * 2 ^ (8 * k + 8)) 0

/-- The words of a cell in a redundant image, each with its carry bits and its side byte: the split of X that the free carries give
(R102, R204; log 11). -/
def Tile.rawWords (t : Tile) (seed n : Nat) (c : TCell) : List (Nat × Nat × Nat) :=
  let fl := (if c.m then 64 else 0) + (if c.p then 32 else 0) + (if c.n then 16 else 0)
  if t.cls = .f64 then
    let cs := (List.range 4).map fun k => (Config.rawCarries (seed + 4 * n + k)).toNat
    let total := (cs.zip (List.range 4)).foldl (fun a p => a + carrySum p.1 * 2 ^ (64 * p.2)) 0
    let v := wrap 272 (c.x - total)
    (cs.zip (List.range 4)).map fun p =>
      (v / 2 ^ (64 * p.2) % 2 ^ 64, p.1, v / 2 ^ (256 + 4 * p.2) % 16 + (if p.2 = 0 then fl else 0))
  else
    let cs := (Config.rawCarries (seed + n)).toNat
    let v := wrap 68 (c.x - carrySum cs)
    [(v % 2 ^ 64, cs, v / 2 ^ 64 + fl)]

/-- The words of a cell in a resolved image (R204). DESIGN CHOICE (log 60): its side byte is stored as 0 and not read. -/
def Tile.heldWords (t : Tile) (c : TCell) : List (Nat × Nat × Nat) :=
  if t.cls = .f64 then [(c.held, 0, 0), (0, 0, 0), (0, 0, 0), (0, 0, 0)] else [(c.held, 0, 0)]

/-- The cells of a list that start at number `n`, one for each of `count` numbers. -/
def spread : Nat → Nat → List (Nat × TCell) → List TCell
  | 0, _, _ => []
  | k + 1, n, [] => TCell.zero :: spread k (n + 1) []
  | k + 1, n, (i, c) :: r => if i = n then c :: spread k (n + 1) r else TCell.zero :: spread k (n + 1) ((i, c) :: r)

/-- The raw image of a tile of `mg` rows (R204). -/
def Tile.rawImage (t : Tile) (mg seed : Nat) : List Byte :=
  let words := if t.state = .empty then []
    else
      let cs := spread (mg * t.cls.cols) 0 t.cells
      ((List.range cs.length).zip cs).flatMap fun p => if t.state = .resolved then t.heldWords p.2 else t.rawWords seed p.1 p.2
  let pad := 24576 - words.length
  t.header ++ (words.flatMap fun w => leBytes 8 w.1 ++ leBytes 1 w.2.1) ++ List.replicate (9 * pad) 0 ++
    (words.flatMap fun w => leBytes 1 w.2.2) ++ List.replicate pad 0

/-- A list cut into pieces of `n`. -/
def pieces {α : Type} (n : Nat) : Nat → List α → List (List α)
  | 0, _ => []
  | f + 1, xs =>
    match xs with
    | [] => []
    | _ => xs.take n :: pieces n f (xs.drop n)

/-- The tile that the header of a raw image describes, without cells; none where R205 refuses it. -/
def parseHeader (h : List Byte) : Option Tile :=
  let b1 := field h 1 1
  let aset := b1 / 128 == 1
  let a := toSigned 16 (field h 2 2)
  let rfmt := field h 4 1
  let cls : Option TClass := match b1 / 16 % 8 with
    | 0 => some .none
    | 1 => some .narrow
    | 2 => some .half
    | 3 => some .f32
    | 4 => some .f64
    | _ => none
  let st : Option TState := match b1 / 4 % 4 with
    | 0 => some .empty
    | 1 => some .redundant
    | 2 => some .resolved
    | _ => none
  let mode : Option TMode := match b1 % 4 with
    | 0 => some .none
    | 1 => some .float
    | 2 => some .integer
    | _ => none
  match cls, st, mode with
  | some cls, some st, some mode =>
    if field h 0 1 = 1 ∧ (slice h 5 59).all (· == 0) ∧ -2048 ≤ a ∧ a ≤ 2047 ∧ (aset ∨ a = 0) ∧ (st ≠ .empty ∨ cls = .none) ∧
        (st = .empty ∨ (cls ≠ .none ∧ mode ≠ .none)) ∧ (mode ≠ .integer ∨ (cls = .narrow ∧ !aset)) ∧
        (if st = .resolved then 3 ≤ rfmt ∧ rfmt ≤ 7 else rfmt = 0) then
      some ⟨st, mode, cls, if aset then some a else none, rfmt, [], false⟩
    else none
  | _, _, _ => none

/-- The cell that the words of an image hold: for each word its value, carry bits and side byte (R204). DESIGN CHOICE (log 60): bits that
the image format has at 0 are ignored, as R205 refuses none of them. -/
def Tile.cellFrom (t : Tile) (ws : List (Nat × Nat × Nat)) : TCell :=
  let first := ws.headD (0, 0, 0)
  if t.state = .resolved then { TCell.zero with held := first.1 % 2 ^ fmtWidth t.rfmt }
  else
    let v := ((List.range ws.length).zip ws).foldl
      (fun a p => a + p.2.1 * 2 ^ (64 * p.1) + carrySum p.2.2.1 * 2 ^ (64 * p.1) + p.2.2.2 % 16 * 2 ^ (t.cls.window + 4 * p.1)) 0
    ⟨toSigned t.cls.bits v, first.2.2 / 16 % 2 == 1, first.2.2 / 32 % 2 == 1, first.2.2 / 64 % 2 == 1, 0⟩

/-- The tile that a raw image holds, of `mg` rows of its class (R205); none where R205 refuses it. -/
def tileFrom (rows : TClass → Nat) (img : List Byte) : Option Tile :=
  match parseHeader (img.take 64) with
  | none => none
  | some t =>
    if t.state = .empty then some t
    else
      let per := if t.cls = .f64 then 4 else 1
      let count := rows t.cls * t.cls.cols
      let body := img.drop 64
      let sums := (pieces 9 (per * count) body).map fun w => (leNat (w.take 8), leNat (w.drop 8))
      let side := ((body.drop (9 * 24576)).take (per * count)).map (·.toNat)
      let words := (sums.zip side).map fun p => (p.1.1, p.1.2, p.2)
      let cs := (pieces per count words).map t.cellFrom
      some { t with cells := ((List.range cs.length).zip cs).filter fun p => p.2 != TCell.zero }

end Sys2Proof.Machine
end

