-- ==== Sys2Proof/Machine/Tiles.lean ====
section
/-! DEFINITION. The mopa family and the tile operations (R192 to R210). -/

namespace Sys2Proof.Machine

/-! ## Checks (R200) -/

/-- The tval of TILE_STATE (R200). -/
def tileTval (code row : Nat) (t : BitVec 2) : Word := BitVec.ofNat 64 (code * 2 ^ 56 + row % 2 ^ 16 * 2 ^ 8 + t.toNat)

/-- A parity error of the tile, reported by any tile instruction but tzero and tld.raw (R389, kind TILE). DESIGN CHOICE (log 59): it
comes before the checks of R200. -/
def State.soundTile (s : State) (t : BitVec 2) (go : Unit → Commit) : Commit :=
  if (s.ctx.tile t).bad then
    let r := { s.recordOf s.cur 3 15 0 with detail := t.toNat, pc := s.ctx.headPc }
    match s.record s.ctx.asid r with
    | (s, a) => .trap 0x12 a s
  else go ()

/-- Code 1 of R200 against a mode and a class. -/
def Tile.conflicts (x : Tile) (mode : TMode) (cls : TClass) : Bool :=
  (x.mode != TMode.none && x.mode != mode) || (x.cls != TClass.none && x.cls != cls)

/-- TILE_STATE with a code and a row. -/
def State.tileTrap (s : State) (code row : Nat) (t : BitVec 2) : Commit := .trap 0x0D (tileTval code row t) s

/-! ## Accumulation -/

/-- The columns of a dense operand (R188): one register for the narrow and half classes, a pair for f32 and f64. -/
def Ctx.columns (c : Ctx) (f : Nat) (b : BitVec 6) : List FVal :=
  match fmtFloat f with
  | none => (List.range (fmtClass f).cols).map fun j => heldValue 7 (wrap 32 (toSigned 8 (elemIn c.lgn 8 (c.getV b) j)))
  | some t =>
    (List.range (fmtClass f).cols).map fun j =>
      let per := 2048 / t.width
      t.decode (if j < per then elemIn c.lgn t.width (c.getV b) j else elemIn c.lgn t.width (c.getV (vreg b 1)) (j - per))

/-- Row element `i` (R195). -/
def Ctx.rowValue (c : Ctx) (f : Nat) (a : BitVec 6) (i : Nat) : FVal :=
  match fmtFloat f with
  | none => heldValue 7 (wrap 32 (toSigned 8 (elemIn c.lgn 8 (c.getV a) i)))
  | some t => t.decode (elemIn c.lgn t.width (c.getV a) i)

/-- A finite zero. -/
def FVal.isZero : FVal → Bool
  | .fin _ m _ => m == 0
  | _ => false

/-- A finite value. -/
def FVal.isFin : FVal → Bool
  | .fin .. => true
  | _ => false

/-- The product of a row element and a column, with the column's scale where there is one (R97, R104). DESIGN CHOICE (log 90): the row
element is multiplied by the column first, so that 0 × ±inf of the two sets nv whatever the scale is, and a NaN among them hides one that the
scale would make. -/
def product (a b : FVal) (sc : Option FVal) : Option FVal :=
  match a.mul b, sc with
  | some p, some x => p.mul x
  | p, _ => p

/-- The products of one row with a list of numbered columns, each with the operands' nv (R104); a product that is a finite zero has no
effect and is left out. -/
def rowProducts (a : FVal) (cols : List (Nat × FVal × Option FVal)) : List (Nat × Option FVal) :=
  let some_ := if a.isZero then cols.filter fun c => !c.2.1.isFin || (c.2.2.map fun x => !x.isFin).getD false else cols
  (some_.map fun c => (c.1, product a c.2.1 c.2.2)).filter fun p => (p.2.map fun v => !v.isZero).getD true

/-- A tile that receives products, by cell number ascending (R195, R199): converted back, its mode, class and anchor fixed, the terms
added. The flag says whether nv is set. -/
def Tile.accumulate (x : Tile) (mode : TMode) (cls : TClass) (ps : List (Nat × List (Option FVal))) : Tile × Bool :=
  let x := x.back
  let x := { x with mode := if x.mode = TMode.none then mode else x.mode, cls := if x.cls = TClass.none then cls else x.cls, state := .redundant }
  let x := x.anchored (ps.flatMap (·.2))
  (x.change (fun c vs => vs.foldl x.addTo c) ps, ps.any fun p => p.2.any productNv)

/-- The tile after an accumulation, with nv (R104). -/
def State.putAccumulated (s : State) (t : BitVec 2) (r : Tile × Bool) : Commit :=
  let s := s.onCtx fun c => c.putTile t r.1
  .done (if r.2 then s.orFlags flagNV else s)

/-- A dense mopa with its columns (R195). -/
def State.dense (s : State) (t : BitVec 2) (f : Nat) (cls : TClass) (a : BitVec 6) (m : BitVec 1) (cols : List (FVal × Option FVal)) :
    Commit :=
  let mg := s.ctx.tileRows cls
  let cols := (List.range cols.length).zip cols
  let ps := (List.range mg).flatMap fun i =>
    if m = 0 || elemIn s.ctx.lgn 1 (s.ctx.getV 0) i == 1 then
      (rowProducts (s.ctx.rowValue f a i) cols).map fun p => (i * cls.cols + p.1, [p.2])
    else []
  s.putAccumulated t ((s.ctx.tile t).accumulate (fmtMode f) cls ps)

/-- The commit of mopa. -/
def commitMopa (t : BitVec 2) (a : BitVec 6) (b : BitVec 6) (m : BitVec 1) (f : BitVec 4) (s : State) : Commit :=
  s.soundTile t fun _ =>
    let k := f.toNat
    if (s.ctx.tile t).conflicts (fmtMode k) (fmtClass k) then s.tileTrap 1 0 t
    else s.dense t k (fmtClass k) a m ((s.ctx.columns k b).map fun v => (v, none))

/-- mopa: the outer product of va and vb added exactly into the tile (R195). -/
def execMopa (t : BitVec 2) (a : BitVec 6) (b : BitVec 6) (m : BitVec 1) (f : BitVec 4) (s : State) : Res :=
  s.issue (.mopa t a b m f) 0 0 (commitMopa t a b m f)

/-- The commit of mopaS. -/
def commitMopaS (t : BitVec 2) (a : BitVec 6) (b : BitVec 6) (m : BitVec 1) (f : BitVec 4) (s : State) : Commit :=
  s.soundTile t fun _ =>
    let k := f.toNat
    match s.ctx.scaleBlock with
    | none => s.badField (.mopaS t a b m f)
    | some block =>
      if (s.ctx.tile t).conflicts (fmtMode k) (fmtClass k) then s.tileTrap 1 0 t
      else
        let cols := s.ctx.columns k b
        s.dense t k (fmtClass k) a m (((List.range cols.length).zip cols).map fun p => (p.2, some (s.ctx.scaleAt block p.1)))

/-- mopa.s: as mopa, each column times its bf16 scale of v1 (R196). -/
def execMopaS (t : BitVec 2) (a : BitVec 6) (b : BitVec 6) (m : BitVec 1) (f : BitVec 4) (s : State) : Res :=
  s.issue (.mopaS t a b m f) 0 0 (commitMopaS t a b m f)

/-! ## The weight buffer (R197, R198) -/

/-- The bytes of a weight row under wfmt; none for a reserved FORM. -/
def Ctx.rowBytes (c : Ctx) : Option Nat :=
  match c.wfmt.toNat / 4 with
  | 0 => some 48
  | 1 => some 192
  | _ => none

/-- A weight row decompressed to 96 bf16 values (R94, R197). -/
def Ctx.weightRow (c : Ctx) (bs : List Byte) : List FVal :=
  if c.wfmt.toNat / 4 = 0 then
    (bs.take 48).flatMap fun b => [c.cbEntry (BitVec.ofNat 2 c.wfmt.toNat) (b.toNat % 16), c.cbEntry (BitVec.ofNat 2 c.wfmt.toNat) (b.toNat / 16)]
  else (pieces 2 96 bs).map fun p => FType.bf16.decode (leNat p)

/-- The checks of a weight row's offset (R197): the cause, or none. -/
def rowCause (o n : Nat) : Option Nat := if o % 16 ≠ 0 then some 0x04 else if Config.wbufBytes < o + n then some 0x08 else none

/-- A weight row read (R208). -/
def State.readRow (s : State) (o n : Nat) : FoundBytes :=
  let p : Place := ⟨⟨wbufKey (coreOf s.cur) o, false, false, false⟩, sliceOf o, BitVec.ofNat 64 o⟩
  s.readSpan [(p, n)]

/-- The commit of mopaW. -/
def commitMopaW (t : BitVec 2) (a : BitVec 6) (w : BitVec 5) (m : BitVec 1) (f : BitVec 4) (op1 : Word) (s : State) : Commit :=
  s.soundTile t fun _ =>
    match s.ctx.rowBytes with
    | none => s.badField (.mopaW t a w m f)
    | some n =>
      if (s.ctx.tile t).conflicts .float .half then s.tileTrap 1 0 t
      else
        match rowCause op1.toNat n with
        | some c => .trap c op1 s
        | none =>
          match s.readRow op1.toNat n with
          | .held => .held s []
          | .bad va => s.refuseCommit (.ecc 3 va)
          | .bytes bs s => s.dense t f.toNat .half a m ((s.ctx.weightRow bs).map fun v => (v, none))

/-- mopa.w: the columns are a row of the weight buffer, decompressed (R197). -/
def execMopaW (t : BitVec 2) (a : BitVec 6) (w : BitVec 5) (m : BitVec 1) (f : BitVec 4) (s : State) : Res :=
  s.issue (.mopaW t a w m f) (s.getX w) 0 (commitMopaW t a w m f (s.getX w))

/-- The weight rows at a list of offsets, in order: the first that R199 refuses, or their values. -/
def State.readRows (s : State) (n : Nat) : List Nat → Except Commit (List (List FVal)) × State
  | [] => (.ok [], s)
  | o :: r =>
    match s.readRow o n with
    | .held => (.error (.held s []), s)
    | .bad va => (.error (s.refuseCommit (.ecc 3 va)), s)
    | .bytes bs s =>
      match State.readRows s n r with
      | (.ok rows, s) => (.ok (s.ctx.weightRow bs :: rows), s)
      | (.error c, s) => (.error c, s)

/-- The commit of mopaGr. -/
def commitMopaGr (t : BitVec 2) (a : BitVec 6) (x : BitVec 5) (f : BitVec 4) (op1 : Word) (s : State) : Commit :=
  s.soundTile t fun _ =>
    let k := f.toNat
    let row := op1.toNat / 2 ^ 32 % 128
    match s.ctx.rowBytes with
    | none => s.badField (.mopaGr t a x f)
    | some n =>
      if s.ctx.sew ≠ fmtWidth k ∨ op1.toNat / 2 ^ 39 ≠ 0 ∨ op1.toNat / 2 ^ 20 % 2 ^ 12 ≠ 0 then s.badField (.mopaGr t a x f)
      else if (s.ctx.tile t).conflicts .float .half then s.tileTrap 1 0 t
      else if s.ctx.tileRows .half ≤ row then s.tileTrap 2 row t
      else
        let offs := (List.range s.ctx.vl).map fun i => op1.toNat % 2 ^ 20 + s.ctx.elem (vreg a 32) i * n
        match offs.find? fun o => (rowCause o n).isSome with
        | some o => .trap ((rowCause o n).getD 0x08) (BitVec.ofNat 64 o) s
        | none =>
          match s.readRows n offs with
          | (.error c, _) => c
          | (.ok rows, s) =>
            let vals := ((List.range s.ctx.vl).map fun i => s.ctx.rowValue k a i).zip rows
            let ps := (List.range 96).map fun j =>
              (row * 96 + j, (vals.map fun v => product v.1 (v.2.getD j (.fin false 0 0)) none).filter fun p => (p.map fun v => !v.isZero).getD true)
            s.putAccumulated t ((s.ctx.tile t).accumulate .float .half (ps.filter fun p => !p.2.isEmpty))

/-- mopa.gr: the weight rows that a compressed activation vector names, added into one tile row (R199). -/
def execMopaGr (t : BitVec 2) (a : BitVec 6) (x : BitVec 5) (f : BitVec 4) (s : State) : Res :=
  s.issue (.mopaGr t a x f) (s.getX x) 0 (commitMopaGr t a x f (s.getX x))

/-! ## Operations without memory (R201 to R203) -/

/-- The commit of tzero. -/
def commitTzero (t : BitVec 2) (s : State) : Commit :=
  s.commitCtx fun c => c.putTile t Tile.empty

/-- tzero: the tile is empty, without mode, class and anchor (R201). -/
def execTzero (t : BitVec 2) (s : State) : Res :=
  s.issue (.tzero t) 0 0 (commitTzero t)

/-- The commit of tanchor. -/
def commitTanchor (t : BitVec 2) (a : BitVec 5) (op1 : Word) (s : State) : Commit :=
  s.soundTile t fun _ =>
    let v := op1.toInt
    let x := s.ctx.tile t
    if v < -2048 ∨ 2047 < v then s.badField (.tanchor t a)
    else if x.state ≠ .empty ∨ x.anchor ≠ none ∨ x.mode = .integer then s.tileTrap 3 0 t
    else s.commitCtx fun c => c.putTile t { x with anchor := some v, mode := .float }

/-- tanchor: the anchor of an empty tile, and float mode (R201). -/
def execTanchor (t : BitVec 2) (a : BitVec 5) (s : State) : Res :=
  s.issue (.tanchor t a) (s.getX a) 0 (commitTanchor t a (s.getX a))

/-- The commit of tres. -/
def commitTres (t : BitVec 2) (f : BitVec 4) (s : State) : Commit :=
  s.soundTile t fun _ =>
    if frmReserved s.ctx.frm then s.badField (.tres t f)
    else
      let r := (s.ctx.tile t).resolve f.toNat (rmOf s.ctx.frm)
      .done ((s.onCtx fun c => c.putTile t r.1).orFlags r.2)

/-- tres: every cell rounded once into a format (R106, R201). -/
def execTres (t : BitVec 2) (f : BitVec 4) (s : State) : Res :=
  s.issue (.tres t f) 0 0 (commitTres t f)

/-- The commit of tmovr. -/
def commitTmovr (t : BitVec 2) (d : BitVec 6) (c : BitVec 5) (f : BitVec 4) (op1 : Word) (s : State) : Commit :=
  s.soundTile t fun _ =>
    let k := f.toNat
    let row := op1.toNat % 2 ^ 16
    let c0 := op1.toNat / 2 ^ 16 % 2 ^ 16
    let x := s.ctx.tile t
    if op1.toNat / 2 ^ 32 ≠ 0 ∨ s.ctx.sew ≠ fmtWidth k ∨ frmReserved s.ctx.frm then s.badField (.tmovr t d c f)
    else if s.ctx.tileRows x.cls ≤ row then s.tileTrap 2 row t
    else
      let n := x.cls.cols
      s.mapF d 0 fun j => if c0 + j < n then x.read k (rmOf s.ctx.frm) (x.cell (row * n + c0 + j)) else (0, 0)

/-- tmovr: part of a tile row as resolved values (R108, R202). -/
def execTmovr (t : BitVec 2) (d : BitVec 6) (c : BitVec 5) (f : BitVec 4) (s : State) : Res :=
  s.issue (.tmovr t d c f) (s.getX c) 0 (commitTmovr t d c f (s.getX c))

/-- The commit of tmovw (R203). DESIGN CHOICE (log 72): a signalling NaN written to the tile sets no flag. DESIGN CHOICE (log 92): s32 on
an empty tile that tanchor has put in float mode reports code 1, and of a resolved tile without an anchor the held values are converted
back before the written values set the anchor. -/
def commitTmovw (t : BitVec 2) (a : BitVec 6) (c : BitVec 5) (f : BitVec 4) (op1 : Word) (s : State) : Commit :=
  s.soundTile t fun _ =>
    let k := f.toNat
    let row := op1.toNat % 2 ^ 16
    let c0 := op1.toNat / 2 ^ 16 % 2 ^ 16
    let x := s.ctx.tile t
    if op1.toNat / 2 ^ 32 ≠ 0 ∨ s.ctx.sew ≠ fmtWidth k then s.badField (.tmovw t a c f)
    else if (x.mode = .float ∧ k = 7) ∨ (x.mode = .integer ∧ k ≠ 7) then s.tileTrap 1 0 t
    else if s.ctx.tileRows x.cls ≤ row then s.tileTrap 2 row t
    else if x.state = .empty then s.tileTrap 4 0 t
    else
      let n := x.cls.cols
      let vs : List (Nat × List (Option FVal)) := ((List.range s.ctx.vl).filter fun j => decide (c0 + j < n)).map fun j =>
        (row * n + c0 + j, [some (heldValue k (s.ctx.elem a j))])
      let x := ({ x.back with state := .redundant } : Tile).anchored (vs.flatMap (·.2))
      s.commitCtx fun c => c.putTile t (x.change (fun _ ps => ps.foldl x.addTo TCell.zero) vs)

/-- tmovw: values written into a tile row (R203). -/
def execTmovw (t : BitVec 2) (a : BitVec 6) (c : BitVec 5) (f : BitVec 4) (s : State) : Res :=
  s.issue (.tmovw t a c f) (s.getX c) 0 (commitTmovw t a c f (s.getX c))

/-! ## Images and codebooks (R204 to R208) -/

/-- The bytes of a raw image. -/
def rawBytes : Nat := 245824

/-- The bytes of a canonical value (R206): fmt of the value type. -/
def valueFmt (f : Nat) : Nat := if f = 2 then 7 else if f = 6 then 6 else 5

/-- An address in each 64 KiB page of a range. -/
def pagesOf (va : Word) (n : Nat) : List Word :=
  ((List.range (n / 65536 + 2)).map fun k => if k = 0 then va else BitVec.ofNat 64 ((va.toNat / 65536 + k) * 65536)).filter fun p =>
    decide (p.toNat < va.toNat + n)

/-- The places of an aligned range that a tile image or codebook moves (R200, R208, R211). -/
def State.image (s : State) (i : Instr) (k : AccKind) (align : Nat) (va : Word) (n : Nat)
    (go : List (Place × Nat) → State → Commit) : Commit :=
  let sp := s.ctx.vmt.toNat
  if 3 < sp then s.badField i
  else if va.toNat % align ≠ 0 then .trap 0x04 va (s.withNpg 0)
  else if sp = 2 then .trap 0x08 va (s.withNpg 0)
  else
    match s.translating false (sp != 0 || (pagesOf va n).all (s.walkFree k)) with
    | none => .wait
    | some s =>
      match s.spanOnce sp k 8 va n with
      | (.error (r, n), s) => (s.withNpg n).refuseCommit r
      | (.ok ps, s) => go ps s

/-- The bytes of such a range, loaded. -/
def State.loadImage (s : State) (i : Instr) (align : Nat) (va : Word) (n : Nat) (go : List Byte → State → Commit) : Commit :=
  s.image i .load align va n fun ps s =>
    match s.readSpan ps with
    | .held => .held s (ps.map fun p => (.ok p.1, p.2))
    | .bad va => (s.withNpg 0).refuseCommit (.ecc s.ctx.vmt.toNat va)
    | .bytes bs s => go bs s

/-- The commit of tldRaw. -/
def commitTldRaw (t : BitVec 2) (a : BitVec 5) (op1 : Word) (s : State) : Commit :=
  s.loadImage (.tldRaw t a) 64 op1 rawBytes fun img s =>
    match tileFrom s.ctx.tileRows img with
    | none => s.badField (.tldRaw t a)
    | some x => s.commitCtx fun c => c.putTile t x

/-- tld.raw: a whole raw image replaces the tile (R205). -/
def execTldRaw (t : BitVec 2) (a : BitVec 5) (s : State) : Res :=
  s.issue (.tldRaw t a) (s.getX a) 0 (commitTldRaw t a (s.getX a))

/-- The commit of tstRaw. -/
def commitTstRaw (t : BitVec 2) (a : BitVec 5) (op1 : Word) (s : State) : Commit :=
  s.soundTile t fun _ =>
    s.image (.tstRaw t a) .store 64 op1 rawBytes fun ps s =>
      let x := s.ctx.tile t
      .done ((s.writeSpan s.ctx.vmt.toNat ps (x.rawImage (s.ctx.tileRows x.cls) (s.steps * 2 ^ 20))).settle)

/-- tst.raw: the raw image of the tile stored (R204, R205). -/
def execTstRaw (t : BitVec 2) (a : BitVec 5) (s : State) : Res :=
  s.issue (.tstRaw t a) (s.getX a) 0 (commitTstRaw t a (s.getX a))

/-- The commit of tldCan (R206). DESIGN CHOICE (log 72): a signalling NaN of the image sets no flag. -/
def commitTldCan (t : BitVec 2) (a : BitVec 5) (f : BitVec 4) (op1 : Word) (s : State) : Commit :=
  s.soundTile t fun _ =>
    let k := f.toNat
    let cls := fmtClass k
    let v := valueFmt k
    let w := fmtWidth v / 8
    let count := s.ctx.tileRows cls * cls.cols
    let x := s.ctx.tile t
    if 3 < s.ctx.vmt.toNat then s.badField (.tldCan t a f)
    else if x.conflicts (fmtMode k) cls then s.tileTrap 1 0 t
    else
      s.loadImage (.tldCan t a f) 64 op1 (count * w) fun img s =>
        let codes := (pieces w count img).map fun b =>
          match fmtFloat v with
          | some ft => if (ft.decode (leNat b)).isNan then ft.nanCode else leNat b
          | none => leNat b
        let cells := (((List.range codes.length).zip codes).map fun p => ((p.1, { TCell.zero with held := p.2 }) : Nat × TCell)).filter fun p => p.2 != TCell.zero
        let x : Tile := ⟨.resolved, fmtMode k, cls, x.anchor, v, cells, false⟩
        s.commitCtx fun c => c.putTile t (x.anchored (codes.map fun code => some (heldValue v code)))

/-- tld.can: a canonical image makes the tile resolved (R206). -/
def execTldCan (t : BitVec 2) (a : BitVec 5) (f : BitVec 4) (s : State) : Res :=
  s.issue (.tldCan t a f) (s.getX a) 0 (commitTldCan t a f (s.getX a))

/-- The commit of tstCan. -/
def commitTstCan (t : BitVec 2) (a : BitVec 5) (f : BitVec 4) (op1 : Word) (s : State) : Commit :=
  s.soundTile t fun _ =>
    let k := f.toNat
    let cls := fmtClass k
    let v := valueFmt k
    let w := fmtWidth v / 8
    let count := s.ctx.tileRows cls * cls.cols
    let x := s.ctx.tile t
    if frmReserved s.ctx.frm ∨ 3 < s.ctx.vmt.toNat then s.badField (.tstCan t a f)
    else if x.conflicts (fmtMode k) cls then s.tileTrap 1 0 t
    else
      s.image (.tstCan t a f) .store 64 op1 (count * w) fun ps s =>
        let rs := (spread count 0 x.cells).map fun c => x.read v (rmOf s.ctx.frm) c
        .done (((s.writeSpan s.ctx.vmt.toNat ps (rs.flatMap fun r => leBytes w r.1)).settle).orFlags (orAll (rs.map (·.2))))

/-- tst.can: one resolved value for each cell, stored (R206). -/
def execTstCan (t : BitVec 2) (a : BitVec 5) (f : BitVec 4) (s : State) : Res :=
  s.issue (.tstCan t a f) (s.getX a) 0 (commitTstCan t a f (s.getX a))

/-- The commit of cbld. -/
def commitCbld (t : BitVec 2) (a : BitVec 5) (op1 : Word) (s : State) : Commit :=
  s.loadImage (.cbld t a) 32 op1 32 fun bs s =>
    s.commitCtx fun c => { c with cb := c.cb.set t.toNat (BitVec.ofNat 256 (leNat bs)) }

/-- cbld: sixteen bf16 entries into a codebook (R207). -/
def execCbld (t : BitVec 2) (a : BitVec 5) (s : State) : Res :=
  s.issue (.cbld t a) (s.getX a) 0 (commitCbld t a (s.getX a))

end Sys2Proof.Machine
end

