-- ==== Sys2Proof/Machine/VMem.lean ====
section
/-! DEFINITION. Vector loads and stores (R236 to R243). -/

namespace Sys2Proof.Machine

/-- One access of a vector memory instruction: its element, field and address (R237). -/
structure Acc where
  i : Nat
  f : Nat
  va : Word
  deriving DecidableEq, Repr

/-- The accesses of the active elements, ascending i, then ascending f (R237). -/
def Ctx.accs (c : Ctx) (m : BitVec 1) (nf : Nat) (addr : Nat → Nat → Word) : List Acc :=
  (c.actives m).flatMap fun i => (List.range nf).map fun f => ⟨i, f, addr i f⟩

/-- The physical lane of element `i` in LANE (R214). -/
def Ctx.laneOf (c : Ctx) (ew i : Nat) : Nat := (c.lgb + i * ew / 256) * 8 + i * ew / 32 % 8

/-- Every access located, in order (check 2 of R238): the translation of each is tried, so that the failing pages can be counted. -/
def State.locate (s : State) (sp : Nat) (k : AccKind) (indexed : Bool) (w : Nat) : List Acc → List (Acc × Except Refused Place) × State
  | [] => ([], s)
  | a :: r =>
    match s.aligned sp k (if indexed then some (s.ctx.laneOf (8 * w) a.i) else none) w a.va with
    | (p, s) =>
      match State.locate s sp k indexed w r with
      | (ps, s) => ((a, p) :: ps, s)

/-- The accesses of the oldest queue entry, located; once it has entered the access path they keep their places (R354). -/
def State.locateOnce (s : State) (sp : Nat) (k : AccKind) (indexed : Bool) (w : Nat) (as : List Acc) :
    List (Acc × Except Refused Place) × State :=
  match s.ctx.headPlaces with
  | [] => s.locate sp k indexed w as
  | ps => (as.zip (ps.map (·.1)), s)

/-- The place of the progress word of a notify store (R243), located behind `n` accesses, which it keeps with them (R354). -/
def State.progressOnce (s : State) (n : Nat) (va : Word) : Except Refused Place × State :=
  match s.ctx.headPlaces[n]? with
  | some (r, _) => (r, s)
  | none => s.aligned 0 .rmw none 8 va

/-- An access that was refused. -/
def isRefused (p : Acc × Except Refused Place) : Bool :=
  match p.2 with
  | .ok _ => false
  | .error _ => true

/-- The distinct 64 KiB pages among the accesses that failed translation (R238). -/
def failedPages (ps : List (Acc × Except Refused Place)) : Nat :=
  ((ps.filterMap fun p => match p.2 with
    | .error (.cause c va) => if c = 0x05 ∨ c = 0x06 then some (va.toNat / 65536) else none
    | _ => none).foldl (fun (l : List Nat) v => if l.contains v then l else v :: l) []).length

/-- vfs with its TRIM bit, and its TIDX field where it trims (R240, R401). -/
def setTrim (vfs : Word) (k : Option Nat) : Word :=
  let keep := vfs.toNat / 2 ^ 26 * 2 ^ 26
  match k with
  | none => BitVec.ofNat 64 (keep + vfs.toNat % 2 ^ 25)
  | some k => BitVec.ofNat 64 (keep + 2 ^ 25 + k % 2 ^ 9 * 2 ^ 16 + vfs.toNat % 2 ^ 16)

/-- Check 1 of R238: the space, and the element width against SEW. -/
def State.vmOp (s : State) (i : Instr) (ew : BitVec 2) (go : Nat → Nat → Commit) : Commit :=
  if 3 < s.ctx.vmt.toNat ∨ 8 * 2 ^ ew.toNat ≠ s.ctx.sew then (s.withNpg 0).badField i else go s.ctx.vmt.toNat (2 ^ ew.toNat)

/-- The trap of the first refused access (R238). -/
def State.vmRefuse (s : State) (npg : Nat) (r : Refused) : Commit := (s.withNpg npg).refuseCommit r

/-- The accesses that were located. -/
def placesOf (ps : List (Acc × Except Refused Place)) : List (Acc × Place) :=
  ps.filterMap fun p => match p.2 with
    | .ok q => some (p.1, q)
    | .error _ => none

/-- The accesses of a vector load that the far side refuses, reported: one for each access, and the elements of a granule are one access
(R220, R367). -/
def State.noteReads (s : State) : List Place → State
  | [] => s
  | p :: r =>
    State.noteReads (if r.any fun q => q.loc.key / 64 == p.loc.key / 64 && !p.loc.hs then s else s.noteRefused s.cur p.loc.key ⟨0, p.va, s.ctx.headPc⟩) r

/-- The values of located accesses, read (R217, R220, R239): held, bad at an address, or the values. -/
def State.readAll (s : State) (w : Nat) (ps : List (Acc × Place)) : Except (Option Word) (List (Acc × Nat) × State) :=
  if ps.any fun p => s.onBoard p.2.loc.key w then .error none
  else
    match s.force (if ps.all fun p => p.2.cls == 8 then 3 else 2) fun q => ps.any fun p => p.2.after q with
    | none => .error none
    | some s =>
      match ps.find? fun p => s.isBad p.2.loc.key w with
      | some p => .error (some p.2.va)
      | none => .ok (ps.map fun p => (p.1, leNat (s.ownBytes p.2.loc.key w)), s.noteReads (ps.map (·.2)))

/-- Loaded values written to the field registers (R239, R240): `zeros` are elements that a trim sets to 0. -/
def Ctx.writeFields (c : Ctx) (d : BitVec 6) (nf w : Nat) (vs : List (Acc × Nat)) (zeros : List Nat) : Ctx :=
  (List.range nf).foldl (fun c f =>
    c.writeV (vreg d f) (8 * w) (((vs.filter fun v => v.1.f == f).map fun v => (v.1.i, v.2)) ++ zeros.map fun i => (i, 0))) c

/-- A vector load (R238 to R240). -/
def State.vload (s : State) (i : Instr) (d : BitVec 6) (m : BitVec 1) (nf : Nat) (ew : BitVec 2) (fof indexed : Bool)
    (addr : Nat → Nat → Nat → Word) : Commit :=
  s.vmOp i ew fun sp w =>
    let as := s.ctx.accs m nf (addr w)
    match s.translating (sp == 2) (sp != 0 || as.all fun a => s.walkFree .load a.va) with
    | none => .wait
    | some s =>
    match s.locateOnce sp .load indexed w as with
    | (located, s) =>
      let finish := fun (ps : List (Acc × Except Refused Place)) (trim : Option Nat) =>
        match s.readAll w (placesOf ps) with
        | .error none => .held s (located.map fun p => (p.2, w))
        | .error (some va) => s.vmRefuse 0 (.ecc sp va)
        | .ok (vs, s) =>
          s.commitCtx fun c =>
            match trim with
            | none =>
              let c := c.writeFields d nf w vs []
              if fof then { c with vfs := setTrim c.vfs none } else c
            | some k =>
              let c' := c.writeFields d nf w vs ((List.range (c.vl - k)).map (k + ·))
              { c' with vl := k, vfs := setTrim c.vfs (some k) }
      match located.find? isRefused with
      | none => finish located none
      | some (a, .error (.cause cs va)) =>
        if fof ∧ a.i ≠ 0 then finish (located.filter fun p => decide (p.1.i < a.i)) (some a.i)
        else s.vmRefuse (failedPages located) (.cause cs va)
      | some (_, .error r) => s.vmRefuse (failedPages located) r
      | some (_, .ok _) => .wait

/-- The accesses of a store that write: those whose bytes no later one writes too (R219). -/
def lastWins : List (Acc × Place) → List (Acc × Place)
  | [] => []
  | p :: r => if r.any fun q => q.2.loc.key == p.2.loc.key then lastWins r else p :: lastWins r

/-- The bytes of an element that a store writes. -/
def Ctx.elemBytes (c : Ctx) (w : Nat) (d : BitVec 6) (a : Acc) : List Byte := leBytes w (elemIn c.lgn (8 * w) (c.getV (vreg d a.f)) a.i)

/-- The elements of a store enter the access path in order, as stores of one instruction (R217, R241, R389); those of a LANE store are
performed at once. -/
def State.writeElems (s : State) (sp w : Nat) (d : BitVec 6) (ps : List (Acc × Place)) : State :=
  let c := s.ctx
  if sp = 2 then s.performAll (ps.map fun p => p.2.pend c.asid (s.jobOf c.asid) sp c.headPc c.path (c.elemBytes w d p.1))
  else ps.foldl (fun s p => s.writeAs c.path sp p.2 c.headPc (c.elemBytes w d p.1)) s

/-- A vector store (R238, R241); `note` for the notify forms, whose progress word takes the number of active elements with release
(R242, R243). -/
def State.vstore (s : State) (i : Instr) (d : BitVec 6) (m : BitVec 1) (nf : Nat) (ew : BitVec 2) (note indexed : Bool)
    (addr : Nat → Nat → Nat → Word) : Commit :=
  s.vmOp i ew fun sp w =>
    let prog := s.ctx.vnotify.toNat % 2 ^ 55 / 8 * 8
    if note ∧ (prog = 0 ∨ 4 < s.ctx.vnotify.toNat % 8) then (s.withNpg 0).badField i
    else
      let as := s.ctx.accs m nf (addr w)
      match s.translating (sp == 2 && !note)
        ((sp != 0 || as.all fun a => s.walkFree .store a.va) && (!note || s.walkFree .rmw (BitVec.ofNat 64 prog))) with
      | none => .wait
      | some s =>
      match s.locateOnce sp .store indexed w as with
      | (ps, s) =>
        match ps.find? isRefused with
        | some (_, .error r) => s.vmRefuse (failedPages ps) r
        | some (_, .ok _) => .wait
        | none =>
          let go := lastWins (placesOf ps)
          if !note then .done (s.writeElems sp w d go).settle
          else
            match s.progressOnce as.length (BitVec.ofNat 64 prog) with
            | (.error r, s) => s.vmRefuse 0 r
            | (.ok p, s) =>
              let held : Commit := .held s (ps.map (fun q => (q.2, w)) ++ [(.ok p, 8)])
              if (go.any fun q => s.onBoard q.2.loc.key w) || s.onBoard p.loc.key 8 then held
              else
                match (s.writeElems sp w d go).release with
                | none => held
                | some s' => .done (s'.rmw p s.ctx.headPc 8 fun old => (old + (s.ctx.actives m).length) % 2 ^ 64).2

/-- An address from captured bases: base + n modulo 2^64 (R237). -/
def offs (base : Word) (n : Nat) : Word := base + BitVec.ofNat 64 n

/-- The commit of vld. -/
def commitVld (d : BitVec 6) (a : BitVec 5) (m : BitVec 1) (w : BitVec 2) (op1 : Word) (s : State) : Commit :=
  s.vload (.vld d a m w) d m 1 w false false (fun w i _ => offs op1 (i * w))

/-- vld: consecutive elements from x[xa] (R237, R239). -/
def execVld (d : BitVec 6) (a : BitVec 5) (m : BitVec 1) (w : BitVec 2) (s : State) : Res :=
  s.issue (.vld d a m w) (s.getX a) 0 (commitVld d a m w (s.getX a))

/-- The commit of vldStrided. -/
def commitVldStrided (d : BitVec 6) (a : BitVec 5) (b : BitVec 5) (m : BitVec 1) (w : BitVec 2) (op1 : Word) (op2 : Word) (s : State) : Commit :=
  s.vload (.vldStrided d a b m w) d m 1 w false false (fun _ i _ => op1 + BitVec.ofNat 64 (i * op2.toNat))

/-- vld with a stride: elements x[xb] bytes apart (R237, R239). -/
def execVldStrided (d : BitVec 6) (a : BitVec 5) (b : BitVec 5) (m : BitVec 1) (w : BitVec 2) (s : State) : Res :=
  s.issue (.vldStrided d a b m w) (s.getX a) (s.getX b) (commitVldStrided d a b m w (s.getX a) (s.getX b))

/-- The commit of vldIndexed. -/
def commitVldIndexed (d : BitVec 6) (a : BitVec 5) (v : BitVec 6) (m : BitVec 1) (w : BitVec 2) (op1 : Word) (s : State) : Commit :=
  s.vload (.vldIndexed d a v m w) d m 1 w false true (fun _ i _ => offs op1 (s.ctx.elem v i))

/-- vld with an index vector (R237, R239). -/
def execVldIndexed (d : BitVec 6) (a : BitVec 5) (v : BitVec 6) (m : BitVec 1) (w : BitVec 2) (s : State) : Res :=
  s.issue (.vldIndexed d a v m w) (s.getX a) 0 (commitVldIndexed d a v m w (s.getX a))

/-- The commit of vldSeg. -/
def commitVldSeg (d : BitVec 6) (a : BitVec 5) (m : BitVec 1) (n : BitVec 3) (w : BitVec 2) (op1 : Word) (s : State) : Commit :=
  s.vload (.vldSeg d a m n w) d m (n.toNat + 1) w false false (fun w i f => offs op1 ((i * (n.toNat + 1) + f) * w))

/-- vld.seg: records of consecutive fields into consecutive registers (R237, R239). -/
def execVldSeg (d : BitVec 6) (a : BitVec 5) (m : BitVec 1) (n : BitVec 3) (w : BitVec 2) (s : State) : Res :=
  s.issue (.vldSeg d a m n w) (s.getX a) 0 (commitVldSeg d a m n w (s.getX a))

/-- The commit of vldF. -/
def commitVldF (d : BitVec 6) (a : BitVec 5) (m : BitVec 1) (w : BitVec 2) (op1 : Word) (s : State) : Commit :=
  s.vload (.vldF d a m w) d m 1 w true false (fun w i _ => offs op1 (i * w))

/-- vld.f: a failure past element 0 shortens vl (R240). -/
def execVldF (d : BitVec 6) (a : BitVec 5) (m : BitVec 1) (w : BitVec 2) (s : State) : Res :=
  s.issue (.vldF d a m w) (s.getX a) 0 (commitVldF d a m w (s.getX a))

/-- The commit of vldFSeg. -/
def commitVldFSeg (d : BitVec 6) (a : BitVec 5) (m : BitVec 1) (n : BitVec 3) (w : BitVec 2) (op1 : Word) (s : State) : Commit :=
  s.vload (.vldFSeg d a m n w) d m (n.toNat + 1) w true false (fun w i f => offs op1 ((i * (n.toNat + 1) + f) * w))

/-- vld.f.seg: the segment load that shortens vl (R240). -/
def execVldFSeg (d : BitVec 6) (a : BitVec 5) (m : BitVec 1) (n : BitVec 3) (w : BitVec 2) (s : State) : Res :=
  s.issue (.vldFSeg d a m n w) (s.getX a) 0 (commitVldFSeg d a m n w (s.getX a))

/-- The commit of vldSegIndexed. -/
def commitVldSegIndexed (d : BitVec 6) (a : BitVec 5) (v : BitVec 6) (m : BitVec 1) (n : BitVec 3) (w : BitVec 2) (op1 : Word) (s : State) : Commit :=
  s.vload (.vldSegIndexed d a v m n w) d m (n.toNat + 1) w false true (fun w i f => offs op1 (s.ctx.elem v i + f * w))

/-- vld.seg with an index vector (R237, R239). -/
def execVldSegIndexed (d : BitVec 6) (a : BitVec 5) (v : BitVec 6) (m : BitVec 1) (n : BitVec 3) (w : BitVec 2) (s : State) : Res :=
  s.issue (.vldSegIndexed d a v m n w) (s.getX a) 0 (commitVldSegIndexed d a v m n w (s.getX a))

/-- The commit of vst. -/
def commitVst (x : BitVec 6) (a : BitVec 5) (m : BitVec 1) (w : BitVec 2) (op1 : Word) (s : State) : Commit :=
  s.vstore (.vst x a m w) x m 1 w false false (fun w i _ => offs op1 (i * w))

/-- vst: consecutive elements at x[xa] (R237, R241). -/
def execVst (x : BitVec 6) (a : BitVec 5) (m : BitVec 1) (w : BitVec 2) (s : State) : Res :=
  s.issue (.vst x a m w) (s.getX a) 0 (commitVst x a m w (s.getX a))

/-- The commit of vstStrided. -/
def commitVstStrided (x : BitVec 6) (a : BitVec 5) (b : BitVec 5) (m : BitVec 1) (w : BitVec 2) (op1 : Word) (op2 : Word) (s : State) : Commit :=
  s.vstore (.vstStrided x a b m w) x m 1 w false false (fun _ i _ => op1 + BitVec.ofNat 64 (i * op2.toNat))

/-- vst with a stride (R237, R241). -/
def execVstStrided (x : BitVec 6) (a : BitVec 5) (b : BitVec 5) (m : BitVec 1) (w : BitVec 2) (s : State) : Res :=
  s.issue (.vstStrided x a b m w) (s.getX a) (s.getX b) (commitVstStrided x a b m w (s.getX a) (s.getX b))

/-- The commit of vstIndexed. -/
def commitVstIndexed (x : BitVec 6) (a : BitVec 5) (v : BitVec 6) (m : BitVec 1) (w : BitVec 2) (op1 : Word) (s : State) : Commit :=
  s.vstore (.vstIndexed x a v m w) x m 1 w false true (fun _ i _ => offs op1 (s.ctx.elem v i))

/-- vst with an index vector; of colliding elements the highest is written (R219, R241). -/
def execVstIndexed (x : BitVec 6) (a : BitVec 5) (v : BitVec 6) (m : BitVec 1) (w : BitVec 2) (s : State) : Res :=
  s.issue (.vstIndexed x a v m w) (s.getX a) 0 (commitVstIndexed x a v m w (s.getX a))

/-- The commit of vstSeg. -/
def commitVstSeg (x : BitVec 6) (a : BitVec 5) (m : BitVec 1) (n : BitVec 3) (w : BitVec 2) (op1 : Word) (s : State) : Commit :=
  s.vstore (.vstSeg x a m n w) x m (n.toNat + 1) w false false (fun w i f => offs op1 ((i * (n.toNat + 1) + f) * w))

/-- vst.seg: records of consecutive fields (R237, R241). -/
def execVstSeg (x : BitVec 6) (a : BitVec 5) (m : BitVec 1) (n : BitVec 3) (w : BitVec 2) (s : State) : Res :=
  s.issue (.vstSeg x a m n w) (s.getX a) 0 (commitVstSeg x a m n w (s.getX a))

/-- The commit of vstN. -/
def commitVstN (x : BitVec 6) (a : BitVec 5) (m : BitVec 1) (w : BitVec 2) (op1 : Word) (s : State) : Commit :=
  s.vstore (.vstN x a m w) x m 1 w true false (fun w i _ => offs op1 (i * w))

/-- vst.n: the store, then the number of elements added to the progress word (R243). -/
def execVstN (x : BitVec 6) (a : BitVec 5) (m : BitVec 1) (w : BitVec 2) (s : State) : Res :=
  s.issue (.vstN x a m w) (s.getX a) 0 (commitVstN x a m w (s.getX a))

/-- The commit of vstNSeg. -/
def commitVstNSeg (x : BitVec 6) (a : BitVec 5) (m : BitVec 1) (n : BitVec 3) (w : BitVec 2) (op1 : Word) (s : State) : Commit :=
  s.vstore (.vstNSeg x a m n w) x m (n.toNat + 1) w true false (fun w i f => offs op1 ((i * (n.toNat + 1) + f) * w))

/-- vst.n.seg: the segment store, then the number of records added to the progress word (R243). -/
def execVstNSeg (x : BitVec 6) (a : BitVec 5) (m : BitVec 1) (n : BitVec 3) (w : BitVec 2) (s : State) : Res :=
  s.issue (.vstNSeg x a m n w) (s.getX a) 0 (commitVstNSeg x a m n w (s.getX a))

/-- The commit of vstNIndexed. -/
def commitVstNIndexed (x : BitVec 6) (a : BitVec 5) (v : BitVec 6) (m : BitVec 1) (w : BitVec 2) (op1 : Word) (s : State) : Commit :=
  s.vstore (.vstNIndexed x a v m w) x m 1 w true true (fun _ i _ => offs op1 (s.ctx.elem v i))

/-- vst.n with an index vector (R243). -/
def execVstNIndexed (x : BitVec 6) (a : BitVec 5) (v : BitVec 6) (m : BitVec 1) (w : BitVec 2) (s : State) : Res :=
  s.issue (.vstNIndexed x a v m w) (s.getX a) 0 (commitVstNIndexed x a v m w (s.getX a))

end Sys2Proof.Machine
end

