-- ==== Sys2Proof/Machine/Queue.lean ====
section
/-! DEFINITION. The QUE words (R250 to R253, R258, R262, R265, R266), the copy engine (R254 to R264), and the events of the access
path (R217, R221, R222). -/

namespace Sys2Proof.Machine

/-! ## Copy blocks and gather descriptors -/

/-- A copy command as its two blocks give it (R254, R255). -/
structure CopyCmd where
  ssp : Nat
  dsp : Nat
  esz : Nat
  tr : Bool
  swz : Bool
  so : Bool
  src : Nat
  dst : Nat
  pitch : Nat
  nest : NestBlock
  deriving DecidableEq, Repr

/-- A space code that a block may hold (R254, R261). -/
def engineSpace (n : Nat) : Bool := n == 0 || n == 1 || n == 3

/-- The address of the nest block that a copy block names (R254). -/
def blockNest (bs : List Byte) : Word := BitVec.ofNat 64 (field bs 24 8)

/-- The copy block's own fields are as R258 asks. -/
def copyBlockOk (bs : List Byte) : Bool :=
  let ctl := field bs 0 8
  let tr := ctl / 2 ^ 45 % 2
  let swz := ctl / 2 ^ 44 % 2
  ctl / 2 ^ 56 == 1 && engineSpace (ctl / 2 ^ 52 % 16) && engineSpace (ctl / 2 ^ 48 % 16) && ctl % 2 ^ 43 == 0 &&
    field bs 36 28 == 0 && !(tr == 1 && ctl / 2 ^ 46 % 4 == 0) && !(ctl / 2 ^ 43 % 2 == 1 && ctl / 2 ^ 48 % 16 != 0) &&
    !(swz == 1 && (field bs 16 8 % 32 != 0 || field bs 32 4 % 256 != 0))

/-- The command of a copy block and a valid nest block, and the conditions that join the two (R255, R258). -/
def joinBlocks (bs : List Byte) (n : NestBlock) : Option CopyCmd :=
  let ctl := field bs 0 8
  let tr := ctl / 2 ^ 45 % 2 == 1
  let swz := ctl / 2 ^ 44 % 2 == 1
  let esz := 2 ^ (ctl / 2 ^ 46 % 4)
  let pitch := if field bs 32 4 ≠ 0 then field bs 32 4 else n.bnd (if tr then 1 else 0) * esz
  if (tr ∧ n.ndim < 2) ∨ (swz ∧ pitch % 256 ≠ 0) then none
  else some ⟨ctl / 2 ^ 52 % 16, ctl / 2 ^ 48 % 16, esz, tr, swz, ctl / 2 ^ 43 % 2 == 1, field bs 8 8, field bs 16 8, pitch, n⟩

/-- The swizzle of R256. -/
def swizzle (pitch d : Nat) : Nat :=
  let o := d % pitch
  d / pitch * pitch + 32 * (o / 32 ^^^ (d / pitch % 8)) + o % 32

/-- One element that a command moves: its source, none where the slot is filled with zeros, its destination and its bytes. -/
structure Elem where
  src : Option Word
  dst : Word
  n : Nat
  deriving DecidableEq, Repr

/-- The destination offset of a tuple, before the swizzle (R255). -/
def CopyCmd.offset (c : CopyCmd) (j : List Nat) : Nat :=
  let row := if c.tr then 0 else 1
  let col := if c.tr then 1 else 0
  let first := j.getD col 0 * c.esz + j.getD row 0 * c.pitch
  ((List.range c.nest.ndim).drop 2).foldl (fun (p : Nat × Nat) k => (p.1 + j.getD k 0 * p.2, p.2 * c.nest.bnd k))
    (first, c.nest.bnd row * c.pitch) |>.1

/-- The elements of a copy, in enumeration order (R255). -/
def CopyCmd.elems (c : CopyCmd) : List Elem :=
  c.nest.tuples.map fun j =>
    let sa := (List.range c.nest.ndim).foldl (fun (a : Int) k => a + j.getD k 0 * c.nest.stride.getD k 0) (c.src : Int)
    let d := c.offset j
    ⟨some (BitVec.ofInt 64 sa), BitVec.ofNat 64 (c.dst + if c.swz then swizzle c.pitch d else d), c.esz⟩

/-- A gather descriptor is as R261 and R262 ask, at an element width. DESIGN CHOICE (log 62): a TBASE or DBASE that is no multiple of
32, which R261 limits and R262 does not list, raises 0x02 as its other limits do. -/
def descOk (bs : List Byte) (sew : Nat) : Bool :=
  let ctl := field bs 0 8
  let nseg := ctl / 2 ^ 44 % 16
  let fsz := 2 ^ (ctl / 2 ^ 42 % 4)
  let swz := ctl / 2 ^ 41 % 2 == 1
  let perm := ctl / 2 ^ 40 % 2 == 1
  let rowb := field bs 24 4
  let dpitch := field bs 32 4
  ctl / 2 ^ 56 == 1 && engineSpace (ctl / 2 ^ 52 % 16) && engineSpace (ctl / 2 ^ 48 % 16) && nseg != 1 && decide (nseg ≤ 8) &&
    !(nseg == 0 && ctl / 2 ^ 42 % 4 != 0) && ctl % 2 ^ 40 == 0 && field bs 40 24 == 0 && field bs 8 8 % 32 == 0 &&
    field bs 16 8 % 32 == 0 && decide (32 ≤ rowb) && decide (rowb ≤ 65536) && rowb % 32 == 0 && dpitch % 32 == 0 &&
    decide (rowb ≤ dpitch) && !(swz && dpitch % 256 != 0) && !(nseg != 0 && rowb % (nseg * fsz) != 0) &&
    !(perm && (nseg == 0 || decide (sew < 32)))

/-- The pieces of one row: offset in the row, none for a plane of zeros; offset in the slot; bytes (R262, R263). `p` holds the field
order of the request. DESIGN CHOICE (log 62): the addresses of a request are checked in the order of its slot's bytes. -/
def rowPieces (bs : List Byte) (p : Nat) : List (Option Nat × Nat × Nat) :=
  let ctl := field bs 0 8
  let nseg := ctl / 2 ^ 44 % 16
  let fsz := 2 ^ (ctl / 2 ^ 42 % 4)
  let perm := ctl / 2 ^ 40 % 2 == 1
  let rowb := field bs 24 4
  if nseg = 0 then (List.range (rowb / 32)).map fun k => (some (32 * k), 32 * k, 32)
  else
    let recs := rowb / (nseg * fsz)
    (List.range nseg).flatMap fun plane =>
      let e := if perm then p / 2 ^ (4 * plane) % 16 else plane
      (List.range recs).map fun r =>
        (if e < nseg then some ((r * nseg + e) * fsz) else none, (plane * recs + r) * fsz, fsz)

/-- The elements of a gather, in ascending request (R262 to R264). -/
def gatherElems (bs : List Byte) (k p : List Word) : List Elem :=
  let swz := field bs 0 8 / 2 ^ 41 % 2 == 1
  let rowb := field bs 24 4
  let dpitch := field bs 32 4
  (List.range k.length).flatMap fun i =>
    let row := (k.getD i 0).toNat
    (rowPieces bs (p.getD i 0).toNat).map fun q =>
      let d := (field bs 36 4 + i) * dpitch + q.2.1
      let src := if row < field bs 28 4 then q.1.map fun o => BitVec.ofNat 64 (field bs 8 8 + row * rowb + o) else none
      ⟨src, BitVec.ofNat 64 (field bs 16 8 + if swz then swizzle dpitch d else d), q.2.2⟩

/-- The requests of a gather that name no row (R264). -/
def gatherOob (bs : List Byte) (k : List Word) : Nat := (k.filter fun r => decide (field bs 28 4 ≤ r.toNat)).length

/-- What the engine moves for a command: spaces, whether the destinations must be in host memory, the elements, the rows out of
bounds. -/
structure Work where
  ssp : Nat
  dsp : Nat
  so : Bool
  elems : List Elem
  oob : Nat
  deriving DecidableEq, Repr

/-- The work of a copy (R255). -/
def CopyCmd.work (c : CopyCmd) : Work := ⟨c.ssp, c.dsp, c.so, c.elems, 0⟩

/-- The work of a gather (R262). -/
def gatherWork (desc : List Byte) (k p : List Word) : Work :=
  ⟨field desc 0 8 / 2 ^ 52 % 16, field desc 0 8 / 2 ^ 48 % 16, false, gatherElems desc k p, gatherOob desc k⟩

/-- The smallest offset range that covers every destination byte in the own polder (R221). -/
def State.boardRange (s : State) (w : Work) : Option (Nat × Nat) :=
  if w.dsp ≠ 1 then none
  else
    let job := s.jobOf s.ctx.asid
    w.elems.foldl (fun r e =>
      let a := e.dst.toNat
      if a < 2 ^ 30 ∧ s.dev.physCore job (a / 2 ^ 21 % 512) = some (coreOf s.cur) then
        let lo := a % 2 ^ 21
        match r with
        | none => some (lo, lo + e.n)
        | some (l, h) => some (Nat.min l lo, Nat.max h (lo + e.n))
      else r) none

/-! ## The QUE words -/

/-- A channel of the context replaced. -/
def Ctx.setCh (c : Ctx) (k : BitVec 3) (h : Chan) : Ctx := { c with ch := c.ch.set k.toNat h }

/-- The push of a command (R252): the buffered lines of its context enter the access path, whose stores the engine waits for; the
channel has a free slot, or else the word waits or raises the ECAUSE of a halted channel (R258, R319). DESIGN CHOICE (log 62): that
comes before the block is read. -/
def State.onChannel (s : State) (k : BitVec 3) (go : State → Commit) : Commit :=
  let h := s.ctx.ch[k.toNat]
  if h.used < 16 then go (if s.ctx.wcb.isEmpty then s else s.drainOut.settle)
  else if h.halted then .trap (h.ecause % 256) h.eaddr s
  else .wait

/-- A command pushed with its scoreboard range (R221, R258); one that moves nothing retires at once (R258, R262). -/
def State.pushCmd (s : State) (k : BitVec 3) (kind : CmdKind) (w : Option Work) : Commit :=
  let board := match w with
    | some w => s.boardRange w
    | none => none
  let h := s.ctx.ch[k.toNat]
  if board.isSome ∧ 32 ≤ (s.boards (coreOf s.cur)).length then .wait
  else
    match w with
    | some ⟨_, _, _, [], _⟩ => s.commitCtx fun c => c.setCh k { h with done := (h.done + 1) % 2 ^ 32 }
    | _ => s.commitCtx fun c => c.setCh k { h with cmds := h.cmds ++ [⟨kind, c.asid, c.priv, board, c.path, (s.ctxOf (otherOf s.cur)).path⟩] }

/-- A 64-byte block read at a commit: 0x04, then 0x05 (R258). Every store of the context that comes before the word is performed first
(the push edge of R274); it waits where a scoreboard range holds one. -/
def State.commitBlock (s : State) (va : Word) (go : List Byte → State → Commit) : Commit :=
  match s.force 2 fun _ => true with
  | none => .wait
  | some s =>
    match s.aligned 0 .load none 64 va with
    | (.error r, s) => s.refuseCommit r
    | (.ok p, s) =>
      match s.readAt p s.ctx.headPc 64 with
      | .held => .wait
      | .bad va => s.refuseCommit (.ecc 0 va)
      | .value _ s => go (s.ownBytes p.loc.key 64) s

/-- The commit of qpush (R250, R252). DESIGN CHOICE (log 101): the copy that it pushes has no scoreboard range (R221), since its block is read
only when it starts. -/
def commitQpush (q : BitVec 4) (x : BitVec 5) (op1 : Word) (s : State) : Commit :=
  if q.toNat < 8 then .trap 0x0C ((encode (.qpush q x)).setWidth 64) s
  else s.onChannel (q.setWidth 3) fun s => s.pushCmd (q.setWidth 3) (.push op1) none

/-- qpush: an address for channel q − 8, captured at issue (R252). -/
def execQpush (q : BitVec 4) (x : BitVec 5) (s : State) : Res := s.issue (.qpush q x) (s.getX x) 0 (commitQpush q x (s.getX x))

/-- qpop: the oldest entry of a queue, in the SCT (R29, R250, R253). -/
def execQpop (q : BitVec 4) (d : BitVec 5) (s : State) : Res :=
  if 8 ≤ q.toNat then .next (s.trap 0x0C ((encode (.qpop q d)).setWidth 64))
  else
    match s.ctx.q[(q.setWidth 3).toNat] with
    | [] => .next (s.stallFor .pop)
    | v :: r => ((s.onCtx fun c => { c with q := c.q.set (q.setWidth 3).toNat r }).setX d v).retire |> .next

/-- The status word of a channel (R266). -/
def Chan.status (h : Chan) : Word :=
  BitVec.ofNat 64 ((if h.halted then 2 ^ 63 else 0) + h.ecause % 128 * 2 ^ 56 +
    (h.cmds.length + if h.started.isSome then 1 else 0) % 32 * 2 ^ 48 + Nat.min h.oob 0xFFFF * 2 ^ 32 + h.done % 2 ^ 32)

/-- The commit of qstat (R250, R266). -/
def commitQstat (q : BitVec 4) (k : BitVec 4) (s : State) : Commit :=
  if 8 ≤ q.toNat then .trap 0x0C ((encode (.qstat q k)).setWidth 64) s
  else s.pushQ (q.setWidth 3) s.ctx.ch[(k.setWidth 3).toNat].status

/-- qstat (R266). -/
def execQstat (q : BitVec 4) (k : BitVec 4) (s : State) : Res := s.issue (.qstat q k) 0 0 (commitQstat q k)

/-- The commit of copy (R254, R258): the checks in their order, then the push. DEDUCED (log 84): the block is read here, and not after the
writes of the channel's earlier commands, as the engine's reads of the command are (R259, R274). -/
def commitCopy (k : BitVec 4) (_a : BitVec 5) (op1 : Word) (s : State) : Commit :=
  let ch : BitVec 3 := k.setWidth 3
  s.onChannel ch fun s =>
    s.commitBlock op1 fun bs s =>
      if !copyBlockOk bs then .trap 0x02 op1 s
      else
        s.commitBlock (blockNest bs) fun ns s =>
          match parseNest ns with
          | none => .trap 0x02 (blockNest bs) s
          | some n =>
            match joinBlocks bs n with
            | none => .trap 0x02 op1 s
            | some c => s.pushCmd ch (.copy bs ns) (some c.work)

/-- copy: the command of the block at x[xa], captured at issue (R258). -/
def execCopy (k : BitVec 4) (a : BitVec 5) (s : State) : Res := s.issue (.copy k a) (s.getX a) 0 (commitCopy k a (s.getX a))

/-- The row numbers of a gather (R262). -/
def Ctx.rowNumbers (c : Ctx) (v : BitVec 6) : List Word := (List.range c.vl).map fun i => BitVec.ofNat 64 (c.elem v i)

/-- The commit of vgthr (R261, R262). -/
def commitVgthr (v : BitVec 5) (k : BitVec 4) (_a : BitVec 5) (op1 : Word) (s : State) : Commit :=
  let ch : BitVec 3 := k.setWidth 3
  s.onChannel ch fun s =>
    s.commitBlock op1 fun bs s =>
      if !descOk bs s.ctx.sew then .trap 0x02 op1 s
      else
        let ks := s.ctx.rowNumbers (v.setWidth 6)
        let ps := if field bs 0 8 / 2 ^ 40 % 2 = 1 then s.ctx.rowNumbers (vreg (v.setWidth 6) 32) else []
        s.pushCmd ch (.gather bs ks ps) (some (gatherWork bs ks ps))

/-- vgthr: one request for each element of v[vb] (R262). -/
def execVgthr (v : BitVec 5) (k : BitVec 4) (a : BitVec 5) (s : State) : Res :=
  s.issue (.vgthr v k a) (s.getX a) 0 (commitVgthr v k a (s.getX a))

/-- The commit of drain (R265): it waits for an empty channel; a halted one raises its ECAUSE. -/
def commitDrain (k : BitVec 4) (s : State) : Commit :=
  let h := s.ctx.ch[(k.setWidth 3).toNat]
  if h.halted then .trap (h.ecause % 256) h.eaddr s
  else if h.cmds.isEmpty && h.started.isNone then .done s
  else .wait

/-- drain (R265). -/
def execDrain (k : BitVec 4) (s : State) : Res := s.issue (.drain k) 0 0 (commitDrain k)

/-! ## The engine -/

/-- The location of an element in a space, as the engine of a core reaches it under a command's rights (R212, R228, R259, R350). Space 4
is the own polder by offset, where the prologue path writes (R310). -/
def State.engineLoc (s : State) (core : Nat) (asid : BitVec 13) (priv : Priv) (sp : Nat) (k : AccKind) (w : Nat) (va : Word) :
    Except Refused Loc × State :=
  let a := va.toNat
  let no := (Except.error (Refused.cause 0x08 va), s)
  if a % Nat.min w 8 ≠ 0 then (.error (.cause 0x04 va), s)
  else
    match sp with
    | 0 => s.translate asid priv k va
    | 1 =>
      match s.dev.physCore (s.jobOf asid) (a / 2 ^ 21 % 512) with
      | some p => if a < 2 ^ 30 ∧ a % 2 ^ 21 < Config.polderBytes then (.ok ⟨polderKey p (a % 2 ^ 21), false, false, false⟩, s) else no
      | none => no
    | 4 => if a < Config.polderBytes then (.ok ⟨polderKey core a, false, false, false⟩, s) else no
    | _ => if a < Config.wbufBytes then (.ok ⟨wbufKey core a, false, false, false⟩, s) else no

/-- Every element of a command checked, its source before its destination, in order (R257, R259); the keys, or the first failure. DESIGN
CHOICE (log 94): uncorrectable source data (R389) is found with its element's source, ahead of what fails of a later element. -/
def State.checkElems (s : State) (core : Nat) (asid : BitVec 13) (priv : Priv) (w : Work) :
    List Elem → Except Refused (List (Option Nat × Nat × Nat)) × State
  | [] => (.ok [], s)
  | e :: r =>
    let source : Except Refused (Option Nat) × State := match e.src with
      | none => (.ok none, s)
      | some a =>
        match s.engineLoc core asid priv w.ssp .load e.n a with
        | (.ok l, s) =>
          if s.isBad l.key e.n then (.error (.ecc w.ssp (a + BitVec.ofNat 64 (s.badAt l.key e.n))), s) else (.ok (some l.key), s)
        | (.error f, s) => (.error f, s)
    match source with
    | (.error f, s) => (.error f, s)
    | (.ok sk, s) =>
      match s.engineLoc core asid priv w.dsp .store e.n e.dst with
      | (.error f, s) => (.error f, s)
      | (.ok l, s) =>
        if w.so && !l.host then (.error (.cause 0x06 e.dst), s)
        else
          match State.checkElems s core asid priv w r with
          | (.ok ks, s) => (.ok ((sk, l.key, e.n) :: ks), s)
          | (.error f, s) => (.error f, s)

/-- The bytes that checked elements write, read now: of two that write one byte the later one counts (R255, R259). -/
def State.moveBytes (s : State) (ks : List (Option Nat × Nat × Nat)) : List (Nat × Byte) :=
  ks.flatMap fun k => writesAt k.2.1 (match k.1 with
    | some a => s.bytesAt a k.2.2
    | none => List.replicate k.2.2 0)

/-- A block that the engine of context `c` reads for a qpush: alignment, then translation (R252, R258). -/
def State.engineBlock (s : State) (c : Nat) (cmd : Cmd) (va : Word) : Except Refused (List Byte) × State :=
  if va.toNat % 64 ≠ 0 then (.error (.cause 0x04 va), s) else s.readBlock c 0 cmd.asid cmd.priv 2 va 64

/-- The work of a command at the head of its channel; a qpush's blocks are read now, with the checks of R258 (R252). -/
def State.cmdWork (s : State) (c : Nat) (cmd : Cmd) : Except Refused Work × State :=
  match cmd.kind with
  | .copy bs ns =>
    match (parseNest ns).bind (joinBlocks bs) with
    | some c => (.ok c.work, s)
    | none => (.ok ⟨0, 0, false, [], 0⟩, s)
  | .gather d k p => (.ok (gatherWork d k p), s)
  | .push va =>
    match s.engineBlock c cmd va with
    | (.error f, s) => (.error f, s)
    | (.ok bs, s) =>
      if !copyBlockOk bs then (.error (.cause 0x02 va), s)
      else
        match s.engineBlock c cmd (blockNest bs) with
        | (.error f, s) => (.error f, s)
        | (.ok ns, s) =>
          match parseNest ns with
          | none => (.error (.cause 0x02 (blockNest bs)), s)
          | some n =>
            match joinBlocks bs n with
            | none => (.error (.cause 0x02 va), s)
            | some c => (.ok c.work, s)

/-- A channel of context `c` replaced. -/
def State.setChan (s : State) (c : Nat) (k : BitVec 3) (h : Chan) : State := s.setCtx c ((s.ctxOf c).setCh k h)

/-- A channel halts (R260): its cause and failing address; uncorrectable data is 0x12, with a record of kind READ (R389, R391). -/
def State.haltChan (s : State) (c : Nat) (k : BitVec 3) (f : Refused) : State :=
  let h := (s.ctxOf c).ch[k.toNat]
  match f with
  | .cause cs va => s.setChan c k { h with halted := true, ecause := cs, eaddr := va }
  | .ecc sp va =>
    let s := s.setChan c k { h with halted := true, ecause := 0x12, eaddr := va }
    (s.record (s.ctxOf c).asid { s.recordOf c 1 sp va with pc := 0 }).1

/-- The stores of context `c` that come before a command of its channels performed (R252); none where one of them waits (R221). -/
def State.storesBefore (s : State) (c : Nat) (cmd : Cmd) : Option State :=
  if (s.ctxOf c).stores.any fun p => p.barrier == 0 && decide (p.num < cmd.after) then
    ((s.turnTo c).force 3 fun p => decide (p.num < cmd.after)).map fun t => t.turnTo s.cur
  else some s

/-- The destinations of checked elements: key, size and address. -/
def destsOf (w : Work) (ks : List (Option Nat × Nat × Nat)) : List (Nat × Nat × Word) :=
  (ks.zip w.elems).map fun p => (p.1.2.1, p.1.2.2, p.2.dst)

/-- The slots of a gather's out-of-range requests, each as the destinations of its elements (R264); each request has as many. -/
def CmdKind.zeroSlots (k : CmdKind) (dests : List (Nat × Nat × Word)) : List (List (Nat × Nat × Word)) :=
  match k with
  | .gather desc ks _ =>
    let n := dests.length / ks.length
    (List.range ks.length).filterMap fun i =>
      if field desc 28 4 ≤ (ks.getD i 0).toNat then some ((dests.drop (i * n)).take n) else none
  | _ => []

/-- The sources of checked elements that the far side refuses, reported (R367). -/
def State.noteSources (s : State) (c sp : Nat) (w : Work) (ks : List (Option Nat × Nat × Nat)) : State :=
  (ks.zip w.elems).foldl (fun s p =>
    match p.1.1, p.2.src with
    | some k, some a => s.noteRefused c k ⟨sp, a, 0⟩
    | _, _ => s) s

/-- A command that has been checked and read begins (R259): it leaves its slot, and its bytes are to be written. -/
def State.beginCmd (s : State) (c : Nat) (k : BitVec 3) (cmd : Cmd) (rest : List Cmd) (w : Work)
    (ks : List (Option Nat × Nat × Nat)) : State :=
  let h := (s.ctxOf c).ch[k.toNat]
  let h := { h with cmds := rest }
  if w.elems.isEmpty then s.setChan c k { h with done := (h.done + 1) % 2 ^ 32 }
  else
    (s.noteSources c w.ssp w ks).setChan c k
      { h with started := some ⟨cmd, s.jobOf cmd.asid, s.moveBytes ks, destsOf w ks, w.so, cmd.kind.zeroSlots (destsOf w ks)⟩ }

/-- The engine takes the command at the head of a channel of context `c` (R259), once the stores before it are performed (R252): all
elements are checked, then all are read; the writes are performed when it retires, or chunk by chunk before (log 14). -/
def State.startCmd (s : State) (c : Nat) (k : BitVec 3) : State :=
  let h := (s.ctxOf c).ch[k.toNat]
  match h.cmds with
  | [] => s
  | cmd :: rest =>
    if h.halted || h.started.isSome then s
    else
      match s.storesBefore c cmd with
      | none => s
      | some s =>
        match s.cmdWork c cmd with
        | (.error f, s) => s.haltChan c k f
        | (.ok w, s) =>
          match s.checkElems (coreOf c) cmd.asid cmd.priv w w.elems with
          | (.error f, s) => s.haltChan c k f
          | (.ok ks, s) => s.beginCmd c k cmd rest w ks

/-- A byte of a destination: key, size, address. -/
def inDest (d : Nat × Nat × Word) (key : Nat) : Bool := decide (d.1 ≤ key) && decide (key < d.1 + d.2.1)

/-- The place that a record gives for a byte that an engine writes to one of these destinations; its PC is 0 (R391). -/
def destSpot (ds : List (Nat × Nat × Word)) (key : Nat) : Spot :=
  match ds.find? fun d => inDest d key with
  | some d => ⟨if areaOf key = 1 then 1 else if areaOf key = 2 then 3 else 0, d.2.2 + BitVec.ofNat 64 (key - d.1), 0⟩
  | none => ⟨15, 0, 0⟩

/-- The place that a record gives for a byte that a started command writes (R391). -/
def Started.spot (st : Started) (key : Nat) : Spot := destSpot st.dests key

/-- A slot of an out-of-range request has been filled: none of its bytes is still to be written. -/
def Started.filled (st : Started) (r : List (Nat × Nat × Word)) : Bool := !st.writes.any fun w => r.any fun d => inDest d w.1

/-- The channel after some of its command's bytes have been written (R264): the engine has served an out-of-range request once its slot is
filled, and counts it. -/
def Chan.serve (h : Chan) (st : Started) : Chan :=
  { h with
    oob := Nat.min 0xFFFF (h.oob + (st.zeros.filter st.filled).length)
    started := some { st with zeros := st.zeros.filter fun r => !st.filled r } }

/-- The started command of a channel retires: what is left of its writes is performed at system scope, it counts in DONE, its scoreboard
range is released, and stores that the range held go on (R221, R259, R266); what it had still to serve of a gather is served (R264). -/
def State.retireCmd (s : State) (c : Nat) (k : BitVec 3) : State :=
  let h := (s.ctxOf c).ch[k.toNat]
  match h.started with
  | none => s
  | some st =>
    let s := (s.setChan c k { h with
      started := none, done := (h.done + 1) % 2 ^ 32, oob := Nat.min 0xFFFF (h.oob + st.zeros.length) }).perform c st.spot [] st.writes
    if st.cmd.board.isSome then s.settleCore c else s

/-- The destination with the lowest address of those left. -/
def lowestDest : List (Nat × Nat × Word) → Option (Nat × Nat × Word)
  | [] => none
  | d :: r => some (r.foldl (fun m e => if e.2.2.toNat < m.2.2.toNat then e else m) d)

/-- The keys of a started command that land together ahead of the rest: those in the 32-byte chunk of byte `n` of the ones left (R208,
R259); of a stream-out those of the element with the lowest destination address, since it is written in ascending order (R257). -/
def Started.landing (st : Started) (n : Nat) : Nat → Bool :=
  if st.so then
    match lowestDest (st.dests.filter fun d => st.writes.any fun w => inDest d w.1) with
    | some d => inDest d
    | none => fun _ => false
  else
    match st.writes[n]? with
    | some w => fun k => k / 32 == w.1 / 32
    | none => fun _ => false

/-- Some of a started command's writes are performed ahead of the rest (R208, R257, R259). -/
def State.landChunk (s : State) (c : Nat) (k : BitVec 3) (n : Nat) : State :=
  let h := (s.ctxOf c).ch[k.toNat]
  match h.started with
  | none => s
  | some st =>
    let here := fun (x : Nat × Byte) => st.landing n x.1
    (s.setChan c k (h.serve { st with writes := st.writes.filter fun x => !here x })).perform c st.spot []
      (st.writes.filter here)

/-- COPY_COMMAND_START (R259). -/
def execCopyCommandStart (c ch : Nat) (s : State) : Res :=
  .next (if c < numContexts then s.startCmd c (BitVec.ofNat 3 ch) else s)

/-- COPY_COMMAND_RETIRE (R259). -/
def execCopyCommandRetire (c ch : Nat) (s : State) : Res :=
  .next (if c < numContexts then s.retireCmd c (BitVec.ofNat 3 ch) else s)

/-- The next thing that the engine does for a context of its own accord: the lowest channel that can retire or start a command; none
where it has nothing to do. -/
def State.engineMove (s : State) (c : Nat) : Option State :=
  (List.range 8).findSome? fun n =>
    let k := BitVec.ofNat 3 n
    let h := (s.ctxOf c).ch[k.toNat]
    if h.started.isSome then some (s.retireCmd c k)
    else
      match h.cmds with
      | [] => none
      | cmd :: _ => if h.halted || (s.storesBefore c cmd).isNone then none else some (s.startCmd c k)

/-! ## Events of the access path -/

/-- A change made from the side of context `c`; nothing for a number that is no context. -/
def State.within (s : State) (c : Nat) (f : State → State) : State :=
  if c < numContexts then (f (s.turnTo c)).turnTo s.cur else s

/-- A context that waits at its word tries again: `run` is given what it waits for and the word, on the machine with the turn at that
context; nothing happens where the context does not wait, or where its word has to wait for the walk of its fetch. -/
def State.resumeAt (s : State) (c : Nat) (run : Stall → Decoded → State → Res) : Res :=
  if numContexts ≤ c then .next s
  else
    let t := s.turnTo c
    match t.ctx.stall with
    | none => .next s
    | some k =>
      if t.fetchWaits then .next s
      else
        match t.sctWord with
        | (.ok w, t) =>
          (match decodeWord w with
            | .ok i =>
              match run k i t with
              | .next t => .next (t.turnTo s.cur)
              | r => r
            | .error _ => .next s)
        | (.error _, _) => .next s

/-- The store at place `k` of the access path is performed, where nothing holds it (R217, R221), with what goes with it (R389);
barriers that now stand first have done their work. -/
def State.performOne (s : State) (k : Nat) : State :=
  match s.ctx.stores[k]? with
  | none => s
  | some p =>
    let before := s.ctx.stores.take k
    let later := s.ctx.stores.drop (k + 1)
    if p.barrier ≠ 0 ∨ p.waits before ∨ s.holds p then s
    else
      let want := p.group s.dev.eccBad (later.filter fun q => !s.holds q)
      match splitReady (fun q => s.holds q || !want.contains q) before later with
      | (go, stay) => (s.onCtx fun c => { c with stores := stay }).performAll (p :: go)

/-- ACCESS_PERFORM (R217). -/
def execAccessPerform (c k : Nat) (s : State) : Res := .next (s.within c fun s => s.performOne k)

/-- WCB_EARLY_DRAIN (R222): the full buffer of a context's core drains its oldest lines. -/
def execWcbEarlyDrain (c n : Nat) (s : State) : Res :=
  .next (if c < numContexts ∧ 4096 ≤ s.wcbLines (coreOf c) then s.drainOldest (coreOf c) n else s)

end Sys2Proof.Machine
end

