-- ==== Sys2Proof/Machine/Counters.lean ====
section
/-! DEFINITION. Completion counters (R30, R330, R384), the readiness of launches (R305), job rings' DONE (R416), the clasps' episodes
(R320 to R323, R344), and cancellation (R31, R335). -/

namespace Sys2Proof.Machine

/-! ## Counters -/

/-- The key of a counter: its die and its number on that die. -/
def ctrKey (die ctr : Nat) : Nat := die * 8192 + ctr

/-- A counter that is armed or done; none for an idle one (R330). -/
def Dev.counter (d : Dev) (shadow : Bool) (key : Nat) : Option Counter := lookup key (if shadow then d.shadow else d.counters)

/-- A counter written. -/
def Dev.setCounter (d : Dev) (shadow : Bool) (key : Nat) (k : Counter) : Dev :=
  if shadow then { d with shadow := assign key k d.shadow } else { d with counters := assign key k d.counters }

/-- A counter armed with a new arming number (R330). -/
def Dev.arm (d : Dev) (shadow : Bool) (key level target : Nat) (parent : Option Nat) (asid : BitVec 13) : Dev :=
  let pa := match parent.bind fun p => d.counter shadow p with
    | some p => p.arm
    | none => 0
  { d.setCounter shadow key ⟨true, false, false, level, 0, target, parent, pa, asid, d.seq, []⟩ with seq := d.seq + 1 }

/-- A counter that belongs to an ASID of another job (R330). -/
def State.foreign (s : State) (key : Nat) : Bool :=
  match s.dev.counter false key with
  | some k => s.jobOf k.asid != s.jobOf s.ctx.asid
  | none => false

/-- The DONE words of the job rings registered with a counter, each one more (R416). -/
def State.ringDone (s : State) (key : Nat) : State :=
  s.dev.jobRings.foldl (fun s r =>
    if ctrKey r.die r.ctr = key then
      let k := hostKey (r.addr.toNat + 16)
      s.settleWrites [] (writesAt k (leBytes 8 (s.natAt k 8 + 1)))
    else s) s

/-- A counter becomes done (R30, R305): a launch leaves the scheduler, its journal entry waits for release (R331), the kept writers go
(R223), and a job counter completes in its rings (R395, R416). The increment to its parent is sent by the caller. -/
def State.markDone (s : State) (shadow : Bool) (key : Nat) (canc : Bool) : State :=
  match s.dev.counter shadow key with
  | none => s
  | some k =>
    let s := s.onDev fun d => d.setCounter shadow key { k with done := true, canc }
    if k.level = 0 then
      s.onDev fun d => { d with
        launches := d.launches.filter fun l => l.arm != k.arm
        unreleased := if shadow then d.unreleased else key :: d.unreleased.filter (· != key)
        writers := unassign k.arm d.writers }
    else if k.level = 3 then s.ringDone key
    else s

/-- An increment reaches a counter (R30): an ordinal already counted, an older arming and a done counter change nothing; a count that
reaches the target makes it done and sends one increment to its parent with the counter's own number. -/
def State.countUp : Nat → Bool → Nat → Nat → Nat → State → State
  | 0, _, _, _, _, s => s
  | f + 1, shadow, key, ord, arm, s =>
    match s.dev.counter shadow key with
    | none => s
    | some k =>
      if k.done || k.arm != arm || k.counted.contains ord then s
      else
        let k := { k with count := k.count + 1, counted := k.counted ++ [ord] }
        let s := s.onDev fun d => d.setCounter shadow key k
        if k.target ≤ k.count then
          match k.parent with
          | some p => State.countUp f shadow p (key % 8192) k.parentArm (s.markDone shadow key false)
          | none => s.markDone shadow key false
        else s

/-- A counter becomes done without a further increment of its own (R304, R305, R334). -/
def State.finishCounter (s : State) (shadow : Bool) (key : Nat) (canc : Bool) : State :=
  match s.dev.counter shadow key with
  | none => s
  | some k =>
    if k.done then s
    else
      match k.parent with
      | some p => State.countUp 4 shadow p (key % 8192) k.parentArm (s.markDone shadow key canc)
      | none => s.markDone shadow key canc

/-! ## Launches -/

/-- The control doubleword of a launch record (R302). -/
def Launch.ctl (l : Launch) : Nat := field l.record 0 8

/-- Flag bits of the control doubleword (R302): KIND, GANG, RST, DET, STEAL, PLC. -/
def Launch.isPanel (l : Launch) : Bool := l.ctl / 2 ^ 55 % 2 == 1
def Launch.isGang (l : Launch) : Bool := l.ctl / 2 ^ 54 % 2 == 1
def Launch.isRst (l : Launch) : Bool := l.ctl / 2 ^ 53 % 2 == 1
def Launch.isDet (l : Launch) : Bool := l.ctl / 2 ^ 52 % 2 == 1
def Launch.isSteal (l : Launch) : Bool := l.ctl / 2 ^ 51 % 2 == 1
def Launch.isPlc (l : Launch) : Bool := l.ctl / 2 ^ 50 % 2 == 1

/-- PRIO, LG and TR (R302). -/
def Launch.prio (l : Launch) : Nat := l.ctl / 2 ^ 40 % 256
def Launch.lg (l : Launch) : Nat := l.ctl / 2 ^ 36 % 16
def Launch.tr (l : Launch) : Nat := l.ctl / 2 ^ 32 % 16

/-- PRO, STG, STGSZ, LC0 and LCN (R302). -/
def Launch.proAddr (l : Launch) : Nat := field l.record 40 8
def Launch.stg (l : Launch) : Nat := field l.record 128 4
def Launch.stgsz (l : Launch) : Nat := field l.record 132 4
def Launch.lc0 (l : Launch) : Nat := field l.record 136 2
def Launch.lcn (l : Launch) : Nat := field l.record 138 2

/-- The counters that a record's valid dependences name (R302). -/
def recordDeps (r : List Byte) : List Nat :=
  (List.range 4).filterMap fun i => if field r (48 + 2 * i) 2 / 2 ^ 15 = 1 then some (field r (48 + 2 * i) 2 % 2 ^ 13) else none

/-- The units of a nest launch (R304). -/
def Launch.units (l : Launch) : Nat :=
  match parseNest l.space with
  | some n => n.count
  | none => 0

/-- The launch of an arming. -/
def Dev.launchOf (d : Dev) (arm : Nat) : Option Launch := d.launches.find? fun l => l.arm == arm

/-- A launch replaced. -/
def Dev.setLaunch (d : Dev) (l : Launch) : Dev := { d with launches := d.launches.map fun m => if m.arm == l.arm then l else m }

/-- A launch becomes ready (R305, R313): the LFSR selects its bank (log 16). -/
def Dev.makeReady (d : Dev) (l : Launch) : Dev :=
  { d.setLaunch { l with phase := .ready, readySeq := d.seq, bank := Config.lfsr d.seq % 16, passes := 0, strict := false } with
    seq := d.seq + 1 }

/-- A dependence whose counter is done; done with the cancelled flag (R305). -/
def depDone (k : Option Counter) : Bool :=
  match k with
  | some k => k.done
  | none => false
def depCanc (k : Option Counter) : Bool :=
  match k with
  | some k => k.done && k.canc
  | none => false

/-- The first waiting launch that its dependences cancel or make ready (R305). -/
def State.depStep (s : State) : Option State :=
  s.dev.launches.findSome? fun l =>
    if l.phase ≠ .waiting then none
    else
      let deps := (recordDeps l.record).map fun n => s.dev.counter l.shadow (ctrKey l.die n)
      if deps.any depCanc then some (s.finishCounter l.shadow (ctrKey l.die l.ctr) true)
      else if deps.all depDone then some (s.onDev fun d => d.makeReady l)
      else none

/-- Launches made ready or cancelled by their dependences, until no more are (R305). -/
def State.settleDeps : Nat → State → State
  | 0, s => s
  | n + 1, s =>
    match s.depStep with
    | none => s
    | some s => State.settleDeps n s

/-- Readiness tested again after a change of a counter (R305, R330). -/
def State.settleLaunches (s : State) : State := State.settleDeps s.dev.launches.length s

/-! ## Clasps -/

/-- The episode of a member's next arrival (R320); a member that is rerun counts its arrivals again (R344). -/
def Clasp.nextOf (k : Clasp) (m : Nat) : Nat :=
  match lookup m k.replay with
  | some n => n
  | none => (k.arrivals.filter fun a => a.1 == m).length

/-- Member `m` has arrived in episode `e`. -/
def Clasp.arrived (k : Clasp) (m e : Nat) : Bool := k.arrivals.any fun a => a.1 == m && a.2.1 == e

/-- The members that are late in episode `e` (R323): the one whose stamp exceeds every other by more than Δ. -/
def Clasp.lateMembers (k : Clasp) (e : Nat) : List Nat :=
  let stamp := fun m => match k.stamp e m with
    | some t => t.toNat
    | none => 0
  if k.nmem ≤ 1 then []
  else (List.range k.nmem).filter fun m => (List.range k.nmem).all fun j => j == m || decide (stamp j + k.delta < stamp m)

/-- The next episode completed, where every member has arrived in it or departed, and one has arrived (R320, R323, R344). -/
def Clasp.completeOne (k : Clasp) : Option Clasp :=
  let e := k.epoch
  let everyone := (List.range k.nmem).all fun m => k.arrived m e || k.departed.contains m
  if everyone && (List.range k.nmem).any (k.arrived · e) then
    some { k with epoch := e + 1, lateIn := k.lateIn ++ (k.lateMembers e).map fun m => (e, m) }
  else none

/-- Every episode that can complete. -/
def Clasp.complete : Nat → Clasp → Clasp
  | 0, k => k
  | n + 1, k =>
    match k.completeOne with
    | none => k
    | some k => Clasp.complete n k

/-- The device has joined its domain with the domain's gts, or has joined none (R421). -/
def Dev.inTime (d : Dev) : Bool := d.gtsTaken || !d.links.any (·.up)

/-- The flags of a device clasp reach the walkers of its members, and its episode the members (R320, R324). DESIGN CHOICE (log 88): of
several such clasps the flags of the one that completed last stand. -/
def State.tellMembers (s : State) (id : Nat) (k : Clasp) : State :=
  if !k.devices then s
  else
    let others := (List.range k.nmem).filter (· != s.dev.win.domain)
    s.onDev fun d => { d with
      flagged := if d.win.domain < k.nmem then BitVec.ofNat 64 k.flags else d.flagged
      outbox := d.outbox ++ others.flatMap fun m => [⟨4, m, [id, k.epoch], []⟩, ⟨1, m, [k.flags], []⟩] }

/-- A clasp after a change, with the episodes that complete. -/
def State.putClasp (s : State) (id : Nat) (k : Clasp) : State :=
  let k' := Clasp.complete (k.arrivals.length + 1) k
  let s := s.onDev fun d => { d with clasps := assign id k' d.clasps }
  if k'.epoch = k.epoch then s else s.tellMembers id k'

/-- A unit is a member of a clasp (R340). DEDUCED (log 25): a unit that ends before an arrival has bound the clasp to its launch was
no member of it, and has not departed. -/
def Clasp.hasMember (k : Clasp) (u : UnitSt) : Bool := k.bound == some (u.die, u.ctr, u.arm) && decide (u.ord < k.nmem)

/-- A unit departs from the clasps of its launch (R344). -/
def State.depart (s : State) (u : UnitSt) : State :=
  s.dev.clasps.foldl (fun s p =>
    if p.2.hasMember u && !p.2.departed.contains u.ord then
      s.putClasp p.1 { p.2 with departed := u.ord :: p.2.departed }
    else s) s

/-- A rerun unit counts its arrivals again (R344). -/
def State.replayClasps (s : State) (u : UnitSt) : State :=
  let clasps := s.dev.clasps.map fun p =>
    (p.1, if p.2.hasMember u then { p.2 with replay := assign u.ord 0 p.2.replay } else p.2)
  s.onDev fun d => { d with clasps }

/-! ## Cancellation -/

/-- Counter `m` is counter `n` or lies beneath it (R31); levels nest, so the chain is short. -/
def Dev.isUnder (d : Dev) (n : Nat) : Nat → Nat → Bool
  | 0, m => m == n
  | f + 1, m => m == n ||
    (match d.counter false m with
      | some k =>
        (match k.parent with
          | some p => (match d.counter false p with
            | some q => q.arm == k.parentArm
            | none => false) && Dev.isUnder d n f p
          | none => false)
      | none => false)

/-- The contexts that differ from their reset state, and the one whose turn it is. -/
def State.touched (s : State) : List Nat := s.cur :: s.others.map (·.1)

/-- A channel after a cancel (R267): what has not started is discarded. -/
def Chan.cancel (h : Chan) : Chan := { h with cmds := [], halted := false, ecause := 0, eaddr := 0, reported := none }

/-- A running unit that a cancel of counter `n` reaches (R31, R267, R489): its commands that have not started are discarded, what was
addressed to it as the one that accepted a launch ends, and CANCELLED is pending. -/
def Ctx.cancelled (x : Ctx) (n : Nat) : Ctx :=
  let x := x.newTenure
  { x with ch := x.ch.map Chan.cancel, pCancelled := x.pCancelled ++ [⟨BitVec.ofNat 64 n, false, none⟩] }

/-- The cancel reaches a context (R31, R267, R344): a unit or preload that has not started is discarded, and has departed from its clasps; a
running unit departs at its end (log 25). DESIGN CHOICE (log 98): the unit of a context that a double trap has stopped (R376), which has no
next safe point, is discarded in the same way, with what its channels have not started, and no CANCELLED is pending for it. -/
def State.cancelIn (s : State) (arms : List Nat) (n : Nat) (c : Nat) : State :=
  let hits := fun (u : UnitSt) => !u.shadow && arms.contains u.arm
  let x := s.ctxOf c
  let s := match x.preload.filter hits with
    | some u => (s.setCtx c { x with preload := none }).depart u
    | none => s
  let x := s.ctxOf c
  match x.unit with
  | none => s
  | some u =>
    if !hits u then s
    else if x.run = .running then (s.setCtx c (x.cancelled n)).settleCore c
    else (((s.setCtx c { x.newTenure with unit := none, ch := x.ch.map Chan.cancel }).settleCore c).regrantCore c).depart u

/-- cancel of an armed counter (R31, R335): the units that were taken back and wait to be handed out depart (R344; log 25). DESIGN CHOICE
(log 98): a unit that a save image has parked is no running one, and goes on as it is once it is restored. -/
def State.cancelNode (s : State) (key : Nat) : State :=
  let under := s.dev.counters.filter fun p => s.dev.isUnder key 4 p.1
  let live := (under.filter fun p => !p.2.done).map (·.1)
  let arms := (under.filter fun p => p.2.level == 0).map fun p => p.2.arm
  let back := (s.dev.launches.filter fun l => !l.shadow && arms.contains l.arm).flatMap (·.back)
  let s := back.foldl State.depart s
  let s := live.foldl (fun s k => s.markDone false k true) s
  let s := match (s.dev.counter false key).bind fun k => k.parent.map fun p => (p, k.parentArm) with
    | some (p, a) => State.countUp 4 false p (key % 8192) a s
    | none => s
  (s.touched.foldl (fun s c => s.cancelIn arms (key % 8192) c) s).settleLaunches

end Sys2Proof.Machine
end

