-- ==== Sys2Proof/Machine/Walker.lean ====
section
/-! DEFINITION. The dispatcher and the walker of a die (R307 to R316, R324 to R326, R333, R385, R386), unit start (R32), and their
events. -/

namespace Sys2Proof.Machine

/-! ## Launches at the walker -/

/-- The die on which a launch's units run: its own, or for a lost die's launch the die of its journal mirror (R395), the next one that
is not lost (log 29). -/
def Dev.hostDie (d : Dev) (l : Launch) : Nat :=
  if l.shadow then
    (([1, 2, 3].map fun k => (l.die + k) % Config.dies).find? fun e => !d.lostDies.contains e).getD l.die
  else l.die

/-- The launches of a die in a phase. -/
def Dev.inPhase (d : Dev) (die : Nat) (p : Phase) : List Launch := d.launches.filter fun l => l.phase == p && d.hostDie l == die

/-- A list of launches in ascending order of a key. -/
def insertBy (f : Launch → Nat) (l : Launch) : List Launch → List Launch
  | [] => [l]
  | m :: r => if f l < f m then l :: m :: r else m :: insertBy f l r
def sortBy (f : Launch → Nat) (ls : List Launch) : List Launch := ls.foldl (fun r l => insertBy f l r) []

/-- The die of a context. -/
def dieOfCtx (c : Nat) : Nat := dieOf (coreOf c)

/-- The contexts of a die. -/
def ctxsOf (die : Nat) : List Nat := (List.range (2 * Config.slotsPerDie)).map fun k => die * (2 * Config.slotsPerDie) + k

/-- A context that the walker may give a unit: its core is up, it runs nothing, and no gang has reserved it (R308, R315). -/
def State.isFree (s : State) (c : Nat) : Bool :=
  let x := s.ctxOf c
  s.dev.coreUp (coreOf c) && x.run == .off && x.unit.isNone && !s.dev.launches.any fun l => l.reserved.contains c

/-- A context fits a launch (R308), by what its standing grant gives it now (log 30). -/
def State.fits (s : State) (l : Launch) (c : Nat) : Bool := decide (l.lg ≤ (s.avail c).1) && decide (l.tr ≤ (s.avail c).2)

/-- A context fits a launch under its standing grant (R315). -/
def State.fitsStanding (s : State) (l : Launch) (c : Nat) : Bool :=
  s.dev.coreUp (coreOf c) && decide (l.lg ≤ (s.ctxOf c).standLgn) && decide (l.tr ≤ (s.ctxOf c).standTrn)

/-- A panel block's ROWS, COLS, element width and strides (R306). -/
def Launch.rows (l : Launch) : Nat := field l.space 4 4
def Launch.cols (l : Launch) : Nat := field l.space 8 4
def Launch.sewc (l : Launch) : Nat := sewOf (field l.space 1 1)
def Launch.rstride (l : Launch) : Int := toSigned 64 (field l.space 16 8)
def Launch.cstride (l : Launch) : Int := toSigned 64 (field l.space 24 8)

/-- The unit with an ordinal and its indices. -/
def Launch.unit (l : Launch) (ord : Nat) (idx : List Nat) : UnitSt :=
  ⟨l.die, l.ctr, l.shadow, l.arm, ord, idx, if l.isPlc then some (l.lc0 + ord % l.lcn) else none, l.prio, l.isGang, l.isRst, l.isDet,
    l.proAddr == 0, none⟩

/-- The unit of a nest launch with an ordinal (R304). -/
def Launch.nestUnit (l : Launch) (ord : Nat) : UnitSt :=
  match parseNest l.space with
  | some n => l.unit ord (n.nth ord)
  | none => l.unit ord []

/-- Nothing is left to hand out. -/
def Launch.exhausted (l : Launch) : Bool :=
  l.back.isEmpty &&
    (if l.isPanel then decide (l.rows ≤ l.curR)
     else if l.isPlc && !l.isGang then l.cores.all fun n => decide (l.stop ≤ n)
     else decide (l.stop ≤ l.head))

/-- A launch written back; it leaves the walker when nothing is left (R326). -/
def Dev.putLaunch (d : Dev) (l : Launch) : Dev := d.setLaunch (if l.exhausted then { l with phase := .finished } else l)

/-- The logical core, from LC0, of a declared set that names a physical core (R309). -/
def State.declared (s : State) (l : Launch) (core j : Nat) : Bool := s.dev.physCore (s.jobOf l.asid) (l.lc0 + j) == some core

/-- A unit taken back may go to a context: to another physical core than it was lost on, and for a piece of a panel to one that holds
it (R307, R385). DEDUCED (log 85): the piece keeps its height and width, and every context that takes it has rows and lanes for both. -/
def State.takesBack (s : State) (l : Launch) (c : Nat) (u : UnitSt) : Bool :=
  u.avoid != some (coreOf c) &&
    (!l.isPanel || (decide (u.idx.getD 2 0 ≤ 16 * (s.avail c).2) && decide (u.idx.getD 3 0 * l.sewc ≤ (s.avail c).1 * 256)))

/-- A unit removed from those taken back. -/
def Launch.dropBack (l : Launch) (u : UnitSt) : Launch := { l with back := l.back.erase u }

/-- The piece of a panel that a context receives (R307). -/
def State.carve (s : State) (l : Launch) (c : Nat) : Option (UnitSt × Launch) :=
  let lanes := (s.avail c).1
  let tall := 16 * (s.avail c).2
  if l.rows ≤ l.curR then none
  else
    let h := if l.curC = 0 then Nat.min (l.rows - l.curR) tall else l.band
    if tall < h then none
    else
      let w := Nat.min (l.cols - l.curC) (lanes * 256 / l.sewc)
      let u := l.unit l.head [l.curR, l.curC, h, w, 0, 0]
      let l := { l with head := l.head + 1, band := h }
      if l.curC + w = l.cols then some (u, { l with curR := l.curR + h, curC := 0 }) else some (u, { l with curC := l.curC + w })

/-- Of the units of a placed launch that wait to be handed out again, the one with the least ordinal among those of its `j`-th logical core
(R309). -/
def Launch.firstBack (l : Launch) (j : Nat) : Option UnitSt :=
  match l.back.filter fun u => u.ord % l.lcn == j with
  | [] => none
  | u :: r => some (r.foldl (fun a b => if b.ord < a.ord then b else a) u)

/-- The next unit of a launch for a context, with the launch after it (R304, R307, R309, R311, R326, R385); those of a
placed launch in ascending order for each logical core, so that one that may not go to it yet holds those after it back (R309). DESIGN
CHOICE (log 105): where the cores of a placed launch advance at different rates, its head (R325) is one past the greatest ordinal handed
out. -/
def State.nextUnit (s : State) (l : Launch) (c : Nat) : Option (UnitSt × Launch) :=
  let core := coreOf c
  if !s.fits l c then none
  else if l.isPlc then
    if c % 2 = 1 then none
    else
      (List.range l.lcn).findSome? fun j =>
        if !s.declared l core j then none
        else
          match l.firstBack j with
          | some u => if s.takesBack l c u then some (u, l.dropBack u) else none
          | none =>
            let n := l.cores.getD j l.stop
            if l.isGang || decide (l.stop ≤ n) then none
            else some (l.nestUnit n, { l with cores := l.cores.set j (n + l.lcn), head := Nat.max l.head (n + 1) })
  else
    match l.back.find? (s.takesBack l c) with
    | some u => some (u, l.dropBack u)
    | none =>
      if !l.back.isEmpty || l.isGang then none
      else if l.isPanel then s.carve l c
      else if l.head < l.stop then some (l.nestUnit l.head, { l with head := l.head + 1 })
      else none

/-- A panel whose last piece is carved receives its target (R307). -/
def State.fixTarget (s : State) (l : Launch) : State :=
  if l.isPanel ∧ l.rows ≤ l.curR then
    match s.dev.counter l.shadow (ctrKey l.die l.ctr) with
    | none => s
    | some k =>
      if k.arm ≠ l.arm ∨ k.done then s
      else
        let s := s.onDev fun d => d.setCounter l.shadow (ctrKey l.die l.ctr) { k with target := l.head }
        if l.head ≤ k.count then (s.finishCounter l.shadow (ctrKey l.die l.ctr) false).settleLaunches else s
  else s

/-- A unit given to a context (R308). -/
def State.bindUnit (s : State) (c : Nat) (u : UnitSt) (l : Launch) : State :=
  s.setCtx c { (s.ctxOf c).newTenure with unit := some { u with ready := l.proAddr == 0 }, asid := l.asid }

/-! ## Unit start -/

/-- cb0 to cb3 from 128 bytes in the cbld layout (R207, R310). -/
def codebooks (bs : List Byte) : Vector (BitVec 256) 4 := Vector.ofFn fun n : Fin 4 => BitVec.ofNat 256 (field bs (32 * n.val) 32)

/-- The context of a unit at its start (R32). -/
def Ctx.start (x : Ctx) (sec : Bool) (u : UnitSt) (l : Launch) : Ctx :=
  let r := l.record
  let args := fun (c : Ctx) => (List.range 8).foldl (fun c i => c.setX (BitVec.ofNat 5 (3 + i)) (BitVec.ofNat 64 (field r (64 + 8 * i) 8))) c
  let idx := fun (c : Ctx) => (List.range 6).foldl (fun c i => c.setX (BitVec.ofNat 5 (26 + i)) (BitVec.ofNat 64 (u.idx.getD i 0))) c
  let base := { Ctx.reset sec with
    pc := BitVec.ofNat 64 (pcBits (BitVec.ofNat 64 (field r 8 8)))
    cb := if field r 144 8 = 0 then Vector.replicate 4 0 else codebooks l.cba
    detm := u.det
    tvec := if field r 152 8 = 0 then x.tvec else BitVec.ofNat 64 (pcBits (BitVec.ofNat 64 (field r 152 8)))
    htvec := x.htvec
    asid := l.asid
    standLgn := x.standLgn
    standTrn := x.standTrn
    budget := BitVec.ofNat 64 (field r 24 8)
    armed := field r 24 8 != 0
    rh := x.rh
    rhsel := x.rhsel
    pMcheck := x.pMcheck
    wcb := x.wcb
    stores := x.stores
    path := x.path
    unit := some u
    preload := x.preload
    run := .running
    tenure := x.tenure }
  ((idx (args base)).setX 2 (BitVec.ofNat 64 (field r 16 8))).setX 25 (BitVec.ofNat 64 u.ord)

/-- UNIT_START (R32, R308, R333): a unit that has been handed out and whose prologue has finished begins, under the standing grant as far
as it is free. DESIGN CHOICE (log 104): it begins also where that grant has been lowered below LG or TR since it was handed out. -/
def State.startUnit (s : State) (c : Nat) : State :=
  let x := s.ctxOf c
  match x.unit with
  | none => s
  | some u =>
    match s.dev.launchOf u.arm with
    | none => s
    | some l =>
      if x.run ≠ .off ∨ !u.ready then s
      else
        let g := s.avail c
        s.setCtx c ((x.start (c % 2 == 1) u l).withGrant (c % 2 == 1) g.1 g.2)

/-! ## Lost units -/

/-- Numbers inserted into an ascending list; sorted ascending. -/
def insertNat (n : Nat) : List Nat → List Nat
  | [] => [n]
  | m :: r => if n ≤ m then n :: m :: r else m :: insertNat n r
def sortNat (ns : List Nat) : List Nat := ns.foldl (fun r n => insertNat n r) []

/-- The 12 ordinals of each CONT record (R391). -/
def contRecords : Nat → List Nat → List (List Nat)
  | 0, _ => []
  | f + 1, ns => if ns.isEmpty then [] else ns.take 12 :: contRecords f (ns.drop 12)

/-- The bytes of a CONT record (R391). -/
def contBytes (ns : List Nat) (seq : Nat) : List Byte :=
  leBytes 8 seq ++ leBytes 1 0x01 ++ leBytes 1 15 ++ leBytes 6 0 ++
    (List.range 12).flatMap fun i => leBytes 4 (ns.getD i 0xFFFFFFFF)

/-- A failed launch ends (R386): its counter is done with the cancelled flag, its record and the CONT records are written, and the
context that accepted it takes 0x12 while it holds what launched it (R489). -/
def State.closeFailed (s : State) (l : Launch) (detail : Nat) : State :=
  let key := ctrKey l.die l.ctr
  match s.dev.counter l.shadow key with
  | none => s
  | some k =>
    let w := ((List.range (k.counted.length + 1)).find? fun n => !k.counted.contains n).getD 0
    let done := sortNat (k.counted.filter fun n => decide (w ≤ n))
    let lost := sortNat l.lost
    let conts := contRecords (done.length + lost.length) (done ++ lost)
    let x := s.ctxOf l.by_
    let r : Record :=
      { kind := 5, space := 15, detail, addr := 0, pc := 0, lcore := (s.dev.logCore (s.jobOf x.asid) (coreOf l.by_)).getD 0,
        sec := l.by_ % 2, asid := l.asid, ctr := l.ctr,
        tail := leBytes 4 w ++ leBytes 4 done.length ++ leBytes 4 lost.length ++ leBytes 4 conts.length }
    let s := (s.finishCounter l.shadow key true).settleLaunches
    match s.record l.asid r with
    | (s, a) =>
      let s := conts.foldl (fun s ns => (s.appendRecord l.asid fun seq => contBytes ns seq).1) s
      if (s.ctxOf l.by_).tenure = l.byTenure then s.pendMcheck l.by_ ⟨a, false, some l.byTenure⟩ else s

/-- A failed launch ends once none of its units runs, is parked (R380) or waits to be handed out, and those that ran to uend are counted
(R386). -/
def State.checkFailed (s : State) (arm : Nat) : State :=
  match s.dev.launchOf arm with
  | none => s
  | some l =>
    match l.failed with
    | none => s
    | some detail =>
      let bound := s.touched.any fun c =>
        (match (s.ctxOf c).unit with
          | some u => u.arm == arm
          | none => false) ||
        (match (s.ctxOf c).preload with
          | some u => u.arm == arm
          | none => false)
      let parked := s.dev.images.any fun p => p.2.unit.any fun u => u.arm == arm
      if bound || parked || !l.back.isEmpty || s.dev.incs.any (fun i => i.arm == arm) then s else s.closeFailed l detail

/-- A launch that has left the walker and has units again enters the dispatcher as a strict launch, ranked by when it first became ready
(R326). -/
def Launch.reenter (l : Launch) : Launch := if l.phase = .finished then { l with phase := .ready, strict := true } else l

/-- A unit is lost (R385, R386): of a restartable launch it is taken back, to go to another core; of another launch it ends the launch,
for reason `detail` (R391), and departs from its clasps, so that the units that run on reach uend (R344, R386; log 25). -/
def State.loseUnit (s : State) (u : UnitSt) (core detail : Nat) : State :=
  match s.dev.launchOf u.arm with
  | none => s
  | some l =>
    if l.isRst then
      (s.onDev fun d => d.setLaunch { l with back := l.back ++ [{ u with avoid := some core, ready := l.proAddr == 0 }] }.reenter).replayClasps u
    else
      let l := { l with
        lost := l.lost ++ [u.ord], failed := some (l.failed.getD detail), head := l.stop, cores := l.cores.map fun _ => l.stop,
        curR := if l.isPanel then l.rows else l.curR }
      ((s.onDev fun d => d.putLaunch l).depart u).checkFailed u.arm

/-- A unit that was handed out and has not started is taken back, to be handed out next (R311). -/
def State.takeBack (s : State) (u : UnitSt) : State :=
  match s.dev.launchOf u.arm with
  | none => s
  | some l => s.onDev fun d => d.setLaunch { l with back := { u with ready := l.proAddr == 0 } :: l.back }.reenter

/-! ## A context is freed -/

/-- A context freed (R337, step 5; R380): its queues and channels are emptied, pending grants transfer, what was addressed to its unit
ends (R489), and a preloaded unit is the next to start (R311). -/
def State.freeCtx (s : State) (c : Nat) : State :=
  let x := s.ctxOf c
  let next := x.preload
  let s := ((s.setCtx c { x.newTenure with
    unit := none, preload := none, run := .off, q := Vector.replicate 8 [], ch := Vector.replicate 8 Chan.idle, stall := none, viq := [], frame := [], bars := [],
    frameBars := [], late := none, tfv := false, loop := none, latch := none, heldLatch := none, resume := false, lag := 0,
    pCancelled := [], pReclaim := none, pBudget := false, pPreempt := false, armed := false, tmr := 0 }).regrantCore c).settleCore c
  match next with
  | none => s
  | some u => s.setCtx c { (s.ctxOf c).newTenure with unit := some u }

/-! ## Prologues -/

/-- The shift of a prologue's source for a unit (R310). -/
def Launch.shift (l : Launch) (u : UnitSt) : Int :=
  if l.isPanel then u.idx.getD 0 0 * l.rstride + u.idx.getD 1 0 * l.cstride
  else
    match parseNest l.space with
    | some n => (List.range n.ndim).foldl (fun (a : Int) k => a + u.idx.getD k 0 * n.stride.getD k 0) 0
    | none => 0

/-- The span of a copy's destination (R255). -/
def CopyCmd.span (c : CopyCmd) : Nat :=
  ((List.range c.nest.ndim).drop 2).foldl (fun p k => p * c.nest.bnd k) (c.nest.bnd (if c.tr then 0 else 1) * c.pitch)

/-- The work of a unit's prologue, rebased (R310); none where it breaks a rule. -/
def Launch.prologue (l : Launch) (u : UnitSt) : Option Work :=
  match (parseNest l.proNest).bind (joinBlocks l.pro) with
  | none => none
  | some c =>
    if !copyBlockOk l.pro ∨ c.dsp ≠ 1 ∨ l.stgsz < c.dst + c.span then none
    else
      let c := { c with src := (BitVec.ofInt 64 (c.src + l.shift u)).toNat, dst := l.stg + u.ord % 2 * l.stgsz + c.dst }
      some { c.work with dsp := 4 }

/-- The prologue of a unit on the core of context `c`, with app rights (log 31): its writes done, or none where it fails (R310). -/
def State.runPrologue (s : State) (c : Nat) (l : Launch) (u : UnitSt) : Option State × State :=
  match l.prologue u with
  | none => (none, s)
  | some w =>
    match s.checkElems (coreOf c) l.asid .app w w.elems with
    | (.error _, s) => (none, s)
    | (.ok ks, s) => (some ((s.noteSources c w.ssp w ks).perform c (destSpot (destsOf w ks)) [] (s.moveBytes ks)), s)

/-- The prologue of the unit that a context will run next: the bound one, else the preloaded one (R310, R311, R333). -/
def State.prologueOf (s : State) (c : Nat) : State :=
  let x := s.ctxOf c
  let done := fun (s : State) (isUnit : Bool) (u : UnitSt) =>
    let x := s.ctxOf c
    s.setCtx c (if isUnit then { x with unit := some { u with ready := true } } else { x with preload := some { u with ready := true } })
  let go := fun (isUnit : Bool) (u : UnitSt) =>
    match s.dev.launchOf u.arm with
    | none => s
    | some l =>
      match s.runPrologue c l u with
      | (some s, _) => done s isUnit u
      | (none, s) =>
        let s := s.setCtx c (if isUnit then { (s.ctxOf c).newTenure with unit := none } else { s.ctxOf c with preload := none })
        ((if isUnit then s.regrantCore c else s).loseUnit u (coreOf c) 2)
  match x.unit, x.preload with
  | some u, p =>
    if x.run = .off ∧ !u.ready then go true u
    else
      match p with
      | some v => if v.ready then s else go false v
      | none => s
  | none, _ => s

/-! ## Dispatching -/

/-- The better of two launches at the heads of banks (R313): the higher PRIO, then the earlier ready. -/
def betterOf (a b : Launch) : Launch := if a.prio < b.prio ∨ (a.prio = b.prio ∧ b.readySeq < a.readySeq) then b else a

/-- The best launch of a list. -/
def bestOf : List Launch → Option Launch
  | [] => none
  | l :: r => some (r.foldl betterOf l)

/-- The launch that a pop takes (R313, R314): the oldest strict one, else the better head of the banks sampled. -/
def popChoice (ready : List Launch) (b1 b2 : Nat) : Option Launch :=
  match sortBy (·.readySeq) (ready.filter (·.strict)) with
  | x :: _ => some x
  | [] =>
    let full := (List.range 16).filter fun b => ready.any fun l => l.bank == b
    let one := fun b => bestOf (ready.filter fun l => l.bank == b)
    if full.length ≤ 1 then (if full.contains b1 then one b1 else none)
    else if b1 ≠ b2 ∧ full.contains b1 ∧ full.contains b2 then
      match one b1, one b2 with
      | some x, some y => some (betterOf x y)
      | _, _ => none
    else none

/-- The declared primary contexts of a placed launch (R309). -/
def State.declaredCtxs (s : State) (l : Launch) : List (Option Nat) :=
  (List.range l.lcn).map fun j => (s.dev.physCore (s.jobOf l.asid) (l.lc0 + j)).map (· * 2)

/-- A gang launch that can never be co-resident (R309, R315). -/
def State.gangHopeless (s : State) (die : Nat) (l : Launch) : Bool :=
  if l.isPlc then
    decide (l.lcn < l.units) || (s.declaredCtxs l).any fun c => match c with
      | some c => !s.fitsStanding l c
      | none => true
  else decide (((ctxsOf die).filter (s.fitsStanding l)).length < l.units)

/-- A notice to the context that accepted a launch, while it holds what launched it (R315, R489). -/
def State.notice (s : State) (l : Launch) : State :=
  let x := s.ctxOf l.by_
  if x.tenure = l.byTenure then s.setCtx l.by_ { x with pCancelled := x.pCancelled ++ [⟨BitVec.ofNat 64 l.ctr, false, some l.byTenure⟩] }
  else s

/-- A pop (R313 to R315). DESIGN CHOICE (log 86): none is prepared ahead of the walker, so the first pop after a launch has become strict
takes it. -/
def State.popLaunch (s : State) (die b1 b2 : Nat) : State :=
  let ready := s.dev.inPhase die .ready
  if 8 ≤ (s.dev.inPhase die .active).length then s
  else
    match popChoice ready b1 b2 with
    | none => s
    | some x =>
      let aged := fun (l : Launch) =>
        if l.phase = .ready ∧ s.dev.hostDie l = die ∧ l.readySeq < x.readySeq then
          { l with passes := l.passes + 1, strict := l.strict || decide (1024 ≤ l.passes + 1) }
        else l
      let s := s.onDev fun d => { d with launches := d.launches.map aged }
      if x.isGang ∧ x.head < x.stop ∧ s.gangHopeless die x then
        ((s.finishCounter x.shadow (ctrKey x.die x.ctr) true).settleLaunches).notice x
      else s.onDev fun d => { d.setLaunch { x with phase := .active, takenSeq := d.seq } with seq := d.seq + 1 }

/-- The gang of a die that reserves contexts: the first taken that has not started (R315). -/
def Dev.reserving (d : Dev) (die : Nat) : Option Launch :=
  (sortBy (·.takenSeq) ((d.inPhase die .active).filter fun l => l.isGang && decide (l.head < l.stop))).head?

/-- A context that the reserving gang may take: one of its declared primary contexts, or any until it has as many as it has units (R309,
R315). -/
def State.gangTakes (s : State) (l : Launch) (c : Nat) : Bool :=
  s.fits l c && (if l.isPlc then (s.declaredCtxs l).contains (some c) else decide (l.reserved.length < l.units))

/-- What a free context receives from one launch: a reservation or a unit. -/
def State.offer (s : State) (c : Nat) (l : Launch) : Option State :=
  if l.isGang && decide (l.head < l.stop) then
    match s.dev.reserving (dieOfCtx c) with
    | some g =>
      if g.arm == l.arm && s.gangTakes l c then some (s.onDev fun d => d.setLaunch { l with reserved := l.reserved ++ [c] }) else none
    | none => none
  else
    match s.nextUnit l c with
    | some (u, l) => some (((s.onDev fun d => d.putLaunch l).bindUnit c u l).fixTarget l)
    | none => none

/-- The active launches that hand units to the contexts of a die: its own, and ranges stolen from other devices, which run on any context
of this one (R309, R326; log 67). -/
def Dev.handing (d : Dev) (die : Nat) : List Launch :=
  d.launches.filter fun l => l.phase == .active && (d.hostDie l == die || l.owner.isSome)

/-- A free context is offered to the active launches in the order in which they were taken (R308); none where none takes it. -/
def State.handOut (s : State) (c : Nat) : Option State :=
  if s.isFree c then (sortBy (·.takenSeq) (s.dev.handing (dieOfCtx c))).findSome? (s.offer c) else none

/-- The context of a gang's unit (R309, R315). -/
def State.gangPlace (s : State) (l : Launch) (n : Nat) : Option Nat :=
  if l.isPlc then (s.declaredCtxs l).getD (n % l.lcn) none else l.reserved[n]?

/-- A reserved context that a gang can still start a unit on: it runs nothing, fits under its standing grant as it is now (R308, R315,
R346), and for a placed gang is still a declared one (R309, R354). -/
def State.keeps (s : State) (l : Launch) (c : Nat) : Bool :=
  let x := s.ctxOf c
  s.dev.coreUp (coreOf c) && x.run == .off && x.unit.isNone && s.fits l c && (!l.isPlc || (s.declaredCtxs l).contains (some c))

/-- A gang's reservation is complete (R309, R315): it holds every declared primary context, and its units have a context each. -/
def State.gangReady (s : State) (l : Launch) : Bool :=
  let places := (List.range l.units).map (s.gangPlace l)
  (!l.isPlc || (s.declaredCtxs l).all fun c => c.any l.reserved.contains) && places.all (fun c => c.any l.reserved.contains) &&
    decide places.Nodup

/-- A gang whose reservation is complete: its units start together (R315). A reserved context that does not fit any more, or is disabled
(R346), is given up. -/
def State.admitGang (s : State) (die : Nat) : Option State :=
  match s.dev.reserving die with
  | none => none
  | some l =>
    let l := { l with reserved := l.reserved.filter (s.keeps l) }
    if !s.gangReady l then
      (if s.dev.launches.contains l then none else some (s.onDev fun d => d.setLaunch l))
    else
      let l' := { l with head := l.stop, reserved := [] }
      let s' := s.onDev fun d => d.putLaunch l'
      some ((List.range l.units).foldl (fun t n =>
        match s.gangPlace l n with
        | some c => (t.bindUnit c (l.nestUnit n) l').startUnit c
        | none => t) s')

/-- What the walker would do with a context if it were free (R308, R311, R315): hand it a unit, with the launch after it, or reserve it
for a gang, none; no answer where nothing takes it. -/
def State.wouldHand (s : State) (c : Nat) : Option (Option (UnitSt × Launch)) :=
  (sortBy (·.takenSeq) (s.dev.handing (dieOfCtx c))).findSome? fun l =>
    if l.isGang && decide (l.head < l.stop) then
      match s.dev.reserving (dieOfCtx c) with
      | some g => if g.arm == l.arm && s.gangTakes l c then some none else none
      | none => none
    else (s.nextUnit l c).map some

/-- The next unit that the walker would hand to a running unit's context preloaded for it, where it is of the same launch and takes the
other staging half (R311). DEDUCED (log 47): a launch without staging (STGSZ = 0) has no half, and no unit of it is preloaded. -/
def State.preloadUnit (s : State) (c : Nat) : State :=
  let x := s.ctxOf c
  match x.unit, x.preload, s.wouldHand c with
  | some u, none, some (some (v, l)) =>
    if x.run ≠ .running ∨ l.stgsz = 0 ∨ v.arm ≠ u.arm ∨ v.ord % 2 = u.ord % 2 then s
    else
      let s := s.onDev fun d => d.putLaunch l
      (s.setCtx c { s.ctxOf c with preload := some { v with ready := l.proAddr == 0 } }).fixTarget l
  | _, _, _ => s

/-! ## Theft -/

/-- The launch record with what the thief needs to run it, as a reply carries it (R325, R420): the record and its blocks, the ASID,
the arming number. -/
def Launch.blob (l : Launch) : List Byte :=
  slice l.record 0 256 ++ slice l.space 0 64 ++ slice l.pro 0 64 ++ slice l.proNest 0 64 ++ slice l.cba 0 128 ++
    leBytes 2 l.asid.toNat ++ leBytes 8 l.arm

/-- A theft request leaves a walker (R324, R418, R420): a device that is flagged and at the other end of a direct link is asked, once at
a time, by a walker that has a free context which fits the launch, by its LG and TR, and no unit handed out that has not started. DESIGN CHOICE
(log 88): a unit preloaded for a context that still runs another (R311) is not ready to run, and does not count. -/
def State.sendTheft (s : State) (walker victim die ctr ver lg tr n : Nat) : State :=
  let d := s.dev
  let free := (ctxsOf walker).any fun c =>
    s.isFree c && decide (1 ≤ lg ∧ lg ≤ (s.avail c).1) && decide (1 ≤ tr ∧ tr ≤ (s.avail c).2)
  let waits := (ctxsOf walker).any fun c => (s.ctxOf c).unit.isSome && (s.ctxOf c).run == .off
  let direct := d.links.any fun l => l.up && l.peer == victim
  if ver = 1 ∧ d.flagged.getLsbD victim ∧ free ∧ !waits ∧ direct ∧ !d.asked.any (fun a => a.1 == victim) then
    s.onDev fun d => { d with
      asked := d.asked ++ [(victim, die, ctr)], outbox := d.outbox ++ [⟨5, victim, [die, ctr, n, d.win.domain], []⟩] }
  else s

/-- A theft request served (R324, R325): half of what is left at most, or an empty reply; an empty one too where four requests of this
walker are outstanding, the one that is served among them, and for a job that the thief does not run under the same ASID. -/
def State.serveTheft (s : State) (die ctr n thief : Nat) : State :=
  let s := s.onDev fun d => { d with thefts := d.thefts.erase (die, ctr, n, thief) }
  let found := s.dev.launches.find? fun l => l.die == die && l.ctr == ctr && !l.shadow && l.owner.isNone
  let empty := s.onDev fun d => { d with outbox := d.outbox ++ [⟨2, thief, [die, ctr, 0, 0], []⟩] }
  match found with
  | none => empty
  | some l =>
    let g := Nat.min n ((l.stop - l.head) / 2)
    if !l.isSteal || (l.phase != .ready && l.phase != .active) || !s.dev.peers.contains (thief, s.jobOf l.asid) ||
        !s.dev.peerAsids.contains (thief, l.asid.toNat) || g == 0 || decide (4 ≤ (s.dev.thefts.filter fun t => t.1 == die).length + 1) then empty
    else
      let l' := { l with stop := l.stop - g, stolen := l.stolen ++ [(thief, l.stop - g, l.stop)] }
      s.onDev fun d => { d.putLaunch l' with outbox := d.outbox ++ [⟨2, thief, [die, ctr, l.stop - g, l.stop], l.blob⟩] }

/-- The reply to a theft request (R326, R420): an empty one ends the request, and a range runs under the copied record on the contexts of this
device. It enters the walker of the first die with a free context that would take a unit of it (R308, R309), or of die 0; where that
walker has 8 active launches, the range waits as a strict launch (R308; log 67). A reply that was not asked for changes nothing. -/
def State.takeStolen (s : State) (victim die ctr lo hi : Nat) (blob : List Byte) : State :=
  let asked := s.dev.asked.contains (victim, die, ctr)
  let s := s.onDev fun d => { d with asked := d.asked.erase (victim, die, ctr) }
  if !asked ∨ hi ≤ lo ∨ field blob 7 1 ≠ 0x01 then s
  else
    let l : Launch :=
      { die := 0, ctr, shadow := false, arm := s.dev.seq, record := slice blob 0 256, space := slice blob 256 64,
        pro := slice blob 320 64, proNest := slice blob 384 64, cba := slice blob 448 128, asid := BitVec.ofNat 13 (field blob 576 2),
        by_ := numContexts, byTenure := 0, phase := .active, readySeq := s.dev.seq, bank := 0, passes := 0, strict := false,
        takenSeq := s.dev.seq, head := lo, stop := hi, cores := [], curR := 0, curC := 0, band := 0, back := [], stolen := [], lost := [],
        failed := none, reserved := [], owner := some (victim, die, ctr, field blob 578 8) }
    let l := { l with cores := (List.range l.lcn).map fun j => lo + (j + l.lcn - lo % l.lcn) % l.lcn }
    let home := ((List.range Config.dies).find? fun d => (ctxsOf d).any fun c => s.isFree c && (s.nextUnit l c).isSome).getD 0
    let full := decide (8 ≤ (s.dev.inPhase home .active).length)
    s.onDev fun d =>
      { d with launches := d.launches ++ [{ l with die := home, phase := if full then .ready else .active, strict := full }], seq := d.seq + 1 }

/-- The stolen ordinals that have not been counted (R326), each with its launch. -/
def State.stolenOrds (s : State) : List (Launch × Nat) :=
  s.dev.launches.flatMap fun l =>
    l.stolen.flatMap fun r =>
      ((List.range (r.2.2 - r.2.1)).map (r.2.1 + ·)).filterMap fun n =>
        match s.dev.counter l.shadow (ctrKey l.die l.ctr) with
        | some k => if k.counted.contains n then none else some (l, n)
        | none => none

/-- The ranges given to a thief that cannot be reached any more come back, before head (R326). -/
def State.returnStolen (s : State) (thief : Nat) : State :=
  s.dev.launches.foldl (fun s l =>
    let back := (s.stolenOrds.filter fun p => p.1.arm == l.arm && l.stolen.any fun r =>
      r.1 == thief && decide (r.2.1 ≤ p.2) && decide (p.2 < r.2.2)).map fun p => l.nestUnit p.2
    if back.isEmpty then s
    else
      s.onDev fun d => d.setLaunch { l with back := back ++ l.back, stolen := l.stolen.filter fun r => r.1 != thief }.reenter) s

/-! ## Events -/

/-- The increment at place `k` of those on their way arrives (R30, R384); past them, that of a stolen ordinal (R326). -/
def State.deliverInc (s : State) (k : Nat) : State :=
  match s.dev.incs[k]? with
  | some i =>
    ((State.countUp 4 i.shadow i.key i.ord i.arm (s.onDev fun d => { d with incs := d.incs.eraseIdx k })).settleLaunches).checkFailed i.arm
  | none =>
    match s.stolenOrds[k - s.dev.incs.length]? with
    | some (l, n) => (State.countUp 4 l.shadow (ctrKey l.die l.ctr) n l.arm s).settleLaunches
    | none => s

/-- COUNTER_INCREMENT (R30, R384). -/
def execCounterIncrement (k : Nat) (s : State) : Res := .next (s.deliverInc k)

/-- JOURNAL_RELEASE (R331): the entry of a launch whose counter is done is released. -/
def execJournalRelease (die ctr : Nat) (s : State) : Res :=
  .next (s.onDev fun d => { d with unreleased := d.unreleased.filter (· != ctrKey die ctr) })

/-- DISPATCHER_POP (R313): the banks are those that the LFSR samples. -/
def execDispatcherPop (die b1 b2 : Nat) (s : State) : Res := .next (s.popLaunch die b1 b2)

/-- GANG_ADMIT (R315). -/
def execGangAdmit (die : Nat) (s : State) : Res := .next ((s.admitGang die).getD s)

/-- UNIT_HAND_OUT (R308). -/
def execUnitHandOut (c : Nat) (s : State) : Res := .next (if c < numContexts then (s.handOut c).getD s else s)

/-- UNIT_PRELOAD (R311). -/
def execUnitPreload (c : Nat) (s : State) : Res := .next (if c < numContexts then s.preloadUnit c else s)

/-- PROLOGUE_COMPLETE (R310). -/
def execPrologueComplete (c : Nat) (s : State) : Res := .next (if c < numContexts then s.prologueOf c else s)

/-- UNIT_START (R32, R333). -/
def execUnitStart (c : Nat) (s : State) : Res := .next (if c < numContexts then s.startUnit c else s)

/-- STRAGGLER_FLAG (R324): the walkers receive the flags of a domain clasp. -/
def execStragglerFlag (flags : BitVec 64) (s : State) : Res := .next (s.onDev fun d => { d with flagged := flags })

/-- THEFT_REQUEST (R325); in the tripped state none is served (R425, `Move.outlives`). -/
def execTheftRequest (die ctr n thief : Nat) (s : State) : Res := .next (s.serveTheft die ctr n thief)

/-- THEFT_REPLY (R326). -/
def execTheftReply (victim die ctr lo hi : Nat) (blob : List (BitVec 8)) (s : State) : Res :=
  .next (s.takeStolen victim die ctr lo hi blob)

end Sys2Proof.Machine
end

