-- ==== Sys2Proof/Machine/Sched.lean ====
section
/-! DEFINITION. The SCHED words (R329 to R346): launch and its acceptance (R302, R303, R332), counters, uend and yield, clasps, grant. -/

namespace Sys2Proof.Machine

/-- A status word (R331). -/
def statusWord (code off : Nat) : Word :=
  BitVec.ofNat 64 (if code = 0 then 0 else 2 ^ 63 + off % 2 ^ 16 * 2 ^ 32 + code)

/-- A SCHED word: its level (R329), then the class Z wait (R81). -/
def State.sched (s : State) (p : Priv) (l : LateInstr) (k : State → Res) : Res :=
  s.needs p (LateInstr.encode l) fun s => s.whenDrained k

/-! ## launch -/

/-- A launch record with the blocks that acceptance copies (R310, R332). -/
structure LaunchBytes where
  record : List Byte
  space : List Byte
  pro : List Byte
  proNest : List Byte
  cba : List Byte
  deriving DecidableEq, Repr

/-- The blocks of a record read, in order (R332); the nest block that PRO names is left empty where it cannot be read (R310). No refusal
where the word waits (R221). -/
def State.readLaunch (s : State) (va : Word) : Except (Option Refused) LaunchBytes × State :=
  let rd := fun (s : State) (a : Word) (n : Nat) => s.readOwn 3 a n
  let optional := fun (s : State) (a n : Nat) => if a = 0 then (Except.ok [], s) else rd s (BitVec.ofNat 64 a) n
  match rd s va 256 with
  | (.error r, s) => (.error r, s)
  | (.ok record, s) =>
    match rd s (BitVec.ofNat 64 (field record 32 8)) 64 with
    | (.error r, s) => (.error r, s)
    | (.ok space, s) =>
      match optional s (field record 40 8) 64 with
      | (.error r, s) => (.error r, s)
      | (.ok pro, s) =>
        match optional s (field record 144 8) 128 with
        | (.error r, s) => (.error r, s)
        | (.ok cba, s) =>
          if pro.isEmpty ∨ (blockNest pro).toNat % 64 ≠ 0 then (.ok ⟨record, space, pro, [], cba⟩, s)
          else
            match rd s (blockNest pro) 64 with
            | (.ok nest, s) => (.ok ⟨record, space, pro, nest, cba⟩, s)
            | (.error none, s) => (.error none, s)
            | (.error (some _), s) => (.ok ⟨record, space, pro, [], cba⟩, s)

/-- A panel block is valid (R306). -/
def panelOk (b : List Byte) : Bool :=
  field b 0 1 == 1 && decide (field b 1 1 < 4) && field b 2 2 == 0 && field b 12 4 == 0 && field b 32 32 == 0

/-- The units of a record's launch, or its first target (R304); none for an invalid block (R303). -/
def launchUnits (b : LaunchBytes) : Option Nat :=
  if field b.record 0 8 / 2 ^ 55 % 2 = 1 then
    if panelOk b.space then some (if field b.space 4 4 = 0 ∨ field b.space 8 4 = 0 then 0 else 2 ^ 32 - 1) else none
  else
    match parseNest b.space with
    | some n => if n.count < 2 ^ 32 then some n.count else none
    | none => none

/-- The offsets of the failing fields of a record (R303, R332): each with whether it fails; conditions that join fields report 0. -/
def State.launchFails (s : State) (b : LaunchBytes) : List Nat :=
  let r := b.record
  let ctl := field r 0 8
  let bit := fun n => ctl / 2 ^ n % 2 == 1
  let kind := bit 55
  let gang := bit 54
  let det := bit 52
  let steal := bit 51
  let plc := bit 50
  let lg := ctl / 2 ^ 36 % 16
  let tr := ctl / 2 ^ 32 % 16
  let units := (launchUnits b).getD 0
  let stg := field r 128 4
  let stgsz := field r 132 4
  let lc0 := field r 136 2
  let lcn := field r 138 2
  let mapped := fun n => match s.dev.physCore (s.jobOf s.ctx.asid) n with
    | some core => dieOf core == s.die
    | none => false
  let checks : List (Nat × Bool) :=
    [(0, ctl / 2 ^ 56 != 1), (0, ctl / 2 ^ 48 % 4 != 0 || ctl % 2 ^ 32 != 0), (0, lg == 0 || decide (8 < lg)), (0, tr == 0 || decide (8 < tr)),
     (8, field r 8 8 % 4 != 0), (32, field r 32 8 % 64 != 0), (40, field r 40 8 % 64 != 0), (144, field r 144 8 % 32 != 0),
     (152, field r 152 8 % 4 != 0), (32, (launchUnits b).isNone), (56, field r 56 2 / 2 ^ 13 != 0), (58, field r 58 2 / 2 ^ 13 % 4 != 0),
     (60, field r 60 4 != 0), (128, stg / 2 ^ 21 != 0), (136, lc0 / 2 ^ 9 != 0), (138, lcn / 2 ^ 9 != 0), (140, field r 140 4 != 0),
     (160, field r 160 96 != 0),
     (0, steal && (!bit 53 || gang || det)), (0, det && (!plc || kind)), (0, kind && (gang || steal || plc)),
     (0, gang && !kind && decide (96 < units)), (0, plc && lcn == 0),
     (136, plc && !((List.range (lcn % 512)).all fun j => mapped (lc0 % 512 + j))),
     (0, stgsz != 0 && decide (0x180000 < stg % 2 ^ 21 + 2 * stgsz)), (0, field r 40 8 != 0 && stgsz == 0)]
  ((checks.filter (·.2)).map (·.1)) ++
    (List.range 4).filterMap fun i => if field r (48 + 2 * i) 2 / 2 ^ 13 % 4 ≠ 0 then some (48 + 2 * i) else none

/-- The counters of a launch are as R330 and R332 ask: 0, or the CODE that refuses it. -/
def State.launchCode (s : State) (r : List Byte) : Nat :=
  let key := fun n => ctrKey s.die n
  let ctr := key (field r 56 2 % 2 ^ 13)
  let parent := key (field r 58 2 % 2 ^ 13)
  let deps := (recordDeps r).map key
  let armed := match s.dev.counter false ctr with
    | some k => !k.done
    | none => false
  let graph := match s.dev.counter false parent with
    | some k => !k.done && k.level == 1
    | none => false
  if armed then 2
  else if (deps.any fun d => (s.dev.counter false d).isNone) || field r 58 2 / 2 ^ 15 == 0 || !graph ||
      (s.ctx.priv == .sup && (ctr :: parent :: deps).any s.foreign) then 3
  else if (s.dev.counter false ctr).isNone && s.dev.unreleased.contains ctr then 4
  else 0

/-- A record accepted (R304, R332, R383): its counter is armed and the launch waits for its dependences. -/
def State.acceptLaunch (s : State) (b : LaunchBytes) : State :=
  let r := b.record
  let ctr := field r 56 2 % 2 ^ 13
  let key := ctrKey s.die ctr
  let units := (launchUnits b).getD 0
  let panel := field r 0 8 / 2 ^ 55 % 2 == 1
  let arm := s.dev.seq
  let l : Launch :=
    { die := s.die, ctr, shadow := false, arm, record := r, space := b.space, pro := b.pro, proNest := b.proNest, cba := b.cba,
      asid := s.ctx.asid, by_ := s.cur, byTenure := s.ctx.tenure, phase := .waiting, readySeq := 0, bank := 0, passes := 0,
      strict := false, takenSeq := 0, head := 0, stop := if panel then 0 else units,
      cores := List.range (field r 138 2 % 512), curR := 0, curC := 0, band := 0, back := [], stolen := [], lost := [], failed := none,
      reserved := [], owner := none }
  let s := s.onDev fun d => { d.arm false key 0 units (some (ctrKey s.die (field r 58 2 % 2 ^ 13))) s.ctx.asid with
    launches := d.launches ++ [l]
    unreleased := d.unreleased.filter (· != key) }
  (if units = 0 then s.finishCounter false key false else s).settleLaunches

/-- The least of a list of offsets. -/
def leastOf : List Nat → Nat → Nat
  | [], m => m
  | n :: r, m => leastOf r (Nat.min n m)

/-- launch (R332). -/
def execLaunch (a d : BitVec 5) (s : State) : Res :=
  s.sched .sup (.launch a d) fun s =>
    let va := s.getX a
    if va.toNat % 64 ≠ 0 then .next (s.trap 0x04 va)
    else
      match s.release with
      | none => .next (s.stallFor .chan)
      | some s =>
        match s.readLaunch va with
        | (.error r, s) => .next (s.unread r)
        | (.ok b, s) =>
          match s.launchFails b with
          | o :: r => s.writeX d (statusWord 1 (leastOf r o))
          | [] =>
            let code := s.launchCode b.record
            if code = 0 then (s.acceptLaunch b).writeX d 0 else s.writeX d (statusWord code 0)

/-! ## Counters -/

/-- The CODE of launch.node for a node word and a target (R334). -/
def State.nodeCode (s : State) (w t : Nat) : Nat :=
  let key := ctrKey s.die (w % 2 ^ 13)
  let level := w / 2 ^ 16 % 4
  let pv := w / 2 ^ 48 % 2 == 1
  let parent := ctrKey s.die (w / 2 ^ 32 % 2 ^ 13)
  let armed := match s.dev.counter false key with
    | some k => !k.done
    | none => false
  let fits := match s.dev.counter false parent with
    | some k => !k.done && k.level == level + 1
    | none => false
  if w / 2 ^ 49 ≠ 0 ∨ w / 2 ^ 45 % 2 ^ 3 ≠ 0 ∨ w / 2 ^ 18 % 2 ^ 14 ≠ 0 ∨ w / 2 ^ 13 % 2 ^ 3 ≠ 0 ∨ 2 ^ 32 ≤ t ∨
      (pv ∧ (level = 0 ∨ level = 3)) then 1
  else if s.ctx.priv = .sup ∧ (s.foreign key ∨ (pv ∧ s.foreign parent)) then 1
  else if armed then 2
  else if level = 0 then 0
  else if pv ∧ !fits then 3
  else 0

/-- launch.node: a graph, phase or job counter armed, or a counter released (R334). -/
def execLaunchNode (a b d : BitVec 5) (s : State) : Res :=
  s.sched .sup (.launchNode a b d) fun s =>
    let w := (s.getX a).toNat
    let t := (s.getX b).toNat
    let code := s.nodeCode w t
    let key := ctrKey s.die (w % 2 ^ 13)
    if code ≠ 0 then s.writeX d (statusWord code 0)
    else if w / 2 ^ 16 % 4 = 0 then (s.onDev fun v => { v with counters := unassign key v.counters }).writeX d 0
    else
      let parent := if w / 2 ^ 48 % 2 = 1 then some (ctrKey s.die (w / 2 ^ 32 % 2 ^ 13)) else none
      let s := s.onDev fun v => v.arm false key (w / 2 ^ 16 % 4) t parent s.ctx.asid
      (if t = 0 then s.finishCounter false key false else s).settleLaunches.writeX d 0

/-- cancel (R31, R335). -/
def execCancel (a d : BitVec 5) (s : State) : Res :=
  s.sched .sup (.cancel a d) fun s =>
    let w := (s.getX a).toNat
    let key := ctrKey s.die (w % 2 ^ 13)
    if 2 ^ 13 ≤ w then s.writeX d (statusWord 1 0)
    else
      match s.dev.counter false key with
      | none => s.writeX d (statusWord 2 0)
      | some k =>
        if s.ctx.priv = .sup ∧ s.foreign key then s.writeX d (statusWord 1 0)
        else if k.done then s.writeX d 0
        else (s.cancelNode key).writeX d 0

/-- The counter word of cread (R336). -/
def Counter.word (k : Counter) : Word :=
  BitVec.ofNat 64 ((if k.done then 2 ^ 63 else 0) + (if k.canc then 2 ^ 62 else 0) + 2 ^ 61 + k.count % 2 ^ 32)

/-- A counter read (R336): an idle one reads 0. -/
def State.readCounter (s : State) (a d : BitVec 5) (f : Counter → Word) : Res :=
  let va := s.getX a
  if 2 ^ 13 ≤ va.toNat then .next (s.trap 0x08 va)
  else
    match s.dev.counter false (ctrKey s.die va.toNat) with
    | none => s.writeX d 0
    | some k =>
      let refused := match s.ctx.priv with
        | .app => k.asid != s.ctx.asid
        | .sup => s.foreign (ctrKey s.die va.toNat)
        | .hyp => false
      if refused then .next (s.trap 0x08 va) else s.writeX d (f k)

/-- cread (R336). -/
def execCread (a d : BitVec 5) (s : State) : Res := s.sched .app (.cread a d) fun s => s.readCounter a d Counter.word

/-- cread.t: the target (R336). -/
def execCreadT (a d : BitVec 5) (s : State) : Res := s.sched .app (.creadT a d) fun s => s.readCounter a d fun k => BitVec.ofNat 64 k.target

/-! ## uend and yield -/

/-- The halted channel that a uend reports (R267). DESIGN CHOICE (log 82): of several, the lowest. -/
def Ctx.haltedChan (c : Ctx) : Option (BitVec 3) :=
  ((List.range 8).map (BitVec.ofNat 3)).find? fun k => c.ch[k.toNat].halted

/-- Every channel is empty (R267). -/
def Ctx.channelsEmpty (c : Ctx) : Bool := c.ch.all fun h => h.cmds.isEmpty && h.started.isNone

/-- The increment of a unit sent (R337, step 4): to the launch counter, or for a stolen unit to its owner (R326). -/
def State.sendInc (s : State) (u : UnitSt) : State :=
  match (s.dev.launchOf u.arm).bind (·.owner) with
  | some (dev, die, ctr, arm) => s.onDev fun d => { d with outbox := d.outbox ++ [⟨3, dev, [die, ctr, u.ord, arm], []⟩] }
  | none => s.onDev fun d => { d with incs := d.incs ++ [⟨ctrKey u.die u.ctr, u.shadow, u.ord, u.arm⟩] }

/-- uend (R337). DESIGN CHOICE (log 82): a halted channel is reported at once, while others are still busy. -/
def execUend (s : State) : Res :=
  s.whenDrained fun s =>
    match s.ctx.unit with
    | none => .next (s.trap 0x01 ((encode .uend).setWidth 64))
    | some u =>
      match s.ctx.haltedChan with
      | some k =>
        let h := s.ctx.ch[k.toNat]
        .next ((s.onCtx fun c => c.setCh k { h with reported := some s.ctx.pc }).trap (h.ecause % 256) h.eaddr)
      | none =>
        if !s.ctx.channelsEmpty then .next (s.stallFor .chan)
        else
          match s.release with
          | none => .next (s.stallFor .chan)
          | some s => .next ((((s.sendInc u).depart u).freeCtx s.cur).checkFailed u.arm)

/-- A launch of the die that outranks a priority and that no free context fits (R338). -/
def State.outranked (s : State) (prio : Nat) : Bool :=
  (s.dev.inPhase s.die .ready ++ s.dev.inPhase s.die .active).any fun l =>
    decide (prio < l.prio) && !(ctxsOf s.die).any fun c => s.isFree c && s.fits l c

/-- yield (R338): cause 0x20 with tval 1 and epc past it, where a higher launch of the die wants the context. -/
def execYield (s : State) : Res :=
  s.whenDrained fun s =>
    match s.ctx.unit with
    | some u => .next (if s.outranked u.prio then s.trapPast 0x20 1 else s.retire)
    | none => .next s.retire

/-! ## Clasps -/

/-- What R339 finds for a clasp word. -/
inductive ClaspRef where
  /-- A clasp of this device and the member that the context arrives as. -/
  | here (id m : Nat) (k : Clasp)
  /-- A clasp homed on another device: HOME and ID. -/
  | away (home id : Nat)
  | refused
  deriving DecidableEq, Repr

/-- The device that a clasp word names, where that is another one (R339). -/
def State.claspHome (s : State) (w : Word) : Option Nat :=
  let home := w.toNat / 2 ^ 16 % 64
  if w.toNat / 2 ^ 22 % 2 = 1 ∧ home ≠ s.dev.win.domain then some home else none

/-- The checks of R339, where hyp may name a clasp of another ASID (R364). A clasp homed elsewhere is checked by its home, whose refusals
are known here as data (log 68). -/
def State.claspRef (s : State) (w : Word) : ClaspRef :=
  let n := w.toNat
  let home := n / 2 ^ 16 % 64
  let rm := n / 2 ^ 22 % 2 == 1
  if n / 2 ^ 23 ≠ 0 ∨ n / 2 ^ 8 % 2 ^ 8 ≠ 0 ∨ (!rm ∧ home ≠ 0) then .refused
  else if (s.claspHome w).isSome then
    (if s.dev.awayRefused.contains (home, n % 256, s.ctx.asid.toNat) then .refused else .away home (n % 256))
  else
    match lookup (n % 256) s.dev.clasps with
    | none => .refused
    | some k =>
      if k.asid ≠ s.ctx.asid ∧ s.ctx.priv ≠ .hyp then .refused
      else if k.devices then (if s.dev.win.domain < k.nmem then .here (n % 256) s.dev.win.domain k else .refused)
      else
        match s.ctx.unit with
        | none => .refused
        | some u =>
          let bound := match k.bound with
            | some b => b == (u.die, u.ctr, u.arm)
            | none => true
          if u.gang && bound && decide (u.ord < k.nmem) then .here (n % 256) u.ord k else .refused

/-- The arrivals of this device at a clasp homed elsewhere, and the episodes known to have completed. -/
def Dev.remoteAt (d : Dev) (home id : Nat) : Nat × Nat := (lookup (home * 256 + id) d.remote).getD (0, 0)

/-- Episode `e` of the clasp that a word names has completed, whatever launch it is bound to by now (R339, R343); false where the word names
none. -/
def State.episodeDone (s : State) (w e : Word) : Bool :=
  match s.claspHome w with
  | some home => decide (e.toNat < (s.dev.remoteAt home (w.toNat % 256)).2)
  | none =>
    match lookup (w.toNat % 256) s.dev.clasps with
    | some k => decide (e.toNat < k.epoch)
    | none => false

/-- The arrival of a member in its next episode (R320, R340, R344): a unit clasp is bound by it; what a rerun member has recorded is
kept. DESIGN CHOICE (log 106): a clasp homed on another device is one of device members, whatever kind its home has configured, so an
arrival there is one of this device, and its member is the domain number. -/
def State.arriveAt (s : State) (r : ClaspRef) : State :=
  match r with
  | .here id m k =>
    let e := k.nextOf m
    let bound := if k.devices then k.bound else (match k.bound with
      | some b => some b
      | none => s.ctx.unit.map fun u => (u.die, u.ctr, u.arm))
    let arrivals := if k.arrived m e then k.arrivals else k.arrivals ++ [(m, e, BitVec.ofNat 64 s.gts)]
    let replay := match lookup m k.replay with
      | some n => assign m (n + 1) k.replay
      | none => k.replay
    s.putClasp id { k with bound, arrivals, replay }
  | .away home id =>
    let n := (s.dev.remoteAt home id).1
    s.onDev fun d => { d with
      remote := assign (home * 256 + id) (n + 1, (d.remoteAt home id).2) d.remote
      outbox := d.outbox ++ [⟨0, home, [id, d.win.domain, s.gts], []⟩] }
  | .refused => s

/-- The episode of the next arrival. -/
def State.nextEpisode (s : State) (r : ClaspRef) : Nat :=
  match r with
  | .here _ m k => k.nextOf m
  | .away home id => (s.dev.remoteAt home id).1
  | .refused => 0

/-- A clasp whose members are devices (R339). -/
def ClaspRef.ofDevices : ClaspRef → Bool
  | .here _ _ k => k.devices
  | .away _ _ => true
  | .refused => false

/-- The checks, the stall for episode e − 2 and the release that come before an arrival (R321, R341, R342); a device that has joined a
domain takes its gts from it before it arrives at a clasp of devices (R421). -/
def State.beforeArrival (s : State) (w : Word) (k : ClaspRef → Nat → State → Res) : Res :=
  let r := s.claspRef w
  let e := s.nextEpisode r
  if r = .refused then .next (s.trap 0x08 w)
  else if (2 ≤ e ∧ !s.episodeDone w (BitVec.ofNat 64 (e - 2))) ∨ (r.ofDevices ∧ !s.dev.inTime) then
    .next (s.stallFor (.arrive w (BitVec.ofNat 64 (e - 2))))
  else
    match s.force 1 fun _ => true with
    | none => .next (s.stallFor .chan)
    | some s => k r e s

/-- The wait for an episode after an arrival (R341). -/
def State.claspWait (s : State) (w e : Word) : Res :=
  if s.episodeDone w e then .next s.retire else .next (s.stallFor (.clasp w e))

/-- The wait that an eret has resumed (R341): once it completes, CW is cleared. -/
def State.claspRewait (s : State) (w e : Word) : Res :=
  if s.episodeDone w e then .next (s.onCtx fun c => { c with cw := false, claspWord := none, rejoin := none }).retire else .next (s.stallFor (.clwait w e))

/-- clasp (R341): an arrival, then the wait for its episode; where an eret that found CW set has returned to it, that wait alone, for episode
x[xd] of the clasp word of the wait that was interrupted. DESIGN CHOICE (log 75): where software has set CW itself, that word is x[xa]. -/
def execClasp (a d : BitVec 5) (s : State) : Res :=
  s.sched .app (.clasp a d) fun s =>
    match s.ctx.stall with
    | some (.clasp w e) => s.claspWait w e
    | some (.clwait w e) => s.claspRewait w e
    | _ =>
      if s.ctx.rejoin = some s.ctx.pc then
        let w := s.ctx.claspWord.getD (s.getX a)
        if s.claspRef w = .refused then .next (s.trap 0x08 w) else s.claspRewait w (s.getX d)
      else
        s.beforeArrival (s.getX a) fun r e s =>
          ((s.arriveAt r).setX d (BitVec.ofNat 64 e)).claspWait (s.getX a) (BitVec.ofNat 64 e)

/-- clarr: an arrival whose episode is pushed to a queue; a full queue raises 0x0C (R342). DESIGN CHOICE (log 95): that is found after the
stall for episode e − 2 and the release. -/
def execClarr (a : BitVec 5) (q : BitVec 3) (s : State) : Res :=
  s.sched .app (.clarr a q) fun s =>
    s.beforeArrival (s.getX a) fun r e s =>
      let old := s.ctx.q[q.toNat]
      if 8 ≤ old.length then .next (s.trap 0x0C ((LateInstr.encode (.clarr a q)).setWidth 64))
      else .next ((s.arriveAt r).onCtx fun c => { c with q := c.q.set q.toNat (old ++ [BitVec.ofNat 64 e]) }).retire

/-- The wait of a clwait (R343). -/
def State.clwaitFor (s : State) (w e : Word) : Res := if s.episodeDone w e then .next s.retire else .next (s.stallFor (.clwait w e))

/-- clwait: the wait for an episode (R343). The checks of R339 are made once, before it: a unit clasp that none has bound may be bound to
another launch while it waits. -/
def execClwait (a b : BitVec 5) (s : State) : Res :=
  s.sched .app (.clwait a b) fun s =>
    match s.ctx.stall with
    | some (.clwait w e) => s.clwaitFor w e
    | _ =>
      let w := s.getX a
      if s.claspRef w = .refused then .next (s.trap 0x08 w) else s.clwaitFor w (s.getX b)

/-- A context that waits at a clasp of this device, whose domain number is `domain` (R339, R340). -/
def Ctx.waitsAt (x : Ctx) (domain id : Nat) : Bool :=
  match x.stall with
  | some (.clasp w _) | some (.clwait w _) | some (.arrive w _) =>
    (w.toNat / 2 ^ 22 % 2 == 0 || w.toNat / 2 ^ 16 % 64 == domain) && w.toNat % 256 == id
  | _ => false

/-- A member has arrived in an episode that has not completed, or waits (R340). -/
def State.claspBusy (s : State) (id : Nat) : Bool :=
  (match lookup id s.dev.clasps with
    | some k => k.arrivals.any fun a => decide (k.epoch ≤ a.2.1)
    | none => false) ||
  s.touched.any fun c => (s.ctxOf c).waitsAt s.dev.win.domain id

/-- clasp.cfg (R340). -/
def execClaspCfg (a b d : BitVec 5) (s : State) : Res :=
  s.sched .sup (.claspCfg a b d) fun s =>
    let w := (s.getX a).toNat
    let v := (s.getX b).toNat
    let id := w % 256
    let nmem := v / 2 ^ 56 % 2 ^ 7
    let k := v / 2 ^ 51 % 2 ^ 5
    if 2 ^ 8 ≤ w ∨ v / 2 ^ 32 % 2 ^ 19 ≠ 0 ∨ 64 < nmem ∨ (nmem ≠ 0 ∧ (k = 0 ∨ 16 < k)) then s.writeX d (statusWord 1 0)
    else if s.claspBusy id then s.writeX d (statusWord 2 0)
    else
      let c : Clasp := ⟨v / 2 ^ 63 == 1, nmem, k, v % 2 ^ 32, s.ctx.asid, none, 0, [], [], [], []⟩
      (s.onDev fun v => { v with clasps := if nmem = 0 then unassign id v.clasps else assign id c v.clasps }).writeX d 0

/-- The episode that a context waits for has completed: for a clasp homed elsewhere, this is the message that tells so. -/
def State.hearClasp (s : State) : State :=
  let wake := fun (w e : Word) =>
    match s.claspHome w with
    | some home =>
      let id := w.toNat % 256
      let r := s.dev.remoteAt home id
      s.onDev fun d => { d with remote := assign (home * 256 + id) (r.1, Nat.max r.2 (e.toNat + 1)) d.remote }
    | none => s
  match s.ctx.stall with
  | some (.clasp w e) | some (.clwait w e) | some (.arrive w e) => wake w e
  | _ => s

/-- CLASP_WAKE (R320): a context that waits for a clasp goes on, where its episode has completed. -/
def execClaspWake (c : Nat) (s : State) : Res :=
  s.resumeAt c fun k i s =>
    match k, i with
    | .clasp _ _, .late (.clasp a d) | .clwait _ _, .late (.clasp a d) | .arrive _ _, .late (.clasp a d) => execClasp a d s.hearClasp
    | .clwait _ _, .late (.clwait a b) => execClwait a b s.hearClasp
    | .arrive _ _, .late (.clarr a q) => execClarr a q s.hearClasp
    | _, _ => .next s

/-- DEVICE_MEMBER_ARRIVAL (R320): an arrival message of a device member; in the tripped state none is heard (R425, `Move.outlives`). -/
def execDeviceMemberArrival (id member : Nat) (stamp : BitVec 64) (s : State) : Res :=
  match lookup id s.dev.clasps with
  | some k =>
    if k.devices && decide (member < k.nmem) then
      .next (s.putClasp id { k with arrivals := k.arrivals ++ [(member, k.nextOf member, stamp)] })
    else .next s
  | none => .next s

/-! ## grant -/

/-- A preloaded unit whose launch no longer fits the context's standing grant is unbound (R311). -/
def State.unbindPreload (s : State) (c : Nat) : State :=
  let x := s.ctxOf c
  match x.preload with
  | none => s
  | some u =>
    match s.dev.launchOf u.arm with
    | none => s
    | some l => if x.standLgn < l.lg ∨ x.standTrn < l.tr then (s.setCtx c { x with preload := none }).takeBack u else s

/-- grant (R346). -/
def execGrant (a b d : BitVec 5) (s : State) : Res :=
  s.sched .sup (.grant a b d) fun s =>
    let w := (s.getX a).toNat
    let v := (s.getX b).toNat
    let lgn := v / 2 ^ 12 % 16
    let trn := v / 2 ^ 4 % 16
    let core := s.dev.physCore (s.jobOf s.ctx.asid) (w % 2 ^ 9)
    if 2 ^ 10 ≤ w ∨ v ≠ lgn * 2 ^ 12 + trn * 2 ^ 4 ∨ 8 < lgn ∨ 8 < trn ∨ ((lgn = 0) ≠ (trn = 0)) then s.writeX d (statusWord 1 0)
    else
      match core with
      | none => s.writeX d (statusWord 1 0)
      | some core =>
        let c := core * 2 + w / 2 ^ 9 % 2
        let o := s.ctxOf (otherOf c)
        if 8 < lgn + o.standLgn ∨ 8 < trn + o.standTrn then s.writeX d (statusWord 5 0)
        else ((s.setStanding c lgn trn).unbindPreload c).writeX d 0

end Sys2Proof.Machine
end

