-- ==== Sys2Proof/Machine/Sys.lean ====
section
/-! DEFINITION. CSR accesses (R396 to R403, R405), trap and return words (R404), tlbinv and placew (R407, R408), vfset (R409), snap
and wfi (R410, R411). -/

namespace Sys2Proof.Machine

/-! ## Reading a CSR -/

/-- The code of a privilege level (R400). -/
def Priv.code : Priv → Nat
  | .app => 0
  | .sup => 1
  | .hyp => 2

/-- The status CSR (R400). -/
def Ctx.status (c : Ctx) : Word :=
  BitVec.ofNat 64 ((if c.cw then 2 ^ 11 else 0) + (if c.tfv then 2 ^ 10 else 0) + (if c.skip then 2 ^ 9 else 0) +
    (if c.latch.isSome || c.heldLatch.isSome then 2 ^ 8 else 0) + (if c.detm then 2 ^ 7 else 0) + Priv.code c.ppriv * 2 ^ 4 +
    Priv.code c.priv)

/-- The grant CSR (R22). -/
def Ctx.grantWord (c : Ctx) (sec : Bool) : Word :=
  BitVec.ofNat 64 (c.lgb * 2 ^ 16 + c.lgn * 2 ^ 12 + c.trb * 2 ^ 8 + c.trn * 2 ^ 4 + if sec then 1 else 0)

/-- vcp (R20). -/
def Ctx.vcp (c : Ctx) : Word :=
  match c.viq with
  | [] => BitVec.ofNat 64 (2 ^ 63)
  | e :: _ => BitVec.ofNat 64 (e.pc.toNat % 2 ^ 55 / 4 * 4)

/-- The selected random handle (R402). -/
def Ctx.handle (c : Ctx) : Handle := c.rh[c.rhsel.toNat]

/-- The value of a CSR (R397); 0 for a number that is not listed. -/
def State.readCsr (s : State) (n : BitVec 12) : Word :=
  let c := s.ctx
  match n.toNat with
  | 0x000 => BitVec.ofNat 64 c.vl
  | 0x001 => c.vtype.setWidth 64
  | 0x002 => c.vmt.setWidth 64
  | 0x003 => c.vrm.setWidth 64
  | 0x004 => if c.vsat then 1 else 0
  | 0x005 => c.vfs
  | 0x006 => c.vnotify
  | 0x007 => c.vthr
  | 0x008 => c.frm.setWidth 64
  | 0x009 => c.fflags.setWidth 64
  | 0x00A => BitVec.ofNat 64 (c.hwmReg * 2 ^ 9 + c.hwmBytes)
  | 0x00B => c.vcp
  | 0x00C => c.wfmt.setWidth 64
  | 0x010 => BitVec.ofNat 64 s.cyc
  | 0x011 => BitVec.ofNat 64 s.gts
  | 0x012 => 0x0100
  | 0x013 => 0xFF
  | 0x014 => BitVec.ofNat 64 (s.dev.win.domain % 64)
  | 0x100 => c.status
  | 0x101 => c.cause
  | 0x102 => c.epc
  | 0x103 => c.epcv
  | 0x104 => c.tval
  | 0x105 => c.tvec
  | 0x106 => c.asid.setWidth 64
  | 0x107 => c.grantWord (s.cur % 2 == 1)
  | 0x108 => c.budget
  | 0x109 => c.rhsel.setWidth 64
  | 0x10A => if c.handle.valid then c.handle.key else 0
  | 0x10B => if c.handle.valid then c.handle.stream else 0
  | 0x10C => c.tmr
  | 0x205 => c.htvec
  | _ => 0

/-! ## Writing a CSR -/

/-- The value that csrw, csrs or csrc gives (R398): `fn` is 1, 2 or 3. -/
def csrResult (fn : Nat) (old x : Word) : Word := if fn = 1 then x else if fn = 2 then old ||| x else old &&& ~~~x

/-- An in-order CSR written at its commit (R15, R399); bits marked zero are ignored. -/
def Ctx.writeInOrder (c : Ctx) (n : BitVec 12) (v : Word) : Ctx :=
  match n.toNat with
  | 0x001 =>
    let c := { c with vtype := v.setWidth 5 }
    { c with vl := Nat.min c.vl c.vlmax }
  | 0x002 => { c with vmt := v.setWidth 4 }
  | 0x003 => { c with vrm := v.setWidth 2 }
  | 0x006 => { c with vnotify := BitVec.ofNat 64 (v.toNat % 2 ^ 55) }
  | 0x007 => { c with vthr := v }
  | 0x008 => { c with frm := v.setWidth 3 }
  | 0x00C => { c with wfmt := v.setWidth 4 }
  | _ => c

/-- The fields of cause (R369). -/
def causeBits (v : Word) : Word := BitVec.ofNat 64 (v.toNat / 2 ^ 63 * 2 ^ 63 + v.toNat % 2 ^ 9)

/-- The fields of epc (R129, R397). -/
def epcBits (v : Word) : Word := BitVec.ofNat 64 (v.toNat / 2 ^ 63 * 2 ^ 63 + v.toNat / 2 ^ 55 % 2 ^ 5 * 2 ^ 55 + pcBits v)

/-- The mask of vfs (R401). -/
def vfsMask (v : Word) : Word := BitVec.ofNat 64 (v.toNat / 2 ^ 16 % 2 ^ 26 * 2 ^ 16 + v.toNat % 2 ^ 8)

/-- The level that two bits name; none for 11 (R400). -/
def privOf (n : Nat) : Option Priv :=
  match n % 4 with
  | 0 => some .app
  | 1 => some .sup
  | 2 => some .hyp
  | _ => none

/-- status written by sup or hyp (R400): CW, TFV, SKIP, LP and PPRIV; none for a level that may not be written. -/
def Ctx.writeStatus (c : Ctx) (v : Word) : Option Ctx :=
  match privOf (v.toNat / 2 ^ 4) with
  | none => none
  | some p =>
    if p = .hyp ∧ c.priv ≠ .hyp then none
    else
      let keep := v.getLsbD 8
      some { c with
        cw := v.getLsbD 11, claspWord := if v.getLsbD 11 then c.claspWord else none, tfv := v.getLsbD 10, skip := v.getLsbD 9, ppriv := p
        latch := if keep then c.latch else none, heldLatch := if keep then c.heldLatch else none }

/-- An ASID that a level may take on (R356). DEDUCED (log 76): an entry with a nonzero zero field, under which every walk fails (R357), is
not valid. -/
def State.mayTakeAsid (s : State) (a : BitVec 13) : Bool :=
  asidLive (s.asidEntry a) && (s.ctx.priv == .hyp || s.jobOf a == s.jobOf s.ctx.asid)

/-- budget written (R312). -/
def Ctx.writeBudget (c : Ctx) (v : Word) : Ctx :=
  if c.unit.isNone then { c with budget := v }
  else if v = 0 then { c with budget := v, armed := false, pBudget := false }
  else if c.bused < v.toNat then { c with budget := v, armed := true, pBudget := false }
  else { c with budget := v, armed := false, pBudget := true }

/-- A CSR of kind D written (R398 to R403): the machine, or a cause with its tval; `w` is the word. -/
def State.writeDrain (s : State) (n : BitVec 12) (v w : Word) : Except (Nat × Word) State :=
  let put := fun f => Except.ok (s.onCtx f)
  match n.toNat with
  | 0x004 => put fun c => { c with vsat := v.getLsbD 0 }
  | 0x005 => put fun c => { c with vfs := vfsMask v }
  | 0x009 => put fun c => { c with fflags := v.setWidth 5 }
  | 0x00A =>
    let reg := v.toNat / 2 ^ 9 % 2 ^ 6
    let bytes := v.toNat % 2 ^ 9
    if 256 < bytes then .error (0x02, w) else put fun c => { c with hwmReg := reg, hwmBytes := bytes, v := trimV c.v reg bytes }
  | 0x100 =>
    match s.ctx.writeStatus v with
    | some c => .ok { s with ctx := c }
    | none => .error (0x02, w)
  | 0x101 => put fun c => { c with cause := causeBits v }
  | 0x102 => put fun c => { c with epc := epcBits v }
  | 0x103 => put fun c => { c with epcv := BitVec.ofNat 64 (pcBits v) }
  | 0x104 => put fun c => { c with tval := v }
  | 0x105 => put fun c => { c with tvec := BitVec.ofNat 64 (pcBits v) }
  | 0x106 => if s.mayTakeAsid (v.setWidth 13) then put fun c => { c with asid := v.setWidth 13 } else .error (0x08, v)
  | 0x108 => put fun c => c.writeBudget v
  | 0x109 => put fun c =>
      let c := { c with rhsel := v.setWidth 4 }
      if v.getLsbD 4 then { c with rh := c.rh.set c.rhsel.toNat ⟨false, 0, 0⟩ } else c
  | 0x10A => put fun c => { c with rh := c.rh.set c.rhsel.toNat { c.handle with key := v } }
  | 0x10B => put fun c => { c with rh := c.rh.set c.rhsel.toNat { c.handle with stream := v, valid := true } }
  | 0x10C => put fun c => { c with tmr := v }
  | 0x205 => put fun c => { c with htvec := BitVec.ofNat 64 (pcBits v) }
  | _ => .ok s

/-- csrr (R15, R398): an in-order CSR and a CSR of kind D wait for the VIQ; frm reads the SCT's copy; a free one reads at once. -/
def execCsrr (d : BitVec 5) (n : BitVec 12) (s : State) : Res :=
  s.needs (csrReadLevel n) (encode (.csrr d n)) fun s =>
    if n = 0x008 then s.writeX d (s.ctx.frmSct.setWidth 64)
    else if (csrRights n).map (·.kind) = some .free then s.writeX d (s.readCsr n)
    else s.whenDrained fun s => s.writeX d (s.readCsr n)

/-- The commit of a write to an in-order CSR. -/
def State.commitCsr (s : State) (fn : Nat) (n : BitVec 12) (x : Word) : Commit :=
  s.commitCtx fun c => c.writeInOrder n (csrResult fn (s.readCsr n) x)

/-- A CSR write (R15, R397, R398): one that no level may write raises 0x02 above app; an in-order one enters the VIQ, frm's copy in the SCT
changing at once; the others wait for the VIQ. -/
def State.csrAccess (s : State) (fn : Nat) (i : Instr) (a : BitVec 5) (n : BitVec 12) (go : State → Commit) : Res :=
  s.needs (csrWriteLevel n) (encode i) fun s =>
    if !csrWritable n then .next (s.trap 0x02 ((encode i).setWidth 64))
    else if inOrderCsr n then
      if 64 ≤ s.ctx.viq.length then .next (s.stallFor .viq)
      else
        let s := if n = 0x008 then
            s.onCtx fun c => { c with frmSct := (csrResult fn (c.frmSct.setWidth 64) (s.getX a)).setWidth 3 }
          else s
        s.issue i (s.getX a) 0 go
    else
      s.whenDrained fun s =>
        match s.writeDrain n (csrResult fn (s.readCsr n) (s.getX a)) ((encode i).setWidth 64) with
        | .ok s => .next s.retire
        | .error (c, t) => .next (s.trap c t)

/-- The commit of csrw (R15). -/
def commitCsrw (_a : BitVec 5) (n : BitVec 12) (op1 : Word) (s : State) : Commit := s.commitCsr 1 n op1

/-- csrw (R398). -/
def execCsrw (a : BitVec 5) (n : BitVec 12) (s : State) : Res := s.csrAccess 1 (.csrw a n) a n (commitCsrw a n (s.getX a))

/-- The commit of csrs (R15). -/
def commitCsrs (_a : BitVec 5) (n : BitVec 12) (op1 : Word) (s : State) : Commit := s.commitCsr 2 n op1

/-- csrs (R398). -/
def execCsrs (a : BitVec 5) (n : BitVec 12) (s : State) : Res := s.csrAccess 2 (.csrs a n) a n (commitCsrs a n (s.getX a))

/-- The commit of csrc (R15). -/
def commitCsrc (_a : BitVec 5) (n : BitVec 12) (op1 : Word) (s : State) : Commit := s.commitCsr 3 n op1

/-- csrc (R398). -/
def execCsrc (a : BitVec 5) (n : BitVec 12) (s : State) : Res := s.csrAccess 3 (.csrc a n) a n (commitCsrc a n (s.getX a))

/-! ## Traps and return -/

/-- ecall: cause 0x0E with epc past it (R404). -/
def execEcall (s : State) : Res := s.whenDrained fun s => .next (s.trapPast 0x0E 0)

/-- ebrk: cause 0x0F with epc past it (R404). -/
def execEbrk (s : State) : Res := s.whenDrained fun s => .next (s.trapPast 0x0F 0)

/-- eret (R375, R404). -/
def execEret (s : State) : Res :=
  s.needs .sup (encode .eret) fun s =>
    s.whenDrained fun s =>
      if s.ctx.priv = .sup ∧ s.ctx.ppriv = .hyp then .next (s.trap 0x03 ((encode .eret).setWidth 64))
      else .next (s.onCtx Ctx.eret).settleBars

/-! ## Translation and placement -/

/-- The ASIDs whose accesses an invalidation waits for, and the TLB entries that it removes (R360, R365, R407). -/
structure Reach where
  code : Nat
  asid : BitVec 13
  job : Nat
  va : Nat
  deriving DecidableEq, Repr

/-- A TLB entry that an invalidation removes (R407). -/
def Reach.removes (r : Reach) (jobOfAsid : Nat) (t : TlbEntry) : Bool :=
  let global := pteBit t.leaf.toNat 7
  match r.code with
  | 0 => (t.asid == r.asid || (global && t.job == jobOfAsid)) && r.va / 2 ^ t.bits == t.va.toNat / 2 ^ t.bits
  | 1 => t.asid == r.asid && !global
  | 2 => t.job == r.job
  | _ => true

/-- An access in progress that an invalidation waits for (R360), by the ASID and the job for which it was translated: every one that could
have used a removed translation (see `Reach.removes`). -/
def State.touches (s : State) (r : Reach) (a : BitVec 13) (job : Nat) : Bool :=
  match r.code with
  | 0 => a == r.asid || job == s.jobOf r.asid
  | 1 => a == r.asid
  | 2 => job == r.job
  | _ => true

/-- The buffered lines that an invalidation waits for leave the write-combining buffer (R360; log 54). -/
def State.drainFor (s : State) (r : Reach) : State :=
  s.touched.foldl (fun s c =>
    let x := s.ctxOf c
    if x.wcb.any fun l => s.touches r l.asid l.job then (s.setCtx c (x.leave fun l => s.touches r l.asid l.job)).settleOf c else s) s

/-- An access in progress holds the completion of an invalidation (R360): a store, a started copy, or under ASID 0 a run of the
regeneration or the fill engine. -/
def State.invalidating (s : State) (r : Reach) : Bool :=
  (s.touches r 0 (s.jobOf 0) && (!s.dev.fills.isEmpty || s.dev.regens.any fun q => q.running.isSome)) ||
  s.touched.any fun c =>
    (((s.ctxOf c).stores ++ (s.ctxOf c).late.getD []).any fun p => p.barrier == 0 && s.touches r p.asid p.job) ||
      (s.ctxOf c).ch.any fun h => match h.started with
        | some st => s.touches r st.cmd.asid st.job
        | none => false

/-- tlbinv (R360, R407). -/
def execTlbinv (d a : BitVec 5) (s : State) : Res :=
  s.needs .sup (LateInstr.encode (.tlbinv d a)) fun s =>
    s.whenDrained fun s =>
      let w := s.getX d
      let n := w.toNat
      let r : Reach := ⟨n / 2 ^ 14 % 4, w.setWidth 13, n / 2 ^ 16 % 2 ^ 8, (s.getX a).toNat / 2 ^ 16 * 2 ^ 16⟩
      let own := s.jobOf s.ctx.asid
      let outside : Bool := match r.code with
        | 0 => !asidLive (s.asidEntry r.asid) || s.jobOf r.asid != own
        | 1 => !asidLive (s.asidEntry r.asid) || s.jobOf r.asid != own
        | 2 => r.job != own
        | _ => true
      if n / 2 ^ 24 ≠ 0 ∨ n / 2 ^ 13 % 2 = 1 ∨ (s.ctx.priv = .sup ∧ outside) then .next (s.trap 0x08 w)
      else
        let s := (s.onDev fun v => { v with tlb := v.tlb.filter fun t => !r.removes (s.jobOf r.asid) t }).drainFor r
        match s.force 1 fun _ => true with
        | none => .next (s.stallFor .tlb)
        | some s => .next (if s.invalidating r then s.stallFor .tlb else s.retire)

/-- TLBINV_COMPLETE (R360): a context that waits in a tlbinv goes on, where nothing holds it. -/
def execTlbinvComplete (c : Nat) (s : State) : Res :=
  s.resumeAt c fun k i s =>
    match k, i with
    | .tlb, .late (.tlbinv d a) => execTlbinv d a s
    | _, _ => .next s

/-- The place-table selector is refused (R353, R408). -/
def badSelector (n : Nat) : Bool :=
  let kind := n / 2 ^ 14 % 4
  let index := n % 2 ^ 10
  n / 2 ^ 24 != 0 || n / 2 ^ 10 % 2 ^ 4 != 0 || kind == 3 || (kind == 0 && decide (512 ≤ index)) || (kind == 1 && decide (4 ≤ index))

/-- The place-table value is refused (R353, R408). -/
def badPlace (kind v : Nat) : Bool :=
  match kind with
  | 0 => v / 2 ^ 10 % 2 ^ 53 != 0 || v / 2 ^ 6 % 4 != 0 || decide (51 < v % 2 ^ 6)
  | 1 => v / 4 % 2 ^ 61 != 0
  | _ => v / 2 ^ 10 % 2 ^ 53 != 0 || decide (43 < v % 2 ^ 6)

/-- placew (R353, R408). -/
def execPlacew (d a : BitVec 5) (s : State) : Res :=
  s.needs .hyp (LateInstr.encode (.placew d a)) fun s =>
    s.whenDrained fun s =>
      let n := (s.getX a).toNat
      let v := s.getX d
      let kind := n / 2 ^ 14 % 4
      if badSelector n ∨ badPlace kind v.toNat then .next (s.trap 0x08 (s.getX a))
      else .next (s.onDev fun t => { t with place := assign (placeKey (n / 2 ^ 16 % 2 ^ 8) kind (n % 2 ^ 10)) v t.place }).retire

/-! ## vfset -/

/-- A facet that R167 forbids for a register (R409). -/
def badFacet (f : BitVec 16) (v : BitVec 6) : Bool :=
  (!f.getLsbD 15 && f != 0) || f.toNat / 2 ^ 9 % 8 == 7 || decide (256 < f.toNat % 2 ^ 9) || (f.getLsbD 12 && !isKey v)

/-- vfset (R409). -/
def execVfset (a : BitVec 5) (v : BitVec 6) (s : State) : Res :=
  s.needs .sup (LateInstr.encode (.vfset a v)) fun s =>
    s.whenDrained fun s =>
      let f : BitVec 16 := (s.getX a).setWidth 16
      if badFacet f v then .next (s.trap 0x02 ((LateInstr.encode (.vfset a v)).setWidth 64))
      else .next (s.onCtx fun c => c.putFacet v f).retire

/-! ## Snapshots -/

/-- Numbers in ascending order, each once. -/
def insertOnce (n : Nat) : List Nat → List Nat
  | [] => [n]
  | m :: r => if n < m then n :: m :: r else if n = m then m :: r else m :: insertOnce n r

/-- The leaves with SNAP = 1 in the tables below one of a level (R224, R348), in HBM: the entry, its size in address bits, and whether it
lies in device-reserved memory, as the entry that names the table does where `boot` says so (R428). An entry that is not a valid one is
passed over. DEDUCED (log 81): a page that another device holds has no lines among this device's. -/
def State.snapLeaves (s : State) (job : Nat) : Nat → Bool → Nat → List (Nat × Nat × Bool)
  | 0, _, _ => []
  | level + 1, boot, table =>
    (List.range (2 ^ 13)).flatMap fun i =>
      match s.dev.hbmLoc boot job (table + 8 * i) with
      | none => []
      | some key =>
        let e := s.natAt key 8
        if pteBad (level + 1) e then []
        else if !pteBit e 1 then State.snapLeaves s job level (areaOf key == 5) (ptePa e)
        else if pteBit e 6 && (pteLoc e == 0 || (pteLoc e == 3 && ptePeer e == s.dev.win.domain)) then
          [(ptePa e, levelBits (level + 1), areaOf key == 5)]
        else []

/-- The lines that a snapshot covers (R224): the HBM lines of every SNAP page of every live ASID, device-reserved ones too, by ascending
key. -/
def State.snapLines (s : State) : List Nat :=
  let ofAsid := fun (a : Nat) =>
    let e := s.asidEntry (BitVec.ofNat 13 a)
    if asidLive e then (s.snapLeaves (e / 2 ^ 40 % 256) 3 true (e / 2 ^ 16 % 2 ^ 24 * 2 ^ 16)).map fun l => (e / 2 ^ 40 % 256, l) else []
  ((List.range 8192).flatMap ofAsid).foldl (fun ls p =>
    (List.range (2 ^ p.2.2.1 / 64)).foldl (fun ls k =>
      match s.dev.hbmLoc p.2.2.2 p.1 (p.2.1 + 64 * k) with
      | some key => insertOnce key ls
      | none => ls) ls) []

/-- The memory at the cut of a snapshot of these lines: with the bytes that clasp records among them read as (R224, R490). -/
def State.cutImage (s : State) (lines : List Nat) : Memory :=
  s.mem.setAll ((lines.filter fun k => areaOf k == 7).flatMap fun k => writesAt k (s.bytesAt k 64))

/-- snap (R224, R225, R410). DESIGN CHOICE (log 103): the write-combining buffer of the snap's own context is drained first, so that its
earlier writes are in the cut (R284). -/
def execSnap (s : State) : Res :=
  s.needs .sup (encode .snap) fun s =>
    s.whenDrained fun s =>
      if s.dev.win.snapSz = 0 then .next (s.trap 0x08 0)
      else if s.dev.snap.isSome then .next (s.stallFor .snap)
      else
        match s.release with
        | none => .next (s.stallFor .chan)
        | some s =>
          let w := s.dev.win
          let p : Snap := ⟨s.cutImage s.snapLines, s.snapLines, [], w.snapBase.toNat, w.snapSz.toNat, w.snapGen, false⟩
          .next (s.onDev fun d => { d with snap := some p }).retire

/-- SNAPSHOT_LINE_COPY (R225): the line that an address of an ASID lies in. -/
def execSnapshotLineCopy (asid : BitVec 13) (va : BitVec 64) (s : State) : Res :=
  if !s.dev.hbmAwake then .next s
  else match s.walk asid va.toNat with
  | .leaf e level key =>
    match s.locOf asid va.toNat ⟨e, levelBits level, areaOf key == 5, true⟩ .load with
    | .ok l => .next (s.copyLine (l.key / 64 * 64))
    | .error _ => .next s
  | _ => .next s

/-- The end of a snapshot (R410, R414): the generation word is one more, bit 63 set where the image is incomplete. DESIGN CHOICE (log 93):
the address in SNAPGEN is one of job 0, under ASID 0 at hyp; where it does not translate nothing is written. -/
def State.endSnap (s : State) : State :=
  match s.dev.snap with
  | none => s
  | some p =>
    if !p.overflow && !(p.lines.all fun k => p.copied.contains k) then s
    else
      let s := s.onDev fun d => { d with snap := none }
      match s.translate 0 .hyp .rmw p.gen with
      | (.ok l, s) =>
        let g := s.natAt l.key 8 % 2 ^ 63
        s.settleWrites [] (writesAt l.key (leBytes 8 ((g + 1) % 2 ^ 63 + if p.overflow then 2 ^ 63 else 0)))
      | (.error _, s) => s

/-- SNAPSHOT_COMPLETE (R410). -/
def execSnapshotComplete (s : State) : Res := .next (if s.dev.hbmAwake then s.endSnap else s)

/-- The next line that the snapshot engine copies of its own accord. -/
def Snap.next (p : Snap) : Option Nat := p.lines.find? fun k => !p.copied.contains k

/-! ## wfi -/

/-- An asynchronous cause is pending (R368, R371). -/
def Ctx.asyncPending (c : Ctx) (cyc : Nat) : Bool := (c.nextAsync cyc).isSome

/-- wfi (R411). -/
def execWfi (s : State) : Res :=
  s.needs .sup (encode .wfi) fun s =>
    s.whenDrained fun s => .next (if s.ctx.asyncPending s.cyc then s.retire else s.stallFor .wfi)

end Sys2Proof.Machine
end

