-- ==== Sys2Proof/Machine/VSrt.lean ====
section
/-! DEFINITION. Facets and the sorted family (R166 to R187). -/

namespace Sys2Proof.Machine

/-! ## Facets (R166) -/

def facetS (f : BitVec 16) : Bool := f.getLsbD 15
def facetD (f : BitVec 16) : Bool := f.getLsbD 14
def facetU (f : BitVec 16) : Bool := f.getLsbD 13
def facetK (f : BitVec 16) : Nat := f.toNat / 2 ^ 9 % 8
def facetL (f : BitVec 16) : Nat := f.toNat % 2 ^ 9

/-- The facet of a sorted run (R166). -/
def mkFacet (d u p : Bool) (k l : Nat) : BitVec 16 :=
  BitVec.ofNat 16 (2 ^ 15 + (if d then 2 ^ 14 else 0) + (if u then 2 ^ 13 else 0) + (if p then 2 ^ 12 else 0) + k % 8 * 2 ^ 9 + l % 2 ^ 9)

/-! ## Keys (R170) -/

/-- The width of a key type. -/
def keyWidth (k : Nat) : Nat :=
  match k with
  | 0 => 32
  | 1 => 32
  | 2 => 32
  | 3 => 64
  | 4 => 64
  | 5 => 64
  | _ => 16

/-- The float type of a key type. -/
def keyFloat (k : Nat) : Option FType :=
  match k with
  | 2 => some .f32
  | 5 => some .f64
  | 6 => some .bf16
  | _ => none

/-- The ordinal of a key (R170). -/
def ordinal (k b : Nat) : Nat :=
  let top := 2 ^ (keyWidth k - 1)
  match k with
  | 1 => b
  | 4 => b
  | 0 => b ^^^ top
  | 3 => b ^^^ top
  | _ => if b / top % 2 = 0 then b + top else 2 * top - 1 - b

/-- A key that is a NaN. -/
def keyNan (k b : Nat) : Bool :=
  match keyFloat k with
  | some t => (t.decode b).isNan
  | none => false

/-- x precedes y (R170). -/
def before (k : Nat) (d : Bool) (x y : Nat) : Bool :=
  if d then decide (ordinal k y < ordinal k x) else decide (ordinal k x < ordinal k y)

/-- A key with its payload. -/
abbrev Keyed := Nat × Nat

/-- A key put into its place, before those that it does not follow (R176, R183). -/
def insertKey (after : Keyed → Keyed → Bool) (x : Keyed) : List Keyed → List Keyed
  | [] => [x]
  | y :: r => if after y x then y :: insertKey after x r else x :: y :: r

/-- A stable sort, where `first y x` says that y precedes x. -/
def sortKeys (first : Keyed → Keyed → Bool) (xs : List Keyed) : List Keyed := xs.foldr (insertKey first) []

/-- A stable merge, elements of the first list before equal ones of the second (R177); the flag of each element says that it comes
from the first. DESIGN CHOICE (log 58): of runs that vfset has tagged and that are not in order, the heads are compared in the same
way. -/
def mergeKeys (k : Nat) (d : Bool) : Nat → List Keyed → List Keyed → List (Keyed × Bool)
  | 0, _, _ => []
  | _ + 1, [], ys => ys.map fun y => (y, false)
  | _ + 1, xs, [] => xs.map fun x => (x, true)
  | n + 1, x :: xs, y :: ys =>
    if before k d y.1 x.1 then (y, false) :: mergeKeys k d n (x :: xs) ys else (x, true) :: mergeKeys k d n xs (y :: ys)

/-- No two keys are equal (R174). -/
def distinctKeys : List Nat → Bool
  | [] => true
  | x :: r => !r.contains x && distinctKeys r

/-! ## Operands and results -/

/-- The first `n` keys of a register with their payloads, 0 where there are none to read (R167, R176). -/
def Ctx.keyed (c : Ctx) (a : BitVec 6) (p : Bool) (n : Nat) : List Keyed :=
  (List.range n).map fun i => (c.elem a i, if p then c.elem (vreg a 32) i else 0)

/-- The run that a sorted operand holds (R171). -/
def Ctx.sortedRun (c : Ctx) (a : BitVec 6) : List Keyed :=
  c.keyed a (facetP (c.getFacet a)) (Nat.min (facetL (c.getFacet a)) c.vl)

/-- A run written (R174): keys, payloads where the result carries them, zeros up to vl, and the facet. -/
def Ctx.putRun (c : Ctx) (d : BitVec 6) (desc p : Bool) (k : Nat) (xs : List Keyed) : Ctx :=
  let n := xs.length
  let rest := (List.range (c.vl - n)).map fun j => (n + j, 0)
  let idx := List.range n
  let c := c.writeV d c.sew (idx.zip (xs.map (·.1)) ++ rest)
  let c := if p then c.writeV (vreg d 32) c.sew (idx.zip (xs.map (·.2)) ++ rest) else c
  c.putFacet d (mkFacet desc (distinctKeys (xs.map (·.1))) p k n)

/-! ## Checks (R173) -/

/-- FACET_MISMATCH with its two facets (R173). -/
def facetTval (fa other : BitVec 16) : Word := BitVec.ofNat 64 (fa.toNat + 2 ^ 16 * other.toNat)

/-- Check 1: the width of K is SEW. -/
def State.keyOp (s : State) (i : Instr) (k : BitVec 3) (go : Nat → Commit) : Commit :=
  if keyWidth k.toNat ≠ s.ctx.sew then s.badField i else go k.toNat

/-- Checks 1 to 3 of one sorted operand. -/
def State.sorted1 (s : State) (i : Instr) (a : BitVec 6) (k : BitVec 3) (needP : Bool) (go : Nat → Commit) : Commit :=
  s.keyOp i k fun kk =>
    let fa := s.ctx.getFacet a
    if !facetS fa then .trap 0x09 (a.setWidth 64) s
    else if facetK fa ≠ kk ∨ (needP && !facetP fa) then .trap 0x0A (facetTval fa (mkFacet (facetD fa) false needP kk 0)) s
    else go kk

/-- Checks 1 to 3 of two sorted operands (R173); `sameP` for vmrg and vmrgc. DEDUCED (log 73): where more than one disagreement of check 3
holds, tval reports the first in the order in which the rule lists them: D or K of the operands, the instruction's K, then P. -/
def State.sorted2 (s : State) (i : Instr) (a b : BitVec 6) (k : BitVec 3) (sameP : Bool) (go : Nat → Commit) : Commit :=
  s.keyOp i k fun kk =>
    let fa := s.ctx.getFacet a
    let fb := s.ctx.getFacet b
    if !facetS fa then .trap 0x09 (a.setWidth 64) s
    else if !facetS fb then .trap 0x09 (b.setWidth 64) s
    else if facetD fa ≠ facetD fb ∨ facetK fa ≠ facetK fb then .trap 0x0A (facetTval fa fb) s
    else if facetK fa ≠ kk then .trap 0x0A (facetTval fa (mkFacet (facetD fa) false false kk 0)) s
    else if sameP && facetP fa != facetP fb then .trap 0x0A (facetTval fa fb) s
    else go kk

/-- Check 4: a result with payloads has its destinations in v2 to v31. -/
def State.pairedDest (s : State) (i : Instr) (p : Bool) (ds : List (BitVec 6)) (go : Unit → Commit) : Commit :=
  if p && !ds.all hasPartner then s.badField i else go ()

/-! ## The instructions -/

/-- The commit of vsort (R176). -/
def commitVsort (d a : BitVec 6) (p de : BitVec 1) (k : BitVec 3) (s : State) : Commit :=
  s.keyOp (.vsort d a p de k) k fun kk =>
    let desc := de == 1
    let xs := sortKeys (fun y x => before kk desc y.1 x.1) (s.ctx.keyed a (p == 1) s.ctx.vl)
    s.commitCtx fun c => c.putRun d desc (p == 1) kk xs

/-- vsort: a stable sort of the elements below vl (R176). -/
def execVsort (d a : BitVec 6) (p de : BitVec 1) (k : BitVec 3) (s : State) : Res :=
  s.issue (.vsort d a p de k) 0 0 (commitVsort d a p de k)

/-- The merged sequence of two runs (R177). -/
def Ctx.merged (c : Ctx) (a b : BitVec 6) (kk : Nat) : List (Keyed × Bool) :=
  let xs := c.sortedRun a
  let ys := c.sortedRun b
  mergeKeys kk (facetD (c.getFacet a)) (xs.length + ys.length) xs ys

/-- The commit of vmrg (R177). -/
def commitVmrg (d a b : BitVec 6) (k : BitVec 3) (s : State) : Commit :=
  s.sorted2 (.vmrg d a b k) a b k true fun kk =>
    let fa := s.ctx.getFacet a
    s.pairedDest (.vmrg d a b k) (facetP fa) [d, vreg d 1] fun _ =>
      let seq := (s.ctx.merged a b kk).map (·.1)
      s.commitCtx fun c =>
        (c.putRun d (facetD fa) (facetP fa) kk (seq.take c.vl)).putRun (vreg d 1) (facetD fa) (facetP fa) kk (seq.drop c.vl)

/-- vmrg: a stable merge of two runs into a pair (R177). -/
def execVmrg (d a b : BitVec 6) (k : BitVec 3) (s : State) : Res := s.issue (.vmrg d a b k) 0 0 (commitVmrg d a b k)

/-- The commit of vmrgc (R178). -/
def commitVmrgc (q : BitVec 3) (a b : BitVec 6) (k : BitVec 3) (s : State) : Commit :=
  s.sorted2 (.vmrgc q a b k) a b k true fun kk =>
    s.pushQ q (BitVec.ofNat 64 (((s.ctx.merged a b kk).take s.ctx.vl).filter (·.2)).length)

/-- vmrgc: how many elements of va the lower half of the merge holds (R178). -/
def execVmrgc (q : BitVec 3) (a b : BitVec 6) (k : BitVec 3) (s : State) : Res := s.issue (.vmrgc q a b k) 0 0 (commitVmrgc q a b k)

/-- The intersection of two runs (R179). -/
def intersect (k : Nat) (d : Bool) : Nat → List Keyed → List Keyed → List Keyed
  | 0, _, _ => []
  | _ + 1, [], _ => []
  | _ + 1, _, [] => []
  | n + 1, x :: xs, y :: ys =>
    if before k d x.1 y.1 then intersect k d n xs (y :: ys)
    else if before k d y.1 x.1 then intersect k d n (x :: xs) ys
    else x :: intersect k d n xs ys

/-- A run written, and vl set to its length (R174). -/
def Ctx.putRunVl (c : Ctx) (d : BitVec 6) (desc p : Bool) (k : Nat) (xs : List Keyed) : Ctx :=
  { c.putRun d desc p k xs with vl := xs.length }

/-- The commit of visec (R179). -/
def commitVisec (d a b : BitVec 6) (k : BitVec 3) (s : State) : Commit :=
  s.sorted2 (.visec d a b k) a b k false fun kk =>
    let fa := s.ctx.getFacet a
    s.pairedDest (.visec d a b k) (facetP fa) [d] fun _ =>
      let xs := s.ctx.sortedRun a
      let ys := s.ctx.sortedRun b
      s.commitCtx fun c => c.putRunVl d (facetD fa) (facetP fa) kk (intersect kk (facetD fa) (xs.length + ys.length) xs ys)

/-- visec: the keys of va that have a partner in vb; vl takes their number (R179). -/
def execVisec (d a b : BitVec 6) (k : BitVec 3) (s : State) : Res := s.issue (.visec d a b k) 0 0 (commitVisec d a b k)

/-- The first element of each group of equal keys (R180), wherever its other elements lie. -/
def firstOfGroups : List Keyed → List Keyed
  | [] => []
  | x :: r => x :: (firstOfGroups r).filter fun y => y.1 != x.1

/-- The commit of vuniq (R180). -/
def commitVuniq (d a : BitVec 6) (k : BitVec 3) (s : State) : Commit :=
  s.sorted1 (.vuniq d a k) a k false fun kk =>
    let fa := s.ctx.getFacet a
    s.pairedDest (.vuniq d a k) (facetP fa) [d] fun _ =>
      s.commitCtx fun c => c.putRunVl d (facetD fa) (facetP fa) kk (firstOfGroups (c.sortedRun a))

/-- vuniq: the first element of each group of equal keys; vl takes their number (R180). -/
def execVuniq (d a : BitVec 6) (k : BitVec 3) (s : State) : Res := s.issue (.vuniq d a k) 0 0 (commitVuniq d a k)

/-- The counts of vrank and vrank.le (R181). -/
def State.rank (s : State) (i : Instr) (d a b : BitVec 6) (k : BitVec 3) (le : Bool) : Commit :=
  s.sorted1 i a k false fun kk =>
    let desc := facetD (s.ctx.getFacet a)
    s.mapV d 0 fun j =>
      let probe := s.ctx.elem b j
      ((s.ctx.sortedRun a).filter fun x => before kk desc x.1 probe || (le && x.1 == probe)).length

/-- The commit of vrank. -/
def commitVrank (d a b : BitVec 6) (k : BitVec 3) (s : State) : Commit := s.rank (.vrank d a b k) d a b k false

/-- vrank: for each probe, how many keys of the run come before it (R181). -/
def execVrank (d a b : BitVec 6) (k : BitVec 3) (s : State) : Res := s.issue (.vrank d a b k) 0 0 (commitVrank d a b k)

/-- The commit of vrank.le. -/
def commitVrankLe (d a b : BitVec 6) (k : BitVec 3) (s : State) : Commit := s.rank (.vrankLe d a b k) d a b k true

/-- vrank.le: for each probe, how many keys of the run come before it or equal it (R181). -/
def execVrankLe (d a b : BitVec 6) (k : BitVec 3) (s : State) : Res := s.issue (.vrankLe d a b k) 0 0 (commitVrankLe d a b k)

/-- The commit of vpart (R182): `op1` holds x[xb]. -/
def commitVpart (d a : BitVec 6) (b : BitVec 5) (k : BitVec 3) (op1 : Word) (s : State) : Commit :=
  s.sorted1 (.vpart d a b k) a k false fun kk =>
    let fa := s.ctx.getFacet a
    s.pairedDest (.vpart d a b k) (facetP fa) [d, vreg d 1] fun _ =>
      let p := ordinal kk (op1.toNat % 2 ^ s.ctx.sew)
      let low := (s.ctx.sortedRun a).filter fun x => decide (ordinal kk x.1 ≤ p)
      let high := (s.ctx.sortedRun a).filter fun x => decide (p < ordinal kk x.1)
      s.commitCtx fun c => (c.putRun d (facetD fa) (facetP fa) kk low).putRun (vreg d 1) (facetD fa) (facetP fa) kk high

/-- vpart: a run split at a pivot into a pair (R182). -/
def execVpart (d a : BitVec 6) (b : BitVec 5) (k : BitVec 3) (s : State) : Res :=
  s.issue (.vpart d a b k) (s.getX b) 0 (commitVpart d a b k (s.getX b))

/-- The commit of vtopk (R183): `op1` holds x[xk]. -/
def commitVtopk (d a : BitVec 6) (b : BitVec 5) (k : BitVec 3) (op1 : Word) (s : State) : Commit :=
  s.sorted1 (.vtopk d a b k) a k true fun kk =>
    let run := s.ctx.sortedRun a
    let nk := (run.filter fun x => keyNan kk x.1).length
    let cand := sortKeys (fun y x => before kk true y.1 x.1 || (y.1 == x.1 && decide (y.2 < x.2))) (run.filter fun x => !keyNan kk x.1)
    let s := s.onCtx fun c =>
      { c.putRun d true true kk (cand.take op1.toNat) with
        vfs := BitVec.ofNat 64 (c.vfs.toNat % 2 ^ 33 + nk % 2 ^ 9 * 2 ^ 33) }
    .done (if nk = 0 then s else s.orFlags flagNV)

/-- vtopk: the k greatest keys that are not NaN, with their payloads (R183). -/
def execVtopk (d a : BitVec 6) (b : BitVec 5) (k : BitVec 3) (s : State) : Res :=
  s.issue (.vtopk d a b k) (s.getX b) 0 (commitVtopk d a b k (s.getX b))

/-- The commit of vcmpt (R184). -/
def commitVcmpt (d a : BitVec 6) (k : BitVec 3) (s : State) : Commit :=
  s.sorted1 (.vcmpt d a k) a k false fun kk =>
    let fa := s.ctx.getFacet a
    let t := s.ctx.vthr.toNat % 2 ^ s.ctx.sew
    let run := s.ctx.sortedRun a
    let run := if facetP fa then run else (run.map (·.1)).zip (List.range run.length)
    let kept := run.filter fun x => !keyNan kk t && !keyNan kk x.1 && decide (ordinal kk t ≤ ordinal kk x.1)
    s.commitCtx fun c => c.putRunVl d (facetD fa) true kk kept

/-- vcmpt: the elements of a run at or above the threshold of vthr, with their payloads or indices; vl takes their number (R184). -/
def execVcmpt (d a : BitVec 6) (k : BitVec 3) (s : State) : Res := s.issue (.vcmpt d a k) 0 0 (commitVcmpt d a k)

/-- Keys in order, each before the next or equal to it (R185). -/
def inOrderKeys (k : Nat) (d : Bool) : List Nat → Bool
  | [] => true
  | [_] => true
  | x :: y :: r => (before k d x y || x == y) && inOrderKeys k d (y :: r)

/-- The commit of vchks (R185). -/
def commitVchks (a : BitVec 6) (de : BitVec 1) (k : BitVec 3) (s : State) : Commit :=
  s.keyOp (.vchks a de k) k fun kk =>
    let keys := (s.ctx.keyed a false s.ctx.vl).map (·.1)
    let f := if inOrderKeys kk (de == 1) keys then mkFacet (de == 1) (distinctKeys keys) (hasPartner a) kk s.ctx.vl else 0
    s.commitCtx fun c => c.putFacet a f

/-- vchks: the facet of va says whether its elements below vl are in order (R185). -/
def execVchks (a : BitVec 6) (de : BitVec 1) (k : BitVec 3) (s : State) : Res := s.issue (.vchks a de k) 0 0 (commitVchks a de k)

/-- The commit of vfacet (R186). -/
def commitVfacet (q : BitVec 3) (a : BitVec 6) (s : State) : Commit := s.pushQ q ((s.ctx.getFacet a).setWidth 64)

/-- vfacet: the facet of va, pushed to a queue (R186). -/
def execVfacet (q : BitVec 3) (a : BitVec 6) (s : State) : Res := s.issue (.vfacet q a) 0 0 (commitVfacet q a)

end Sys2Proof.Machine
end

