-- ==== Sys2Proof/Machine/Commit.lean ====
section
/-! DEFINITION. The commit of an entry of the vector instruction queue, by its instruction (R12 to R14), and which instructions are
events. -/

namespace Sys2Proof.Machine

/-- What an entry does at the commit point; a form that does not enter the queue does nothing there. -/
def commit (i : Instr) (op1 op2 : Word) (s : State) : Commit :=
  match i with
  | .vsetvl v0 v1 v2 v3 => commitVsetvl v0 v1 v2 v3 op1 op2 s
  | .vgetvl v0 => commitVgetvl v0 s
  | .vadd v0 v1 v2 v3 => commitVadd v0 v1 v2 v3 s
  | .vsub v0 v1 v2 v3 => commitVsub v0 v1 v2 v3 s
  | .vmul v0 v1 v2 v3 => commitVmul v0 v1 v2 v3 s
  | .vmulh v0 v1 v2 v3 v4 => commitVmulh v0 v1 v2 v3 v4 s
  | .vdiv v0 v1 v2 v3 v4 => commitVdiv v0 v1 v2 v3 v4 s
  | .vrem v0 v1 v2 v3 v4 => commitVrem v0 v1 v2 v3 v4 s
  | .vmin v0 v1 v2 v3 v4 => commitVmin v0 v1 v2 v3 v4 s
  | .vmax v0 v1 v2 v3 v4 => commitVmax v0 v1 v2 v3 v4 s
  | .vand v0 v1 v2 v3 => commitVand v0 v1 v2 v3 s
  | .vor v0 v1 v2 v3 => commitVor v0 v1 v2 v3 s
  | .vxor v0 v1 v2 v3 => commitVxor v0 v1 v2 v3 s
  | .vsll v0 v1 v2 v3 => commitVsll v0 v1 v2 v3 s
  | .vsrl v0 v1 v2 v3 => commitVsrl v0 v1 v2 v3 s
  | .vsra v0 v1 v2 v3 => commitVsra v0 v1 v2 v3 s
  | .vseq v0 v1 v2 v3 => commitVseq v0 v1 v2 v3 s
  | .vsne v0 v1 v2 v3 => commitVsne v0 v1 v2 v3 s
  | .vslt v0 v1 v2 v3 v4 => commitVslt v0 v1 v2 v3 v4 s
  | .vsle v0 v1 v2 v3 v4 => commitVsle v0 v1 v2 v3 v4 s
  | .vsel v0 v1 v2 => commitVsel v0 v1 v2 s
  | .vmv v0 v1 v2 => commitVmv v0 v1 v2 s
  | .vpopc v0 v1 v2 => commitVpopc v0 v1 v2 s
  | .vxorpop v0 v1 v2 v3 => commitVxorpop v0 v1 v2 v3 s
  | .vclz v0 v1 v2 => commitVclz v0 v1 v2 s
  | .vrecAdd v0 v1 v2 => commitVrecAdd v0 v1 v2 s
  | .vrecMax v0 v1 v2 v3 => commitVrecMax v0 v1 v2 v3 s
  | .vrecLin v0 v1 v2 v3 => commitVrecLin v0 v1 v2 v3 s
  | .vaddVx v0 v1 v2 v3 => commitVaddVx v0 v1 v2 v3 op1 s
  | .vsubVx v0 v1 v2 v3 => commitVsubVx v0 v1 v2 v3 op1 s
  | .vmulVx v0 v1 v2 v3 => commitVmulVx v0 v1 v2 v3 op1 s
  | .vmulhVx v0 v1 v2 v3 v4 => commitVmulhVx v0 v1 v2 v3 v4 op1 s
  | .vdivVx v0 v1 v2 v3 v4 => commitVdivVx v0 v1 v2 v3 v4 op1 s
  | .vremVx v0 v1 v2 v3 v4 => commitVremVx v0 v1 v2 v3 v4 op1 s
  | .vminVx v0 v1 v2 v3 v4 => commitVminVx v0 v1 v2 v3 v4 op1 s
  | .vmaxVx v0 v1 v2 v3 v4 => commitVmaxVx v0 v1 v2 v3 v4 op1 s
  | .vandVx v0 v1 v2 v3 => commitVandVx v0 v1 v2 v3 op1 s
  | .vorVx v0 v1 v2 v3 => commitVorVx v0 v1 v2 v3 op1 s
  | .vxorVx v0 v1 v2 v3 => commitVxorVx v0 v1 v2 v3 op1 s
  | .vsllVx v0 v1 v2 v3 => commitVsllVx v0 v1 v2 v3 op1 s
  | .vsrlVx v0 v1 v2 v3 => commitVsrlVx v0 v1 v2 v3 op1 s
  | .vsraVx v0 v1 v2 v3 => commitVsraVx v0 v1 v2 v3 op1 s
  | .vseqVx v0 v1 v2 v3 => commitVseqVx v0 v1 v2 v3 op1 s
  | .vsneVx v0 v1 v2 v3 => commitVsneVx v0 v1 v2 v3 op1 s
  | .vsltVx v0 v1 v2 v3 v4 => commitVsltVx v0 v1 v2 v3 v4 op1 s
  | .vsleVx v0 v1 v2 v3 v4 => commitVsleVx v0 v1 v2 v3 v4 op1 s
  | .vbcast v0 v1 v2 => commitVbcast v0 v1 v2 op1 s
  | .vclset v0 => commitVclset v0 op1 s
  | .vidxs v0 v1 v2 => commitVidxs v0 v1 v2 op1 s
  | .vfadd v0 v1 v2 v3 v4 => commitVfadd v0 v1 v2 v3 v4 s
  | .vfsub v0 v1 v2 v3 v4 => commitVfsub v0 v1 v2 v3 v4 s
  | .vfmul v0 v1 v2 v3 v4 => commitVfmul v0 v1 v2 v3 v4 s
  | .vfdiv v0 v1 v2 v3 v4 => commitVfdiv v0 v1 v2 v3 v4 s
  | .vfsqrt v0 v1 v2 v3 => commitVfsqrt v0 v1 v2 v3 s
  | .vfmadd v0 v1 v2 v3 v4 => commitVfmadd v0 v1 v2 v3 v4 s
  | .vfmin v0 v1 v2 v3 v4 => commitVfmin v0 v1 v2 v3 v4 s
  | .vfmax v0 v1 v2 v3 v4 => commitVfmax v0 v1 v2 v3 v4 s
  | .vfeq v0 v1 v2 v3 v4 => commitVfeq v0 v1 v2 v3 v4 s
  | .vflt v0 v1 v2 v3 v4 => commitVflt v0 v1 v2 v3 v4 s
  | .vfle v0 v1 v2 v3 v4 => commitVfle v0 v1 v2 v3 v4 s
  | .vfexp2 v0 v1 v2 v3 => commitVfexp2 v0 v1 v2 v3 s
  | .vfcvt v0 v1 v2 v3 => commitVfcvt v0 v1 v2 v3 s
  | .vfclass v0 v1 v2 v3 => commitVfclass v0 v1 v2 v3 s
  | .vfaddVf v0 v1 v2 v3 v4 => commitVfaddVf v0 v1 v2 v3 v4 op1 s
  | .vfsubVf v0 v1 v2 v3 v4 => commitVfsubVf v0 v1 v2 v3 v4 op1 s
  | .vfmulVf v0 v1 v2 v3 v4 => commitVfmulVf v0 v1 v2 v3 v4 op1 s
  | .vfdivVf v0 v1 v2 v3 v4 => commitVfdivVf v0 v1 v2 v3 v4 op1 s
  | .vfmaddVf v0 v1 v2 v3 v4 => commitVfmaddVf v0 v1 v2 v3 v4 op1 s
  | .vfminVf v0 v1 v2 v3 v4 => commitVfminVf v0 v1 v2 v3 v4 op1 s
  | .vfmaxVf v0 v1 v2 v3 v4 => commitVfmaxVf v0 v1 v2 v3 v4 op1 s
  | .vfeqVf v0 v1 v2 v3 v4 => commitVfeqVf v0 v1 v2 v3 v4 op1 s
  | .vfltVf v0 v1 v2 v3 v4 => commitVfltVf v0 v1 v2 v3 v4 op1 s
  | .vfleVf v0 v1 v2 v3 v4 => commitVfleVf v0 v1 v2 v3 v4 op1 s
  | .vwmul v0 v1 v2 v3 v4 => commitVwmul v0 v1 v2 v3 v4 s
  | .vwmacc v0 v1 v2 v3 v4 => commitVwmacc v0 v1 v2 v3 v4 s
  | .vwadd v0 v1 v2 v3 v4 => commitVwadd v0 v1 v2 v3 v4 s
  | .vnclip v0 v1 v2 v3 v4 => commitVnclip v0 v1 v2 v3 v4 s
  | .vsadd v0 v1 v2 v3 v4 => commitVsadd v0 v1 v2 v3 v4 s
  | .vssub v0 v1 v2 v3 v4 => commitVssub v0 v1 v2 v3 v4 s
  | .vaadd v0 v1 v2 v3 v4 => commitVaadd v0 v1 v2 v3 v4 s
  | .vhad v0 v1 v2 v3 => commitVhad v0 v1 v2 v3 s
  | .vhadC v0 v1 v2 => commitVhadC v0 v1 v2 s
  | .vqnt v0 v1 v2 v3 v4 => commitVqnt v0 v1 v2 v3 v4 s
  | .vdqnt v0 v1 v2 v3 v4 => commitVdqnt v0 v1 v2 v3 v4 s
  | .vqntC v0 v1 v2 v3 => commitVqntC v0 v1 v2 v3 s
  | .vrand v0 v1 v2 v3 => commitVrand v0 v1 v2 v3 op1 op2 s
  | .vslideup v0 v1 v2 v3 => commitVslideup v0 v1 v2 v3 op1 s
  | .vslidedn v0 v1 v2 v3 => commitVslidedn v0 v1 v2 v3 op1 s
  | .vperm v0 v1 v2 v3 => commitVperm v0 v1 v2 v3 s
  | .vzip v0 v1 v2 v3 => commitVzip v0 v1 v2 v3 s
  | .vunzip v0 v1 v2 => commitVunzip v0 v1 v2 s
  | .vcmprs v0 v1 v2 => commitVcmprs v0 v1 v2 s
  | .vexpand v0 v1 v2 => commitVexpand v0 v1 v2 s
  | .vredsum v0 v1 v2 v3 => commitVredsum v0 v1 v2 v3 s
  | .vredmax v0 v1 v2 v3 => commitVredmax v0 v1 v2 v3 s
  | .vredmin v0 v1 v2 v3 => commitVredmin v0 v1 v2 v3 s
  | .vredand v0 v1 v2 => commitVredand v0 v1 v2 s
  | .vredor v0 v1 v2 => commitVredor v0 v1 v2 s
  | .vfredsum v0 v1 v2 v3 => commitVfredsum v0 v1 v2 v3 s
  | .vmand v0 v1 v2 v3 => commitVmand v0 v1 v2 v3 s
  | .vmor v0 v1 v2 v3 => commitVmor v0 v1 v2 v3 s
  | .vmxor v0 v1 v2 v3 => commitVmxor v0 v1 v2 v3 s
  | .vmnot v0 v1 v2 => commitVmnot v0 v1 v2 s
  | .vfirst v0 v1 v2 => commitVfirst v0 v1 v2 s
  | .vcount v0 v1 v2 => commitVcount v0 v1 v2 s
  | .vidx v0 v1 v2 => commitVidx v0 v1 v2 s
  | .vld v0 v1 v2 v3 => commitVld v0 v1 v2 v3 op1 s
  | .vldStrided v0 v1 v2 v3 v4 => commitVldStrided v0 v1 v2 v3 v4 op1 op2 s
  | .vldIndexed v0 v1 v2 v3 v4 => commitVldIndexed v0 v1 v2 v3 v4 op1 s
  | .vldSeg v0 v1 v2 v3 v4 => commitVldSeg v0 v1 v2 v3 v4 op1 s
  | .vldF v0 v1 v2 v3 => commitVldF v0 v1 v2 v3 op1 s
  | .vldFSeg v0 v1 v2 v3 v4 => commitVldFSeg v0 v1 v2 v3 v4 op1 s
  | .vldSegIndexed v0 v1 v2 v3 v4 v5 => commitVldSegIndexed v0 v1 v2 v3 v4 v5 op1 s
  | .vst v0 v1 v2 v3 => commitVst v0 v1 v2 v3 op1 s
  | .vstStrided v0 v1 v2 v3 v4 => commitVstStrided v0 v1 v2 v3 v4 op1 op2 s
  | .vstIndexed v0 v1 v2 v3 v4 => commitVstIndexed v0 v1 v2 v3 v4 op1 s
  | .vstSeg v0 v1 v2 v3 v4 => commitVstSeg v0 v1 v2 v3 v4 op1 s
  | .vstN v0 v1 v2 v3 => commitVstN v0 v1 v2 v3 op1 s
  | .vstNSeg v0 v1 v2 v3 v4 => commitVstNSeg v0 v1 v2 v3 v4 op1 s
  | .vstNIndexed v0 v1 v2 v3 v4 => commitVstNIndexed v0 v1 v2 v3 v4 op1 s
  | .vsort v0 v1 v2 v3 v4 => commitVsort v0 v1 v2 v3 v4 s
  | .vmrg v0 v1 v2 v3 => commitVmrg v0 v1 v2 v3 s
  | .vmrgc v0 v1 v2 v3 => commitVmrgc v0 v1 v2 v3 s
  | .visec v0 v1 v2 v3 => commitVisec v0 v1 v2 v3 s
  | .vuniq v0 v1 v2 => commitVuniq v0 v1 v2 s
  | .vrank v0 v1 v2 v3 => commitVrank v0 v1 v2 v3 s
  | .vrankLe v0 v1 v2 v3 => commitVrankLe v0 v1 v2 v3 s
  | .vpart v0 v1 v2 v3 => commitVpart v0 v1 v2 v3 op1 s
  | .vtopk v0 v1 v2 v3 => commitVtopk v0 v1 v2 v3 op1 s
  | .vcmpt v0 v1 v2 => commitVcmpt v0 v1 v2 s
  | .vchks v0 v1 v2 => commitVchks v0 v1 v2 s
  | .vfacet v0 v1 => commitVfacet v0 v1 s
  | .mopa v0 v1 v2 v3 v4 => commitMopa v0 v1 v2 v3 v4 s
  | .mopaS v0 v1 v2 v3 v4 => commitMopaS v0 v1 v2 v3 v4 s
  | .mopaW v0 v1 v2 v3 v4 => commitMopaW v0 v1 v2 v3 v4 op1 s
  | .mopaGr v0 v1 v2 v3 => commitMopaGr v0 v1 v2 v3 op1 s
  | .tzero v0 => commitTzero v0 s
  | .tanchor v0 v1 => commitTanchor v0 v1 op1 s
  | .tres v0 v1 => commitTres v0 v1 s
  | .tmovr v0 v1 v2 v3 => commitTmovr v0 v1 v2 v3 op1 s
  | .tmovw v0 v1 v2 v3 => commitTmovw v0 v1 v2 v3 op1 s
  | .tldRaw v0 v1 => commitTldRaw v0 v1 op1 s
  | .tldCan v0 v1 v2 => commitTldCan v0 v1 v2 op1 s
  | .tstRaw v0 v1 => commitTstRaw v0 v1 op1 s
  | .tstCan v0 v1 v2 => commitTstCan v0 v1 v2 op1 s
  | .cbld v0 v1 => commitCbld v0 v1 op1 s
  | .qpush v0 v1 => commitQpush v0 v1 op1 s
  | .qstat v0 v1 => commitQstat v0 v1 s
  | .copy v0 v1 => commitCopy v0 v1 op1 s
  | .vgthr v0 v1 v2 => commitVgthr v0 v1 v2 op1 s
  | .drain v0 => commitDrain v0 s
  | .csrw v0 v1 => commitCsrw v0 v1 op1 s
  | .csrs v0 v1 => commitCsrs v0 v1 op1 s
  | .csrc v0 v1 => commitCsrc v0 v1 op1 s
  | .illegalWord v0 v1 => commitIllegalWord v0 v1 s
  | _ => .done s

/-- A constructor that stands for an event, and not for a word. -/
def isEvent : Instr → Bool
  | .waitSatisfied .. | .claspWake .. | .tlbinvComplete .. | .accessPerform .. | .wcbEarlyDrain ..
  | .scoreboardWaitEnd .. | .copyCommandStart .. | .copyCommandRetire .. | .counterIncrement .. | .journalRelease ..
  | .dispatcherPop .. | .gangAdmit .. | .unitHandOut .. | .unitPreload .. | .prologueComplete .. | .unitStart ..
  | .budget .. | .reclaim .. | .timer .. | .preempt .. | .cancelled .. | .stragglerFlag .. | .theftRequest ..
  | .theftReply .. | .regenerationRun .. | .rfill .. | .randomFillDone .. | .snapshotLineCopy ..
  | .snapshotComplete .. | .remoteRefusal .. | .partialStoreError .. | .coreFailed .. | .dieLost ..
  | .hbmStackLost .. | .linkLanesFailed .. | .linkLost .. | .softErrorThreshold .. | .linkTraining .. | .gtsSync ..
  | .hostMemoryAccess .. | .boot .. | .bootImageLoaded .. | .hypContextStart .. | .plreq .. | .powerTransitionDone ..
  | .twarn .. | .ttrip .. | .mcaddr .. | .jrctr .. | .regenRegister .. | .regenUnregister .. | .replace ..
  | .domain .. | .reset .. | .functionLevelReset .. | .conventionalReset .. | .powerOnReset ..
  | .controlWindowWrite .. | .twarnCrossing .. | .warnClear .. | .ttripCrossing .. | .tripTimerExpiry ..
  | .immediateTrip .. | .regenerationRunComplete .. | .deviceMemberArrival .. => true
  | _ => false

end Sys2Proof.Machine
end

