-- ==== Sys2Proof/Machine/Context.lean ====
section
/-! DEFINITION. Trap frames and save images (R373, R374, R378 to R381, R406): ctxsave and ctxrst. -/

namespace Sys2Proof.Machine

/-! ## Trap frames -/

/-- An instruction that captures two x registers at issue (R13, R374). -/
def capturesTwo : Instr → Bool
  | .vrand .. | .vldStrided .. | .vstStrided .. => true
  | _ => false

/-- The word offset of an entry's PC from the one before it (R374). -/
def dpcOf (prev pc : Word) : Int := ((pc.toNat : Int) - prev.toNat) / 4

/-- An entry needs its extension slot (R374). -/
def VEntry.extends (e : VEntry) (prev : Word) : Bool :=
  capturesTwo e.instr || decide (dpcOf prev e.pc < -(2 ^ 19)) || decide (2 ^ 19 ≤ dpcOf prev e.pc)

/-- META (R374). -/
def VEntry.metaWord (e : VEntry) (prev : Word) : Nat :=
  let l := match e.latch with
    | none => 0
    | some l => 2 ^ 30 + (if l.neg then 2 ^ 29 else 0) + (if l.kind then 2 ^ 28 else 0) + (if l.dcEn then 2 ^ 27 else 0) +
        (if l.pv then 2 ^ 26 else 0) + l.dcopy.toNat * 2 ^ 20
  if e.extends prev then 2 ^ 31 + l else l + (dpcOf prev e.pc % 2 ^ 20).toNat

/-- The slots of an entry (R374). -/
def VEntry.slots (e : VEntry) (prev : Word) : List Byte :=
  leBytes 4 (encode e.instr).toNat ++ leBytes 8 e.op1.toNat ++ leBytes 4 (e.metaWord prev) ++
    if e.extends prev then leBytes 8 (pcBits e.pc) ++ leBytes 8 (if capturesTwo e.instr then e.op2.toNat else 0) else []

/-- The slots of a list of entries. -/
def frameSlots : Word → List VEntry → List Byte
  | _, [] => []
  | prev, e :: r => e.slots prev ++ frameSlots e.pc r

/-- The trap frame (R373). -/
def Ctx.frameBytes (c : Ctx) : List Byte :=
  let slots := frameSlots c.epcv c.frame
  leBytes 1 0x01 ++ leBytes 1 c.frame.length ++ leBytes 1 (slots.length / 16) ++ leBytes 1 (if c.frameVf then 1 else 0) ++
    List.replicate 60 0 ++ slots

/-- An entry that a word names (R375): an instruction, or a word that raised a decode cause and raises it again. -/
def instrOf (w : Word32) : Instr :=
  match decodeWord w with
  | .ok (.instr i) => i
  | .ok (.late _) => .illegalWord w .op
  | .error e => .illegalWord w e

/-- The latch that META holds (R374). -/
def latchOf (m : Nat) : Option Latch :=
  if m / 2 ^ 30 % 2 = 1 then
    some ⟨m / 2 ^ 29 % 2 == 1, m / 2 ^ 28 % 2 == 1, 0, m / 2 ^ 26 % 2 == 1, m / 2 ^ 27 % 2 == 1, BitVec.ofNat 6 (m / 2 ^ 20), false, 0⟩
  else none

/-- `n` entries read from slots (R374, R375). -/
def readSlots : Nat → Word → List Byte → List VEntry
  | 0, _, _ => []
  | n + 1, prev, bs =>
    let m := field bs 12 4
    let ext := m / 2 ^ 31 % 2 = 1
    let pc := if ext then BitVec.ofNat 64 (pcBits (BitVec.ofNat 64 (field bs 16 8))) else pcPlus prev (4 * toSigned 20 (m % 2 ^ 20))
    let e : VEntry :=
      ⟨instrOf (BitVec.ofNat 32 (field bs 0 4)), pc, BitVec.ofNat 64 (field bs 4 8), if ext then BitVec.ofNat 64 (field bs 24 8) else 0,
        latchOf m⟩
    e :: readSlots n pc (bs.drop (if ext then 32 else 16))

/-! ## Save images -/

/-- The lend latch slot (R379): neg, kind, pred, dcopy and dc_en in the order of R135, the captured predicate and the pending bit. -/
def latchWord : Option Latch → Nat
  | none => 0
  | some l => (if l.neg then 2 ^ 13 else 0) + (if l.kind then 2 ^ 12 else 0) + l.pred.toNat * 2 ^ 7 + l.dcopy.toNat * 2 +
      (if l.dcEn then 1 else 0) + (if l.pv then 2 ^ 14 else 0) + 2 ^ 15

/-- The latch that such a slot holds, for the word at `succ`. -/
def latchFrom (n : Nat) (succ : Word) : Option Latch :=
  if n / 2 ^ 15 % 2 = 1 then
    some ⟨n / 2 ^ 13 % 2 == 1, n / 2 ^ 12 % 2 == 1, BitVec.ofNat 5 (n / 2 ^ 7), n / 2 ^ 14 % 2 == 1, n % 2 == 1, BitVec.ofNat 6 (n / 2), false,
      succ⟩
  else none

/-- A live tile (R190). -/
def Tile.live (t : Tile) : Bool := t.state != .empty || t.anchor.isSome

/-- A number rounded up to a multiple of 64. -/
def up64 (n : Nat) : Nat := (n + 63) / 64 * 64

/-- The bytes of a channel command, and its kind (R379); a qpush takes the 8 bytes of its address (log 28). -/
def Cmd.image (c : Cmd) : Nat × List Byte :=
  match c.kind with
  | .copy b n => (0, slice b 0 64 ++ slice n 0 64)
  | .gather d k p =>
    (1, slice d 0 64 ++ leBytes 8 k.length ++
      (List.range k.length).flatMap fun i => leBytes 8 (k.getD i 0).toNat ++ leBytes 8 (p.getD i 0).toNat)
  | .push a => (2, leBytes 8 a.toNat)

/-- The channel section (R379). -/
def Ctx.channelBytes (c : Ctx) : List Byte :=
  c.ch.toList.flatMap fun h => leBytes 8 h.status.toNat ++ leBytes 8 h.cmds.length ++ h.cmds.flatMap fun k => k.image.2

/-- The CSR section (R379). -/
def State.csrBytes (s : State) : List Byte :=
  let c := s.ctx
  let csr := fun n => (s.readCsr n).toNat
  let vs : List Nat :=
    [csr 0x000, csr 0x001, csr 0x002, csr 0x003, csr 0x004, csr 0x005, csr 0x006, csr 0x007, csr 0x008, csr 0x009, csr 0x00A, csr 0x100,
     csr 0x101, csr 0x102, csr 0x103, csr 0x104, csr 0x106, csr 0x107, csr 0x108, csr 0x00C, c.cl.toNat, latchWord c.heldLatch, csr 0x105,
     csr 0x10C]
  vs.flatMap (leBytes 8)

/-- The rectangle (R378, R379). -/
def Ctx.rectangle (c : Ctx) : List Byte :=
  (List.range (c.hwmReg + 1)).flatMap fun n => leBytes c.hwmBytes (c.getV (BitVec.ofNat 6 n)).toNat

/-- The queues (R379). -/
def Ctx.queueBytes (c : Ctx) : List Byte :=
  (c.q.toList.flatMap fun q => leBytes 1 q.length) ++
    c.q.toList.flatMap fun q => (List.range 8).flatMap fun i => leBytes 8 (q.getD i 0).toNat

/-- The numbers of the live tiles. -/
def Ctx.liveTiles (c : Ctx) : List (BitVec 2) := ((List.range 4).map (BitVec.ofNat 2)).filter fun t => (c.tile t).live

/-- Where the variable sections begin, and where the image ends (R379): frame, rectangle, tiles, end. -/
structure Sections where
  frame : Nat
  rect : Nat
  tiles : Nat
  total : Nat
  deriving DecidableEq, Repr

/-- The sections of an image with `chb` and `frb` bytes of channels and frame, a rectangle and `n` tiles. -/
def sectionsOf (chb frb rect n : Nat) : Sections :=
  let frame := 0x640 + up64 chb
  let r := frame + up64 frb
  let t := r + up64 rect
  ⟨frame, r, t, if n = 0 then r + rect else t + n * rawBytes⟩

/-- The parts of the image of the context whose turn it is, each at its offset (R379, R380); the slot of x[a] is left out. -/
def State.imageParts (s : State) (a : BitVec 5) : List (Nat × List Byte) × Nat :=
  let c := s.ctx
  let ch := c.channelBytes
  let fr := if c.tfv then c.frameBytes else []
  let live := c.liveTiles
  let rect := c.rectangle
  let sec := sectionsOf ch.length fr.length rect.length live.length
  let header := leBytes 1 0x01 ++ leBytes 1 c.lgn ++ leBytes 1 c.trn ++ leBytes 1 (live.foldl (fun n t => n + 2 ^ t.toNat) 0) ++
    leBytes 4 ch.length ++ leBytes 4 fr.length ++ leBytes 4 sec.total ++ leBytes 8 c.bused ++ List.replicate 40 0
  let xs := ((List.range 32).filter fun r => r != a.toNat || r == 0).map fun r =>
    (0x40 + 8 * r, leBytes 8 (c.getX (BitVec.ofNat 5 r)).toNat)
  let tiles := ((List.range live.length).zip live).map fun p =>
    (sec.tiles + p.1 * rawBytes, (c.tile p.2).rawImage (c.tileRows (c.tile p.2).cls) (s.steps * 2 ^ 20))
  ([(0, header)] ++ xs ++
    [(0x140, s.csrBytes), (0x200, c.facets.toList.flatMap fun f => leBytes 2 f.toNat),
     (0x280, c.cb.toList.flatMap fun b => leBytes 32 b.toNat), (0x300, leBytes 256 c.hl.toNat), (0x400, c.queueBytes), (0x640, ch),
     (sec.frame, fr), (sec.rect, rect)] ++ tiles, sec.total)

/-- The byte writes of parts at their offsets from an image whose pages are at these places. -/
def partWrites (ps : List (Place × Nat)) (parts : List (Nat × List Byte)) : List (Nat × Byte) :=
  let keys := ps.map fun p => (p.1.loc.key, p.2)
  let keyOf := fun (o : Nat) =>
    (keys.foldl (fun (st : Nat × Option Nat) k =>
      match st.2 with
      | some r => (st.1, some r)
      | none => if st.1 < k.2 then (0, some (k.1 + st.1)) else (st.1 - k.2, none)) (o, none)).2.getD 0
  parts.flatMap fun p => ((List.range p.2.length).zip p.2).map fun b => (keyOf (p.1 + b.1), b.2)

/-- The place that a record gives for a byte of an image written by the word at `pc` (R391). -/
def spanSpot (ps : List (Place × Nat)) (pc : Word) (key : Nat) : Spot :=
  match ps.find? fun p => decide (p.1.loc.key ≤ key) && decide (key < p.1.loc.key + p.2) with
  | some p => ⟨0, p.1.va + BitVec.ofNat 64 (key - p.1.loc.key), pc⟩
  | none => ⟨0, 0, pc⟩

/-- What a save image of the context with these parts does not hold among its bytes (R379, R380; log 28), with a unit that is parked. -/
def Ctx.savedWith (c : Ctx) (parts : List (Nat × List Byte)) (unit : Option UnitSt) : Saved :=
  { parts, unit, kinds := c.ch.toList.map fun h => h.cmds.map fun k => k.image.1, bars := c.frameBars, pBudget := c.pBudget,
    pCancelled := if unit.isSome then c.newTenure.pCancelled else [], armed := c.armed,
    succ := (c.heldLatch.map (·.succ)).getD 0, clasp := c.claspWord }

/-- The images after one more is written at a key: one that held no unit there before is gone. -/
def keepImage (key : Nat) (saved : Saved) (images : List (Nat × Saved)) : List (Nat × Saved) :=
  (key, saved) :: images.filter fun p => p.1 != key || p.2.unit.isSome

/-- The unit of the context whose turn it is parked, and the context freed (R380). -/
def State.park (s : State) (key : Nat) (saved : Saved) : State :=
  ({ s with dev := { s.dev with images := keepImage key saved s.dev.images } }).freeCtx s.cur

/-- An image holds the bytes that were written. -/
def Saved.matchesImage (v : Saved) (img : List Byte) : Bool := v.parts.all fun p => slice img p.1 p.2.length == p.2

/-- What belongs to the image at a key (R381; log 28): what was kept for the bytes that it holds, those of an image saved there first, then
those of one that software has moved (R355); else what was kept for that place, where software has changed the bytes. -/
def Dev.savedFor (d : Dev) (key : Nat) (img : List Byte) : Option (Nat × Saved) :=
  match d.images.find? fun p => p.1 == key && p.2.matchesImage img with
  | some p => some p
  | none =>
    match d.images.find? fun p => p.2.matchesImage img with
    | some p => some p
    | none => d.images.find? fun p => p.1 == key

/-- ctxsave (R379, R380, R406). -/
def execCtxsave (a : BitVec 5) (s : State) : Res :=
  s.needs .sup (LateInstr.encode (.ctxsave a)) fun s =>
    s.whenDrained fun s =>
      if s.ctx.ch.any fun h => h.started.isSome then .next (s.stallFor .chan)
      else
        match s.release with
        | none => .next (s.stallFor .chan)
        | some s =>
          let va := s.getX a
          let img := s.imageParts a
          if va.toNat % 64 ≠ 0 then .next (s.trap 0x04 va)
          else
            match s.span 0 .store (img.2 / 65536 + 2) va img.2 with
            | (.error (r, _), s) => .next (s.refuse r)
            | (.ok ps, s) =>
              let ws := partWrites ps img.1
              if s.writesOnBoard ws then .next (s.stallFor .chan)
              else
                let key := (ps.head?.map fun p => p.1.loc.key).getD 0
                let saved := s.ctx.savedWith img.1
                let s := s.perform s.cur (spanSpot ps s.ctx.pc) [] ws
                match s.ctx.tfv, s.ctx.unit with
                | true, some u => .next (s.park key (saved (some u)))
                | _, _ => .next (s.onDev fun d => { d with images := keepImage key (saved none) d.images }).retire

/-! ## Restoring -/

/-- The commands of a channel read from its part of the section, with the bytes left over. DEDUCED (log 28): the image holds no rights
of a command, and a restored one runs under the ASID and the level that the image gives its context. -/
def readCmds (asid : BitVec 13) (priv : Priv) : Nat → List Nat → List Byte → List Cmd × List Byte
  | 0, _, bs => ([], bs)
  | n + 1, kinds, bs =>
    let c : CmdKind × Nat := match kinds.headD 0 with
      | 1 =>
        let k := field bs 64 8
        (.gather (slice bs 0 64) ((List.range k).map fun i => BitVec.ofNat 64 (field bs (72 + 16 * i) 8))
          ((List.range k).map fun i => BitVec.ofNat 64 (field bs (80 + 16 * i) 8)), 72 + 16 * k)
      | 2 => (.push (BitVec.ofNat 64 (field bs 0 8)), 8)
      | _ => (.copy (slice bs 0 64) (slice bs 64 64), 128)
    match readCmds asid priv n kinds.tail (bs.drop c.2) with
    | (r, bs) => (⟨c.1, asid, priv, none, 0, 0⟩ :: r, bs)

/-- The channels read from their section (R267, R379). -/
def readChans (asid : BitVec 13) (priv : Priv) : Nat → List (List Nat) → List Byte → List Chan
  | 0, _, _ => []
  | n + 1, kinds, bs =>
    let st := field bs 0 8
    match readCmds asid priv (field bs 8 8 % 32) (kinds.headD []) (bs.drop 16) with
    | (cmds, rest) =>
      ⟨cmds, none, st / 2 ^ 63 == 1, st / 2 ^ 56 % 2 ^ 7, 0, none, st / 2 ^ 32 % 2 ^ 16, st % 2 ^ 32⟩ ::
        readChans asid priv n kinds.tail rest

/-- The scoreboard ranges of restored commands (R221), which stand behind every store that has entered the access path of their core.
DESIGN CHOICE (log 74): a restored command takes its range at once, also where the 32 entries are in use. -/
def State.boardCmds (s : State) : State :=
  let other := (s.ctxOf (otherOf s.cur)).path
  let board := fun (c : Cmd) =>
    let w := match c.kind with
      | .copy b n => ((parseNest n).bind (joinBlocks b)).map CopyCmd.work
      | .gather d k p => some (gatherWork d k p)
      | .push _ => none
    { c with board := w.bind s.boardRange, after := s.ctx.path, other }
  s.onCtx fun c => { c with ch := c.ch.map fun h => { h with cmds := h.cmds.map board } }

/-- The values of the header, the CSR section and the facts that decide whether an image fits (R379, R381). -/
def csrSlot (img : List Byte) (n : Nat) : Word := BitVec.ofNat 64 (field img (0x140 + 8 * n) 8)

/-- The context that an image gives to the one that restores it (R379, R381); none for a tile image that R205 refuses and a trap frame of
another version (R417). Facets are restored bit for bit (R187): DESIGN CHOICE (log 57), those of an image made by hand that break R167
are kept. -/
def State.imageCtx (s : State) (img : List Byte) (saved : Option Saved) : Option Ctx :=
  let c := s.ctx
  let st := csrSlot img 11
  let ppriv := (privOf (st.toNat / 2 ^ 4)).getD .app
  let asid : BitVec 13 := (csrSlot img 16).setWidth 13
  let hwm := (csrSlot img 10).toNat
  let reg := hwm / 2 ^ 9 % 2 ^ 6
  let bytes := Nat.min 256 (hwm % 2 ^ 9)
  let mask := field img 3 1
  let live := (List.range 4).filter fun t => mask / 2 ^ t % 2 == 1
  let sec := sectionsOf (field img 4 4) (field img 8 4) ((reg + 1) * bytes) live.length
  let tiles : List (Nat × Option Tile) := ((List.range live.length).zip live).map fun p =>
    (p.2, tileFrom c.tileRows (slice img (sec.tiles + p.1 * rawBytes) rawBytes))
  let frame := img.drop sec.frame
  let tfv := st.getLsbD 10
  let epc := epcBits (csrSlot img 13)
  let succ := (saved.map (·.succ)).getD (BitVec.ofNat 64 (pcBits epc))
  let latch := if st.getLsbD 8 then latchFrom (csrSlot img 21).toNat succ else none
  let chans := readChans asid ppriv 8 ((saved.map (·.kinds)).getD []) (img.drop 0x640)
  let budget := csrSlot img 18
  let used := field img 16 8
  let vtype : BitVec 5 := (csrSlot img 1).setWidth 5
  if (tiles.any fun t => t.2.isNone) ∨ (tfv ∧ frame.getD 0 0 ≠ 1) then none
  else
    some { c with
      x := Vector.ofFn fun n : Fin 32 => if n.val = 0 then 0 else BitVec.ofNat 64 (field img (0x40 + 8 * n.val) 8)
      v := Vector.ofFn fun n : Fin 64 =>
        if n.val ≤ reg then BitVec.ofNat 2048 (field img (sec.rect + n.val * bytes) bytes) else 0
      facets := Vector.ofFn fun n : Fin 64 => BitVec.ofNat 16 (field img (0x200 + 2 * n.val) 2)
      tiles := Vector.ofFn fun n : Fin 4 => ((lookup n.val tiles).bind id).getD Tile.empty
      cb := codebooks (slice img 0x280 128)
      hl := BitVec.ofNat 2048 (field img 0x300 256)
      cl := csrSlot img 20
      latch := if tfv then none else latch
      heldLatch := if tfv then latch else none
      q := Vector.ofFn fun n : Fin 8 =>
        (List.range (Nat.min 8 (field img (0x400 + n.val) 1))).map fun i => BitVec.ofNat 64 (field img (0x408 + 64 * n.val + 8 * i) 8)
      ch := Vector.ofFn fun n : Fin 8 => chans.getD n.val Chan.idle
      vl := Nat.min (csrSlot img 0).toNat ({ c with vtype } : Ctx).vlmax
      vtype
      vmt := (csrSlot img 2).setWidth 4
      vrm := (csrSlot img 3).setWidth 2
      vsat := (csrSlot img 4).getLsbD 0
      vfs := vfsMask (csrSlot img 5)
      vnotify := BitVec.ofNat 64 ((csrSlot img 6).toNat % 2 ^ 55)
      vthr := csrSlot img 7
      frm := (csrSlot img 8).setWidth 3
      frmSct := (csrSlot img 8).setWidth 3
      fflags := (csrSlot img 9).setWidth 5
      hwmReg := reg
      hwmBytes := bytes
      cw := st.getLsbD 11
      claspWord := if st.getLsbD 11 then saved.bind (·.clasp) else none
      tfv
      skip := st.getLsbD 9
      detm := st.getLsbD 7
      ppriv
      cause := causeBits (csrSlot img 12)
      epc
      epcv := BitVec.ofNat 64 (pcBits (csrSlot img 14))
      tval := csrSlot img 15
      asid
      budget
      bused := used
      armed := (saved.map (·.armed)).getD (budget != 0 && decide (used < budget.toNat))
      wfmt := (csrSlot img 19).setWidth 4
      tvec := BitVec.ofNat 64 (pcBits (csrSlot img 22))
      tmr := csrSlot img 23
      viq := []
      frame := if tfv then readSlots (Nat.min 64 (field frame 1 1)) (BitVec.ofNat 64 (pcBits (csrSlot img 14))) (frame.drop 64) else []
      frameVf := tfv && frame.getD 3 0 == 1
      bars := []
      frameBars := (saved.map (·.bars)).getD []
      late := none
      unit := saved.bind (·.unit)
      loop := none
      resume := false
      stall := none
      lag := 0
      pMcheck := c.newTenure.pMcheck
      pCancelled := (saved.map (·.pCancelled)).getD []
      pReclaim := none
      pBudget := (saved.map (·.pBudget)).getD false
      pPreempt := false
      tenure := c.newTenure.tenure }

/-- What the checks of R381 find: the unit that runs, the version, and the grant. -/
def Ctx.fitsImage (c : Ctx) (img : List Byte) : Bool :=
  c.unit.isNone && field img 0 1 == 1 && decide (field img 1 1 ≤ c.lgn) && field img 2 1 == c.trn

/-- A restored context as eret leaves it, with the commands of halted channels to be tried again (R267, R381). -/
def Ctx.resumed (c : Ctx) : Ctx :=
  let c := c.eret
  { c with ch := c.ch.map fun h => if h.halted then h.resume false else h }

/-- ctxrst (R381, R406): every page of the image translates, the image fits, and the context that it gives acts as eret does. DEDUCED
(log 89): the status and the asid of the image are checked as csrw and eret check theirs (R356, R400, R404). DESIGN CHOICE (log 102): the
image's channels replace the context's own at once, with what these still hold. -/
def execCtxrst (a : BitVec 5) (s : State) : Res :=
  s.needs .sup (LateInstr.encode (.ctxrst a)) fun s =>
    s.whenDrained fun s =>
      let va := s.getX a
      let word := (LateInstr.encode (.ctxrst a)).setWidth 64
      match s.release with
      | none => .next (s.stallFor .chan)
      | some s =>
        match s.aligned 0 .load none 64 va with
        | (.error r, s) => .next (s.refuse r)
        | (.ok p, s) =>
          match s.readOwn 2 va 64 with
          | (.error r, s) => .next (s.unread r)
          | (.ok h, s) =>
            let total := Nat.max 0x640 (field h 12 4)
            match s.span 0 .load (total / 65536 + 2) va total with
            | (.error (r, _), s) => .next (s.refuse r)
            | (.ok _, s) =>
              if !s.ctx.fitsImage h then .next (s.trap 0x08 va)
              else
                match s.readOwn (total / 65536 + 2) va total with
                | (.error r, s) => .next (s.unread r)
                | (.ok img, s) =>
                  let st := (csrSlot img 11).toNat
                  let asid : BitVec 13 := (csrSlot img 16).setWidth 13
                  if st / 2 ^ 4 % 4 = 3 then .next (s.trap 0x02 word)
                  else if st / 2 ^ 4 % 4 = 2 ∧ s.ctx.priv = .sup then .next (s.trap 0x03 word)
                  else if !s.mayTakeAsid asid then .next (s.trap 0x08 (asid.setWidth 64))
                  else
                    let kept := s.dev.savedFor p.loc.key img
                    match s.imageCtx img (kept.map (·.2)) with
                    | none => .next (s.trap 0x08 va)
                    | some c =>
                      let s := { s with ctx := c.resumed, dev := { s.dev with images := kept.elim s.dev.images s.dev.images.erase } }
                      .next s.boardCmds.settleBars

end Sys2Proof.Machine
end

