-- ==== Sys2Proof/Machine/Engines.lean ====
section
/-! DEFINITION. The regeneration engine (R226, R227, R414) and the random fill engine (R269) with their events. Both rest while HBM does
(R423, R425). -/

namespace Sys2Proof.Machine

/-! ## Bytes of job 0 -/

/-- The key of a GLOBAL address of job 0 (R413), as the engines of the device reach it, with the machine after its walk (R361). -/
def State.jobKey (s : State) (k : AccKind) (va : Nat) : Option Nat × State :=
  match s.translate 0 .hyp k (BitVec.ofNat 64 va) with
  | (.ok l, s) => (some l.key, s)
  | (.error _, s) => (none, s)

/-- `n` bytes of job 0; a byte that has no location reads 0 (log 34). -/
def State.jobBytes (s : State) (va : Nat) : Nat → List Byte × State
  | 0 => ([], s)
  | n + 1 =>
    match s.jobKey .load va with
    | (k, s) =>
      match State.jobBytes s (va + 1) n with
      | (bs, t) => ((k.map s.byteAt).getD 0 :: bs, t)

/-- The writes of bytes at an address of job 0; a byte that has no location is not written (log 34). -/
def State.jobWrites (s : State) (va : Nat) : List Byte → List (Nat × Byte) × State
  | [] => ([], s)
  | b :: r =>
    match s.jobKey .store va with
    | (k, s) =>
      match State.jobWrites s (va + 1) r with
      | (ws, s) => ((k.map fun k => (k, b)).toList ++ ws, s)

/-! ## Regeneration -/

/-- The magnitude of a value. -/
def FVal.mag : FVal → FVal
  | .nan s => .nan s
  | .inf _ => .inf false
  | .fin _ m e => .fin false m e

/-- The greatest of finite values, 0 of none. -/
def maxOf (vs : List FVal) : FVal := vs.foldl (fun a b => if a.cmp b == .lt then b else a) (.fin false 0 0)

/-- The codebook of a run (R227): the template, scaled to the greatest finite weight by one rounding. DESIGN CHOICE (log 61): a template
with a NaN has no finite maximum, and is taken as it stands. -/
def regenBook (base : List Nat) (weights : List Nat) : List Nat :=
  let bs := base.map FType.bf16.decode
  let m := maxOf ((weights.map fun w => (FType.bf16.decode w).mag).filter FVal.isFin)
  let t := maxOf (bs.map FVal.mag)
  if m.isZero || t.isZero || !bs.all FVal.isFin then base
  else bs.map fun b =>
    match FVal.mul b m with
    | some p => (fDiv .bf16 .rne p t).1
    | none => 0

/-- Two codes to a byte (R94). -/
def packCodes : List Nat → List Byte
  | a :: b :: r => BitVec.ofNat 8 (a + 16 * b) :: packCodes r
  | [a] => [BitVec.ofNat 8 a]
  | [] => []

/-- The run on the descriptor at an address (R226, R227): the writes of the output buffer and of NANC, and the GEN word. -/
def State.regenRun (s : State) (addr : Nat) : Fill × State :=
  let (d, s) := s.jobBytes addr 128
  let rows := field d 12 4
  let base := (List.range 16).map fun e => field d (64 + 2 * e) 2
  let (master, s) := s.jobBytes (field d 16 8) (192 * rows)
  let weights := (List.range (96 * rows)).map fun i => field master (2 * i) 2
  let book := regenBook base weights
  let values := book.map FType.bf16.decode
  let codes := weights.map fun w => (cbQuantise values (FType.bf16.decode w)).1
  let nans := (weights.filter fun w => (FType.bf16.decode w).isNan).length
  let (g, s) := s.jobBytes (field d 40 8) 8
  let out := field d (24 + 8 * ((leNat g + 1) % 2)) 8
  let (ws, s) := s.jobWrites out (book.flatMap (leBytes 2) ++ packCodes codes)
  let (ns, s) := s.jobWrites (addr + 96) (leBytes 8 (field d 96 8 + nans))
  let (gen, s) := s.jobKey .rmw (field d 40 8)
  (⟨ws ++ ns, gen⟩, s)

/-- What a run of an engine writes performed, and its generation word raised by one, in one access (R227, R269, R279). -/
def State.finish (s : State) (f : Fill) : State :=
  let s := s.settleWrites [] f.writes
  match f.gen with
  | some g => s.settleWrites [] (writesAt g (leBytes 8 (s.natAt g 8 + 1)))
  | none => s

/-- The descriptor at place `k` replaced. -/
def Dev.setRegen (d : Dev) (k : Nat) (r : Regen) : Dev := { d with regens := d.regens.set k r }

/-- REGENERATION_RUN (R227): a run that is owed starts and reads what it needs. -/
def execRegenerationRun (k : Nat) (s : State) : Res :=
  match s.dev.regens[k]? with
  | none => .next s
  | some r =>
    if r.owed = 0 ∨ r.running.isSome ∨ !s.dev.hbmAwake then .next s
    else
      match s.regenRun r.addr.toNat with
      | (f, s) => .next (s.onDev fun d => d.setRegen k { r with owed := r.owed - 1, running := some f })

/-- REGENERATION_RUN_COMPLETE (R227, R414): the run's writes are performed; a descriptor that was to go is unregistered. -/
def execRegenerationRunComplete (k : Nat) (s : State) : Res :=
  match s.dev.regens[k]? with
  | none => .next s
  | some r =>
    match r.running with
    | none => .next s
    | some f =>
      if !s.dev.hbmAwake then .next s
      else
      let s := s.onDev fun d => { d with regens := if r.drop then d.regens.eraseIdx k else d.regens.set k { r with running := none } }
      .next (s.finish f)

/-! ## Registering -/

/-- A refused write of REGEN (R414). -/
def State.refuseRegen (s : State) : State := s.onWin fun w => { w with regRefused := true }

/-- REGEN_REGISTER (R414): a write of REGEN with bit 0 clear. -/
def execRegenRegister (a : BitVec 64) (s : State) : Res :=
  .next (if a.toNat % 2 = 1 ∨ s.tripped then s
    else if a.toNat % 128 ≠ 0 ∨ 64 ≤ s.dev.regens.length ∨ s.dev.regens.any (·.addr == a) then s.refuseRegen
    else s.onDev fun d =>
      { d with regens := d.regens ++ [⟨a, 0, none, 0, false⟩], win := { d.win with regRefused := false } })

/-- A descriptor that is to go (R414): the run in progress, which without one is the run that starts next, finishes first. -/
def Regen.dropped (r : Regen) : Regen := { r with owed := if r.running.isSome then 0 else Nat.min r.owed 1, drop := true }

/-- REGEN_UNREGISTER (R414): a write of REGEN with bit 0 set. -/
def execRegenUnregister (a : BitVec 64) (s : State) : Res :=
  let b := a &&& ~~~1
  .next (if a.toNat % 2 = 0 ∨ s.tripped then s
    else if b.toNat % 128 ≠ 0 ∨ !s.dev.regens.any (fun r => r.addr == b && !r.drop) then s.refuseRegen
    else s.onDev fun d =>
      { d with
        regens := (d.regens.map fun r => if r.addr == b then r.dropped else r).filter fun r => !(r.drop && r.running.isNone && r.owed == 0)
        win := { d.win with regRefused := false } })

/-! ## Random fills -/

/-- RFILL (R269): a fill starts on the descriptor at an address of job 0. DESIGN CHOICE (log 83): a descriptor whose DST is not 64-byte
aligned, or whose last 16 bytes are not 0, runs as it stands. -/
def execRfill (a : BitVec 64) (s : State) : Res :=
  if !s.dev.hbmAwake then .next s
  else
    let (d, s) := s.jobBytes a.toNat 64
    let key := field d 24 8
    let word := fun n => leBytes 4 (philox key (field d 32 8) (field d 16 8 + n)).1
    let (ws, s) := s.jobWrites (field d 0 8) ((List.range (field d 8 8)).flatMap word)
    let (gen, s) := s.jobKey .rmw (field d 40 8)
    .next (s.onDev fun v => { v with fills := v.fills ++ [⟨ws, gen⟩] })

/-- RANDOM_FILL_DONE (R269): the fill is written, and its generation word is one more. DESIGN CHOICE (log 83): both in one step, so that a
buffer filled in part is never seen. -/
def execRandomFillDone (k : Nat) (s : State) : Res :=
  match s.dev.fills[k]? with
  | none => .next s
  | some f => .next (if s.dev.hbmAwake then (s.onDev fun d => { d with fills := d.fills.eraseIdx k }).finish f else s)

end Sys2Proof.Machine
end

