-- ==== Sys2Proof/Machine/Recovery.lean ====
section
/-! DEFINITION. The events of asynchronous causes (R312, R316, R368, R403), refused accesses (R367), uncorrectable words (R389) and the
failures of parts (R385 to R387, R393 to R395). -/

namespace Sys2Proof.Machine

/-! ## Asynchronous causes -/

/-- The context whose turn it is takes the asynchronous cause `code`, where it is the first one pending and may be taken now (R371). -/
def State.takeCause (code : Nat) (s : State) : State :=
  if s.ctx.safePoint then
    match s.ctx.nextAsync s.cyc with
    | some t => if t.code = code then s.intoHandler t.enter else s
    | none => s
  else s

/-- The budget count has reached the limit of an armed budget (R312): BUDGET is pending, once for this arming. -/
def Ctx.spend (c : Ctx) : Ctx :=
  if c.armed && c.budget != 0 && decide (c.budget.toNat ≤ c.bused) then { c with armed := false, pBudget := true } else c

/-- The deadline of a reclaim that has not transferred has passed (R316): RECLAIM is pending, with the requested grant. -/
def State.overdue (s : State) (c : Nat) : State :=
  let x := s.ctxOf c
  match x.reclaimAt with
  | some t => if t + 2048 ≤ s.cyc then s.setCtx c { x with reclaimAt := none, pReclaim := some (x.requested (c % 2 == 1)) } else s
  | none => s

/-- BUDGET (R312). -/
def execBudget (c : Nat) (s : State) : Res := .next (s.within c fun s => (s.onCtx Ctx.spend).takeCause 0x10)

/-- RECLAIM (R316). -/
def execReclaim (c : Nat) (s : State) : Res := .next (s.within c fun s => (s.overdue s.cur).takeCause 0x11)

/-- TIMER (R403). -/
def execTimer (c : Nat) (s : State) : Res := .next (s.within c (State.takeCause 0x21))

/-- PREEMPT (R368): the pre-emption is pending, and taken at a safe point. -/
def execPreempt (c : Nat) (s : State) : Res :=
  .next (s.within c fun s => (s.onCtx fun c => { c with pPreempt := c.run == .running }).takeCause 0x20)

/-- CANCELLED (R31): the cancel that reached the context's unit is taken. -/
def execCancelled (c : Nat) (s : State) : Res := .next (s.within c (State.takeCause 0x13))

/-! ## Refusals and uncorrectable words -/

/-- The stores of a context that wait and meet `hit` are performed, after those that come before them in their orders (R217, R245); none
while a scoreboard range holds one of them (R221). -/
def State.flush (s : State) (hit : Nat → Bool) : State := (s.force 3 fun p => p.writes.any fun w => hit w.1).getD s

/-- REMOTE_REFUSAL (R367): the far side has come to refuse the page of host memory or of another device that an address of the context
reaches; accesses to it issued and not performed are refused, and those to come. Where it refused the page before, it takes accesses
again (log 33). -/
def execRemoteRefusal (c : Nat) (a : BitVec 64) (s : State) : Res :=
  .next (s.within c fun s =>
    match (s.translate s.ctx.asid .hyp .load a).1 with
    | .error _ => s
    | .ok l =>
      let page := l.key / 65536
      if areaOf l.key ≠ 4 ∧ areaOf l.key ≠ 6 then s
      else if s.dev.refusing.contains page then s.onDev fun d => { d with refusing := d.refusing.filter (· != page) }
      else (s.onDev fun d => { d with refusing := page :: d.refusing }).flush fun k => k / 65536 == page)

/-- The place of a part's count among those of ERRCNT (R388, R413; log 42): physical cores, dies, stacks, links, each with its corrected
and then its uncorrectable errors. -/
inductive Part where
  | core (p : Nat)
  | die (d : Nat)
  | stack (k : Nat)
  | link (n : Nat)
  deriving DecidableEq, Repr

/-- The number of a part's count of corrected errors; that of its uncorrectable ones follows. -/
def Part.place : Part → Nat
  | .core p => 2 * p
  | .die d => 416 + 2 * d
  | .stack k => 424 + 2 * k
  | .link n => 456 + 2 * n

/-- The part that holds the byte at a key: a stack, or the core of a polder, a weight buffer or a lane table; none for memory that is not
of the device, or whose stack the spec does not name. -/
def partOf (key : Nat) : Option Part :=
  match areaOf key with
  | 0 => some (.stack (key / 2 ^ 36 % 2 ^ 28))
  | 1 => some (.core (key % 2 ^ 64 / 2 ^ 21))
  | 2 => some (.core (key % 2 ^ 64 / 2 ^ 20))
  | 3 => some (.core (key % 2 ^ 64 / 2 ^ 16))
  | _ => none

/-- One more error counted at place `k` of ERRCNT, whose registers lie from 0x1000 on (R388; log 42). -/
def Dev.countError (d : Dev) (k : Nat) : Dev :=
  let o := 0x1000 + 8 * k
  if k < 512 then { d with win := { d.win with errcnt := assign o ((lookup o d.win.errcnt).getD 0 + 1) d.win.errcnt } } else d

/-- An uncorrectable error counted for the part that holds a key (R388). -/
def Dev.countLost (d : Dev) (key : Nat) : Dev :=
  match partOf key with
  | some p => d.countError (p.place + 1)
  | none => d

/-- A parity error of a tile (R389): it is counted for the core (R388), and the next tile instruction reports it. -/
def State.spoilTile (s : State) (c t : Nat) : State :=
  let x := s.ctxOf c
  let k : Fin 4 := Fin.ofNat 4 t
  (s.setCtx c { x with tiles := x.tiles.set k { x.tiles[k] with bad := true } }).onDev fun d =>
    d.countError ((Part.core (coreOf c)).place + 1)

/-- PARTIAL_STORE_ERROR (R389): the 8-byte word that an address of the context reaches has become uncorrectable, which is counted (R388),
and the context's stores that wait for it are performed: one that does not cover the word is discarded with an asynchronous machine
check. -/
def execPartialStoreError (c : Nat) (a : BitVec 64) (s : State) : Res :=
  .next (s.within c fun s =>
    match (s.translate s.ctx.asid .hyp .load a).1 with
    | .error _ => s
    | .ok l =>
      let w := l.key / 8
      if areaOf l.key = 7 then s
      else (s.onDev fun d =>
        { d.countLost l.key with eccBad := if d.eccBad.contains w then d.eccBad else w :: d.eccBad }).flush fun k => k / 8 == w)

/-! ## Replace requests -/

/-- A replace request (R393, R413): the register holds the last one, and vector 3 is raised. -/
def Dev.request (d : Dev) (reason slot spare die : Nat) : Dev :=
  { d with win := { d.win with
      replace := BitVec.ofNat 64 (reason + slot * 2 ^ 8 + spare * 2 ^ 16 + die * 2 ^ 24), msix := d.win.msix ++ [3] } }

/-- The lowest idle spare of a die (R394). -/
def Dev.spareOf (d : Dev) (die : Nat) : Option Nat := leastSpare (d.spares.filter fun p => dieOf p == die)
where
  /-- The least of a list. -/
  leastSpare : List Nat → Option Nat
    | [] => none
    | p :: r => some (r.foldl Nat.min p)

/-- A failed core is replaced by the lowest idle spare of its die, or its die runs with fewer cores (R393, R394, R426). -/
def Dev.replaceCore (d : Dev) (core : Nat) : Dev :=
  let slot := core % Config.slotsPerDie
  let die := dieOf core
  let d := { d with enabled := d.enabled.filter (· != core), failed := core :: d.failed.filter (· != core) }
  match d.spareOf die with
  | some p => { d with enabled := insertNat p d.enabled, spares := d.spares.filter (· != p) }.request 1 slot (p % Config.slotsPerDie) die
  | none => d.request 2 slot 0 die

/-! ## Failures -/

/-- A context stops with its core (R394): its preloaded unit is taken back to be handed to another context (R311), its unit is lost, and
so is what it had issued and not performed. -/
def State.stopCtx (s : State) (c detail : Nat) : State :=
  let x := s.ctxOf c
  let s := s.setCtx c { x.newTenure with
    run := .stopped, unit := none, preload := none, stall := none, stores := [], wcb := [], bars := [], late := none, viq := [], lag := 0,
    ch := Vector.replicate 8 Chan.idle }
  let s := match x.preload with
    | some u => s.takeBack u
    | none => s
  match x.unit with
  | some u => s.loseUnit u (coreOf c) detail
  | none => s

/-- The contexts of a core that hold something stop, and gangs reserve them no more. -/
def State.stopCore (s : State) (core detail : Nat) : State :=
  let s := s.onDev fun d => { d with launches := d.launches.map fun l => { l with reserved := l.reserved.filter fun c => coreOf c != core } }
  (s.touched.filter fun c => coreOf c == core).foldl (fun s c => s.stopCtx c detail) s

/-- The memory without the cells of a core's polder (R394). -/
def Memory.withoutPolder (m : Memory) (core : Nat) : Memory :=
  m.filter fun w => !(decide (polderKey core 0 ≤ w.1) && decide (w.1 < polderKey (core + 1) 0))

/-- A core is in service or an idle spare, and can fail. -/
def Dev.alive (d : Dev) (core : Nat) : Bool := d.enabled.contains core && !d.lostDies.contains (dieOf core)

/-- A core fails (R394): the CORE record goes to the machine-check target. DESIGN CHOICE (log 96): the record names the core's primary context,
with its ASID, and PC 0. -/
def State.failCore (s : State) (core : Nat) : State :=
  let r := { s.recordOf (core * 2) 6 15 0 with pc := 0, sec := 0 }
  let s := s.stopCore core 1
  let s := { s with mem := s.mem.withoutPolder core }.onDev fun d => d.replaceCore core
  match s.record 0 r with
  | (s, a) =>
    match s.mcTarget with
    | some t => s.pendMcheck t ⟨a, true, none⟩
    | none => s

/-- CORE_FAILED (R394). -/
def execCoreFailed (die slot : Nat) (s : State) : Res :=
  let core := die * Config.slotsPerDie + slot
  .next (if slot < Config.slotsPerDie ∧ s.dev.alive core then s.failCore core else s)

/-- What a context has written and not performed to keys that `hits` selects: the places of its stores, its buffered lines and the bytes
of its started commands (R391, R393). -/
def Ctx.writing (x : Ctx) (hits : Nat → Bool) : List Spot :=
  let first := fun (ws : List (Nat × Byte)) (spot : Nat → Spot) => (ws.find? fun w => hits w.1).map fun w => spot w.1
  (x.stores ++ x.late.getD []).filterMap (fun p => first p.writes p.spot) ++ x.wcb.filterMap (fun l => first l.writes l.pend.spot) ++
    x.ch.toList.filterMap fun h => h.started.bind fun st => first st.writes st.spot

/-- The context without what it has written and not performed to those keys. -/
def Ctx.withoutWrites (x : Ctx) (hits : Nat → Bool) : Ctx :=
  { x with
    stores := x.stores.filter fun p => !p.writes.any fun w => hits w.1
    late := x.late.map fun ps => ps.filter fun p => !p.writes.any fun w => hits w.1
    wcb := x.wcb.filter fun l => !l.writes.any fun w => hits w.1
    ch := x.ch.map fun h => { h with started := h.started.map fun st => { st with writes := st.writes.filter fun w => !hits w.1 } } }

/-- A stack is lost (R393): stores, buffered lines and copies that were writing to it end as PARTIAL machine checks of their contexts. -/
def State.loseStack (s : State) (stack : Nat) : State :=
  let hits := fun (k : Nat) => areaOf k == 0 && k / 2 ^ 36 == stack
  let s := s.touched.foldl (fun s c =>
    let x := s.ctxOf c
    (x.writing hits).foldl (fun s p => s.report c 2 p) (s.setCtx c (x.withoutWrites hits))) s
  s.onDev fun d => { d with lostStacks := if d.lostStacks.contains stack then d.lostStacks else stack :: d.lostStacks }

/-- HBM_STACK_LOST (R393). -/
def execHbmStackLost (stack : Nat) (s : State) : Res :=
  .next (if stack < 16 ∧ !s.dev.lostStacks.contains stack then (s.loseStack stack).onDev fun d => d.request 3 0 0 (stack / 4) else s)

/-- A launch that ran on a die that is lost (R387, R395): one of that die is counted in the shadow bank, as are the units of it that are
to run again; the range of a thief's launch runs on the die that the mirror is on; and what was ready is ready again, with this rank. -/
def Launch.rehost (l : Launch) (die mirror rank : Nat) : Launch :=
  let l :=
    if l.owner.isSome then { l with die := mirror }
    else if l.die = die then { l with shadow := true, back := l.back.map fun u => { u with shadow := true } }
    else l
  match l.phase with
  | .ready | .active => { l with phase := .ready, readySeq := rank }
  | _ => l

/-- The surviving launches of a die in the shadow bank, `arms` those that ran on it: they are ready again in acceptance order, ahead of
what is accepted later (R387, R395). -/
def Dev.shadowDie (d : Dev) (die : Nat) (arms : List Nat) : Dev :=
  let mirror := (([1, 2, 3].map fun k => (die + k) % Config.dies).find? fun e => !d.lostDies.contains e).getD die
  let rank := fun (l : Launch) => d.seq + (arms.takeWhile (· != l.arm)).length
  { d with
    seq := d.seq + arms.length
    shadow := d.shadow ++ d.counters.filter fun p => p.1 / 8192 == die
    counters := d.counters.filter fun p => p.1 / 8192 != die
    incs := d.incs.map fun i => if i.key / 8192 = die then { i with shadow := true } else i
    launches := d.launches.map fun l => if arms.contains l.arm then l.rehost die mirror (rank l) else l }

/-- A change of every unit that a context holds or has preloaded, or that a save image has parked. -/
def State.mapUnits (s : State) (f : UnitSt → UnitSt) : State :=
  let held := fun (x : Ctx) => ({ x with unit := x.unit.map f, preload := x.preload.map f } : Ctx)
  { s with
    ctx := held s.ctx
    others := s.others.map fun p => (p.1, held p.2)
    dev := { s.dev with images := s.dev.images.map fun p => (p.1, { p.2 with unit := p.2.unit.map f }) } }

/-- A unit of a launch of a lost die, wherever it runs or is parked, counts in the shadow bank from now on (R395). -/
def UnitSt.rehost (u : UnitSt) (die : Nat) (arms : List Nat) : UnitSt :=
  if u.die = die ∧ arms.contains u.arm then { u with shadow := true } else u

/-- A die is lost (R393, R395): its cores and its four stacks are gone, and its journal mirror rebuilds its counters and launches. DESIGN
CHOICE (log 99): the stacks of die `d` are 4d to 4d + 3 (R1). -/
def State.loseDie (s : State) (die : Nat) : State :=
  let cores := (List.range Config.slotsPerDie).map fun k => die * Config.slotsPerDie + k
  let arms := (sortBy (·.arm) (s.dev.launches.filter fun l => s.dev.hostDie l == die)).map (·.arm)
  let own := (s.dev.launches.filter fun l => l.die == die && l.owner.isNone).map (·.arm)
  let s := s.onDev fun d => { d with lostDies := die :: d.lostDies }
  let s := cores.foldl (fun s core => { s.stopCore core 3 with mem := s.mem.withoutPolder core }) s
  let s := (List.range 4).foldl (fun s k => s.loseStack (4 * die + k)) s
  ((s.mapUnits fun u => u.rehost die own).onDev fun d => (d.shadowDie die arms).request 6 0 0 die).settleLaunches

/-- DIE_LOST (R395). -/
def execDieLost (die : Nat) (s : State) : Res :=
  .next (if die < Config.dies ∧ !s.dev.lostDies.contains die then s.loseDie die else s)

/-! ## Links -/

/-- A Brodsy link replaced. -/
def Dev.setLink (d : Dev) (link : Nat) (l : Link) : Dev := { d with links := d.links.set link l }

/-- LINK_LANES_FAILED (R393): the link runs on 4 lanes. -/
def execLinkLanesFailed (link : Nat) (s : State) : Res :=
  match s.dev.links[link]? with
  | some l => .next (if l.up then s.onDev fun d => (d.setLink link { l with lanes := 4 }).request 4 link 0 0 else s)
  | none => .next s

/-- The devices of the domain that this one knows. -/
def Dev.peerDevices (d : Dev) : List Nat := (d.peers.map (·.1)).dedup

/-- LINK_LOST (R393): traffic uses the links that remain; without any, no device has a path (R367), and the ranges that it was given
come back (R326). -/
def execLinkLost (link : Nat) (s : State) : Res :=
  match s.dev.links[link]? with
  | some l =>
    if !l.up then .next s
    else
      let s := s.onDev fun d =>
        { (d.setLink link { l with up := false }).request 5 link 0 0 with asked := d.asked.filter fun a => a.1 != l.peer }
      let s := s.returnStolen l.peer
      .next (if s.dev.links.any (·.up) then s
        else s.dev.peerDevices.foldl (fun s p => s.returnStolen p) (s.onDev fun d => { d with cutOff := d.peerDevices }))
  | none => .next s

/-- LINK_TRAINING (R418, R422): the link runs at the highest common version, of which this device supports 1; it stays down where the
versions share none or both ends carry one domain number, and a replace request of reason 5 follows. The peer then belongs to the
domain, with the jobs and ASIDs resident on it (log 18). A device whose first link comes up has still to take its gts (R421). In the tripped state no
link is trained (R425, `Move.outlives`). -/
def execLinkTraining (link peer lo hi : Nat) (s : State) : Res :=
  match s.dev.links[link]? with
  | none => .next s
  | some l =>
    let s := s.onWin fun w => { w with state := if w.state = 2 then 3 else w.state }
    if lo ≤ 1 ∧ 1 ≤ hi ∧ peer < 64 ∧ peer ≠ s.dev.win.domain then
      let jobs := ((List.range 256).filter (Config.residentOn peer)).map fun j => (peer, j)
      let asids := ((List.range 8192).filter (Config.asidOn peer)).map fun a => (peer, a)
      .next (s.onDev fun d => { d.setLink link ⟨true, peer, 8, 1⟩ with
        peers := d.peers.filter (fun p => p.1 != peer) ++ jobs
        peerAsids := d.peerAsids.filter (fun p => p.1 != peer) ++ asids
        gtsTaken := d.gtsTaken && d.links.any (·.up)
        cutOff := [] })
    else .next (s.onDev fun d => (d.setLink link { l with up := false }).request 5 link 0 0)

/-- GTS_SYNC (R421, R426), which does not happen in the tripped state (R425, `Move.outlives`): before the device is ready it takes its gts from the domain; from then on gts follows the domain's and never
decreases. -/
def execGtsSync (g : BitVec 64) (s : State) : Res :=
  .next (({ s with gts := if s.dev.win.state < 4 then g.toNat else Nat.max s.gts g.toNat } : State).onDev fun d => { d with gtsTaken := true })

/-- SOFT_ERROR_THRESHOLD (R388, R393): an error of the part whose count lies at place `k` of ERRCNT passes the host's threshold. -/
def execSoftErrorThreshold (k : Nat) (s : State) : Res := .next (if k < 512 then s.onDev fun d => (d.countError k).request 7 0 0 0 else s)

end Sys2Proof.Machine
end

