-- ==== Sys2Proof/Machine/HostLink.lean ====
section
/-! DEFINITION. The host interface: host accesses to HBM (R412), the control window (R413), power (R423, R424), thermal limits (R425),
bring-up (R426 to R428) and reset (R429). -/

namespace Sys2Proof.Machine

/-- An MSI-X vector raised (R413). -/
def Window.raise (w : Window) (v : Nat) : Window := { w with msix := w.msix ++ [v] }

/-! ## Host accesses -/

/-- The key of a CXL.mem offset (R412): bank b of stack s at (s · 44 + b) GiB. -/
def cxlKey (a : Nat) : Nat := hbmKey (a / 2 ^ 30 / Config.banksPerStack) (a / 2 ^ 30 % Config.banksPerStack) (a % 2 ^ 30)

/-- HOST_MEMORY_ACCESS (R412, R423): a store of `n` bytes is performed; a load changes nothing. -/
def execHostMemoryAccess (store : Bool) (a : BitVec 64) (n : Nat) (v : BitVec 64) (s : State) : Res :=
  let o := a.toNat
  if store ∧ s.dev.hbmAwake ∧ n ∈ [1, 2, 4, 8] ∧ o % n = 0 ∧ o + n ≤ 16 * Config.banksPerStack * 2 ^ 30 ∧
      !s.dev.lostStacks.contains (o / 2 ^ 30 / Config.banksPerStack) then
    .next (s.settleWrites [(cxlKey o, n)] (writesAt (cxlKey o) (leBytes n v.toNat)))
  else .next s

/-- The host or another device writes consecutive bytes from a key (R412, R416; log 64): of HBM as HOST_MEMORY_ACCESS does, of host memory,
or of another device. Its store counts for the TRIG words that it writes, wherever they lie (R227; log 22). -/
def State.outside (s : State) (key : Nat) (bs : List Byte) : State :=
  let fits := decide (key % 2 ^ 64 + bs.length ≤ 2 ^ 64)
  if areaOf key = 0 then
    (if fits ∧ s.dev.hbmAwake ∧ !s.dev.lostStacks.contains (key / 2 ^ 36) then s.settleWrites [(key, bs.length)] (writesAt key bs) else s)
  else if (areaOf key = 4 ∨ areaOf key = 6) ∧ fits then
    ({ s with mem := s.mem.setAll (writesAt key bs) } : State).noteStores [(key, bs.length)]
  else s

/-! ## The control window -/

/-- A write of a control-window register that only holds its value (R413); a read-only register and an offset without a register ignore
it. -/
def Window.write (w : Window) (off : Nat) (v : Word) : Window :=
  match off with
  | 0x18 => { w with hentry := v }
  | 0x48 => { w with snapBase := v }
  | 0x50 => { w with snapGen := v }
  | 0x58 => { w with mctgt := v }
  | 0x60 => { w with mcsel := v }
  | 0x70 => { w with jrsel := v }
  | 0x78 => { w with jraddr := v }
  | 0xC0 => { w with snapSz := v }
  | _ => w

/-- MCADDR (R390, R413): the machine-check ring of job MCSEL is registered; its records count from 0. -/
def execMcaddr (v : BitVec 64) (s : State) : Res :=
  .next (s.onDev fun d =>
    { d with win := { d.win with mcaddr := v }, mcRings := assign (d.win.mcsel.toNat % 256) (v, 0) d.mcRings })

/-- JRCTR (R413): job ring JRSEL is registered at JRADDR with a die and a job counter. -/
def execJrctr (v : BitVec 64) (s : State) : Res :=
  .next (s.onDev fun d =>
    let r : JobRing := ⟨d.win.jrsel.toNat % 256, d.win.jraddr, v.toNat / 2 ^ 13 % 4, v.toNat % 2 ^ 13⟩
    { d with win := { d.win with jrctr := v }, jobRings := d.jobRings.filter (fun q => q.index != r.index) ++ [r] })

/-- REPLACE (R413): a read clears the register. -/
def execReplace (s : State) : Res := .next (s.onWin fun w => { w with replace := 0 })

/-- DOMAIN (R422): ignored after BOOT. -/
def execDomain (v : BitVec 64) (s : State) : Res :=
  .next (s.onWin fun w => if w.state = 0 then { w with domain := v.toNat % 64 } else w)

/-! ## Power -/

/-- A context is resident on a core in service: it runs or is stopped, or holds a unit (R423). -/
def State.resident (s : State) (c : Nat) : Bool :=
  let x := s.ctxOf c
  s.dev.enabled.contains (coreOf c) && !s.dev.lostDies.contains (dieOfCtx c) && (x.run != .off || x.unit.isSome || x.preload.isSome)

/-- A level may be entered (R423). -/
def State.mayEnter (s : State) (level : Nat) : Bool :=
  if level < 2 then true
  else if level = 2 then
    !s.touched.any fun c => s.resident c && s.dev.gatedAt 2 (coreOf c)
  else if level ≤ 4 then !s.touched.any fun c => s.resident c || !(s.ctxOf c).ch.all fun h => h.cmds.isEmpty && h.started.isNone
  else false

/-- A request for a level is carried out (R424): the transition begins, or it is refused and vector 4 is raised. -/
def State.beginLevel (s : State) (level : Nat) : State :=
  if s.mayEnter level then s.onWin fun w => { w with refused := false, busy := some level }
  else s.onWin fun w => { w with refused := true }.raise 4

/-- PLREQ (R423, R424): a request while a transition runs waits, the latest one only; in the tripped state nothing changes level
(R425). A request for a deeper level answers the trip timers (R425). -/
def execPlreq (v : BitVec 64) (s : State) : Res :=
  let level := v.toNat % 8
  let s := s.onWin fun w =>
    { w with plreq := v, tripTimers := if w.level < level ∧ level ≤ 4 then w.tripTimers.map fun _ => true else w.tripTimers }
  .next (if s.dev.win.state = 6 then s
    else
      match s.dev.win.busy with
      | some _ => s.onWin fun w => { w with refused := false, waiting := some level }
      | none => s.beginLevel level)

/-- The memory without the areas that a test selects. -/
def Memory.without (m : Memory) (gone : Nat → Bool) : Memory := m.filter fun w => !gone (areaOf w.1)

/-- Every context lost, with what it held (R423): it is as after reset, and has a new tenure, so that what is addressed to an old one goes
to none (R489). -/
def State.loseCtxs (s : State) : State :=
  let lost := fun (c : Nat) (x : Ctx) => ({ Ctx.reset (c % 2 == 1) with tenure := x.tenure + 1 } : Ctx)
  { s with ctx := lost s.cur s.ctx, others := s.others.map fun p => (p.1, lost p.1 p.2) }

/-- Every context returned to its reset state. -/
def State.clearCtxs (s : State) : State := { s with ctx := Ctx.reset (s.cur % 2 == 1), others := [] }

/-- The device without what bring-up sets (R427): its place tables, counters, launches, clasps, rings and what its engines run. -/
def Dev.forget (d : Dev) : Dev :=
  { d with
    place := [], counters := [], shadow := [], launches := [], unreleased := [], incs := [], images := [], clasps := [], remote := []
    writers := [], tlb := [], mcRings := [], jobRings := [], regens := [], fills := [], snap := none, asked := [], thefts := [] }

/-- The device as level 4 leaves it, with HBM alone kept (R423): nothing of its state, no link, no gts of a domain, and nothing known of
the domain's devices. -/
def Dev.powerOff (d : Dev) : Dev :=
  { d.forget with
    links := d.links.map fun l => { l with up := false }
    gtsTaken := false, flagged := 0, peers := [], peerAsids := [], cutOff := [] }

/-- What entering a level loses (R423): at level 2 the gated cores' polders, at level 3 all but the polders and HBM, at level 4 all but
HBM. The accepted launches, their counters and the runs of the engines outlive level 3 (log 35). -/
def State.loseAt (s : State) (level : Nat) : State :=
  if level = 2 then
    { s with mem := (s.dev.enabled.filter (s.dev.gatedAt 2)).foldl Memory.withoutPolder s.mem }
  else if level = 3 then { s with mem := s.mem.without fun a => a == 2 || a == 3 }.loseCtxs.onDev fun d => { d with tlb := [] }
  else if level = 4 then { s with mem := s.mem.without fun a => a == 1 || a == 2 || a == 3 }.clearCtxs.onDev Dev.powerOff
  else s

/-- The transition to a level ends (R423, R424): leaving level 4, bring-up runs again from step 2. -/
def State.endLevel (s : State) (level : Nat) : State :=
  let s := if s.dev.win.level = level then s else s.loseAt level
  let fresh := s.dev.win.level == 4 && level != 4
  s.onWin fun w => { w with level, busy := none, state := if fresh then 0 else w.state }.raise 4

/-- POWER_TRANSITION_DONE (R424). -/
def execPowerTransitionDone (s : State) : Res :=
  match s.dev.win.busy with
  | none => .next s
  | some level =>
    let s := s.endLevel level
    .next (match s.dev.win.waiting with
      | some next => (s.onWin fun w => { w with waiting := none }).beginLevel next
      | none => s)

/-! ## Thermal limits -/

/-- The reading of a sensor, die · 64 + sensor (R425; log 66). -/
def Window.temp (w : Window) (n : Nat) : Int := (lookup n w.temps).getD 0

/-- TMAX: the hottest of the 256 sensors (R413). -/
def Window.tmax (w : Window) : Int := (List.range (64 * Config.dies)).foldl (fun m n => max m (w.temp n)) (w.temp 0)

/-- WARN as the readings and TWARN leave it (R424): set at or above TWARN, clear below TWARN − 3. -/
def Window.rewarn (w : Window) : Window :=
  { w with warn := if w.twarn ≤ w.tmax then true else if w.tmax < w.twarn - 3 then false else w.warn }

/-- TWARN (R424, R425): ignored where it would leave TWARN ≥ TTRIP. -/
def execTwarn (v : BitVec 64) (s : State) : Res :=
  .next (s.onWin fun w => if v.toInt < w.ttrip then ({ w with twarn := v.toInt } : Window).rewarn else w)

/-- TTRIP (R425): ignored where it would leave TWARN ≥ TTRIP or TTRIP > 110. -/
def execTtrip (v : BitVec 64) (s : State) : Res :=
  .next (s.onWin fun w => if w.twarn < v.toInt ∧ v.toInt ≤ 110 then { w with ttrip := v.toInt } else w)

/-- The thermal trip (R425): every context, unit and copy is lost, and the journal is not replayed. -/
def State.trip (s : State) : State :=
  if s.dev.win.state = 6 then s
  else
    s.clearCtxs.onDev fun d =>
      { d with
        launches := [], incs := [], fills := [], snap := none, images := [], tlb := [], asked := [], thefts := []
        regens := d.regens.map fun r => { r with running := none, owed := 0 }
        win := { d.win with state := 6, trip := true, tripTimers := [], busy := none, waiting := none }.raise 2 }

/-- A new reading of a sensor (R425): at 115 °C the trip is taken at once; a crossing of TWARN upward raises vector 0, and one of TTRIP
raises vector 1 and starts a 10 ms timer. -/
def State.sense (s : State) (n : Nat) (deg : Int) : State :=
  if 64 * Config.dies ≤ n ∨ s.dev.win.state = 6 then s
  else
    let old := s.dev.win.temp n
    let s := s.onWin fun w => ({ w with temps := assign n deg w.temps } : Window).rewarn
    let s := if old < s.dev.win.twarn ∧ s.dev.win.twarn ≤ deg then s.onWin fun w => w.raise 0 else s
    let s := if old < s.dev.win.ttrip ∧ s.dev.win.ttrip ≤ deg then
      s.onWin fun w => ({ w with tripTimers := w.tripTimers ++ [false] } : Window).raise 1 else s
    if 115 ≤ deg then s.trip else s

/-- TWARN_CROSSING (R425): a sensor crosses TWARN upward. -/
def execTwarnCrossing (r : Reading) (s : State) : Res :=
  .next (if s.dev.win.temp r.sensor < s.dev.win.twarn ∧ s.dev.win.twarn ≤ r.deg then s.sense r.sensor r.deg else s)

/-- WARN_CLEAR (R424): the last sensor falls below TWARN − 3. -/
def execWarnClear (r : Reading) (s : State) : Res :=
  let below := (List.range (64 * Config.dies)).all fun m => m == r.sensor || decide (s.dev.win.temp m < s.dev.win.twarn - 3)
  .next (if r.deg < s.dev.win.twarn - 3 ∧ below then s.sense r.sensor r.deg else s)

/-- TTRIP_CROSSING (R425): a sensor crosses TTRIP upward. -/
def execTtripCrossing (r : Reading) (s : State) : Res :=
  .next (if s.dev.win.temp r.sensor < s.dev.win.ttrip ∧ s.dev.win.ttrip ≤ r.deg then s.sense r.sensor r.deg else s)

/-- TRIP_TIMER_EXPIRY (R425): the oldest timer ends. -/
def execTripTimerExpiry (s : State) : Res :=
  match s.dev.win.tripTimers with
  | [] => .next s
  | answered :: r => .next (if answered then s.onWin fun w => { w with tripTimers := r } else s.trip)

/-- IMMEDIATE_TRIP (R425): a sensor at 115 °C. -/
def execImmediateTrip (r : Reading) (s : State) : Res := .next (if 115 ≤ r.deg then s.sense r.sensor r.deg else s)

/-! ## Reset -/

/-- Device reset (R429): what lies outside the device stays, and so do its failed parts with the spares that replaced them (log 36) and
what its sensors read. -/
def State.deviceReset (s : State) : State :=
  { s.clearCtxs with
    mem := s.mem.without fun a => a != 4 && a != 6
    cyc := 0
    gts := 0
    dev := { Dev.reset with
      win := { Window.reset with temps := s.dev.win.temps }
      enabled := s.dev.enabled, spares := s.dev.spares, failed := s.dev.failed, lostDies := s.dev.lostDies
      lostStacks := s.dev.lostStacks, tlbOn := s.dev.tlbOn, holdStores := s.dev.holdStores } }

/-- RESET (R413, R429): a write of 1. -/
def execReset (v : BitVec 64) (s : State) : Res := .next (if v = 1 then s.deviceReset else s)

/-- FUNCTION_LEVEL_RESET (R429). -/
def execFunctionLevelReset (s : State) : Res := .next s.deviceReset

/-- CONVENTIONAL_RESET (R429). -/
def execConventionalReset (s : State) : Res := .next s.deviceReset

/-- POWER_ON_RESET (R426): the state after power-on; the memories outside the device stay. -/
def execPowerOnReset (s : State) : Res :=
  .next { State.reset with
    mem := s.mem.without fun a => a != 4 && a != 6
    moves := s.moves
    steps := s.steps }

/-! ## Bring-up -/

/-- BOOT (R426): the image is fetched; a write in another state than reset starts nothing (log 37). -/
def execBoot (a : BitVec 64) (s : State) : Res :=
  .next (s.onWin fun w => if w.state = 0 ∧ w.level < 3 then { w with boot := a, state := 1 } else w)

/-- The spares among the cores that a self-test has found failed are idle no more and replace nothing (R394, R426). DESIGN CHOICE (log 107):
they are not reported, since nothing is replaced. -/
def Dev.withoutSpares (d : Dev) (bad : List Nat) : Dev :=
  { d with
    spares := d.spares.filter fun p => !bad.contains p
    failed := (d.spares.filter bad.contains) ++ d.failed.filter fun c => !(d.spares.filter bad.contains).contains c }

/-- BOOT_IMAGE_LOADED (R426): a failed check ends bring-up; else the self-test replaces the cores that it finds failed. -/
def execBootImageLoaded (good : Bool) (bad : List Nat) (s : State) : Res :=
  .next (if s.dev.win.state ≠ 1 then s
    else if !good then s.onWin fun w => { w with state := 5 }.raise 5
    else
      let s := s.onWin fun w => { w with state := 2 }
      s.onDev fun d => (bad.filter d.enabled.contains).foldl Dev.replaceCore (d.withoutSpares bad))

/-- A page-table entry (R348): a leaf with its location, rights and PRV, or a table. -/
def leafEntry (loc pa : Nat) (x : Bool) : Nat := 1 + 2 + 4 + 8 + (if x then 16 else 0) + loc * 2 ^ 10 + 2 ^ 15 + pa
def tableEntry (pa : Nat) : Nat := 1 + pa

/-- The logical address of an offset in the reserved bank (log 10). -/
def reservedPa (off : Nat) : Nat := Config.reservedBank * 2 ^ 30 + off

/-- Where the bootstrap tables map the reserved bank, beside the host region of HENTRY (log 10). -/
def reservedVaFor (hentry : Nat) : Nat :=
  if hentry / 2 ^ 29 = Config.reservedVa / 2 ^ 29 then Config.reservedVa - 2 ^ 29 else Config.reservedVa

/-- The ASID table's entry 0 and job 0's bootstrap tables (R427, R428), as values of 8 bytes at offsets of device-reserved memory. -/
def bootTables (hentry : Nat) : List (Nat × Nat) :=
  let va := reservedVaFor hentry
  let l3 := fun a => Config.bootL3Off + 8 * (a / 2 ^ 42 % 2 ^ 13)
  let l2 := fun a => 8 * (a / 2 ^ 29 % 2 ^ 13)
  let own := decide (va / 2 ^ 42 ≠ hentry / 2 ^ 42 % 2 ^ 13)
  let hostL2 := if own then Config.bootL2HostOff else Config.bootL2Off
  [(Config.asidTableOff, 2 ^ 63 + 2 ^ 62 + reservedPa Config.bootL3Off / 2 ^ 16 * 2 ^ 16),
    (l3 va, tableEntry (reservedPa Config.bootL2Off)),
    (Config.bootL2Off + l2 va, tableEntry (reservedPa Config.bootL1Off))] ++
  ((List.range 5).map fun n => (Config.bootL1Off + 8 * n, leafEntry 0 (reservedPa (n * 2 ^ 16)) false)) ++
  (if own then [(l3 hentry, tableEntry (reservedPa Config.bootL2HostOff))] else []) ++
  [(hostL2 + l2 hentry, leafEntry 2 (hentry / 2 ^ 29 * 2 ^ 29) true)]

/-- The bytes of the bootstrap tables. -/
def bootWrites (hentry : Nat) : List (Nat × Byte) := (bootTables hentry).flatMap fun e => writesAt (reservedKey e.1) (leBytes 8 e.2)

/-- The hyp context at its start (R428); every other register as R32 gives it. -/
def Ctx.hypStart (hentry : Nat) : Ctx :=
  { ((Ctx.reset false).setX 3 (BitVec.ofNat 64 (reservedVaFor hentry))).setX 4
      (BitVec.ofNat 64 (reservedVaFor hentry + Config.bootL3Off)) with
    priv := .hyp
    pc := BitVec.ofNat 64 hentry
    run := .running }

/-- The defaults of R427, where the enabled slots and healthy stacks fill job 0's place table. -/
def Dev.defaults (d : Dev) : Dev :=
  { d.forget with
    bootSlots := (List.range Config.dies).map fun g => (d.enabled.filter fun p => dieOf p == g).map (· % Config.slotsPerDie)
    bootStacks := (List.range 16).filter fun k => !d.lostStacks.contains k }

/-- The bytes of device-reserved memory that hold the ASID table and the bootstrap tables (log 10). -/
def isTable (key : Nat) : Bool := areaOf key == 5 && decide (key % 2 ^ 64 < 0x50000)

/-- The end of bring-up (R427, R428): the defaults, the ASID table and the bootstrap tables, and the hyp context on the primary context of
job 0's logical core 0, which starts at HENTRY. DESIGN CHOICE (log 79): bits [1:0] of HENTRY count as 0 (R129, R413). HBM is kept otherwise (R423). -/
def State.bringUp (s : State) : State :=
  let h := pcBits s.dev.win.hentry
  let s := s.clearCtxs.onDev Dev.defaults
  let kept : Memory := s.mem.filter fun w => !isTable w.1
  let s := { s with mem := kept.setAll (bootWrites h) }
  match s.dev.physCore 0 0 with
  | some core => s.setCtx (core * 2) (Ctx.hypStart h)
  | none => s

/-- A core runs job 0's logical core 0 with the defaults of R427: no level gates it (R423), nor a transition. -/
def State.mayStart (s : State) : Bool := s.dev.hbmAwake && (s.dev.defaults.physCore 0 0).isSome

/-- HYP_CONTEXT_START (R426 to R428): once the links are trained, and gts taken where one is up (R421). DEDUCED (log 37): while no core
may run the hyp context, bring-up waits. -/
def execHypContextStart (s : State) : Res :=
  .next (if s.dev.win.state = 3 ∧ s.dev.inTime ∧ s.mayStart then s.bringUp.onWin fun w => { w with state := 4 }.raise 5 else s)

/-! ## Writing and reading the control window -/

/-- CONTROL_WINDOW_WRITE (R413): a write of a register that has a behaviour of its own is that behaviour. -/
def execControlWindowWrite (off : Nat) (v : BitVec 64) (s : State) : Res :=
  match off with
  | 0x08 => execBoot v s
  | 0x20 => execPlreq v s
  | 0x30 => execTwarn v s
  | 0x38 => execTtrip v s
  | 0x68 => execMcaddr v s
  | 0x80 => execJrctr v s
  | 0x88 => if v.toNat % 2 = 0 then execRegenRegister v s else execRegenUnregister v s
  | 0x90 => execRfill v s
  | 0xA8 => execDomain v s
  | 0xB0 => execReset v s
  | _ => .next (s.onWin fun w => w.write off v)

/-- PLSTAT (R424). -/
def Window.plstat (w : Window) : Word :=
  BitVec.ofNat 64 ((if w.trip then 2 ^ 11 else 0) + (if w.warn then 2 ^ 10 else 0) + (if w.refused then 2 ^ 9 else 0) +
    (if w.busy.isSome then 2 ^ 8 else 0) + w.level % 8)

/-- REGSTAT (R413, R414). -/
def Dev.regstat (d : Dev) : Word := BitVec.ofNat 64 ((if d.win.regRefused then 2 ^ 63 else 0) + d.regens.length % 2 ^ 7)

/-- What the host reads at an offset of the control window (R413); none for a register that it may only write (log 66). DESIGN CHOICE
(log 100): MCTGT, MCSEL, JRSEL and JRCTR read as they were written, the bits that R413 names no field for among them. -/
def State.windowRead (s : State) (off : Nat) : Option Word :=
  let w := s.dev.win
  match off with
  | 0x00 => some 0x01010101
  | 0x08 => none
  | 0x10 => some (BitVec.ofNat 64 w.state)
  | 0x18 => some w.hentry
  | 0x20 => some (BitVec.ofNat 64 (w.plreq.toNat % 8))
  | 0x28 => some w.plstat
  | 0x30 => some (BitVec.ofInt 64 w.twarn)
  | 0x38 => some (BitVec.ofInt 64 w.ttrip)
  | 0x40 => some (BitVec.ofInt 64 w.tmax)
  | 0x48 => some w.snapBase
  | 0x50 => some w.snapGen
  | 0x58 => some w.mctgt
  | 0x60 => some w.mcsel
  | 0x68 => some w.mcaddr
  | 0x70 => some w.jrsel
  | 0x78 => some w.jraddr
  | 0x80 => some w.jrctr
  | 0x88 => none
  | 0x90 => none
  | 0x98 => some w.replace
  | 0xA0 => some (BitVec.ofNat 64 s.gts)
  | 0xA8 => some (BitVec.ofNat 64 (w.domain % 64))
  | 0xB0 => none
  | 0xB8 => some s.dev.regstat
  | 0xC0 => some w.snapSz
  | o => some (if 0x1000 ≤ o ∧ o < 0x2000 then (lookup o w.errcnt).getD 0 else 0)

end Sys2Proof.Machine
end

