-- ==== Sys2Proof/Machine/ScalarFloat.lean ====
section
/-! DEFINITION. The scalar float family (R132 to R134). Each rounds under the SCT's copy of frm (R15) and sets its flags at execution
(R92). -/

namespace Sys2Proof.Machine

/-- The type of an FLT word: 0 f32, 1 f64 (R50). -/
def fltType (t : BitVec 1) : FType := if t = 0 then .f32 else .f64

/-- The code that an x register holds: bits [31:0] for f32, all for f64 (R133). -/
def State.codeF (s : State) (t : BitVec 1) (r : BitVec 5) : Nat := (s.getX r).toNat % 2 ^ (fltType t).width

/-- The value that an x register holds. -/
def State.readF (s : State) (t : BitVec 1) (r : BitVec 5) : FVal := (fltType t).decode (s.codeF t r)

/-- An x register written, flags set, and the word completed. -/
def State.writeFlagged (s : State) (d : BitVec 5) (v : Word) (fl : BitVec 5) : Res := .next ((s.setX d v).orFlags fl).retire

/-- A float result: its code with the higher bits 0 (R133), and its flags. -/
def State.writeF (s : State) (_t : BitVec 1) (d : BitVec 5) (r : Nat × BitVec 5) : Res :=
  s.writeFlagged d (BitVec.ofNat 64 r.1) r.2

/-- A comparison's result. -/
def State.writeCmp (s : State) (d : BitVec 5) (r : Bool × BitVec 5) : Res := s.writeFlagged d (flag01 r.1) r.2

/-- A reserved frm raises 0x02 at a word that rounds, with xd and fflags unchanged (R87, R134). -/
def State.fltRound (s : State) (w : Word32) (k : RMode → Res) : Res :=
  if frmReserved s.ctx.frmSct then .next (s.trap 0x02 (w.setWidth 64)) else k (rmOf s.ctx.frmSct)

/-- The magnitude bits of a with a sign that `f` gives from a's sign and a sign reader (R133); no flag is set. -/
def State.writeSign (s : State) (t : BitVec 1) (d a : BitVec 5) (f : Bool → (Nat → Bool) → Bool) : Res :=
  let sb := (fltType t).signBit
  let sign := fun c => c / sb % 2 == 1
  let ca := s.codeF t a
  s.writeX d (BitVec.ofNat 64 (ca % sb + if f (sign ca) sign then sb else 0))

/-- fadd: round(a + b) (R133). -/
def execFadd (d a b : BitVec 5) (t : BitVec 1) (s : State) : Res :=
  s.fltRound (encode (.fadd d a b t)) fun rm =>
    s.writeF t d (fAdd (fltType t) rm (s.readF t a) (s.readF t b))

/-- fsub: round(a − b) (R133). -/
def execFsub (d a b : BitVec 5) (t : BitVec 1) (s : State) : Res :=
  s.fltRound (encode (.fsub d a b t)) fun rm =>
    s.writeF t d (fSub (fltType t) rm (s.readF t a) (s.readF t b))

/-- fmul: round(a × b) (R133). -/
def execFmul (d a b : BitVec 5) (t : BitVec 1) (s : State) : Res :=
  s.fltRound (encode (.fmul d a b t)) fun rm =>
    s.writeF t d (fMul (fltType t) rm (s.readF t a) (s.readF t b))

/-- fdiv: round(a ÷ b); a finite nonzero value over ±0 gives ±inf and dz (R133). -/
def execFdiv (d a b : BitVec 5) (t : BitVec 1) (s : State) : Res :=
  s.fltRound (encode (.fdiv d a b t)) fun rm =>
    s.writeF t d (fDiv (fltType t) rm (s.readF t a) (s.readF t b))

/-- fsqrt: round(√a) (R133). -/
def execFsqrt (d a : BitVec 5) (t : BitVec 1) (s : State) : Res :=
  s.fltRound (encode (.fsqrt d a t)) fun rm => s.writeF t d (fSqrt (fltType t) rm (s.readF t a))

/-- fmin: minimumNumber (R93, R133). -/
def execFmin (d a b : BitVec 5) (t : BitVec 1) (s : State) : Res :=
  s.writeF t d (fMinMax (fltType t) false (s.codeF t a) (s.codeF t b))

/-- fmax: maximumNumber (R93, R133). -/
def execFmax (d a b : BitVec 5) (t : BitVec 1) (s : State) : Res :=
  s.writeF t d (fMinMax (fltType t) true (s.codeF t a) (s.codeF t b))

/-- feq: 1 or 0, quiet (R93, R133). -/
def execFeq (d a b : BitVec 5) (t : BitVec 1) (s : State) : Res := s.writeCmp d (fEq (s.readF t a) (s.readF t b))

/-- flt: 1 or 0, signalling (R93, R133). -/
def execFlt (d a b : BitVec 5) (t : BitVec 1) (s : State) : Res := s.writeCmp d (fLt (s.readF t a) (s.readF t b))

/-- fle: 1 or 0, signalling (R93, R133). -/
def execFle (d a b : BitVec 5) (t : BitVec 1) (s : State) : Res := s.writeCmp d (fLe (s.readF t a) (s.readF t b))

/-- fcvt (R50, R91, R133): variant 0 from the other float type, 1 to 4 to s32, z32, s64, z64, 5 to 8 from them. 32-bit integer
results are extended by their signedness; variants 5 and 6 read the low 32 bits. Every variant refuses a reserved frm (R134). -/
def execFcvt (d a : BitVec 5) (t : BitVec 1) (v : BitVec 4) (s : State) : Res :=
  s.fltRound (encode (.fcvt d a t v)) fun rm =>
    let toInt := fun (u : Bool) (w : Nat) =>
      match fToInt u w rm (s.readF t a) with
      | (r, fl) => s.writeFlagged d (BitVec.ofInt 64 (readInt u w r)) fl
    match v.toNat with
    | 0 => s.writeF t d ((s.readF (~~~t) a).into (fltType t) rm)
    | 1 => toInt false 32
    | 2 => toInt true 32
    | 3 => toInt false 64
    | 4 => toInt true 64
    | 5 => s.writeF t d (intToF (fltType t) rm (toSigned 32 (s.getX a).toNat))
    | 6 => s.writeF t d (intToF (fltType t) rm ((s.getX a).toNat % 2 ^ 32 : Nat))
    | 7 => s.writeF t d (intToF (fltType t) rm (s.getX a).toInt)
    | _ => s.writeF t d (intToF (fltType t) rm (s.getX a).toNat)

/-- fclass: the one-hot class mask (R133). -/
def execFclass (d a : BitVec 5) (t : BitVec 1) (s : State) : Res :=
  s.writeX d (BitVec.ofNat 64 (fClass (fltType t) (s.codeF t a)))

/-- fsgnj: the magnitude bits of a with the sign of b (R133). -/
def execFsgnj (d a b : BitVec 5) (t : BitVec 1) (s : State) : Res := s.writeSign t d a fun _ sb => sb (s.codeF t b)

/-- fsgnjn: the magnitude bits of a with the sign of b reversed (R133). -/
def execFsgnjn (d a b : BitVec 5) (t : BitVec 1) (s : State) : Res := s.writeSign t d a fun _ sb => !sb (s.codeF t b)

/-- fsgnjx: the magnitude bits of a with the xor of both signs (R133). -/
def execFsgnjx (d a b : BitVec 5) (t : BitVec 1) (s : State) : Res := s.writeSign t d a fun sa sb => sa != sb (s.codeF t b)

end Sys2Proof.Machine
end

