-- ==== Sys2Proof/Machine/Sync.lean ====
section
/-! DEFINITION. The SYNC words (R244 to R248), hint (R70), and the events that end a wait of a scalar access (R221, R248). -/

namespace Sys2Proof.Machine

/-- fence (R245): a barrier at its place in the access path; it does not stall the SCT. Loads are performed when they execute, so kind r
holds nothing more back, and w holds later stores. -/
def execFence (_s : BitVec 3) (k : BitVec 2) (s : State) : Res :=
  .next ((match k.toNat with
    | 0 => s.barrier 2
    | 1 => s
    | _ => s.barrier 1).retire)

/-- vlsync joins the slice classes of the context (R246). -/
def execVlsync (s : State) : Res := .next (s.barrier 2).retire

/-- vfence.d (R247): at its place in the access path, the write-combining buffer of a deterministic context is drained (R223), then a
fence at device scope. -/
def execVfenceD (s : State) : Res := .next (s.barrier (if s.ctx.detm then 3 else 2)).retire

/-- A wait on a memory word of 4 or 8 bytes (R248): the word is read until it satisfies the condition. -/
def State.waitWord (s : State) (a b : BitVec 5) (w : BitVec 1) (ok : Nat → Nat → Bool) : Res :=
  s.inOrder .word fun s =>
    let n := if w = 0 then 4 else 8
    match s.aligned 0 .load none n (s.getX a) with
    | (.error r, s) => .next (s.refuse r)
    | (.ok p, s) =>
      match s.readAt p s.ctx.pc n with
      | .held => .next (s.stallFor .word)
      | .bad va => .next (s.refuse (.ecc 0 va))
      | .value v t => if ok v ((s.getX b).toNat % 2 ^ (8 * n)) then .next t.retire else .next (t.stallFor .word)

/-- waitge: until the word is at least x[xb], unsigned (R248). -/
def execWaitge (a b : BitVec 5) (w : BitVec 1) (s : State) : Res := s.waitWord a b w fun v x => decide (x ≤ v)

/-- waiteq: until the word equals x[xb] (R248). -/
def execWaiteq (a b : BitVec 5) (w : BitVec 1) (s : State) : Res := s.waitWord a b w fun v x => v == x

/-- WAIT_SATISFIED (R248): a context that waits for a memory word reads it again. -/
def execWaitSatisfied (c : Nat) (s : State) : Res :=
  s.resumeAt c fun k i s =>
    match k, i with
    | .word, .late (.waitge a b w) => execWaitge a b w s
    | .word, .late (.waiteq a b w) => execWaiteq a b w s
    | _, _ => .next s

/-- A scalar load, an amo or a nest tried again (R126, R230, R233), or the block of a nest read again (R130); another word changes
nothing. -/
def State.access (s : State) (w : Decoded) : Res :=
  if s.ctx.resume then s.refetch
  else
    match w with
    | .instr (.lb d a i) => execLb d a i s
    | .instr (.lbu d a i) => execLbu d a i s
    | .instr (.lh d a i) => execLh d a i s
    | .instr (.lhu d a i) => execLhu d a i s
    | .instr (.lw d a i) => execLw d a i s
    | .instr (.lwu d a i) => execLwu d a i s
    | .instr (.ld d a i) => execLd d a i s
    | .instr (.amoAdd d a b o c w) => execAmoAdd d a b o c w s
    | .instr (.amoAnd d a b o c w) => execAmoAnd d a b o c w s
    | .instr (.amoOr d a b o c w) => execAmoOr d a b o c w s
    | .instr (.amoXor d a b o c w) => execAmoXor d a b o c w s
    | .instr (.amoMin d a b o c w) => execAmoMin d a b o c w s
    | .instr (.amoMax d a b o c w) => execAmoMax d a b o c w s
    | .instr (.amoMinu d a b o c w) => execAmoMinu d a b o c w s
    | .instr (.amoMaxu d a b o c w) => execAmoMaxu d a b o c w s
    | .instr (.amoSwap d a b o c w) => execAmoSwap d a b o c w s
    | .instr (.amoCas d a b o c w) => execAmoCas d a b o c w s
    | .instr (.nest a l) => execNest a l s
    | _ => .next s

/-- An access of the SCT still waits for a scoreboard range: its place lies on one, or a store of its context that comes before it (R221). -/
def State.boardHolds (s : State) (p : Option Place) (n : Nat) : Bool :=
  (match p with
    | some p => s.onBoard p.loc.key n
    | none => false) || s.ctx.stores.any s.holds

/-- SCOREBOARD_WAIT_END (R221): the ranges that held an access of the SCT are released, and the access is performed, so that xd is
written before any trap is taken (R17, R231, R235). -/
def execScoreboardWaitEnd (c : Nat) (s : State) : Res :=
  s.resumeAt c fun k i s =>
    match k with
    | .board p n => if s.boardHolds p n then .next s else s.access i
    | _ => .next s

/-- hint: no effect (R70). -/
def execHint (_h : BitVec 26) (s : State) : Res := .next s.retire

end Sys2Proof.Machine
end

