-- ==== Sys2Proof/Machine/Dispatch.lean ====
section
/-! DEFINITION. The dispatch from an instruction to its meaning: one arm for each constructor of Instr. -/

namespace Sys2Proof.Machine

def exec (i : Instr) (s : State) : Host.Outcome State Fault Refusal :=
  match i with
  | .add d a b => Sys2Proof.Machine.execAdd d a b s
  | .sub d a b => Sys2Proof.Machine.execSub d a b s
  | .and d a b => Sys2Proof.Machine.execAnd d a b s
  | .or d a b => Sys2Proof.Machine.execOr d a b s
  | .xor d a b => Sys2Proof.Machine.execXor d a b s
  | .sll d a b => Sys2Proof.Machine.execSll d a b s
  | .srl d a b => Sys2Proof.Machine.execSrl d a b s
  | .sra d a b => Sys2Proof.Machine.execSra d a b s
  | .slt d a b => Sys2Proof.Machine.execSlt d a b s
  | .sltu d a b => Sys2Proof.Machine.execSltu d a b s
  | .mul d a b => Sys2Proof.Machine.execMul d a b s
  | .mulh d a b => Sys2Proof.Machine.execMulh d a b s
  | .mulhu d a b => Sys2Proof.Machine.execMulhu d a b s
  | .div d a b => Sys2Proof.Machine.execDiv d a b s
  | .divu d a b => Sys2Proof.Machine.execDivu d a b s
  | .rem d a b => Sys2Proof.Machine.execRem d a b s
  | .remu d a b => Sys2Proof.Machine.execRemu d a b s
  | .min d a b => Sys2Proof.Machine.execMin d a b s
  | .max d a b => Sys2Proof.Machine.execMax d a b s
  | .minu d a b => Sys2Proof.Machine.execMinu d a b s
  | .maxu d a b => Sys2Proof.Machine.execMaxu d a b s
  | .clz d a => Sys2Proof.Machine.execClz d a s
  | .ctz d a => Sys2Proof.Machine.execCtz d a s
  | .popc d a => Sys2Proof.Machine.execPopc d a s
  | .rev8 d a => Sys2Proof.Machine.execRev8 d a s
  | .sextB d a => Sys2Proof.Machine.execSextB d a s
  | .sextH d a => Sys2Proof.Machine.execSextH d a s
  | .sextW d a => Sys2Proof.Machine.execSextW d a s
  | .addi d a i_ => Sys2Proof.Machine.execAddi d a i_ s
  | .andi d a i_ => Sys2Proof.Machine.execAndi d a i_ s
  | .ori d a i_ => Sys2Proof.Machine.execOri d a i_ s
  | .xori d a i_ => Sys2Proof.Machine.execXori d a i_ s
  | .slti d a i_ => Sys2Proof.Machine.execSlti d a i_ s
  | .sltiu d a i_ => Sys2Proof.Machine.execSltiu d a i_ s
  | .slli d a n => Sys2Proof.Machine.execSlli d a n s
  | .srli d a n => Sys2Proof.Machine.execSrli d a n s
  | .srai d a n => Sys2Proof.Machine.execSrai d a n s
  | .lui d i_ => Sys2Proof.Machine.execLui d i_ s
  | .auipc d i_ => Sys2Proof.Machine.execAuipc d i_ s
  | .lb d a i_ => Sys2Proof.Machine.execLb d a i_ s
  | .lbu d a i_ => Sys2Proof.Machine.execLbu d a i_ s
  | .lh d a i_ => Sys2Proof.Machine.execLh d a i_ s
  | .lhu d a i_ => Sys2Proof.Machine.execLhu d a i_ s
  | .lw d a i_ => Sys2Proof.Machine.execLw d a i_ s
  | .lwu d a i_ => Sys2Proof.Machine.execLwu d a i_ s
  | .ld d a i_ => Sys2Proof.Machine.execLd d a i_ s
  | .sb s_ a i_ => Sys2Proof.Machine.execSb s_ a i_ s
  | .sh s_ a i_ => Sys2Proof.Machine.execSh s_ a i_ s
  | .sw s_ a i_ => Sys2Proof.Machine.execSw s_ a i_ s
  | .sd s_ a i_ => Sys2Proof.Machine.execSd s_ a i_ s
  | .amoAdd d a b o s_ w => Sys2Proof.Machine.execAmoAdd d a b o s_ w s
  | .amoAnd d a b o s_ w => Sys2Proof.Machine.execAmoAnd d a b o s_ w s
  | .amoOr d a b o s_ w => Sys2Proof.Machine.execAmoOr d a b o s_ w s
  | .amoXor d a b o s_ w => Sys2Proof.Machine.execAmoXor d a b o s_ w s
  | .amoMin d a b o s_ w => Sys2Proof.Machine.execAmoMin d a b o s_ w s
  | .amoMax d a b o s_ w => Sys2Proof.Machine.execAmoMax d a b o s_ w s
  | .amoMinu d a b o s_ w => Sys2Proof.Machine.execAmoMinu d a b o s_ w s
  | .amoMaxu d a b o s_ w => Sys2Proof.Machine.execAmoMaxu d a b o s_ w s
  | .amoSwap d a b o s_ w => Sys2Proof.Machine.execAmoSwap d a b o s_ w s
  | .amoCas d a b o s_ w => Sys2Proof.Machine.execAmoCas d a b o s_ w s
  | .beq a b i_ => Sys2Proof.Machine.execBeq a b i_ s
  | .bne a b i_ => Sys2Proof.Machine.execBne a b i_ s
  | .blt a b i_ => Sys2Proof.Machine.execBlt a b i_ s
  | .bge a b i_ => Sys2Proof.Machine.execBge a b i_ s
  | .bltu a b i_ => Sys2Proof.Machine.execBltu a b i_ s
  | .bgeu a b i_ => Sys2Proof.Machine.execBgeu a b i_ s
  | .jal d i_ => Sys2Proof.Machine.execJal d i_ s
  | .jalr d a i_ => Sys2Proof.Machine.execJalr d a i_ s
  | .loop a l => Sys2Proof.Machine.execLoop a l s
  | .nest a l => Sys2Proof.Machine.execNest a l s
  | .fadd d a b t => Sys2Proof.Machine.execFadd d a b t s
  | .fsub d a b t => Sys2Proof.Machine.execFsub d a b t s
  | .fmul d a b t => Sys2Proof.Machine.execFmul d a b t s
  | .fdiv d a b t => Sys2Proof.Machine.execFdiv d a b t s
  | .fsqrt d a t => Sys2Proof.Machine.execFsqrt d a t s
  | .fmin d a b t => Sys2Proof.Machine.execFmin d a b t s
  | .fmax d a b t => Sys2Proof.Machine.execFmax d a b t s
  | .feq d a b t => Sys2Proof.Machine.execFeq d a b t s
  | .flt d a b t => Sys2Proof.Machine.execFlt d a b t s
  | .fle d a b t => Sys2Proof.Machine.execFle d a b t s
  | .fcvt d a t v => Sys2Proof.Machine.execFcvt d a t v s
  | .fclass d a t => Sys2Proof.Machine.execFclass d a t s
  | .fsgnj d a b t => Sys2Proof.Machine.execFsgnj d a b t s
  | .fsgnjn d a b t => Sys2Proof.Machine.execFsgnjn d a b t s
  | .fsgnjx d a b t => Sys2Proof.Machine.execFsgnjx d a b t s
  | .lend n k p c e => Sys2Proof.Machine.execLend n k p c e s
  | .vsetvl d a s_ e => Sys2Proof.Machine.execVsetvl d a s_ e s
  | .vgetvl q => Sys2Proof.Machine.execVgetvl q s
  | .vadd d a b m => Sys2Proof.Machine.execVadd d a b m s
  | .vsub d a b m => Sys2Proof.Machine.execVsub d a b m s
  | .vmul d a b m => Sys2Proof.Machine.execVmul d a b m s
  | .vmulh d a b m u => Sys2Proof.Machine.execVmulh d a b m u s
  | .vdiv d a b m u => Sys2Proof.Machine.execVdiv d a b m u s
  | .vrem d a b m u => Sys2Proof.Machine.execVrem d a b m u s
  | .vmin d a b m u => Sys2Proof.Machine.execVmin d a b m u s
  | .vmax d a b m u => Sys2Proof.Machine.execVmax d a b m u s
  | .vand d a b m => Sys2Proof.Machine.execVand d a b m s
  | .vor d a b m => Sys2Proof.Machine.execVor d a b m s
  | .vxor d a b m => Sys2Proof.Machine.execVxor d a b m s
  | .vsll d a b m => Sys2Proof.Machine.execVsll d a b m s
  | .vsrl d a b m => Sys2Proof.Machine.execVsrl d a b m s
  | .vsra d a b m => Sys2Proof.Machine.execVsra d a b m s
  | .vseq d a b m => Sys2Proof.Machine.execVseq d a b m s
  | .vsne d a b m => Sys2Proof.Machine.execVsne d a b m s
  | .vslt d a b m u => Sys2Proof.Machine.execVslt d a b m u s
  | .vsle d a b m u => Sys2Proof.Machine.execVsle d a b m u s
  | .vsel d a b => Sys2Proof.Machine.execVsel d a b s
  | .vmv d a m => Sys2Proof.Machine.execVmv d a m s
  | .vpopc d a m => Sys2Proof.Machine.execVpopc d a m s
  | .vxorpop d a b m => Sys2Proof.Machine.execVxorpop d a b m s
  | .vclz d a m => Sys2Proof.Machine.execVclz d a m s
  | .vrecAdd d a m => Sys2Proof.Machine.execVrecAdd d a m s
  | .vrecMax d a m u => Sys2Proof.Machine.execVrecMax d a m u s
  | .vrecLin d a b m => Sys2Proof.Machine.execVrecLin d a b m s
  | .vaddVx d a b m => Sys2Proof.Machine.execVaddVx d a b m s
  | .vsubVx d a b m => Sys2Proof.Machine.execVsubVx d a b m s
  | .vmulVx d a b m => Sys2Proof.Machine.execVmulVx d a b m s
  | .vmulhVx d a b m u => Sys2Proof.Machine.execVmulhVx d a b m u s
  | .vdivVx d a b m u => Sys2Proof.Machine.execVdivVx d a b m u s
  | .vremVx d a b m u => Sys2Proof.Machine.execVremVx d a b m u s
  | .vminVx d a b m u => Sys2Proof.Machine.execVminVx d a b m u s
  | .vmaxVx d a b m u => Sys2Proof.Machine.execVmaxVx d a b m u s
  | .vandVx d a b m => Sys2Proof.Machine.execVandVx d a b m s
  | .vorVx d a b m => Sys2Proof.Machine.execVorVx d a b m s
  | .vxorVx d a b m => Sys2Proof.Machine.execVxorVx d a b m s
  | .vsllVx d a b m => Sys2Proof.Machine.execVsllVx d a b m s
  | .vsrlVx d a b m => Sys2Proof.Machine.execVsrlVx d a b m s
  | .vsraVx d a b m => Sys2Proof.Machine.execVsraVx d a b m s
  | .vseqVx d a b m => Sys2Proof.Machine.execVseqVx d a b m s
  | .vsneVx d a b m => Sys2Proof.Machine.execVsneVx d a b m s
  | .vsltVx d a b m u => Sys2Proof.Machine.execVsltVx d a b m u s
  | .vsleVx d a b m u => Sys2Proof.Machine.execVsleVx d a b m u s
  | .vbcast d b m => Sys2Proof.Machine.execVbcast d b m s
  | .vclset b => Sys2Proof.Machine.execVclset b s
  | .vidxs d b m => Sys2Proof.Machine.execVidxs d b m s
  | .vfadd d a b m k => Sys2Proof.Machine.execVfadd d a b m k s
  | .vfsub d a b m k => Sys2Proof.Machine.execVfsub d a b m k s
  | .vfmul d a b m k => Sys2Proof.Machine.execVfmul d a b m k s
  | .vfdiv d a b m k => Sys2Proof.Machine.execVfdiv d a b m k s
  | .vfsqrt d a m k => Sys2Proof.Machine.execVfsqrt d a m k s
  | .vfmadd d a b m k => Sys2Proof.Machine.execVfmadd d a b m k s
  | .vfmin d a b m k => Sys2Proof.Machine.execVfmin d a b m k s
  | .vfmax d a b m k => Sys2Proof.Machine.execVfmax d a b m k s
  | .vfeq d a b m k => Sys2Proof.Machine.execVfeq d a b m k s
  | .vflt d a b m k => Sys2Proof.Machine.execVflt d a b m k s
  | .vfle d a b m k => Sys2Proof.Machine.execVfle d a b m k s
  | .vfexp2 d a m k => Sys2Proof.Machine.execVfexp2 d a m k s
  | .vfcvt d a c m => Sys2Proof.Machine.execVfcvt d a c m s
  | .vfclass d a m k => Sys2Proof.Machine.execVfclass d a m k s
  | .vfaddVf d a b m k => Sys2Proof.Machine.execVfaddVf d a b m k s
  | .vfsubVf d a b m k => Sys2Proof.Machine.execVfsubVf d a b m k s
  | .vfmulVf d a b m k => Sys2Proof.Machine.execVfmulVf d a b m k s
  | .vfdivVf d a b m k => Sys2Proof.Machine.execVfdivVf d a b m k s
  | .vfmaddVf d a b m k => Sys2Proof.Machine.execVfmaddVf d a b m k s
  | .vfminVf d a b m k => Sys2Proof.Machine.execVfminVf d a b m k s
  | .vfmaxVf d a b m k => Sys2Proof.Machine.execVfmaxVf d a b m k s
  | .vfeqVf d a b m k => Sys2Proof.Machine.execVfeqVf d a b m k s
  | .vfltVf d a b m k => Sys2Proof.Machine.execVfltVf d a b m k s
  | .vfleVf d a b m k => Sys2Proof.Machine.execVfleVf d a b m k s
  | .vwmul d a b m u => Sys2Proof.Machine.execVwmul d a b m u s
  | .vwmacc d a b m u => Sys2Proof.Machine.execVwmacc d a b m u s
  | .vwadd d a b m u => Sys2Proof.Machine.execVwadd d a b m u s
  | .vnclip d a b m u => Sys2Proof.Machine.execVnclip d a b m u s
  | .vsadd d a b m u => Sys2Proof.Machine.execVsadd d a b m u s
  | .vssub d a b m u => Sys2Proof.Machine.execVssub d a b m u s
  | .vaadd d a b m u => Sys2Proof.Machine.execVaadd d a b m u s
  | .vhad d a n m => Sys2Proof.Machine.execVhad d a n m s
  | .vhadC a n m => Sys2Proof.Machine.execVhadC a n m s
  | .vqnt d a c m t => Sys2Proof.Machine.execVqnt d a c m t s
  | .vdqnt d a c m t => Sys2Proof.Machine.execVdqnt d a c m t s
  | .vqntC d c m t => Sys2Proof.Machine.execVqntC d c m t s
  | .vrand d h o m => Sys2Proof.Machine.execVrand d h o m s
  | .vslideup d a b m => Sys2Proof.Machine.execVslideup d a b m s
  | .vslidedn d a b m => Sys2Proof.Machine.execVslidedn d a b m s
  | .vperm d a b m => Sys2Proof.Machine.execVperm d a b m s
  | .vzip d a b m => Sys2Proof.Machine.execVzip d a b m s
  | .vunzip d a m => Sys2Proof.Machine.execVunzip d a m s
  | .vcmprs d a m => Sys2Proof.Machine.execVcmprs d a m s
  | .vexpand d a m => Sys2Proof.Machine.execVexpand d a m s
  | .vredsum q a m u => Sys2Proof.Machine.execVredsum q a m u s
  | .vredmax q a m u => Sys2Proof.Machine.execVredmax q a m u s
  | .vredmin q a m u => Sys2Proof.Machine.execVredmin q a m u s
  | .vredand q a m => Sys2Proof.Machine.execVredand q a m s
  | .vredor q a m => Sys2Proof.Machine.execVredor q a m s
  | .vfredsum q a m k => Sys2Proof.Machine.execVfredsum q a m k s
  | .vmand d a b m => Sys2Proof.Machine.execVmand d a b m s
  | .vmor d a b m => Sys2Proof.Machine.execVmor d a b m s
  | .vmxor d a b m => Sys2Proof.Machine.execVmxor d a b m s
  | .vmnot d a m => Sys2Proof.Machine.execVmnot d a m s
  | .vfirst q a m => Sys2Proof.Machine.execVfirst q a m s
  | .vcount q a m => Sys2Proof.Machine.execVcount q a m s
  | .vidx d s_ p => Sys2Proof.Machine.execVidx d s_ p s
  | .vld d a m w => Sys2Proof.Machine.execVld d a m w s
  | .vldStrided d a b m w => Sys2Proof.Machine.execVldStrided d a b m w s
  | .vldIndexed d a v m w => Sys2Proof.Machine.execVldIndexed d a v m w s
  | .vldSeg d a m n w => Sys2Proof.Machine.execVldSeg d a m n w s
  | .vldF d a m w => Sys2Proof.Machine.execVldF d a m w s
  | .vldFSeg d a m n w => Sys2Proof.Machine.execVldFSeg d a m n w s
  | .vldSegIndexed d a v m n w => Sys2Proof.Machine.execVldSegIndexed d a v m n w s
  | .vst s_ a m w => Sys2Proof.Machine.execVst s_ a m w s
  | .vstStrided s_ a b m w => Sys2Proof.Machine.execVstStrided s_ a b m w s
  | .vstIndexed s_ a v m w => Sys2Proof.Machine.execVstIndexed s_ a v m w s
  | .vstSeg s_ a m n w => Sys2Proof.Machine.execVstSeg s_ a m n w s
  | .vstN s_ a m w => Sys2Proof.Machine.execVstN s_ a m w s
  | .vstNSeg s_ a m n w => Sys2Proof.Machine.execVstNSeg s_ a m n w s
  | .vstNIndexed s_ a v m w => Sys2Proof.Machine.execVstNIndexed s_ a v m w s
  | .vsort d a p s_ k => Sys2Proof.Machine.execVsort d a p s_ k s
  | .vmrg d a b k => Sys2Proof.Machine.execVmrg d a b k s
  | .vmrgc q a b k => Sys2Proof.Machine.execVmrgc q a b k s
  | .visec d a b k => Sys2Proof.Machine.execVisec d a b k s
  | .vuniq d a k => Sys2Proof.Machine.execVuniq d a k s
  | .vrank d a b k => Sys2Proof.Machine.execVrank d a b k s
  | .vrankLe d a b k => Sys2Proof.Machine.execVrankLe d a b k s
  | .vpart d a b k => Sys2Proof.Machine.execVpart d a b k s
  | .vtopk d a b k => Sys2Proof.Machine.execVtopk d a b k s
  | .vcmpt d a k => Sys2Proof.Machine.execVcmpt d a k s
  | .vchks a s_ k => Sys2Proof.Machine.execVchks a s_ k s
  | .vfacet q a => Sys2Proof.Machine.execVfacet q a s
  | .mopa t a b m f => Sys2Proof.Machine.execMopa t a b m f s
  | .mopaS t a b m f => Sys2Proof.Machine.execMopaS t a b m f s
  | .mopaW t a w m f => Sys2Proof.Machine.execMopaW t a w m f s
  | .mopaGr t a s_ f => Sys2Proof.Machine.execMopaGr t a s_ f s
  | .tzero t => Sys2Proof.Machine.execTzero t s
  | .tanchor t a => Sys2Proof.Machine.execTanchor t a s
  | .tres t f => Sys2Proof.Machine.execTres t f s
  | .tmovr t d c f => Sys2Proof.Machine.execTmovr t d c f s
  | .tmovw t a c f => Sys2Proof.Machine.execTmovw t a c f s
  | .tldRaw t a => Sys2Proof.Machine.execTldRaw t a s
  | .tldCan t a f => Sys2Proof.Machine.execTldCan t a f s
  | .tstRaw t a => Sys2Proof.Machine.execTstRaw t a s
  | .tstCan t a f => Sys2Proof.Machine.execTstCan t a f s
  | .cbld t a => Sys2Proof.Machine.execCbld t a s
  | .qpush q s_ => Sys2Proof.Machine.execQpush q s_ s
  | .qpop q d => Sys2Proof.Machine.execQpop q d s
  | .qstat q c => Sys2Proof.Machine.execQstat q c s
  | .copy c a => Sys2Proof.Machine.execCopy c a s
  | .vgthr v c a => Sys2Proof.Machine.execVgthr v c a s
  | .drain c => Sys2Proof.Machine.execDrain c s
  | .fence s_ k => Sys2Proof.Machine.execFence s_ k s
  | .csrr d c => Sys2Proof.Machine.execCsrr d c s
  | .csrw a c => Sys2Proof.Machine.execCsrw a c s
  | .csrs a c => Sys2Proof.Machine.execCsrs a c s
  | .csrc a c => Sys2Proof.Machine.execCsrc a c s
  | .illegalWord w e => Sys2Proof.Machine.execIllegalWord w e s
  | .vlsync => Sys2Proof.Machine.execVlsync s
  | .vfenceD => Sys2Proof.Machine.execVfenceD s
  | .uend => Sys2Proof.Machine.execUend s
  | .yield => Sys2Proof.Machine.execYield s
  | .ecall => Sys2Proof.Machine.execEcall s
  | .ebrk => Sys2Proof.Machine.execEbrk s
  | .eret => Sys2Proof.Machine.execEret s
  | .snap => Sys2Proof.Machine.execSnap s
  | .wfi => Sys2Proof.Machine.execWfi s
  | .waitge a b w => Sys2Proof.Machine.execWaitge a b w s
  | .waiteq a b w => Sys2Proof.Machine.execWaiteq a b w s
  | .launch a d => Sys2Proof.Machine.execLaunch a d s
  | .launchNode a b d => Sys2Proof.Machine.execLaunchNode a b d s
  | .cancel a d => Sys2Proof.Machine.execCancel a d s
  | .cread a d => Sys2Proof.Machine.execCread a d s
  | .creadT a d => Sys2Proof.Machine.execCreadT a d s
  | .clasp a d => Sys2Proof.Machine.execClasp a d s
  | .claspCfg a b d => Sys2Proof.Machine.execClaspCfg a b d s
  | .clarr a q => Sys2Proof.Machine.execClarr a q s
  | .clwait a b => Sys2Proof.Machine.execClwait a b s
  | .grant a b d => Sys2Proof.Machine.execGrant a b d s
  | .ctxsave a => Sys2Proof.Machine.execCtxsave a s
  | .ctxrst a => Sys2Proof.Machine.execCtxrst a s
  | .tlbinv d a => Sys2Proof.Machine.execTlbinv d a s
  | .placew d a => Sys2Proof.Machine.execPlacew d a s
  | .vfset a v => Sys2Proof.Machine.execVfset a v s
  | .hint h => Sys2Proof.Machine.execHint h s
  | .waitSatisfied c => Sys2Proof.Machine.execWaitSatisfied c s
  | .claspWake c => Sys2Proof.Machine.execClaspWake c s
  | .tlbinvComplete c => Sys2Proof.Machine.execTlbinvComplete c s
  | .accessPerform c k => Sys2Proof.Machine.execAccessPerform c k s
  | .wcbEarlyDrain c n => Sys2Proof.Machine.execWcbEarlyDrain c n s
  | .scoreboardWaitEnd c => Sys2Proof.Machine.execScoreboardWaitEnd c s
  | .copyCommandStart c ch => Sys2Proof.Machine.execCopyCommandStart c ch s
  | .copyCommandRetire c ch => Sys2Proof.Machine.execCopyCommandRetire c ch s
  | .counterIncrement k => Sys2Proof.Machine.execCounterIncrement k s
  | .journalRelease die ctr => Sys2Proof.Machine.execJournalRelease die ctr s
  | .dispatcherPop die b1 b2 => Sys2Proof.Machine.execDispatcherPop die b1 b2 s
  | .gangAdmit die => Sys2Proof.Machine.execGangAdmit die s
  | .unitHandOut c => Sys2Proof.Machine.execUnitHandOut c s
  | .unitPreload c => Sys2Proof.Machine.execUnitPreload c s
  | .prologueComplete c => Sys2Proof.Machine.execPrologueComplete c s
  | .unitStart c => Sys2Proof.Machine.execUnitStart c s
  | .budget c => Sys2Proof.Machine.execBudget c s
  | .reclaim c => Sys2Proof.Machine.execReclaim c s
  | .timer c => Sys2Proof.Machine.execTimer c s
  | .preempt c => Sys2Proof.Machine.execPreempt c s
  | .cancelled c => Sys2Proof.Machine.execCancelled c s
  | .stragglerFlag flags => Sys2Proof.Machine.execStragglerFlag flags s
  | .theftRequest die ctr n thief => Sys2Proof.Machine.execTheftRequest die ctr n thief s
  | .theftReply victim die ctr lo hi blob => Sys2Proof.Machine.execTheftReply victim die ctr lo hi blob s
  | .regenerationRun k => Sys2Proof.Machine.execRegenerationRun k s
  | .rfill a => Sys2Proof.Machine.execRfill a s
  | .randomFillDone k => Sys2Proof.Machine.execRandomFillDone k s
  | .snapshotLineCopy asid va => Sys2Proof.Machine.execSnapshotLineCopy asid va s
  | .snapshotComplete => Sys2Proof.Machine.execSnapshotComplete s
  | .remoteRefusal c a => Sys2Proof.Machine.execRemoteRefusal c a s
  | .partialStoreError c a => Sys2Proof.Machine.execPartialStoreError c a s
  | .coreFailed die slot => Sys2Proof.Machine.execCoreFailed die slot s
  | .dieLost die => Sys2Proof.Machine.execDieLost die s
  | .hbmStackLost stack => Sys2Proof.Machine.execHbmStackLost stack s
  | .linkLanesFailed link => Sys2Proof.Machine.execLinkLanesFailed link s
  | .linkLost link => Sys2Proof.Machine.execLinkLost link s
  | .softErrorThreshold k => Sys2Proof.Machine.execSoftErrorThreshold k s
  | .linkTraining link peer lo hi => Sys2Proof.Machine.execLinkTraining link peer lo hi s
  | .gtsSync g => Sys2Proof.Machine.execGtsSync g s
  | .hostMemoryAccess store a n v => Sys2Proof.Machine.execHostMemoryAccess store a n v s
  | .boot a => Sys2Proof.Machine.execBoot a s
  | .bootImageLoaded good bad => Sys2Proof.Machine.execBootImageLoaded good bad s
  | .hypContextStart => Sys2Proof.Machine.execHypContextStart s
  | .plreq v => Sys2Proof.Machine.execPlreq v s
  | .powerTransitionDone => Sys2Proof.Machine.execPowerTransitionDone s
  | .twarn v => Sys2Proof.Machine.execTwarn v s
  | .ttrip v => Sys2Proof.Machine.execTtrip v s
  | .mcaddr v => Sys2Proof.Machine.execMcaddr v s
  | .jrctr v => Sys2Proof.Machine.execJrctr v s
  | .regenRegister a => Sys2Proof.Machine.execRegenRegister a s
  | .regenUnregister a => Sys2Proof.Machine.execRegenUnregister a s
  | .replace => Sys2Proof.Machine.execReplace s
  | .domain v => Sys2Proof.Machine.execDomain v s
  | .reset v => Sys2Proof.Machine.execReset v s
  | .functionLevelReset => Sys2Proof.Machine.execFunctionLevelReset s
  | .conventionalReset => Sys2Proof.Machine.execConventionalReset s
  | .powerOnReset => Sys2Proof.Machine.execPowerOnReset s
  | .controlWindowWrite off v => Sys2Proof.Machine.execControlWindowWrite off v s
  | .twarnCrossing r => Sys2Proof.Machine.execTwarnCrossing r s
  | .warnClear r => Sys2Proof.Machine.execWarnClear r s
  | .ttripCrossing r => Sys2Proof.Machine.execTtripCrossing r s
  | .tripTimerExpiry => Sys2Proof.Machine.execTripTimerExpiry s
  | .immediateTrip r => Sys2Proof.Machine.execImmediateTrip r s
  | .regenerationRunComplete k => Sys2Proof.Machine.execRegenerationRunComplete k s
  | .deviceMemberArrival id member stamp => Sys2Proof.Machine.execDeviceMemberArrival id member stamp s

end Sys2Proof.Machine
end

