-- ==== Sys2Proof/Machine/Run.lean ====
section
/-! DEFINITION. What one step consists of: time passes, an agent moves, or the context whose turn it is takes a trap, commits an
entry, or executes its next word. -/

namespace Sys2Proof.Machine

/-! ## Time -/

/-- A context after `n` clk (R312): the budget count of a resident one goes on. -/
def Ctx.age (c : Ctx) (n : Nat) : Ctx := if c.run = .running then ({ c with bused := c.bused + n } : Ctx).spend else c

/-- Time passes (log 4); in the tripped state every clock stands (R425). -/
def State.tick (s : State) : State :=
  if s.dev.win.state = 6 then { s with steps := s.steps + 1 }
  else
    let n := Config.clk s.steps
    { s with
      ctx := s.ctx.age n
      others := s.others.map fun p => (p.1, p.2.age n)
      steps := s.steps + 1
      cyc := s.cyc + n
      gts := s.gts + Config.ns s.steps }

/-! ## Executing a word -/

/-- The meaning of a late form. -/
def runLate (l : LateInstr) (s : State) : Res :=
  match l with
  | .waitge a b w => execWaitge a b w s
  | .waiteq a b w => execWaiteq a b w s
  | .launch a d => execLaunch a d s
  | .launchNode a b d => execLaunchNode a b d s
  | .cancel a d => execCancel a d s
  | .cread a d => execCread a d s
  | .creadT a d => execCreadT a d s
  | .clasp a d => execClasp a d s
  | .claspCfg a b d => execClaspCfg a b d s
  | .clarr a q => execClarr a q s
  | .clwait a b => execClwait a b s
  | .grant a b d => execGrant a b d s
  | .ctxsave a => execCtxsave a s
  | .ctxrst a => execCtxrst a s
  | .tlbinv d a => execTlbinv d a s
  | .placew d a => execPlacew d a s
  | .vfset a v => execVfset a v s
  | .hint h => execHint h s

/-- The meaning of a decoded word. -/
def runDecoded (d : Decoded) (s : State) : Res :=
  match d with
  | .instr i => Machine.exec i s
  | .late l => runLate l s

/-- The lowest level that may execute a decoded word (R43). -/
def decodedLevel : Decoded → Priv
  | .instr i => i.lowestLevel
  | .late (.launch ..) | .late (.launchNode ..) | .late (.cancel ..) | .late (.claspCfg ..) | .late (.grant ..)
  | .late (.ctxsave ..) | .late (.ctxrst ..) | .late (.tlbinv ..) | .late (.vfset ..) => .sup
  | .late (.placew ..) => .hyp
  | .late _ => .app

/-- An ineligible successor (R74): LEND_PAIR, the latch cleared. -/
def State.lendPair (s : State) (w : Word32) : Res := .next ((s.onCtx fun c => { c with latch := none }).trap 0x0B (w.setWidth 64))

/-- The successor of a lend (R72 to R74, R136): below its level it raises PRIV, which R43 puts before LEND_PAIR; else it executes, is
issued with the latch, or is skipped. -/
def State.successor (s : State) (l : Latch) (w : Word32) (d : Decoded) : Res :=
  if s.ctx.priv.rank < (decodedLevel d).rank then .next ((s.onCtx fun c => { c with latch := none }).trap 0x03 (w.setWidth 64))
  else if !l.eligible d then s.lendPair w
  else if decodedEnters d || l.pv != l.neg then runDecoded d s
  else .next (s.skip l (decodedDest d))

/-- The lend latch as the word at the pc finds it: pending only for the word at lend + 4 (R75). -/
def Ctx.latchHere (c : Ctx) : Option Latch := c.latch.filter fun l => l.succ == c.pc

/-- A fetched word runs (R43 to R45, R74), as the successor of a lend only at lend + 4 (R75). -/
def State.runFetched (s : State) (w : Word32) : Res :=
  let s := s.onCtx fun c => { c with latch := c.latchHere }
  match decodeWord w, s.ctx.latch with
  | .ok d, none => runDecoded d s
  | .ok d, some l => s.successor l w d
  | .error e, none => execIllegalWord w e s
  | .error e, some l => if e == .queue && l.dcEn then s.lendPair w else execIllegalWord w e s

/-- The SCT's next word, fetched or from the loop buffer, runs; the body of a loop is fetched again first after an eret into it
(R130). The vector unit stays behind for one word less (log 6). -/
def State.runWord (s : State) : Res :=
  if s.ctx.resume then s.refetch
  else if s.fetchWaits then .next (s.stallFor .chan)
  else
    match s.sctWord with
    | (.error r, s) => .next (s.refuse r)
    | (.ok w, s) => (s.onCtx fun c => { c with lag := c.lag - 1 }).runFetched w

/-! ## The other agents -/

/-- What the snapshot, regeneration and fill engines do of their own accord; none where nothing is left to do, and while HBM rests (R423,
R425). -/
def State.engines (s : State) : Option State :=
  let done := fun (r : Res) => match r with
    | .next t => some t
    | _ => none
  if !s.dev.hbmAwake then none
  else
    match s.dev.snap with
    | some p =>
      (match p.next with
        | some k => some (if p.overflow then s.endSnap else s.copyLine k)
        | none => some s.endSnap)
    | none =>
      match (List.range s.dev.regens.length).find? fun k => (s.dev.regens[k]?).any fun r => r.owed != 0 || r.running.isSome with
      | some k =>
        if (s.dev.regens[k]?).any fun r => r.running.isSome then done (execRegenerationRunComplete k s) else done (execRegenerationRun k s)
      | none => if s.dev.fills.isEmpty then none else done (execRandomFillDone 0 s)

/-- What goes on beside the contexts of its own accord: the copy engine of this core, the other engines, increments on their way, and theft
requests; none where nothing is left to do. -/
def State.background (s : State) : Option State :=
  let c := coreOf s.cur * 2
  match s.engineMove c, s.engineMove (c + 1), s.engines with
  | some t, _, _ => some t
  | none, some t, _ => some t
  | none, none, some t => some t
  | none, none, none =>
    if !s.dev.incs.isEmpty then some (s.deliverInc 0)
    else
      match s.dev.thefts with
      | (die, ctr, n, thief) :: _ => some (s.serveTheft die ctr n thief)
      | [] => none

/-- The banks that the LFSR samples (R313; log 16): two distinct ones of those that hold a ready launch. -/
def State.sampled (s : State) (die : Nat) : Nat × Nat :=
  let ready := s.dev.inPhase die .ready
  let full := (List.range 16).filter fun b => ready.any fun l => l.bank == b
  let b1 := full.getD (Config.lfsr s.steps % full.length) 0
  let rest := full.filter (· != b1)
  (b1, rest.getD (Config.lfsr (s.steps + 1) / 16 % rest.length) 0)

/-- The walker and dispatcher of this die work for a context that runs nothing (R308, R310, R313, R315, R333). -/
def State.findWork (s : State) : State :=
  match s.ctx.unit with
  | some u => if u.ready then s.startUnit s.cur else s.prologueOf s.cur
  | none =>
    match s.admitGang s.die with
    | some t => t
    | none =>
      match s.handOut s.cur with
      | some t => t
      | none => s.popLaunch s.die (s.sampled s.die).1 (s.sampled s.die).2

/-- A context that does not run: the engines go on, and the walker looks for a unit for it. -/
def State.idle (s : State) : State :=
  match s.background with
  | some t => t
  | none => if s.ctx.run = .off then s.findWork else s

/-! ## The oldest entry -/

/-- The SCT has begun a scalar load or an amo that waits for a scoreboard range (R221): traps are held until it has written xd (R17,
R371). -/
def Ctx.loading (c : Ctx) : Bool :=
  match c.stall with
  | some (.board _ _) => true
  | _ => false

/-- What the oldest queue entry does at the commit point (R14, R18); none where there is none, or the vector unit stays behind (log 6). -/
def State.head (s : State) : Option Commit :=
  if s.ctx.lag ≠ 0 then none
  else
    match s.ctx.viq with
    | [] => none
    | e :: _ => some (s.guarded e (commit e.instr e.op1 e.op2))

/-! ## A step -/

/-- The SCT goes on: where it waits, the engines go on first. -/
def State.advanceSct (s : State) : Res :=
  match s.ctx.stall with
  | none => s.runWord
  | some _ =>
    match s.background with
    | some t => .next t
    | none => s.runWord

/-- The SCT has taken a trap, or stopped in a handler. -/
def State.trapped (s t : State) : Bool := (t.ctx.tfv && !s.ctx.tfv) || t.ctx.run != s.ctx.run

/-- A trap of the oldest entry has reached commit, and leads to `t` (R371): it comes before every asynchronous cause, and is taken at the
SCT's next boundary. Where a scalar load or an amo has begun, that is the one after it; a trap of that word itself has no effect. -/
def State.vectorTrap (s t : State) : Res :=
  if s.ctx.loading then
    match s.advanceSct with
    | .next u => .next (if s.trapped u then t else u)
    | r => r
  else .next t

/-- The context whose turn it is goes on without a vector trap: it takes an asynchronous cause (R371), or its oldest queue entry commits
or enters the access path, or else its SCT executes. While the entry waits, the engines go on before the SCT. -/
def State.advanceBy (s : State) (h : Option Commit) : Res :=
  match s.ctx.takeAsync s.cyc with
  | some c => .next (s.intoHandler c)
  | none =>
    match h with
    | some (.done t) => .next t.popHead
    | some (.held t ps) =>
      if s.ctx.late.isNone then .next (t.enterHead ps)
      else
        match s.background with
        | some t => .next t
        | none => s.advanceSct
    | some .wait =>
      match s.background with
      | some t => .next t
      | none => s.advanceSct
    | some (.trap _ _ _) | none => s.advanceSct

/-- The context whose turn it is goes on. -/
def State.advance (s : State) : Res :=
  if s.ctx.run ≠ .running then .next s.idle
  else
    match s.head with
    | some (.trap c t u) => s.vectorTrap (u.takeTrap false true c t)
    | h => s.advanceBy h

/-- A value put into a list, or taken out of it. -/
def toggle {α : Type} [BEq α] (a : α) (l : List α) : List α := if l.contains a then l.erase a else a :: l

/-- What still happens in the tripped state, in which every clock of the package stands (R425): what the host and the world outside do; no
unit of the device acts, and no part of it is found to fail (log 77). -/
def Move.outlives : Move → Bool
  | .event i =>
    (match i with
      | .hostMemoryAccess .. | .boot .. | .plreq .. | .twarn .. | .ttrip .. | .mcaddr .. | .jrctr .. | .regenRegister .. => true
      | .regenUnregister .. | .rfill .. | .replace .. | .domain .. | .controlWindowWrite .. => true
      | .reset .. | .functionLevelReset .. | .conventionalReset .. | .powerOnReset .. => true
      | _ => false)
  | .turn _ | .lag _ | .outside _ _ | .claspRefuse _ _ _ => true
  | .go | .land _ _ _ | .softError _ | .tileParity _ _ | .steal .. | .theft .. | .sense _ _ => false

/-- What happens at level 4, at which the device is off (R423; log 35): what the host and the world outside do, the end of a transition, and
what the sensors read (R425). -/
def Move.whileOff : Move → Bool
  | .event i =>
    (match i with
      | .powerTransitionDone | .twarnCrossing .. | .warnClear .. | .ttripCrossing .. | .tripTimerExpiry | .immediateTrip .. => true
      | _ => (Move.event i).outlives)
  | .sense _ _ => true
  | m => m.outlives

/-- An agent moves (log 5); in the tripped state only what outlives it does (R425), and at level 4 what happens while the device is off
(R423). A move that names a word and not an event changes nothing. -/
def State.moveOf (s : State) (m : Move) : Res :=
  if (s.tripped && !m.outlives) || (s.dev.win.level == 4 && !m.whileOff) then .next s
  else
  match m with
  | .event i => if isEvent i then exec i s else .next s
  | .turn c => if c < numContexts then .next (s.turnTo c) else .fault (.noSuchContext c)
  | .go => s.advance
  | .lag n => .next (s.onCtx fun c => { c with lag := n + 1 })
  | .land c ch n => .next (if c < numContexts then s.landChunk c (BitVec.ofNat 3 ch) n else s)
  | .outside key bs => .next (s.outside key bs)
  | .softError k => .next (s.onDev fun d => d.countError k)
  | .tileParity c t => .next (if c < numContexts then s.spoilTile c t else s)
  | .steal walker victim die ctr ver lg tr n => .next (s.sendTheft walker victim die ctr ver lg tr n)
  | .theft die ctr n thief => .next (s.onDev fun d => { d with thefts := d.thefts ++ [(die, ctr, n, thief)] })
  | .claspRefuse home id asid => .next (s.onDev fun d => { d with awayRefused := toggle (home, id, asid) d.awayRefused })
  | .sense n deg => .next (s.sense n deg)

/-- What a step does once time has passed: the next of the moves to come is made; with none to come, the context whose turn it is
goes on. -/
def State.act (s : State) : Res :=
  match s.moves with
  | m :: r => ({ s with moves := r } : State).moveOf m
  | [] => s.advance

/-! ## A word placed to be fetched -/

/-- The context with nothing pending before its next word. -/
def Ctx.quiet (c : Ctx) : Ctx :=
  { c with
    viq := [], late := none, lag := 0, latch := none, loop := none, resume := false, stall := none, run := .running
    pMcheck := [], pCancelled := [], pReclaim := none, pBudget := false, pPreempt := false, armed := false, tmr := 0 }

/-- The machine with a context that can fetch at its pc: itself, or after the end of bring-up (R428; log 1). -/
def State.readyToFetch (s : State) : State :=
  let ok : Bool := match (s.fetchAt s.ctx.pc).1 with
    | .ok _ => s.ctx.run == .running
    | .error _ => false
  let s := if ok then s else
    let t := (s.bringUp.onWin fun w => { w with state := 4 })
    t.turnTo (((t.dev.physCore 0 0).getD 0) * 2)
  { s with moves := [], ctx := s.ctx.quiet }

/-- The machine with a word stored where the next step fetches. -/
def State.placeWord (s : State) (w : Word32) : State :=
  let s := s.readyToFetch
  match (s.translate s.ctx.asid s.ctx.priv .fetch s.ctx.pc).1 with
  | .ok l =>
    { s with
      mem := s.mem.setAll (writesAt l.key (leBytes 4 w.toNat))
      dev := { s.dev with eccBad := s.dev.eccBad.filter (· != l.key / 8), refusing := s.dev.refusing.filter (· != l.key / 65536) } }
  | .error _ => s

end Sys2Proof.Machine
end

