-- ==== Sys2Proof/Machine/Step.lean ====
section
/-! DEFINITION. One step of the machine. -/

namespace Sys2Proof.Machine

/-- One step: time passes, and an agent moves or the context whose turn it is goes on. -/
def step (s : State) : Host.Outcome State Fault Refusal := s.tick.act

/-- `s` with the instruction whose table bits are `w` stored where `step` fetches its next instruction: one word of 32 bits (R38). -/
def State.withFetchWord (s : State) (_nbits w : Nat) : State := s.placeWord (BitVec.ofNat 32 w)

end Sys2Proof.Machine
end

