-- ==== Sys2Proof/Certificates/Slice0/Obligations.lean ====
section
/-! DEFINITION. The statements for the provers. Each docstring names the rules of spec/ that its statement formalises. -/

namespace Sys2Proof.Claims

open Sys2Proof.Machine

/-! ## Words that only the SCT executes -/

/-- What a word that executes in the SCT and touches no memory may change: the x registers, and where the SCT goes on (pc, the active
body, the lend latch, a wait). Every vector register, facet, tile, latch, queue, channel, handle, CSR, flag and pending cause of the
context, every other context, the device, the clocks and every byte of memory stay. -/
def OnlyX (s t : State) : Prop :=
  t = { s with ctx := { s.ctx with x := t.ctx.x, pc := t.ctx.pc, loop := t.ctx.loop, latch := none, stall := none } } ∧
    ∀ a, t.byteAt a = s.byteAt a

/-- An x register that the completion of a word may change beside the word's destination: the last word of a loop body counts x[xa]
down (R124), the last word of a nest body writes j0 to j5 (R128). -/
def bodyWrites (c : Ctx) (r : BitVec 5) : Bool :=
  match c.loop with
  | none => false
  | some l =>
    if l.idx + 1 < l.body.length then false
    else match l.nest with
      | none => r == l.xa
      | some _ => decide (19 ≤ r.toNat) && decide (r.toNat ≤ 24)

/-- An ALU or immediate word with its destination and the value that the tables of R113 to R117 give it, in unbounded arithmetic. -/
def aluResult (i : Instr) (s : State) : Option (BitVec 5 × Word) :=
  let u := fun r => (s.getX r).toNat
  let g := fun r => (s.getX r).toInt
  let z := fun (n : Nat) => BitVec.ofNat 64 n
  let k := fun (n : Int) => BitVec.ofInt 64 n
  let bit := fun (p : Prop) [Decidable p] => (if p then 1 else 0 : Word)
  match i with
  | .add d a b => some (d, z (u a + u b))
  | .sub d a b => some (d, k ((u a : Int) - u b))
  | .and d a b => some (d, z (Nat.land (u a) (u b)))
  | .or d a b => some (d, z (Nat.lor (u a) (u b)))
  | .xor d a b => some (d, z (Nat.xor (u a) (u b)))
  | .sll d a b => some (d, z (u a * 2 ^ (u b % 64)))
  | .srl d a b => some (d, z (u a / 2 ^ (u b % 64)))
  | .sra d a b => some (d, k (g a / 2 ^ (u b % 64)))
  | .slt d a b => some (d, bit (g a < g b))
  | .sltu d a b => some (d, bit (u a < u b))
  | .mul d a b => some (d, z (u a * u b))
  | .mulh d a b => some (d, k (g a * g b / 2 ^ 64))
  | .mulhu d a b => some (d, z (u a * u b / 2 ^ 64))
  | .div d a b => some (d, if u b = 0 then k (-1) else k ((g a).tdiv (g b)))
  | .divu d a b => some (d, if u b = 0 then k (-1) else z (u a / u b))
  | .rem d a b => some (d, if u b = 0 then s.getX a else k ((g a).tmod (g b)))
  | .remu d a b => some (d, if u b = 0 then s.getX a else z (u a % u b))
  | .min d a b => some (d, k (min (g a) (g b)))
  | .max d a b => some (d, k (max (g a) (g b)))
  | .minu d a b => some (d, z (min (u a) (u b)))
  | .maxu d a b => some (d, z (max (u a) (u b)))
  | .clz d a => some (d, z (if u a = 0 then 64 else 63 - Nat.log2 (u a)))
  | .ctz d a => some (d, z (((List.range 64).find? fun n => (u a).testBit n).getD 64))
  | .popc d a => some (d, z ((List.range 64).filter fun n => (u a).testBit n).length)
  | .rev8 d a => some (d, z (((List.range 8).map fun n => u a / 256 ^ n % 256 * 256 ^ (7 - n)).sum))
  | .sextB d a => some (d, k (toSigned 8 (u a)))
  | .sextH d a => some (d, k (toSigned 16 (u a)))
  | .sextW d a => some (d, k (toSigned 32 (u a)))
  | .addi d a i => some (d, k (u a + i.toInt))
  | .andi d a i => some (d, z (Nat.land (u a) i.toNat))
  | .ori d a i => some (d, z (Nat.lor (u a) i.toNat))
  | .xori d a i => some (d, z (Nat.xor (u a) i.toNat))
  | .slti d a i => some (d, bit (g a < i.toInt))
  | .sltiu d a i => some (d, bit (u a < (k i.toInt).toNat))
  | .slli d a n => some (d, z (u a * 2 ^ n.toNat))
  | .srli d a n => some (d, z (u a / 2 ^ n.toNat))
  | .srai d a n => some (d, k (g a / 2 ^ n.toNat))
  | .lui d i => some (d, k (i.toInt * 2 ^ 11))
  | .auipc d i => some (d, k (s.ctx.pc.toNat + i.toInt * 2 ^ 11))
  | _ => none

/-- A branch with its condition (R118). -/
def branchTaken (i : Instr) (s : State) : Option (Bool × BitVec 16) :=
  let u := fun r => (s.getX r).toNat
  let g := fun r => (s.getX r).toInt
  match i with
  | .beq a b o => some (decide (u a = u b), o)
  | .bne a b o => some (decide (u a ≠ u b), o)
  | .blt a b o => some (decide (g a < g b), o)
  | .bge a b o => some (decide (g b ≤ g a), o)
  | .bltu a b o => some (decide (u a < u b), o)
  | .bgeu a b o => some (decide (u b ≤ u a), o)
  | _ => none

end Sys2Proof.Claims

open Sys2Proof Sys2Proof.Machine Sys2Proof.Claims

/-- R41, R34: a write of an x register is read back, one of x0 is discarded, and no other register and nothing else changes. -/
def Sys2Proof.Claims.RegisterWrite : Prop :=
  ∀ (s : State) (d r : BitVec 5) (v : Word),
    (s.setX d v).getX r = (if r = 0 then 0 else if r = d then v else s.getX r) ∧
      s.setX d v = { s with ctx := { s.ctx with x := (s.setX d v).ctx.x } }

/-- R124, R128, R137: what the completion of an SCT word does next: outside a body and within one the next word follows; after the last
word of a loop body x[xa] is one less, and the body starts again until it is 0; after the last word of a nest body j0 to j5 hold the
next tuple, and the body starts again until there is none. -/
def Sys2Proof.Claims.WordCompletion : Prop :=
  (∀ c : Ctx, c.loop = none → c.retire = { c with pc := pcPlus c.pc 4, latch := none, stall := none }) ∧
  (∀ (c : Ctx) (l : LoopSt), c.loop = some l → l.idx + 1 < l.body.length →
    c.retire = { c with pc := pcPlus c.pc 4, loop := some { l with idx := l.idx + 1 }, latch := none, stall := none }) ∧
  (∀ (c : Ctx) (l : LoopSt), c.loop = some l → l.body.length ≤ l.idx + 1 → l.nest = none →
    c.retire =
      if c.getX l.xa = 1 then { c.setX l.xa 0 with pc := l.past, loop := none, latch := none, stall := none }
      else { c.setX l.xa (c.getX l.xa - 1) with pc := l.first, loop := some { l with idx := 0 }, latch := none, stall := none }) ∧
  (∀ (c : Ctx) (l : LoopSt) (bs : List Byte) (b : NestBlock), c.loop = some l → l.body.length ≤ l.idx + 1 → l.nest = some bs →
    parseNest bs = some b →
    c.retire = match b.next c.tuple with
      | some j => { c.setTuple j with pc := l.first, loop := some { l with idx := 0 }, latch := none, stall := none }
      | none => { c with pc := l.past, loop := none, latch := none, stall := none })

/-- R113 to R117: every ALU and immediate word writes the value of its table and completes, in every state; it traps on no operand. -/
def Sys2Proof.Claims.AluResults : Prop :=
  ∀ (i : Instr) (s : State) (d : BitVec 5) (v : Word), aluResult i s = some (d, v) → exec i s = .next (s.setX d v).retire

/-- R112: an ALU or immediate word changes no register but its destination and those that the end of a body changes, and nothing else. -/
def Sys2Proof.Claims.AluFrame : Prop :=
  ∀ (i : Instr) (s t : State) (d : BitVec 5) (v : Word), aluResult i s = some (d, v) → exec i s = .next t →
    OnlyX s t ∧ ∀ r, r ≠ d → bodyWrites s.ctx r = false → t.getX r = s.getX r

/-- R118, R119: a branch that is taken, and jal, go to (PC + 4 × offset) mod 2^55; a branch that is not taken completes to the next word;
jal writes PC + 4. No other register and nothing else changes. -/
def Sys2Proof.Claims.BranchesAndJumps : Prop :=
  (∀ (i : Instr) (s : State) (taken : Bool) (o : BitVec 16), branchTaken i s = some (taken, o) →
    ∃ t, exec i s = .next t ∧ OnlyX s t ∧
      (taken = true → t.ctx.x = s.ctx.x ∧ t.ctx.loop = none ∧ t.ctx.pc.toNat = ((s.ctx.pc.toNat + 4 * o.toInt) % 2 ^ 55).toNat) ∧
      (taken = false → t = s.retire)) ∧
  (∀ (s : State) (d : BitVec 5) (o : BitVec 21), ∃ t, exec (.jal d o) s = .next t ∧ OnlyX s t ∧ t.ctx.loop = none ∧
    t.ctx.pc.toNat = ((s.ctx.pc.toNat + 4 * o.toInt) % 2 ^ 55).toNat ∧ t.ctx.x = (s.ctx.setX d (s.ctx.pc + 4)).x)

/-- R118 to R120: the branches, jal and jalr have majors 0x17 to 0x1E, with their operands in the fields of the formats B, J and SI. -/
def Sys2Proof.Claims.JumpEncodings : Prop :=
  ∀ (d a b : BitVec 5) (o : BitVec 16) (j : BitVec 21),
    encode (.beq a b o) = (0x17#6 ++ a ++ b ++ o) ∧ encode (.bne a b o) = (0x18#6 ++ a ++ b ++ o) ∧
      encode (.blt a b o) = (0x19#6 ++ a ++ b ++ o) ∧ encode (.bge a b o) = (0x1A#6 ++ a ++ b ++ o) ∧
      encode (.bltu a b o) = (0x1B#6 ++ a ++ b ++ o) ∧ encode (.bgeu a b o) = (0x1C#6 ++ a ++ b ++ o) ∧
      encode (.jal d j) = (0x1D#6 ++ d ++ j) ∧ encode (.jalr d a o) = (0x1E#6 ++ d ++ a ++ o)

/-- R120: jalr goes to x[xa] + sext(off), where that is 4-byte aligned and below 2^55, and writes PC + 4; a misaligned target raises
0x04, one outside 55 bits 0x07, and then xd is unchanged. -/
def Sys2Proof.Claims.JumpRegister : Prop :=
  ∀ (s : State) (d a : BitVec 5) (o : BitVec 16) (target : Word), target = s.getX a + o.signExtend 64 →
    (target.toNat % 4 = 0 → target.toNat < 2 ^ 55 →
      ∃ t, exec (.jalr d a o) s = .next t ∧ OnlyX s t ∧ t.ctx.loop = none ∧ t.ctx.pc = target ∧ t.ctx.x = (s.ctx.setX d (s.ctx.pc + 4)).x) ∧
    (target.toNat % 4 ≠ 0 → exec (.jalr d a o) s = .next (s.trap 0x04 target)) ∧
    (target.toNat % 4 = 0 → 2 ^ 55 ≤ target.toNat → exec (.jalr d a o) s = .next (s.trap 0x07 target))

/-- R41, R34, R124, R128, R137: writing an x register, and what the completion of a word does next. -/
def Obligations.RegistersAndCompletion : Prop := RegisterWrite ∧ WordCompletion

/-- R112 to R117: the results and the frame of the ALU and immediate words. -/
def Obligations.AluWords : Prop := AluResults ∧ AluFrame

/-- R118 to R120: branches, jal and jalr. -/
def Obligations.ControlFlow : Prop := BranchesAndJumps ∧ JumpRegister ∧ JumpEncodings

namespace Sys2Proof.Claims

/-! ## Scalar memory words -/

/-- A scalar load: destination, base, offset, width in bytes, and whether it extends its sign (R230). -/
def loadForm : Instr → Option (BitVec 5 × BitVec 5 × BitVec 16 × Nat × Bool)
  | .lb d a o => some (d, a, o, 1, true)
  | .lbu d a o => some (d, a, o, 1, false)
  | .lh d a o => some (d, a, o, 2, true)
  | .lhu d a o => some (d, a, o, 2, false)
  | .lw d a o => some (d, a, o, 4, true)
  | .lwu d a o => some (d, a, o, 4, false)
  | .ld d a o => some (d, a, o, 8, false)
  | _ => none

/-- A scalar store: source, base, offset and width in bytes (R230). -/
def storeForm : Instr → Option (BitVec 5 × BitVec 5 × BitVec 16 × Nat)
  | .sb x a o => some (x, a, o, 1)
  | .sh x a o => some (x, a, o, 2)
  | .sw x a o => some (x, a, o, 4)
  | .sd x a o => some (x, a, o, 8)
  | _ => none

/-- An amo: xd, the address register xa, xb, the order bits, the width in bytes, and the value that it writes from the old value, b
and c (R233). -/
def amoForm : Instr → Option (BitVec 5 × BitVec 5 × BitVec 5 × BitVec 2 × Nat × (Nat → Nat → Nat → Nat))
  | .amoAdd d a b o _ w => some (d, a, b, o, amoWidth w, fun x y _ => (x + y) % 2 ^ (8 * amoWidth w))
  | .amoAnd d a b o _ w => some (d, a, b, o, amoWidth w, fun x y _ => Nat.land x y)
  | .amoOr d a b o _ w => some (d, a, b, o, amoWidth w, fun x y _ => Nat.lor x y)
  | .amoXor d a b o _ w => some (d, a, b, o, amoWidth w, fun x y _ => Nat.xor x y)
  | .amoMin d a b o _ w => some (d, a, b, o, amoWidth w, fun x y _ =>
      if toSigned (8 * amoWidth w) x ≤ toSigned (8 * amoWidth w) y then x else y)
  | .amoMax d a b o _ w => some (d, a, b, o, amoWidth w, fun x y _ =>
      if toSigned (8 * amoWidth w) y ≤ toSigned (8 * amoWidth w) x then x else y)
  | .amoMinu d a b o _ w => some (d, a, b, o, amoWidth w, fun x y _ => if x ≤ y then x else y)
  | .amoMaxu d a b o _ w => some (d, a, b, o, amoWidth w, fun x y _ => if y ≤ x then x else y)
  | .amoSwap d a b o _ w => some (d, a, b, o, amoWidth w, fun _ y _ => y)
  | .amoCas d a b o _ w => some (d, a, b, o, amoWidth w, fun x y z => if x = z then y else x)
  | _ => none

/-- Nothing of the context's own holds an access back or changes what it finds: no older vector memory instruction waits (R17), no store
of its own waits in a slice queue (R217), and no line of its own is in the write-combining buffer (R222). -/
abbrev PathClear (s : State) : Prop := s.ctx.vmWaits = false ∧ s.ctx.stores = [] ∧ s.ctx.wcb = []

/-- The `n` bytes at a key are plain: no range of the copy engine's scoreboard (R221), no uncorrectable word (R389), no location that the
far side refuses (R367), none of the computed clasp records (R490). -/
abbrev Plain (s : State) (key n : Nat) : Prop :=
  s.onBoard key n = false ∧ s.isBad key n = false ∧ ∀ k, k < n → areaOf (key + k) ≠ 7 ∧ s.refuses (key + k) = false

/-- Byte `j` of a page-table entry with A, and for a write D, set (R348, R361). -/
def entryByte (e : Nat) (k : AccKind) (j : Nat) : Byte :=
  BitVec.ofNat 8 ((Nat.lor e (2 ^ 8 + if k = .store ∨ k = .rmw then 2 ^ 9 else 0)) / 256 ^ j)

end Sys2Proof.Claims

/-- R230, R217: a load whose address is aligned and translates, and whose bytes are there, writes the sign- or zero-extended little-endian
value of the bytes at the place of the address, and completes. A load to x0 makes its access and discards the value. -/
def Sys2Proof.Claims.LoadResults : Prop :=
  ∀ (i : Instr) (s s1 : State) (d a : BitVec 5) (o : BitVec 16) (n : Nat) (sgn : Bool) (p : Place),
    loadForm i = some (d, a, o, n, sgn) → PathClear s → Plain s1 p.loc.key n →
    s.alignedOnce .load n (s.getX a + o.signExtend 64) = (.ok p, s1) →
    exec i s = .next (s1.setX d (if sgn then BitVec.ofInt 64 (toSigned (8 * n) (s1.natAt p.loc.key n))
      else BitVec.ofNat 64 (s1.natAt p.loc.key n))).retire

/-- R354: where a scalar load, an amo or a nest goes: an aligned address is located as the word first runs, and where a scoreboard range then
holds the word, its place stays, whatever placew writes meanwhile. -/
def Sys2Proof.Claims.PlacesStay : Prop :=
  ∀ (s : State) (k : AccKind) (n : Nat) (va : Word),
    ((∀ p m, s.ctx.stall ≠ some (.board (some p) m)) → s.alignedOnce k n va = s.aligned 0 k none n va) ∧
    (∀ p m, s.ctx.stall = some (.board (some p) m) → p.va = va → va.toNat % n = 0 → s.alignedOnce k n va = (.ok p, s)) ∧
    (∀ (i : Instr) (d a : BitVec 5) (o : BitVec 16) (sgn : Bool) (p : Place) (s1 : State), loadForm i = some (d, a, o, n, sgn) →
      s.ctx.vmWaits = false → s.behindBarriers = some s → va = s.getX a + o.signExtend 64 → s.alignedOnce .load n va = (.ok p, s1) →
      s1.onBoard p.loc.key n = true → exec i s = .next (s1.stallFor (.board (some p) n))) ∧
    (∀ (i : Instr) (d a b : BitVec 5) (o : BitVec 2) (f : Nat → Nat → Nat → Nat) (p : Place) (s1 : State),
      amoForm i = some (d, a, b, o, n, f) → s.ctx.vmWaits = false → s.behindBarriers = some s → va = s.getX a →
      s.alignedOnce .rmw n va = (.ok p, s1) → s1.onBoard p.loc.key n = true → exec i s = .next (s1.stallFor (.board (some p) n)))

/-- R230: what a load that completes leaves: beside its destination and the end of a body nothing but what its address translation
changes (`Obligations.Translation`), where no store of the context waits: every byte of memory reads as after the translation. -/
def Sys2Proof.Claims.LoadFrame : Prop :=
  ∀ (i : Instr) (s s1 t : State) (d a : BitVec 5) (o : BitVec 16) (n : Nat) (sgn : Bool) (p : Place),
    loadForm i = some (d, a, o, n, sgn) → PathClear s → Plain s1 p.loc.key n →
    s.alignedOnce .load n (s.getX a + o.signExtend 64) = (.ok p, s1) → exec i s = .next t →
    OnlyX s1 t ∧ ∀ r, r ≠ d → bodyWrites s.ctx r = false → t.getX r = s.getX r

/-- R230: a store whose address is aligned and translates completes, and the low bytes of x[xs] stand at the place of its address; every
other byte of memory reads as after the translation, no register changes, and nothing but memory, where the SCT goes on, and the
count of the stores that have entered the access path. Stated for a context that is not deterministic, or a host-shared page, whose
stores the model performs at once (log 7), with no regeneration descriptor registered (R227) and no snapshot in progress (R225); the
clasp records of area 7 are computed and not stored. -/
def Sys2Proof.Claims.StoreResults : Prop :=
  ∀ (i : Instr) (s s1 : State) (x a : BitVec 5) (o : BitVec 16) (n : Nat) (p : Place),
    storeForm i = some (x, a, o, n) → PathClear s → Plain s1 p.loc.key n → s1.mem.wf = true →
    s1.dev.holdStores = false → s1.dev.regens = [] → s1.dev.snap = none → s1.dev.eccBad = [] → (s.ctx.detm = false ∨ p.loc.hs = true) →
    s.aligned 0 .store none n (s.getX a + o.signExtend 64) = (.ok p, s1) →
    ∃ t, exec i s = .next t ∧
      (∀ k, k < n → t.byteAt (p.loc.key + k) = BitVec.ofNat 8 ((s.getX x).toNat / 256 ^ k)) ∧
      (∀ b, b < p.loc.key ∨ p.loc.key + n ≤ b → areaOf b ≠ 7 → t.byteAt b = s1.byteAt b) ∧
      t = { s1 with mem := t.mem, ctx := ({ s1.ctx with path := s1.ctx.path + 1 } : Ctx).retire } ∧ t.mem.wf = true

/-- R233: an amo reads the old value at the place of x[xa], writes f(old, b, c) there and the sign-extended old value to xd, and completes;
the bytes beside the place stay. Stated with no regeneration descriptor registered (R227) and no snapshot in progress (R225). -/
def Sys2Proof.Claims.AmoResults : Prop :=
  ∀ (i : Instr) (s s1 : State) (d a b : BitVec 5) (o : BitVec 2) (n : Nat) (f : Nat → Nat → Nat → Nat) (p : Place),
    amoForm i = some (d, a, b, o, n, f) → PathClear s → Plain s1 p.loc.key n → s1.mem.wf = true →
    s1.dev.regens = [] → s1.dev.snap = none → s1.dev.eccBad = [] → s.alignedOnce .rmw n (s.getX a) = (.ok p, s1) →
    ∃ t, exec i s = .next t ∧
      (∀ k, k < n → t.byteAt (p.loc.key + k) = BitVec.ofNat 8
        (f (s1.natAt p.loc.key n) ((s.getX b).toNat % 2 ^ (8 * n)) ((s.getX d).toNat % 2 ^ (8 * n)) / 256 ^ k)) ∧
      (∀ c, c < p.loc.key ∨ p.loc.key + n ≤ c → areaOf c ≠ 7 → t.byteAt c = s1.byteAt c) ∧
      t = { s1 with
        mem := t.mem, ctx := (s1.ctx.setX d (BitVec.ofInt 64 (toSigned (8 * n) (s1.natAt p.loc.key n)))).retire }

/-- R228, R229, R230, R233: an access of a scalar memory word whose address is not a multiple of its width raises 0x04, with the address as
tval and before anything else of its own; one that the translation refuses raises the cause of the refusal. Nothing else happens. Where
a barrier that holds loads stands among the stores that wait (R245), all before the last one are performed before the walk of the access
(R358): with every such store plain, the bytes that they write read as the last of them leaves them, and no other byte changes. While a
scoreboard range holds one of them (R221), a load and an amo wait, and so does an aligned store that needs a walk; one whose translation a
TLB entry answers, or whose address is refused without a walk, goes on (`Obligations.Barriers`). With no store waiting, and
behind barriers that hold only stores, nothing comes first. While an older vector memory instruction has not entered the access path, every
one of these words waits (R17); where the only such one has been translated and waits in the path, a store does not wait, and takes its place
behind it (`Obligations.Barriers`). That stores wait at all is log 7. -/
def Obligations.ScalarMemoryTraps : Prop :=
  (∀ (i : Instr) (s s0 : State) (d a : BitVec 5) (o : BitVec 16) (n : Nat) (sgn : Bool), loadForm i = some (d, a, o, n, sgn) →
    s.ctx.vmWaits = false → s.behindBarriers = some s0 →
    ((s0.getX a + o.signExtend 64).toNat % n ≠ 0 → exec i s = .next (s0.trap 0x04 (s0.getX a + o.signExtend 64))) ∧
    (∀ r s1, s0.alignedOnce .load n (s0.getX a + o.signExtend 64) = (.error r, s1) → exec i s = .next (s1.refuse r))) ∧
  (∀ (i : Instr) (s s0 : State) (x a : BitVec 5) (o : BitVec 16) (n : Nat), storeForm i = some (x, a, o, n) → s.ctx.vmWaits = false →
    s.behindBarriers = some s0 →
    ((s0.getX a + o.signExtend 64).toNat % n ≠ 0 → exec i s = .next (s0.trap 0x04 (s0.getX a + o.signExtend 64))) ∧
    (∀ r s1, s0.aligned 0 .store none n (s0.getX a + o.signExtend 64) = (.error r, s1) → exec i s = .next (s1.refuse r))) ∧
  (∀ (i : Instr) (s s0 : State) (d a b : BitVec 5) (o : BitVec 2) (n : Nat) (f : Nat → Nat → Nat → Nat),
    amoForm i = some (d, a, b, o, n, f) → s.ctx.vmWaits = false → s.behindBarriers = some s0 →
    ((s0.getX a).toNat % n ≠ 0 → exec i s = .next (s0.trap 0x04 (s0.getX a))) ∧
    (∀ r s1, s0.alignedOnce .rmw n (s0.getX a) = (.error r, s1) → exec i s = .next (s1.refuse r))) ∧
  (∀ (i : Instr) (s : State) (d a : BitVec 5) (o : BitVec 16) (n : Nat) (sgn : Bool), loadForm i = some (d, a, o, n, sgn) →
    (s.ctx.vmWaits = true → exec i s = .next (s.stallFor .viq)) ∧
    (s.ctx.vmWaits = false → s.behindBarriers = none → exec i s = .next (s.stallFor (.board none 0)))) ∧
  (∀ (i : Instr) (s : State) (d a b : BitVec 5) (o : BitVec 2) (n : Nat) (f : Nat → Nat → Nat → Nat), amoForm i = some (d, a, b, o, n, f) →
    (s.ctx.vmWaits = true → exec i s = .next (s.stallFor .viq)) ∧
    (s.ctx.vmWaits = false → s.behindBarriers = none → exec i s = .next (s.stallFor (.board none 0)))) ∧
  (∀ (i : Instr) (s : State) (x a : BitVec 5) (o : BitVec 16) (n : Nat) (va : Word), storeForm i = some (x, a, o, n) →
    va = s.getX a + o.signExtend 64 →
    (s.ctx.vmWaits = true → s.ctx.entered = false → exec i s = .next (s.stallFor .viq)) ∧
    (s.ctx.vmWaits = false → s.behindBarriers = none →
      (va.toNat % n ≠ 0 → exec i s = .next (s.trap 0x04 va)) ∧
      (va.toNat % n = 0 → va.toNat < 2 ^ 55 → s.tlbFind s.ctx.asid va.toNat .store = none → exec i s = .next (s.stallFor .chan)) ∧
      (∀ r s1, (2 ^ 55 ≤ va.toNat ∨ (s.tlbFind s.ctx.asid va.toNat .store).isSome = true) →
        s.aligned 0 .store none n va = (.error r, s1) → exec i s = .next (s1.refuse r)))) ∧
  (∀ s : State, (∀ p ∈ s.ctx.stores, p.barrier < 2) → s.behindBarriers = some s) ∧
  (∀ (s : State) (xs ys : List Pend) (q : Pend), s.ctx.stores = xs ++ q :: ys → 2 ≤ q.barrier → (∀ y ∈ ys, y.barrier < 2) →
    ((∃ p ∈ xs ++ [q], s.holds p = true) → s.behindBarriers = none) ∧
    ((∀ p ∈ xs ++ [q], s.holds p = false) → (∀ p ∈ xs, p.drain = false) → s.dev.eccBad = [] → s.dev.refusing = [] → s.dev.cutOff = [] →
      s.dev.regens = [] → s.dev.snap = none → s.mem.wf = true →
      ∃ t, s.behindBarriers = some t ∧ t = { s with mem := t.mem, ctx := { s.ctx with stores := ys } } ∧ t.mem.wf = true ∧
        ∀ k, areaOf k ≠ 7 → t.byteAt k =
          ((xs.filter fun p => p.barrier == 0).flatMap (·.writes)).foldl (fun b w => if w.1 = k then w.2 else b) (s.byteAt k)))

/-- R229, R347: an address whose bits [63:55] are not 0 is refused, with 0x05 for a load, 0x06 for a store or an amo and 0x07 for a fetch,
and the address as tval; nothing changes. -/
def Sys2Proof.Claims.AddressRange : Prop :=
  ∀ (s : State) (asid : BitVec 13) (priv : Priv) (va : Word), 2 ^ 55 ≤ va.toNat →
    s.translate asid priv .load va = (.error (.cause 0x05 va), s) ∧ s.translate asid priv .store va = (.error (.cause 0x06 va), s) ∧
      s.translate asid priv .rmw va = (.error (.cause 0x06 va), s) ∧ s.translate asid priv .fetch va = (.error (.cause 0x07 va), s)

/-- R347, R350, R351: without the TLB's help (log 8), an access that translates has the rights that its leaf gives: R for a load, W for a
store, both for an amo, X for a fetch, and no leaf with PRIV set answers an app access. The location answered is the page of the leaf plus
the offset of the address: with LOC 00, and LOC 11 of the own device, the byte of HBM that the place table maps it to, with LOC 01 the byte
of the polder, with LOC 10 of host memory, with LOC 11 of the job's memory on the other device, which no other job shares (R366); and it is
host-shared, covered by snapshots and in host memory as the leaf says. -/
def Sys2Proof.Claims.TranslationRights : Prop :=
  ∀ (s s1 : State) (asid : BitVec 13) (priv : Priv) (k : AccKind) (va : Word) (l : Loc), s.dev.tlbOn = false →
    s.translate asid priv k va = (.ok l, s1) →
    ∃ e level key, s.walk asid va.toNat = .leaf e level key ∧
      (k = .load → pteBit e 2 = true) ∧ (k = .store → pteBit e 3 = true) ∧ (k = .rmw → pteBit e 2 = true ∧ pteBit e 3 = true) ∧
      (k = .fetch → pteBit e 4 = true) ∧ (priv = .app → pteBit e 15 = false) ∧
      let pa := ptePa e + va.toNat % 2 ^ (16 + 13 * (level - 1))
      let hbm := s.dev.hbmLoc (areaOf key == 5) (s1.jobOf asid) pa = some l.key
      (e / 2 ^ 10 % 4 = 0 → hbm) ∧
      (e / 2 ^ 10 % 4 = 1 → ∃ core, s.dev.physCore (s1.jobOf asid) (pa / 2 ^ 21 % 512) = some core ∧ l.key = polderKey core (pa % 2 ^ 21)) ∧
      (e / 2 ^ 10 % 4 = 2 → l.key = hostKey pa) ∧
      (e / 2 ^ 10 % 4 = 3 → if e / 2 ^ 56 % 64 = s.dev.win.domain then hbm else l.key = peerKey (e / 2 ^ 56 % 64) (s1.jobOf asid) pa) ∧
      l.hs = pteBit e 5 ∧ (e / 2 ^ 10 % 4 < 2 → l.snap = pteBit e 6) ∧ l.host = decide (e / 2 ^ 10 % 4 = 2)

/-- An entry of a level, 2 for L3 to 0 for L1, that fails translation (R348, R349). -/
def pageFails (level e : Nat) : Prop :=
  let pa := e / 2 ^ 16 % 2 ^ 40 * 2 ^ 16
  let loc := e / 2 ^ 10 % 4
  pteBit e 0 = false ∨ e / 2 ^ 62 ≠ 0 ∨ e / 2 ^ 12 % 8 ≠ 0 ∨ (e / 2 ^ 56 % 64 ≠ 0 ∧ loc ≠ 3) ∨ (pteBit e 3 = true ∧ pteBit e 2 = false) ∨
    (pteBit e 1 = true ∧ (pa % 2 ^ (16 + 13 * level) ≠ 0 ∨ (loc = 1 ∧ level ≠ 0))) ∨
    (pteBit e 1 = false ∧ (level = 0 ∨ loc ≠ 0 ∨ 2 ^ 40 ≤ pa))

/-- R349, R357: a walk starts at the table that the ASID's entry names, and fails under an entry that is not live or has a nonzero zero
field. It reads one entry a level: it fails where the table has no place or the entry fails, ends at a leaf, else goes on at the table named. -/
def Sys2Proof.Claims.Walks : Prop :=
  (∀ (s : State) (asid : BitVec 13) (va : Nat), let a := s.asidEntry asid
    (a / 2 ^ 63 = 0 ∨ a / 2 ^ 48 % 2 ^ 14 ≠ 0 ∨ a % 2 ^ 16 ≠ 0 → s.walk asid va = .fail) ∧
    (a / 2 ^ 63 % 2 = 1 → a / 2 ^ 48 % 2 ^ 14 = 0 → a % 2 ^ 16 = 0 →
      s.walk asid va = s.walkFrom (a / 2 ^ 40 % 256) va 3 true (a / 2 ^ 16 % 2 ^ 24 * 2 ^ 16))) ∧
  ∀ (s : State) (job va level : Nat) (boot : Bool) (table : Nat),
    let at_ := s.dev.hbmLoc boot job (table + 8 * (va / 2 ^ (16 + 13 * level) % 2 ^ 13))
    (at_ = none → s.walkFrom job va (level + 1) boot table = .fail) ∧
    (∀ key, at_ = some key → s.isBad key 8 = false → let e := s.natAt key 8
      (pageFails level e → s.walkFrom job va (level + 1) boot table = .fail) ∧
      (¬pageFails level e → s.walkFrom job va (level + 1) boot table =
        if pteBit e 1 then .leaf e (level + 1) key else s.walkFrom job va level (areaOf key == 5) (e / 2 ^ 16 % 2 ^ 40 * 2 ^ 16)))

/-- R229, R349 to R351: without the TLB's help (log 8), an access whose walk fails is refused with 0x05 for a load, 0x06 for a store or an
amo, 0x07 for a fetch, and changes nothing; so is one whose leaf lacks a right that it needs or is one of supervisor pages for app, and one
whose leaf names a place that is not there: HBM outside the job's banks, here or with LOC 11 on a device where the job is resident; a host
address of an ASID without H; a device not of the domain, or where the job is not resident. An on-chip page outside the slots, or of a core
that the job does not have, raises 0x08. The tval is the address. -/
def Sys2Proof.Claims.TranslationRefusals : Prop :=
  ∀ (s s1 : State) (asid : BitVec 13) (priv : Priv) (k : AccKind) (va : Word) (r : Except Refused Loc) (c : Nat), s.dev.tlbOn = false →
    va.toNat < 2 ^ 55 → c = (match k with
      | .load => 0x05
      | .store | .rmw => 0x06
      | .fetch => 0x07) → s.translate asid priv k va = (r, s1) →
    (s.walk asid va.toNat = .fail → r = .error (.cause c va) ∧ s1 = s) ∧
    ∀ e level key, s.walk asid va.toNat = .leaf e level key →
      let rights := (match k with
        | .load => pteBit e 2
        | .store => pteBit e 3
        | .rmw => pteBit e 2 && pteBit e 3
        | .fetch => pteBit e 4) = true ∧ (priv = .app → pteBit e 15 = false)
      let pa := ptePa e + va.toNat % 2 ^ (16 + 13 * (level - 1))
      let job := s1.jobOf asid
      let loc := e / 2 ^ 10 % 4
      let own := e / 2 ^ 56 % 64 = s.dev.win.domain
      (¬rights → r = .error (.cause c va)) ∧
      (rights → (loc = 0 ∨ (loc = 3 ∧ own)) → s.dev.hbmLoc (areaOf key == 5) job pa = none → r = .error (.cause c va)) ∧
      (rights → loc = 1 → (2 ^ 30 ≤ pa ∨ 24 ≤ pa / 2 ^ 16 % 32 ∨ s.dev.physCore job (pa / 2 ^ 21 % 512) = none) → r = .error (.cause 0x08 va)) ∧
      (rights → loc = 2 → s1.asidEntry asid / 2 ^ 62 % 2 = 0 → r = .error (.cause c va)) ∧
      (rights → loc = 3 → ¬own → (s.dev.peers.contains (e / 2 ^ 56 % 64, job) = false ∨ 2 ^ 40 ≤ pa ∨
        (44 ≤ pa / 2 ^ 30 % 64 ∧ ¬(pa / 2 ^ 36 = 15 ∧ pa / 2 ^ 30 % 64 = 63))) → r = .error (.cause c va))

/-- R361: a translation changes nothing but the TLB and the A and D bits of the leaf that it walks to: every byte of memory outside that
8-byte entry reads as before, and a byte of it that changes is that of the old entry with A, and for a write D, set; after a walk without
the TLB's help (log 8) the whole entry is that. A snapshot (R225) may first copy the entry's line. -/
def Sys2Proof.Claims.TranslationFrame : Prop :=
  ∀ (s s1 : State) (asid : BitVec 13) (priv : Priv) (k : AccKind) (va : Word) (r : Except Refused Loc), s.mem.wf = true →
    s.translate asid priv k va = (r, s1) →
    s1 = { s with
      mem := s1.mem, dev := { s.dev with tlb := s1.dev.tlb, snap := s1.dev.snap, eccBad := s1.dev.eccBad } } ∧
      (s.dev.snap = none → s1.dev.snap = none ∧ s1.dev.eccBad = s.dev.eccBad) ∧ s1.mem.wf = true ∧
      (∀ a, s1.mem.get a ≠ s.mem.get a →
        (∃ e level key, s.walk asid va.toNat = .leaf e level key ∧ key ≤ a ∧ a < key + 8 ∧ s1.mem.get a = entryByte e k (a - key)) ∨
          (s.dev.snap ≠ none ∧ reservedKey 0 ≤ a)) ∧
      ∀ e level key, s.walk asid va.toNat = .leaf e level key → va.toNat < 2 ^ 55 → s.dev.tlbOn = false → s.dev.snap = none → areaOf key ≠ 7 →
        ∀ j, j < 8 → s1.mem.get (key + j) = entryByte e k j

/-- R217, R230, R354: the results and the frame of the scalar loads, and the place of an access that a scoreboard range holds. -/
def Obligations.Loads : Prop := LoadResults ∧ LoadFrame ∧ PlacesStay

/-- R217, R230: the scalar stores. -/
def Obligations.Stores : Prop := StoreResults

/-- R233: the amos. -/
def Obligations.Amos : Prop := AmoResults

/-- R229, R347, R349 to R351, R357, R361: the range of an address, the entries of a walk, the rights of a leaf, the location answered, the
cause of a refusal, and what a translation changes. -/
def Obligations.Translation : Prop := AddressRange ∧ Walks ∧ TranslationRights ∧ TranslationRefusals ∧ TranslationFrame

namespace Sys2Proof.Claims

/-! ## Scalar float words -/

/-- A scalar float word that rounds under frm, with its destination, and the code and flags of its one rounding (R133). -/
def roundForm (i : Instr) (s : State) (rm : RMode) : Option (BitVec 5 × Nat × BitVec 5) :=
  let out := fun (d : BitVec 5) (r : Nat × BitVec 5) => some (d, r.1, r.2)
  match i with
  | .fadd d a b t => out d (fAdd (fltType t) rm (s.readF t a) (s.readF t b))
  | .fsub d a b t => out d (fSub (fltType t) rm (s.readF t a) (s.readF t b))
  | .fmul d a b t => out d (fMul (fltType t) rm (s.readF t a) (s.readF t b))
  | .fdiv d a b t => out d (fDiv (fltType t) rm (s.readF t a) (s.readF t b))
  | .fsqrt d a t => out d (fSqrt (fltType t) rm (s.readF t a))
  | .fcvt d a t v =>
    -- integer results are extended by their signedness to 64 bits
    let int := fun (u : Bool) (w : Nat) =>
      out d (((readInt u w (fToInt u w rm (s.readF t a)).1) % 2 ^ 64).toNat, (fToInt u w rm (s.readF t a)).2)
    if v = 0 then out d ((s.readF (~~~t) a).into (fltType t) rm)
    else if v = 1 then int false 32
    else if v = 2 then int true 32
    else if v = 3 then int false 64
    else if v = 4 then int true 64
    else if v = 5 then out d (intToF (fltType t) rm (toSigned 32 (s.getX a).toNat))
    else if v = 6 then out d (intToF (fltType t) rm ((s.getX a).toNat % 2 ^ 32 : Nat))
    else if v = 7 then out d (intToF (fltType t) rm (s.getX a).toInt)
    else if v = 8 then out d (intToF (fltType t) rm (s.getX a).toNat)
    else none
  | _ => none

/-- A scalar float word that does not read frm, with its destination, its result and its flags (R93, R133, R134). -/
def quietForm (i : Instr) (s : State) : Option (BitVec 5 × Nat × BitVec 5) :=
  let code := fun (t : BitVec 1) (r : BitVec 5) => (s.getX r).toNat % 2 ^ (if t = 0 then 32 else 64)
  let sb := fun (t : BitVec 1) => 2 ^ (if t = 0 then 31 else 63)
  let neg := fun t r => code t r / sb t == 1
  let signed := fun (t : BitVec 1) (a : BitVec 5) (n : Bool) => code t a % sb t + if n then sb t else 0
  let bool := fun (d : BitVec 5) (r : Bool × BitVec 5) => some (d, if r.1 then 1 else 0, r.2)
  match i with
  | .fmin d a b t => some (d, fMinMax (fltType t) false (code t a) (code t b))
  | .fmax d a b t => some (d, fMinMax (fltType t) true (code t a) (code t b))
  | .feq d a b t => bool d (fEq (s.readF t a) (s.readF t b))
  | .flt d a b t => bool d (fLt (s.readF t a) (s.readF t b))
  | .fle d a b t => bool d (fLe (s.readF t a) (s.readF t b))
  | .fclass d a t => some (d, fClass (fltType t) (code t a), 0)
  | .fsgnj d a b t => some (d, signed t a (neg t b), 0)
  | .fsgnjn d a b t => some (d, signed t a (!neg t b), 0)
  | .fsgnjx d a b t => some (d, signed t a (neg t a != neg t b), 0)
  | _ => none

/-! ## One rounding of an exact result -/

/-- The value of a magnitude code of a type whose exponent goes on past the type's range (R84, R88). -/
def magAt (t : FType) (c : Nat) : ℚ :=
  if c < 2 ^ t.fbits then (c : ℚ) * (2 : ℚ) ^ (1 - t.bias - t.fbits)
  else ((2 ^ t.fbits + c % 2 ^ t.fbits : Nat) : ℚ) * (2 : ℚ) ^ ((c / 2 ^ t.fbits : Nat) - t.bias - (t.fbits : Int))

/-- The candidate that a mode picks of the codes `c` and `c + 1` that bracket an exact magnitude which is neither (R88); `side` says how
the magnitude lies to a number. -/
def picks (t : FType) (rm : RMode) (neg : Bool) (side : ℚ → Ordering) (c : Nat) : Nat :=
  let tie := side ((magAt t c + magAt t (c + 1)) / 2)
  match rm with
  | .rtz => c
  | .rdn => if neg then c + 1 else c
  | .rup => if neg then c else c + 1
  | .rne => if tie = .lt ∨ (tie = .eq ∧ c % 2 = 0) then c else c + 1
  | .rmm => if tie = .lt then c else c + 1

/-- R88 to R90: `r` is the one rounding, with its flags, of an exact result that is not 0, of sign `neg`, whose magnitude lies to a number
as `side` says: of the two codes that bracket it the mode picks one; past the largest finite value the overflow result is delivered. -/
def IsRounding (t : FType) (rm : RMode) (neg : Bool) (side : ℚ → Ordering) (r : Nat × BitVec 5) : Prop :=
  ∃ c d : Nat, side (magAt t c) ≠ .lt ∧ side (magAt t (c + 1)) = .lt ∧
    d = (if side (magAt t c) = .eq then c else picks t rm neg side c) ∧
    r = if d ≤ t.maxCode then
        (d + (if neg then t.signBit else 0),
          if side (magAt t d) = .eq then 0 else if side ((2 : ℚ) ^ (1 - t.bias)) = .lt then flagNX ||| flagUF else flagNX)
      else
        ((if t.hasInf ∧ (rm = .rne ∨ rm = .rmm ∨ (rm = .rdn ∧ neg = true) ∨ (rm = .rup ∧ neg = false)) then t.infCode else t.maxCode) +
          (if neg then t.signBit else 0), flagOF ||| flagNX)

/-- The rational number (−1)^neg × m × 2^e. -/
def ratOf (neg : Bool) (m : Nat) (e : Int) : ℚ := (if neg then -1 else 1) * (m : ℚ) * (2 : ℚ) ^ e

/-- The one rounding of a rational number that is not 0. -/
def RoundsRat (t : FType) (rm : RMode) (q : ℚ) (r : Nat × BitVec 5) : Prop := IsRounding t rm (decide (q < 0)) (compare |q|) r

/-- The place of a value that is not NaN in the order of the values (R93): −inf, the finite ones by their number, where −0 is +0, +inf. -/
def rankOf : FVal → Option (ℤ × ℚ)
  | .nan _ => none
  | .inf neg => some (if neg then -1 else 1, 0)
  | .fin neg m e => some (0, ratOf neg m e)

/-- One place lies before another. -/
def lessRank (p q : ℤ × ℚ) : Prop := p.1 < q.1 ∨ (p.1 = q.1 ∧ p.2 < q.2)

/-- The integer that a mode gives for a rational number (R88, R91). -/
def intRound (rm : RMode) (q : ℚ) : Int :=
  let f := ⌊q⌋
  let half := compare (q - f) (1 / 2)
  if q = f then f
  else
    match rm with
    | .rdn => f
    | .rup => f + 1
    | .rtz => if q < 0 then f + 1 else f
    | .rne => if half = .lt ∨ (half = .eq ∧ f % 2 = 0) then f else f + 1
    | .rmm => if half = .lt ∨ (half = .eq ∧ q < 0) then f else f + 1

end Sys2Proof.Claims

/-- R88 to R91, R93: every operation delivers ONE rounding of its exact result: sum, difference, product, fused product and sum, quotient,
square root, conversions from an integer and from another type, and 2^a for an integer a. A conversion to an integer of `w` bits delivers
the integer that the mode gives, or the nearest bound with nv. The exact result here is one that is not 0; that of zeros follows. -/
def Sys2Proof.Claims.FloatExact : Prop :=
  ∀ (t : FType) (rm : RMode) (na nb nc : Bool) (ma mb mc : Nat) (ea eb ec : Int),
    let a := ratOf na ma ea
    let b := ratOf nb mb eb
    let c := ratOf nc mc ec
    let va := FVal.fin na ma ea
    let vb := FVal.fin nb mb eb
    (a + b ≠ 0 → RoundsRat t rm (a + b) (fAdd t rm va vb)) ∧ (a - b ≠ 0 → RoundsRat t rm (a - b) (fSub t rm va vb)) ∧
      (a * b ≠ 0 → RoundsRat t rm (a * b) (fMul t rm va vb)) ∧
      (a * b + c ≠ 0 → RoundsRat t rm (a * b + c) (fFma t rm va vb (.fin nc mc ec))) ∧
      (a ≠ 0 → b ≠ 0 → RoundsRat t rm (a / b) (fDiv t rm va vb)) ∧
      (0 < a → IsRounding t rm false (fun v => compare a (v * v)) (fSqrt t rm va)) ∧
      (a ≠ 0 → RoundsRat t rm a (va.into t rm)) ∧ (∀ k : Int, k ≠ 0 → RoundsRat t rm k (intToF t rm k)) ∧
      (∀ k : Int, a = k → RoundsRat t rm ((2 : ℚ) ^ k) (fExp2 t rm va)) ∧
      (∀ (u : Bool) (w : Nat), 0 < w → fToInt u w rm va =
        let k := intRound rm a
        if k < typeMin u w then (wrap w (typeMin u w), flagNV)
        else if typeMax u w < k then (wrap w (typeMax u w), flagNV)
        else (wrap w k, if a = k then 0 else flagNX))

/-- R85, R86, R89, R91, R93: results that are no rounding: an exact zero with its sign; the canonical NaN, with nv for a signalling
operand or an invalid operation, and for any NaN into e2m1, which has none; the infinities; and a division by zero. That the sum of +0 and
+0 is +0 under rdn too is the model's choice (log 71). -/
def Sys2Proof.Claims.FloatSpecials : Prop :=
  ∀ (t : FType) (rm : RMode) (na nb nc : Bool) (ma mb mc : Nat) (ea eb ec : Int) (x y z : FVal),
    let va := FVal.fin na ma ea
    let vb := FVal.fin nb mb eb
    let sgn := fun (n : Bool) => if n then t.signBit else 0
    let invalid := (t.nanCode, flagNV)
    let infinity := fun (n : Bool) => (t.infCode + sgn n, (0 : BitVec 5))
    (ratOf na ma ea + ratOf nb mb eb = 0 →
      fAdd t rm va vb = (sgn (if ma = 0 ∧ mb = 0 ∧ na = nb then na else rm == .rdn), 0)) ∧
    (ratOf na ma ea - ratOf nb mb eb = 0 →
      fSub t rm va vb = (sgn (if ma = 0 ∧ mb = 0 ∧ na ≠ nb then na else rm == .rdn), 0)) ∧
    (ratOf na ma ea * ratOf nb mb eb + ratOf nc mc ec = 0 →
      fFma t rm va vb (.fin nc mc ec) = (sgn (if (ma = 0 ∨ mb = 0) ∧ mc = 0 ∧ nc = (na != nb) then nc else rm == .rdn), 0)) ∧
    (ma = 0 ∨ mb = 0 → fMul t rm va vb = (sgn (na != nb), 0)) ∧ (ma = 0 → mb ≠ 0 → fDiv t rm va vb = (sgn (na != nb), 0)) ∧
    (ma = 0 → fSqrt t rm va = (sgn na, 0) ∧ va.into t rm = (sgn na, 0)) ∧ intToF t rm 0 = (0, 0) ∧
    (t ≠ .e2m1 → x.isNan ∨ y.isNan →
      let q := (t.nanCode, if x.isSig || y.isSig then flagNV else 0)
      fAdd t rm x y = q ∧ fSub t rm x y = q ∧ fMul t rm x y = q ∧ fDiv t rm x y = q) ∧
    (x.isNan → fSqrt t rm x = (t.nanCode, if x.isSig then flagNV else 0) ∧ fExp2 t rm x = (t.nanCode, if x.isSig then flagNV else 0) ∧
      x.into t rm = (t.nanCode, if x.isSig ∨ t = .e2m1 then flagNV else 0) ∧ ∀ u w, fToInt u w rm x = (0, flagNV)) ∧
    ((x.mul y).isSome → (x.isNan ∨ y.isNan ∨ z.isNan) →
      fFma t rm x y z = (t.nanCode, if x.isSig || y.isSig || z.isSig then flagNV else 0)) ∧
    ((x.mul y).isNone → fMul t rm x y = invalid ∧ fFma t rm x y z = invalid) ∧
    ((FVal.inf na).mul (.fin nb 0 eb) = none ∧ (FVal.fin na 0 ea).mul (.inf nb) = none) ∧
    (fAdd t rm (.inf na) (.inf !na) = invalid ∧ fDiv t rm (.inf na) (.inf nb) = invalid ∧ fSqrt t rm (.inf true) = invalid) ∧
    (mb = 0 → ma = 0 → fDiv t rm va vb = invalid) ∧ (mb = 0 → ma ≠ 0 → fDiv t rm va vb = (t.infCode + sgn (na != nb), flagDZ)) ∧
    (na = true → ma ≠ 0 → fSqrt t rm va = invalid) ∧
    (FVal.inf na).into t rm = (if t.hasInf then (t.infCode + sgn na, 0) else (t.maxCode + sgn na, flagOF)) ∧
    (∀ u w, fToInt u w rm (.inf na) = (wrap w (if na then typeMin u w else typeMax u w), flagNV)) ∧
    (fExp2 t rm (.inf true) = (0, 0) ∧ fExp2 t rm (.inf false) = (t.infCode, 0)) ∧
    (fMul t rm (.inf na) (.inf nb) = (FVal.inf (na != nb)).into t rm ∧
      (mc ≠ 0 → fMul t rm (.inf na) (.fin nc mc ec) = (FVal.inf (na != nc)).into t rm ∧
        fMul t rm (.fin nc mc ec) (.inf na) = (FVal.inf (nc != na)).into t rm)) ∧
    (t.hasInf = true →
      fAdd t rm (.inf na) (.inf na) = infinity na ∧ fAdd t rm (.inf na) vb = infinity na ∧ fAdd t rm va (.inf nb) = infinity nb ∧
      fSub t rm (.inf na) (.inf na) = invalid ∧ fSub t rm (.inf na) (.inf !na) = infinity na ∧ fSub t rm (.inf na) vb = infinity na ∧
      fSub t rm va (.inf nb) = infinity (!nb) ∧ fDiv t rm (.inf na) vb = infinity (na != nb) ∧
      fDiv t rm va (.inf nb) = (sgn (na != nb), 0) ∧ fSqrt t rm (.inf false) = infinity false ∧
      fFma t rm va vb (.inf nc) = infinity nc ∧
      ∀ n, (x = .inf na ∧ y = .inf nb ∧ n = (na != nb) ∨ mb ≠ 0 ∧ (x = .inf na ∧ y = vb ∨ x = vb ∧ y = .inf na) ∧ n = (na != nb)) →
        fFma t rm x y (.fin nc mc ec) = infinity n ∧ fFma t rm x y (.inf n) = infinity n ∧ fFma t rm x y (.inf !n) = invalid)

/-- R93, R133: the comparisons go by the values of their operands, a NaN compares false, with nv for a signalling one, and in fLt and fLe
for any; fMinMax delivers the operand that is less or greater, the other one beside a NaN, the canonical NaN for two, and of zeros −0 as the
lesser; the class of a code is that of its value. -/
def Sys2Proof.Claims.FloatOrder : Prop :=
  (∀ (x y : FVal) (p q : ℤ × ℚ), rankOf x = some p → rankOf y = some q →
    ((fEq x y).1 = true ↔ p = q) ∧ ((fLt x y).1 = true ↔ lessRank p q) ∧ ((fLe x y).1 = true ↔ ¬ lessRank q p) ∧
      (fEq x y).2 = 0 ∧ (fLt x y).2 = 0 ∧ (fLe x y).2 = 0) ∧
  (∀ x y : FVal, rankOf x = none ∨ rankOf y = none →
    fEq x y = (false, if x.isSig || y.isSig then flagNV else 0) ∧ fLt x y = (false, flagNV) ∧ fLe x y = (false, flagNV)) ∧
  (∀ (t : FType) (max : Bool) (a b : Nat), a < 2 ^ t.width → b < 2 ^ t.width →
    let x := t.decode a
    let y := t.decode b
    (fMinMax t max a b).2 = (if x.isSig || y.isSig then flagNV else 0) ∧
    (rankOf x = none → rankOf y = none → (fMinMax t max a b).1 = t.nanCode) ∧
    (rankOf x = none → rankOf y ≠ none → (fMinMax t max a b).1 = b) ∧ (rankOf x ≠ none → rankOf y = none → (fMinMax t max a b).1 = a) ∧
    ∀ p q, rankOf x = some p → rankOf y = some q →
      (lessRank p q → (fMinMax t max a b).1 = if max then b else a) ∧ (lessRank q p → (fMinMax t max a b).1 = if max then a else b) ∧
      (p = q → (fMinMax t max a b).1 = if (a / t.signBit % 2 = 1) = (max = true) then b else a)) ∧
  ∀ (t : FType) (c : Nat), c < 2 ^ t.width →
    let neg := c / t.signBit % 2 = 1
    (∀ sig, t.decode c = .nan sig → fClass t c = if sig then 0x100 else 0x200) ∧
    (∀ n, t.decode c = .inf n → fClass t c = if n then 0x001 else 0x080) ∧
    ∀ q, rankOf (t.decode c) = some (0, q) → fClass t c =
      if q = 0 then (if neg then 0x008 else 0x010)
      else if |q| < (2 : ℚ) ^ (1 - t.bias) then (if q < 0 then 0x004 else 0x020)
      else if q < 0 then 0x002 else 0x040

/-- R15, R92, R133, R134: a scalar float word that rounds does so under the SCT's copy of frm, writes its code with the higher bits 0 (an
integer result extended to 64 bits), ORs its flags into fflags and completes. -/
def Sys2Proof.Claims.FloatRounds : Prop :=
  ∀ (i : Instr) (s : State) (d : BitVec 5) (v : Nat) (fl : BitVec 5), frmReserved s.ctx.frmSct = false →
    roundForm i s (rmOf s.ctx.frmSct) = some (d, v, fl) → exec i s = .next ((s.setX d (BitVec.ofNat 64 v)).orFlags fl).retire

/-- R93, R133, R134: the comparisons, fmin, fmax, fclass and the sign words complete under every frm, with their result and flags. -/
def Sys2Proof.Claims.FloatQuiet : Prop :=
  ∀ (i : Instr) (s : State) (d : BitVec 5) (v : Nat) (fl : BitVec 5), quietForm i s = some (d, v, fl) →
    exec i s = .next ((s.setX d (BitVec.ofNat 64 v)).orFlags fl).retire

/-- R87, R134: under a reserved frm a word that rounds raises 0x02 with its word as tval; xd and fflags are unchanged. -/
def Sys2Proof.Claims.FloatReservedRounding : Prop :=
  ∀ (i : Instr) (s : State) (r : BitVec 5 × Nat × BitVec 5), frmReserved s.ctx.frmSct = true →
    roundForm i s (rmOf s.ctx.frmSct) = some r → exec i s = .next (s.trap 0x02 ((encode i).setWidth 64))

/-- R92, R133: the frame of a scalar float word: beside its destination, the sticky flags and the end of a body nothing changes, and no
flag is cleared. -/
def Sys2Proof.Claims.FloatFrame : Prop :=
  ∀ (i : Instr) (s t : State) (d : BitVec 5) (v : Nat) (fl : BitVec 5),
    (quietForm i s = some (d, v, fl) ∨ frmReserved s.ctx.frmSct = false ∧ roundForm i s (rmOf s.ctx.frmSct) = some (d, v, fl)) →
    exec i s = .next t →
    OnlyX { s with ctx := { s.ctx with fflags := t.ctx.fflags } } t ∧ t.ctx.fflags = s.ctx.fflags ||| fl ∧
      ∀ r, r ≠ d → bodyWrites s.ctx r = false → t.getX r = s.getX r

namespace Sys2Proof.Claims

/-! ## Loops, lends, barriers and waits -/

/-- The body of a loop or nest word at the pc, where it is fetched and holds no word that R123 forbids in every body. -/
abbrev BodyFetched (s s1 : State) (a l : BitVec 5) (body : List Word32) : Prop :=
  s.ctx.loop = none ∧ s.fetchBody (l.toNat + 1) (pcPlus s.ctx.pc 4) = (.ok body, s1) ∧ firstBad (badBodyWord a) body 0 = none

/-- The machine from which words at these addresses are fetched: with what stands before the fences that hold loads performed (R358), or,
where a scoreboard range holds that, as it is, if every one of the addresses needs no walk (R245; log 7). -/
abbrev FetchesFrom (s u : State) (vas : List Word) : Prop :=
  s.beforeFetch = some u ∨ (s.beforeFetch = none ∧ u = s ∧ ∀ va ∈ vas, s.walkFree .fetch va = true)

/-- A tuple of a nest's space: an index below its bound in each dimension, and 0 in the others. -/
def InSpace (b : NestBlock) (j : List Nat) : Prop :=
  j.length = 6 ∧ ∀ k, k < 6 → if k < b.ndim then j.getD k 0 < b.bound.getD k 0 else j.getD k 0 = 0

/-- A count in mixed radix: dimension `k` has the digit `m k`, the first of `ds` the fastest. -/
def radix (b : NestBlock) (m : Nat → Nat) (ds : List Nat) : Nat := ds.foldr (fun k n => m k + b.bound.getD k 0 * n) 0

/-- The number by which the order of a nest ranks its tuples (R127): row-major, column-major, snake, and Morton in two dimensions, where the
bits of j0 and j1 interleave, below the further dimensions. -/
def rankIn (b : NestBlock) (j : List Nat) : Nat :=
  let at_ := fun k => j.getD k 0
  if b.ord = 0 then radix b at_ (List.range b.ndim)
  else if b.ord = 1 then radix b at_ (List.range b.ndim).reverse
  else if b.ord = 2 then
    radix b (fun k => if k = 0 ∧ at_ 1 % 2 = 1 then b.bound.getD 0 0 - 1 - at_ 0 else at_ k) (List.range b.ndim)
  else
    radix b at_ ((List.range b.ndim).drop 2) * 2 ^ 64 +
      ((List.range 32).map fun n => (at_ 0 / 2 ^ n % 2 + 2 * (at_ 1 / 2 ^ n % 2)) * 4 ^ n).sum

end Sys2Proof.Claims

/-- R127, R128, R304: the enumeration of a valid nest block. Its count is the product of its bounds. The tuple after one is the next higher
in the order of the block, and the last has none; the first is all 0, and the `n`-th of the enumeration is the one with which a unit of
ordinal `n` starts. -/
def Sys2Proof.Claims.NestTuples : Prop :=
  ∀ (bs : List Byte) (b : NestBlock), parseNest bs = some b →
    b.count = ((List.range b.ndim).map fun k => b.bound.getD k 0).prod ∧
    (∀ j, InSpace b j →
      (∀ j', b.next j = some j' ↔
        InSpace b j' ∧ rankIn b j < rankIn b j' ∧ ∀ k, InSpace b k → rankIn b j < rankIn b k → rankIn b j' ≤ rankIn b k) ∧
      (b.next j = none ↔ ∀ k, InSpace b k → rankIn b k ≤ rankIn b j)) ∧
    (b.count ≠ 0 → InSpace b (List.replicate 6 0) ∧ b.nth 0 = List.replicate 6 0 ∧
      ∀ n, n + 1 < b.count → b.next (b.nth n) = some (b.nth (n + 1)))

/-- R123, R124: loop starts its body, or goes past it where x[xa] is 0; a body with a forbidden word raises 0x14 with that word's address,
and one whose fetch fails raises the fetch's cause. What stands before the fences is performed ahead of the walks of the fetch (R358); a
fetch that needs a walk waits while a scoreboard range holds it (log 7). That an ill-formed lend as the last word is a forbidden one, and another word that is no
instruction is none, is the model's reading (log 40). -/
def Sys2Proof.Claims.LoopStarts : Prop :=
  ∀ (s u s1 : State) (a l : BitVec 5) (first : Word) (vas : List Word), first = pcPlus s.ctx.pc 4 →
    vas = ((List.range (l.toNat + 1)).map fun k => pcPlus first (4 * k)) →
    (s.beforeFetch = none → (∃ va ∈ vas, s.walkFree .fetch va = false) → exec (.loop a l) s = .next (s.stallFor .chan)) ∧
    (FetchesFrom s u vas → u.ctx.pc = s.ctx.pc → u.ctx.x = s.ctx.x →
      (∀ body, BodyFetched u s1 a l body → body.length = l.toNat + 1 → s1.ctx = u.ctx →
        ∃ t, exec (.loop a l) s = .next t ∧ OnlyX s1 t ∧ t.ctx.x = s.ctx.x ∧
          (s.getX a = 0 → t.ctx.pc = pcPlus s.ctx.pc (4 + 4 * (l.toNat + 1)) ∧ t.ctx.loop = none) ∧
          (s.getX a ≠ 0 → t.ctx.pc = first ∧ t.ctx.loop = some ⟨s.ctx.pc, a, body, 0, none⟩)) ∧
      (∀ body k, u.fetchBody (l.toNat + 1) first = (.ok body, s1) → firstBad (badBodyWord a) body 0 = some k →
        exec (.loop a l) s = .next (s1.trap 0x14 (pcPlus first (4 * k)))) ∧
      (∀ r, u.fetchBody (l.toNat + 1) first = (.error r, s1) → exec (.loop a l) s = .next (s1.refuse r)))

/-- R123, R125 to R128: nest reads its block at x[xa], clears the indices and starts its body, or goes past it where the block has no
tuple; j0 to j5 become 0. A body with a forbidden word raises 0x14 with that word's address: a word that no body may hold before the block is
read, and one that writes an index of the block after it; a body whose fetch fails raises the fetch's cause. What stands before the fences is
performed ahead of the walks of the fetch (R358). A block address that is no multiple of 64 raises 0x04 with it, one that does not translate
the cause of its refusal, and an invalid block 0x14 with the address (R126). The start is stated where no store waits behind a barrier. -/
def Sys2Proof.Claims.NestStarts : Prop :=
  (∀ (s u s1 : State) (a l : BitVec 5) (first : Word), s.ctx.vmWaits = false → s.behindBarriers = some u → u.ctx.pc = s.ctx.pc →
    first = pcPlus s.ctx.pc 4 →
    (∀ body k, u.fetchBody (l.toNat + 1) first = (.ok body, s1) → firstBad (badBodyWord a) body 0 = some k →
      exec (.nest a l) s = .next (s1.trap 0x14 (pcPlus first (4 * k)))) ∧
    (∀ r, u.fetchBody (l.toNat + 1) first = (.error r, s1) → exec (.nest a l) s = .next (s1.refuse r))) ∧
  ∀ (s s1 s2 : State) (a l : BitVec 5) (body : List Word32) (bs : List Byte) (b : NestBlock),
    s.ctx.vmWaits = false → s.behindBarriers = some s → BodyFetched s s1 a l body → body.length = l.toNat + 1 → s1.ctx = s.ctx → s2.ctx = s.ctx →
    s1.readNest (s1.getX a) = .bytes bs s2 → parseNest bs = some b →
    (firstBad (fun _ => writesIndex b.ndim) body 0 = none →
      ∃ t, exec (.nest a l) s = .next t ∧ OnlyX s2 t ∧ t.ctx.x = (s.ctx.setTuple []).x ∧
        (b.count = 0 → t.ctx.pc = pcPlus s.ctx.pc (4 + 4 * (l.toNat + 1)) ∧ t.ctx.loop = none) ∧
        (b.count ≠ 0 → t.ctx.pc = pcPlus s.ctx.pc 4 ∧ t.ctx.loop = some ⟨s.ctx.pc, a, body, 0, some bs⟩)) ∧
    (∀ k, firstBad (fun _ => writesIndex b.ndim) body 0 = some k →
      exec (.nest a l) s = .next (s2.trap 0x14 (pcPlus (pcPlus s.ctx.pc 4) (4 * k))))

/-- R125, R126: the block of a nest is the 64 bytes at x[xa], read as a scalar load reads; where the address is no multiple of 64, the
access is refused, or the bytes are no valid block, nest raises the cause, with the address as tval and epc at the nest. A block has its
header and zero fields as R125 lays them out. -/
def Sys2Proof.Claims.NestBlocks : Prop :=
  (∀ (s s1 : State) (a l : BitVec 5) (body : List Word32) (va : Word),
    s.ctx.vmWaits = false → s.behindBarriers = some s → BodyFetched s s1 a l body → va = s1.getX a →
    (va.toNat % 64 ≠ 0 → exec (.nest a l) s = .next (s1.trap 0x04 va)) ∧
    (∀ r s2, va.toNat % 64 = 0 → s1.alignedOnce .load 64 va = (.error r, s2) → exec (.nest a l) s = .next (s2.refuse r)) ∧
    (∀ (s2 : State) (p : Place), s1.alignedOnce .load 64 va = (.ok p, s2) → Plain s2 p.loc.key 64 → s2.ctx.stores = [] →
      s2.ctx.wcb = [] →
      (parseNest (s2.bytesAt p.loc.key 64) = none → exec (.nest a l) s = .next (s2.trap 0x14 va)) ∧
      ((parseNest (s2.bytesAt p.loc.key 64)).isSome = true → ∃ t, s1.readNest va = .bytes (s2.bytesAt p.loc.key 64) t ∧ t = s2))) ∧
  ∀ (bs : List Byte) (b : NestBlock), bs.length = 64 →
    (parseNest bs = some b ↔
      b.ndim = field bs 2 1 / 16 ∧ b.ord = field bs 2 1 % 16 ∧ (∀ k, k < 6 → b.bound.getD k 0 = field bs (8 + 8 * k) 4) ∧
      (∀ k, k < 6 → b.stride.getD k 0 = (BitVec.ofNat 32 (field bs (12 + 8 * k) 4)).toInt) ∧ b.bound.length = 6 ∧ b.stride.length = 6 ∧
      field bs 3 1 = 1 ∧ field bs 0 2 = 0 ∧ field bs 4 4 = 0 ∧ field bs 56 8 = 0 ∧ 1 ≤ b.ndim ∧ b.ndim ≤ 6 ∧ b.ord ≤ 3 ∧
      (b.ord = 3 → 2 ≤ b.ndim) ∧ ∀ k, b.ndim ≤ k → k < 6 → field bs (8 + 8 * k) 8 = 0)

/-- R75, R135, R136: lend completes and leaves its latch pending, with the predicate of kind 0 captured, for the word at lend + 4. -/
def Sys2Proof.Claims.LendLatches : Prop :=
  ∀ (s : State) (n k e : BitVec 1) (p : BitVec 5) (c : BitVec 6), ∃ t, exec (.lend n k p c e) s = .next t ∧
    t.ctx.latch = some ⟨n == 1, k == 1, p, decide (k = 0 ∧ s.getX p ≠ 0), e == 1, c, false, pcPlus s.ctx.pc 4⟩ ∧
    OnlyX s { t with ctx := { t.ctx with latch := none } }

/-- R43, R72 to R74, R136, R137: the word after a lend. Below its level it raises PRIV; one that may not follow raises LEND_PAIR; either
clears the latch. A word that executes in the SCT runs where the predicate holds, and else is skipped: a destination takes x[dcopy] where
the lend has one, and the word completes with the latch cleared. A word of the vector unit is issued with the latch. R75: the latch
governs the word only where it is fetched at lend + 4; elsewhere the word runs as if there were none, and the latch is gone. -/
def Sys2Proof.Claims.LendSuccessor : Prop :=
  (∀ (s : State) (l : Latch) (w : Word32) (d : Decoded), s.ctx.latch = some l → decodeWord w = .ok d →
    (l.succ = s.ctx.pc → s.runFetched w = s.successor l w d) ∧
    (l.succ ≠ s.ctx.pc → s.runFetched w = runDecoded d (s.onCtx fun c => { c with latch := none }))) ∧
  ∀ (s : State) (l : Latch) (w : Word32) (d : Decoded),
    (s.ctx.priv.rank < (decodedLevel d).rank →
      s.successor l w d = .next ((s.onCtx fun c => { c with latch := none }).trap 0x03 (w.setWidth 64))) ∧
    ((decodedLevel d).rank ≤ s.ctx.priv.rank → l.eligible d = false →
      s.successor l w d = .next ((s.onCtx fun c => { c with latch := none }).trap 0x0B (w.setWidth 64))) ∧
    ((decodedLevel d).rank ≤ s.ctx.priv.rank → l.eligible d = true → (decodedEnters d = true ∨ l.pv ≠ l.neg) →
      s.successor l w d = runDecoded d s) ∧
    ((decodedLevel d).rank ≤ s.ctx.priv.rank → l.eligible d = true → decodedEnters d = false → l.pv = l.neg →
      ∃ t, s.successor l w d = .next t ∧ OnlyX s t ∧
        (∀ r, decodedDest d = some r → l.dcEn = true → t = (s.setX r (s.getX (l.dcopy.setWidth 5))).retire) ∧
        ((decodedDest d = none ∨ l.dcEn = false) → t = s.retire))

/-- R70, R245 to R247: hint does nothing; a fence that finds nothing to order, of every kind and scope, vlsync, and vfence.d of a context
without buffered lines, complete and change nothing. -/
def Sys2Proof.Claims.NothingToOrder : Prop :=
  ∀ (s : State), (∀ h, exec (.hint h) s = .next s.retire) ∧
    (PathClear s → (∀ sc k, exec (.fence sc k) s = .next s.retire) ∧ exec .vlsync s = .next s.retire ∧ exec .vfenceD s = .next s.retire)

/-- R245 to R247: a barrier takes its place behind the older accesses, and the SCT goes on. Where entry `n` is the youngest that has still
to enter the access path, it is put after that entry; else, where stores wait, it stands behind them: kinds rw and w as 2 and 1 (log 7,
the model's choice), kind r none, since loads are performed as they execute. vfence.d of a deterministic context puts its buffered lines
before it (R223). A younger store behind a fence does not stall: it takes its place behind the fence, behind one that holds loads and
whose older stores a scoreboard range holds where its translation needs no walk (R358; `Obligations.ScalarMemoryTraps`). So does a store or a
fence behind an oldest entry that has been translated and waits in the access path, where no other has still to enter it: it stands
behind that entry, and enters the path once the entry has left. The fetch of a word after a fence, also one that still follows queue entries,
has every older store in the access path performed first, and not the entries. -/
def Sys2Proof.Claims.BarriersTakeTheirPlace : Prop :=
  ∀ (s : State) (sc : BitVec 3),
    let after := fun (n kind : Nat) => Host.Outcome.next (s.onCtx fun c => { c with bars := c.bars ++ [(n + 1, kind)] }).retire
    let behind := fun (kind : Nat) => Host.Outcome.next (s.onCtx fun c =>
      { c with stores := c.stores ++ [{ Pend.fence kind with num := c.path }], path := c.path + 1 }).retire
    (∀ n e, s.ctx.late = none → s.ctx.viq[n]? = some e → isVm e.instr = true → (∀ m f, n < m → s.ctx.viq[m]? = some f → isVm f.instr = false) →
      exec (.fence sc 0) s = after n 2 ∧ exec (.fence sc 1) s = .next s.retire ∧ exec (.fence sc 2) s = after n 1 ∧
      exec .vlsync s = after n 2 ∧ exec .vfenceD s = after n (if s.ctx.detm then 3 else 2)) ∧
    (s.ctx.vmWaits = false → s.ctx.stores ≠ [] → s.dev.holdStores = true →
      exec (.fence sc 0) s = behind 2 ∧ exec (.fence sc 1) s = .next s.retire ∧ exec (.fence sc 2) s = behind 1 ∧
      exec .vlsync s = behind 2 ∧ (s.ctx.wcb = [] → exec .vfenceD s = behind 2)) ∧
    (s.ctx.vmWaits = false → s.ctx.detm = true → s.ctx.wcb ≠ [] → s.dev.holdStores = true →
      exec .vfenceD s = .next (s.onCtx fun c => (c.leave fun _ => true).enqueue (Pend.fence 2)).retire) ∧
    (∀ (i : Instr) (s1 : State) (x a : BitVec 5) (o : BitVec 16) (n : Nat) (p : Place), storeForm i = some (x, a, o, n) →
      s.ctx.vmWaits = false → s.ctx.wcb = [] → s.ctx.detm = false → s.dev.holdStores = true → (∃ q ∈ s.ctx.stores, q.barrier = 1) →
      (∀ q ∈ s.ctx.stores, q.barrier < 2) → s.aligned 0 .store none n (s.getX a + o.signExtend 64) = (.ok p, s1) →
      exec i s = .next (s1.onCtx fun c =>
        { c with
          stores := c.stores ++ [{ p.pend c.asid (s1.jobOf c.asid) 0 c.pc c.path (leBytes n (s.getX x).toNat) with num := c.path }]
          path := c.path + 1 }).retire) ∧
    (∀ (i : Instr) (s1 : State) (x a : BitVec 5) (o : BitVec 16) (n : Nat) (p : Place), storeForm i = some (x, a, o, n) →
      s.ctx.vmWaits = false → s.ctx.wcb = [] → s.ctx.detm = false → s.dev.holdStores = true → s.behindBarriers = none →
      (s.tlbFind s.ctx.asid (s.getX a + o.signExtend 64).toNat .store).isSome = true →
      s.aligned 0 .store none n (s.getX a + o.signExtend 64) = (.ok p, s1) →
      exec i s = .next (s1.onCtx fun c =>
        { c with
          stores := c.stores ++ [{ p.pend c.asid (s1.jobOf c.asid) 0 c.pc c.path (leBytes n (s.getX x).toNat) with num := c.path }]
          path := c.path + 1 }).retire) ∧
    (∀ e r ps, s.ctx.viq = e :: r → isVm e.instr = true → (∀ f ∈ r, isVm f.instr = false) → s.ctx.late = some ps →
      let put := fun (u : State) (p : Pend) => u.onCtx fun c => { c with late := some (ps ++ [p]) }
      (exec (.fence sc 0) s = .next (put s (Pend.fence 2)).retire ∧ exec (.fence sc 1) s = .next s.retire ∧
        exec (.fence sc 2) s = .next (put s (Pend.fence 1)).retire ∧ exec .vlsync s = .next (put s (Pend.fence 2)).retire ∧
        exec .vfenceD s = .next (put s (Pend.fence (if s.ctx.detm then 3 else 2))).retire) ∧
      (∀ (i : Instr) (u s1 : State) (x a : BitVec 5) (o : BitVec 16) (n : Nat) (p : Place) (va : Word), storeForm i = some (x, a, o, n) →
        va = s.getX a + o.signExtend 64 → s.dev.holdStores = true →
        (s.beforeFetch = none → va.toNat % n = 0 → va.toNat < 2 ^ 55 → s.tlbFind s.ctx.asid va.toNat .store = none →
          exec i s = .next (s.stallFor .chan)) ∧
        ((s.beforeFetch = some u ∨ s.beforeFetch = none ∧ u = s ∧ (s.tlbFind s.ctx.asid va.toNat .store).isSome = true) →
          u.aligned 0 .store none n va = (.ok p, s1) → s1.ctx = u.ctx → u.getX x = s.getX x → u.getX a = s.getX a → u.ctx.late = s.ctx.late →
          u.ctx.viq = s.ctx.viq → s1.dev.holdStores = true → exec i s = .next (put s1 { p.pend s1.ctx.asid (s1.jobOf s1.ctx.asid) 0 s1.ctx.pc
            s1.ctx.path (leBytes n (s.getX x).toNat) with num := s1.steps }).retire)) ∧
      (∀ p, p.barrier = 0 → ps = [p] → s.ctx.bars = [] → s.ctx.wcb = [] → s.ctx.detm = false → s.dev.holdStores = true →
        s.popHead = s.onCtx fun c => { c with
          viq := r, late := none, stores := c.stores ++ [{ p with word := c.path, num := c.path }], path := c.path + 1 })) ∧
    (s.ctx.late = none → s.ctx.bars = [] → s.beforeFetch = s.behindBarriers) ∧
    (s.ctx.late = none → s.ctx.bars ≠ [] → (∃ b ∈ s.ctx.bars, 2 ≤ b.2) → (∀ b ∈ s.ctx.bars, b.2 ≠ 3) →
      (∀ p ∈ s.ctx.stores, p.barrier = 0) → s.ctx.stores ≠ [] →
      ((∃ p ∈ s.ctx.stores, s.holds p = true) → s.beforeFetch = none) ∧
      ((∀ p ∈ s.ctx.stores, s.holds p = false) →
        s.beforeFetch = some ((s.onCtx fun c => { c with stores := [] }).performAll s.ctx.stores)))

/-- R31, R228, R229, R248: waitge completes when the word at x[xa] is at least x[xb], unsigned, and waiteq when it equals x[xb]; until then the SCT waits
at the word, and nothing else changes. A misaligned address raises 0x04 with it (R228), and one that the translation refuses the cause of
the refusal (R229). It waits there too while an older vector memory instruction has not entered the access path (R17) or
a barrier holds the word's reads (R245), and every such wait is a safe point outside a trap handler, for the successor of a lend too
(R75). -/
def Obligations.MemoryWaits : Prop :=
  (∀ (s : State) (a b : BitVec 5) (w : BitVec 1), (s.ctx.vmWaits = true ∨ s.behindBarriers = none) →
    exec (.waitge a b w) s = .next (s.stallFor .word) ∧ exec (.waiteq a b w) s = .next (s.stallFor .word)) ∧
  (∀ s : State, s.ctx.run = .running → s.ctx.tfv = false → (s.stallFor .word).ctx.safePoint = true) ∧
  (∀ (s s0 : State) (a b : BitVec 5) (w : BitVec 1) (n : Nat), n = (if w = 0 then 4 else 8) → s.ctx.vmWaits = false →
    s.behindBarriers = some s0 →
    ((s0.getX a).toNat % n ≠ 0 →
      exec (.waitge a b w) s = .next (s0.trap 0x04 (s0.getX a)) ∧ exec (.waiteq a b w) s = .next (s0.trap 0x04 (s0.getX a))) ∧
    (∀ r s1, s0.aligned 0 .load none n (s0.getX a) = (.error r, s1) →
      exec (.waitge a b w) s = .next (s1.refuse r) ∧ exec (.waiteq a b w) s = .next (s1.refuse r))) ∧
  ∀ (s s1 : State) (a b : BitVec 5) (w : BitVec 1) (n : Nat) (p : Place), n = (if w = 0 then 4 else 8) →
    PathClear s → Plain s1 p.loc.key n → s.aligned 0 .load none n (s.getX a) = (.ok p, s1) →
    exec (.waitge a b w) s =
      .next (if (s.getX b).toNat % 2 ^ (8 * n) ≤ s1.natAt p.loc.key n then s1.retire else s1.stallFor .word) ∧
    exec (.waiteq a b w) s =
      .next (if s1.natAt p.loc.key n = (s.getX b).toNat % 2 ^ (8 * n) then s1.retire else s1.stallFor .word)

/-- R15, R85 to R93, R133, R134: the scalar float words that round, under every frm, and what one rounding of an exact result is. -/
def Obligations.FloatRounding : Prop := FloatRounds ∧ FloatReservedRounding ∧ FloatExact ∧ FloatSpecials

/-- R92, R93, R133, R134: the scalar float words that do not read frm, the order of float values, and the frame of all scalar float words. -/
def Obligations.FloatWords : Prop := FloatQuiet ∧ FloatOrder ∧ FloatFrame

/-- R123 to R128, R304: loop and nest, the blocks of a nest, and the order of its tuples. -/
def Obligations.LoopsAndNests : Prop := LoopStarts ∧ NestStarts ∧ NestBlocks ∧ NestTuples

/-- R43, R72 to R75, R135 to R137: lend and the word after it. -/
def Obligations.Lends : Prop := LendLatches ∧ LendSuccessor

/-- R70, R245 to R247: hint, and the barriers with and without something to order. -/
def Obligations.Barriers : Prop := NothingToOrder ∧ BarriersTakeTheirPlace

namespace Sys2Proof.Claims

/-! ## Traps, returns and CSRs -/

/-- The level that runs a word, with nothing left in the VIQ (R81, R329): what the class Z words and the CSRs of kind D ask for. -/
abbrev Drained (s : State) (p : Priv) : Prop := s.ctx.viq = [] ∧ p.rank ≤ s.ctx.priv.rank

/-- The bits of a CSR of kind D that a write stores; none where the CSR has an effect of its own (R401 to R403). -/
def csrMask (n : BitVec 12) : Option Word :=
  match n.toNat with
  | 0x004 => some 0x1
  | 0x005 => some 0x3FFFFFF00FF
  | 0x009 => some 0x1F
  | 0x101 => some 0x80000000000001FF
  | 0x102 => some 0x8FFFFFFFFFFFFFFC
  | 0x103 => some 0x007FFFFFFFFFFFFC
  | 0x104 => some 0xFFFFFFFFFFFFFFFF
  | 0x105 => some 0x007FFFFFFFFFFFFC
  | 0x10C => some 0xFFFFFFFFFFFFFFFF
  | 0x205 => some 0x007FFFFFFFFFFFFC
  | _ => none

/-- The bits of an in-order CSR that a write stores (R15, R87, R98, R198, R211, R242, R399). -/
def inOrderMask (n : BitVec 12) : Option Word :=
  match n.toNat with
  | 0x001 => some 0x1F
  | 0x002 => some 0xF
  | 0x003 => some 0x3
  | 0x006 => some 0x007FFFFFFFFFFFFF
  | 0x007 => some 0xFFFFFFFFFFFFFFFF
  | 0x008 => some 0x7
  | 0x00C => some 0xF
  | _ => none

/-- A word that writes a CSR, with its source register, its CSR, and the value that it writes from the old one (R398). -/
def csrWrite (i : Instr) (s : State) (old : Word) : Option (BitVec 12 × Word) :=
  match i with
  | .csrw a n => some (n, s.getX a)
  | .csrs a n => some (n, old ||| s.getX a)
  | .csrc a n => some (n, old &&& ~~~s.getX a)
  | _ => none

/-- An entry writes frm (R15). -/
def writesFrm : Instr → Bool
  | .csrw _ n | .csrs _ n | .csrc _ n => n == 0x008
  | _ => false

/-- The words that only sup and hyp, or only hyp, execute (R69, R329), apart from the CSR words. -/
def privileged : Instr → Option Priv
  | .launch .. | .launchNode .. | .cancel .. | .claspCfg .. | .grant .. | .ctxsave .. | .ctxrst .. | .tlbinv .. | .vfset .. => some .sup
  | .eret | .snap | .wfi => some .sup
  | .placew .. => some .hyp
  | _ => none

end Sys2Proof.Claims

/-- R370, R372: what taking a trap writes: the issued entries become the frame; cause, tval, epc and epcv; ppriv takes the level and the
level becomes sup, or stays hyp; tfv is set; the latch is held aside; the handler starts at the level's vector. No x or v register, facet,
tile, queue, channel, flag or vl changes, and nothing outside the context. The fences that still follow issued entries are set aside for
them, and take their place behind the stores that wait, so that what the handler accesses comes after those (R245, R273; log 7); one of
a deterministic context that drains sends its buffered lines before it (R247). What the SCT has put behind an oldest entry that waits in the
access path enters it: its stores stand behind those that wait, and its fences are set aside as those that follow one entry; where these
stores fill the core's write-combining buffer beyond its 4,096 lines, its oldest lines leave it (R222). Of vfs only the CAUSE field
changes, and only for a trap of the vector unit. A clasp wait that is interrupted sets status.cw (R341). -/
def Sys2Proof.Claims.TrapEntry : Prop :=
  ∀ (s : State) (int vec : Bool) (code : Nat) (tval : Word), (s.ctx.tfv = false ∨ int = true) → ∃ c : Ctx,
    s.takeTrap int vec code tval = (if s.ctx.late.isSome then ({ s with ctx := c } : State).spill else { s with ctx := c }) ∧
    (s.ctx.late = none ∨ ({ s with ctx := c } : State).wcbLines (coreOf s.cur) ≤ 4096 → s.takeTrap int vec code tval = { s with ctx := c }) ∧
    (s.ctx.late.isSome = true → (s.takeTrap int vec code tval).wcbLines (coreOf s.cur) ≤ 4096) ∧
    (∀ w e, s.ctx.stall = some (.clasp w e) → c.cw = true ∧ c.claspWord = some w) ∧
    ((∀ w e, s.ctx.stall ≠ some (.clasp w e)) → c.cw = s.ctx.cw ∧ c.claspWord = s.ctx.claspWord) ∧
    c.cause = BitVec.ofNat 64 ((if int then 2 ^ 63 else 0) + (if vec then 2 ^ 8 else 0) + code % 256) ∧ c.tval = tval ∧
    c.epc = s.ctx.epcNow ∧ (∀ e r, s.ctx.viq = e :: r → c.epcv = e.pc) ∧ (s.ctx.viq = [] → c.epcv = 0) ∧
    c.frame = s.ctx.viq ∧ c.viq = [] ∧ c.frameVf = vec ∧ c.ppriv = s.ctx.priv ∧ c.tfv = true ∧
    (s.ctx.priv = .hyp → c.priv = .hyp ∧ c.pc = s.ctx.htvec) ∧ (s.ctx.priv ≠ .hyp → c.priv = .sup ∧ c.pc = s.ctx.tvec) ∧
    c.latch = none ∧ (c.heldLatch.isSome = s.ctx.latch.isSome) ∧ c.loop = none ∧
    (vec = false → c.vfs = s.ctx.vfs) ∧ (vec = true → c.vfs.toNat = s.ctx.vfs.toNat / 256 * 256 + code % 256) ∧
    c.x = s.ctx.x ∧ c.v = s.ctx.v ∧ c.facets = s.ctx.facets ∧ c.tiles = s.ctx.tiles ∧ c.cb = s.ctx.cb ∧ c.q = s.ctx.q ∧
    c.ch = s.ctx.ch ∧ c.rh = s.ctx.rh ∧ c.fflags = s.ctx.fflags ∧ c.vsat = s.ctx.vsat ∧ c.vl = s.ctx.vl ∧ c.vtype = s.ctx.vtype ∧
    c.hl = s.ctx.hl ∧ c.cl = s.ctx.cl ∧ c.skip = s.ctx.skip ∧ c.tvec = s.ctx.tvec ∧ c.htvec = s.ctx.htvec ∧ c.asid = s.ctx.asid ∧
    c.unit = s.ctx.unit ∧ c.bars = [] ∧ c.late = none ∧
    (∀ ps, s.ctx.late = some ps →
      c.frameBars = ((ps.filter fun p => decide (p.barrier ≠ 0)).map fun p => (1, p.barrier)) ++ s.ctx.bars ∧
      (s.ctx.detm = false → s.ctx.wcb = [] → (∀ b ∈ s.ctx.bars, b.2 ≠ 0) → ((c.stores.filter fun p => decide (p.barrier = 0)).map (·.writes)) =
        (((s.ctx.stores ++ ps).filter fun p => decide (p.barrier = 0)).map (·.writes)))) ∧
    (s.ctx.late = none → c.frameBars = s.ctx.bars) ∧
    (s.ctx.late = none → (∀ b ∈ s.ctx.bars, b.2 ≠ 3) → c.wcb = s.ctx.wcb ∧ (s.ctx.stores = [] → c.stores = []) ∧
      (s.ctx.stores ≠ [] → ∃ fs, c.stores = s.ctx.stores ++ fs ∧ fs.map (·.barrier) = s.ctx.bars.map (fun b => Nat.min b.2 2) ∧
        ∀ f ∈ fs, f.writes = [])) ∧
    (s.ctx.late = none → (∃ b ∈ s.ctx.bars, b.2 = 3) → c.wcb = [] ∧ ∀ l ∈ s.ctx.wcb, ∃ p ∈ c.stores, p.writes = l.writes)

/-- R129, R130: epc outside a body is the pc; inside one it also holds LA, and in LP the index of the body word. -/
def Sys2Proof.Claims.ResumeAddress : Prop :=
  ∀ c : Ctx, c.resume = false →
    (c.loop = none → c.epcNow = c.pc) ∧
    (∀ l, c.loop = some l → l.idx < 32 → c.pc.toNat < 2 ^ 55 →
      c.epcNow.toNat / 2 ^ 63 = 1 ∧ c.epcNow.toNat / 2 ^ 55 % 2 ^ 5 = l.idx ∧ c.epcNow.toNat % 2 ^ 55 = c.pc.toNat)

/-- R376: a synchronous trap under TFV = 1 stops the context with its frame and its registers as they are, and a machine check is pending
for the context that MCTGT names, to be taken at hyp. -/
def Sys2Proof.Claims.DoubleTrapStops : Prop :=
  ∀ (s : State) (vec : Bool) (code : Nat) (tval : Word), s.ctx.tfv = true → (s.takeTrap false vec code tval).ctx.run = .stopped ∧
    (s.takeTrap false vec code tval).ctx.frame = s.ctx.frame ∧ (s.takeTrap false vec code tval).ctx.x = s.ctx.x ∧
    (s.takeTrap false vec code tval).ctx.epc = s.ctx.epc ∧ (s.takeTrap false vec code tval).ctx.cause = s.ctx.cause ∧
    ∀ c, s.mcTarget = some c → ∃ a, ((s.takeTrap false vec code tval).ctxOf c).pMcheck = (s.ctxOf c).pMcheck ++ [⟨a, true, none⟩]

/-- R370, R404: ecall and ebrk raise 0x0E and 0x0F at every level, with tval 0 and epc past the word, once the VIQ is empty: app and sup
go to the vector of sup, hyp to its own. Until then the SCT waits. In a handler either is a double trap, of the word that has not completed
(R376, R391). -/
def Sys2Proof.Claims.SystemCalls : Prop :=
  ∀ (i : Instr) (code : Nat), (i = .ecall ∧ code = 0x0E ∨ i = .ebrk ∧ code = 0x0F) → ∀ s : State,
    (s.ctx.viq ≠ [] → exec i s = .next (s.stallFor .viq)) ∧
    (s.ctx.viq = [] → s.ctx.tfv = true → exec i s = .next (s.trap code 0)) ∧
    (s.ctx.viq = [] → s.ctx.tfv = false → s.ctx.resume = false → s.ctx.loop = none →
      ∃ t, exec i s = .next t ∧ t.ctx.cause = BitVec.ofNat 64 code ∧ t.ctx.tval = 0 ∧ t.ctx.epc = pcPlus s.ctx.pc 4 ∧ t.ctx.ppriv = s.ctx.priv ∧
        (s.ctx.priv = .hyp → t.ctx.priv = .hyp ∧ t.ctx.pc = s.ctx.htvec) ∧
        (s.ctx.priv ≠ .hyp → t.ctx.priv = .sup ∧ t.ctx.pc = s.ctx.tvec) ∧
        t.ctx.tfv = true ∧ t.ctx.x = s.ctx.x ∧ ∃ c, t = { s with ctx := c })

/-- R15, R75, R375, R404: eret goes on at epc at the level of PPRIV, which becomes app; TFV and SKIP are cleared; the frame is issued
again, without its entry 0 after a trap of the vector unit with SKIP set, and the SCT's frm is that of the last write of frm among them,
else the CSR; the latch held aside is pending again where eret goes to the word that it governs, and else gone; with LA set the body is
fetched again (R130). The barriers that the trap set aside stand behind the entries again, and one with nothing before it takes its place
(log 28); and where it finds status.cw set, CW stays, and a clasp at epc is the wait alone (R341). From sup it does not go to hyp; app may not
execute it; and it waits until the VIQ is empty. The model's choice, log 97 (the spec does not say what becomes of the latch held aside once
software has cleared TFV): with TFV = 0 the latch held aside stays so and is not made pending. -/
def Sys2Proof.Claims.TrapReturn : Prop :=
  (∀ s : State, s.ctx.priv = .app → exec .eret s = .next (s.trap 0x03 ((encode .eret).setWidth 64))) ∧
  (∀ s : State, s.ctx.priv ≠ .app → s.ctx.viq ≠ [] → exec .eret s = .next (s.stallFor .viq)) ∧
  (∀ s : State, (∀ b ∈ s.ctx.bars, b.1 ≠ 0) → s.settleBars = s) ∧
  ∀ s : State, Drained s .sup →
    (¬(s.ctx.priv = .sup ∧ s.ctx.ppriv = .hyp) → ∃ c, exec .eret s = .next ({ s with ctx := c } : State).settleBars ∧
      c.pc.toNat = s.ctx.epc.toNat % 2 ^ 55 / 4 * 4 ∧ c.priv = s.ctx.ppriv ∧ c.ppriv = .app ∧
      c.tfv = false ∧ c.skip = false ∧ c.frame = [] ∧ (c.resume = true ↔ 2 ^ 63 ≤ s.ctx.epc.toNat) ∧
      c.x = s.ctx.x ∧ c.v = s.ctx.v ∧ c.q = s.ctx.q ∧ c.tiles = s.ctx.tiles ∧ c.frm = s.ctx.frm ∧
      c.cw = s.ctx.cw ∧ c.claspWord = s.ctx.claspWord ∧ c.rejoin = (if s.ctx.cw = true then some c.pc else none) ∧
      (s.ctx.tfv = false →
        c.heldLatch = s.ctx.heldLatch ∧ c.viq = [] ∧ c.ch = s.ctx.ch ∧ c.latch = s.ctx.latch ∧ c.bars = s.ctx.bars ∧ c.frmSct = s.ctx.frmSct) ∧
      (s.ctx.tfv = true →
        (∀ l, s.ctx.heldLatch = some l → c.latch = if l.succ = c.pc then some l else none) ∧ (s.ctx.heldLatch = none → c.latch = none) ∧
        c.heldLatch = none ∧
        c.viq = (if s.ctx.cause.getLsbD 8 ∧ s.ctx.skip = true then s.ctx.frame.tail else s.ctx.frame) ∧
        c.bars = (if s.ctx.cause.getLsbD 8 ∧ s.ctx.skip = true then s.ctx.frameBars.map fun b => (b.1 - 1, b.2) else s.ctx.frameBars) ∧
        ((∀ e ∈ c.viq, writesFrm e.instr = false) → c.frmSct = s.ctx.frm) ∧
        (∀ es e rest a, c.viq = es ++ e :: rest → e.instr = .csrw a 0x008 → (∀ f ∈ rest, writesFrm f.instr = false) →
          c.frmSct = e.op1.setWidth 3))) ∧
    (s.ctx.priv = .sup ∧ s.ctx.ppriv = .hyp → exec .eret s = .next (s.trap 0x03 ((encode .eret).setWidth 64)))

/-- R43, R69, R329: a privileged word below its level raises PRIV, with the word as tval, before anything else. R398: so does a write of a
CSR below its Write level, and one from app of a CSR whose Write column is "none", which csrw, csrs and csrc from sup and hyp answer with
0x02; the decoder makes that check. -/
def Obligations.PrivilegeTraps : Prop :=
  (∀ (i : Instr) (p : Priv) (s : State), privileged i = some p → s.ctx.priv.rank < p.rank →
    exec i s = .next (s.trap 0x03 ((encode i).setWidth 64))) ∧
  ∀ (i : Instr) (s : State) (n : BitVec 12) (old v : Word) (r : CsrRights), csrWrite i s old = some (n, v) → csrRights n = some r →
    (((∃ p, r.write = some p ∧ s.ctx.priv.rank < p.rank) ∨ (r.write = none ∧ s.ctx.priv = .app)) →
      exec i s = .next (s.trap 0x03 ((encode i).setWidth 64))) ∧
    (r.write = none → s.ctx.priv ≠ .app → exec i s = .next (s.trap 0x02 ((encode i).setWidth 64))) ∧
    (r.write = none → s.ctx.latch = none → decode (encode i) = .error (.field .sup) ∧
      exec (.illegalWord (encode i) (.field .sup)) s =
        .next (s.trap (if s.ctx.priv = .app then 0x03 else 0x02) ((encode i).setWidth 64)))

/-- R397, R398: csrr of a listed CSR that the level may read, with the VIQ empty, writes its value; frm is read from the SCT's copy. A CSR
of kind F is read whatever the VIQ holds. Below its Read level it raises PRIV. -/
def Sys2Proof.Claims.CsrReads : Prop :=
  ∀ (s : State) (d : BitVec 5) (n : BitVec 12) (r : CsrRights), csrRights n = some r →
    (s.ctx.priv.rank < r.read.rank → exec (.csrr d n) s = .next (s.trap 0x03 ((encode (.csrr d n)).setWidth 64))) ∧
    (r.read.rank ≤ s.ctx.priv.rank → n = 0x008 → exec (.csrr d n) s = .next (s.setX d (s.ctx.frmSct.setWidth 64)).retire) ∧
    (r.read.rank ≤ s.ctx.priv.rank → n ≠ 0x008 → (s.ctx.viq = [] ∨ r.kind = .free) →
      exec (.csrr d n) s = .next (s.setX d (s.readCsr n)).retire)

/-- R400: the bits of status. -/
def Sys2Proof.Claims.StatusLayout : Prop :=
  ∀ s : State, (s.readCsr 0x100).toNat / 2 ^ 12 = 0 ∧ (s.readCsr 0x100).getLsbD 11 = s.ctx.cw ∧ (s.readCsr 0x100).getLsbD 10 = s.ctx.tfv ∧
    (s.readCsr 0x100).getLsbD 9 = s.ctx.skip ∧ (s.readCsr 0x100).getLsbD 8 = (s.ctx.latch.isSome || s.ctx.heldLatch.isSome) ∧
    (s.readCsr 0x100).getLsbD 7 = s.ctx.detm ∧ (s.readCsr 0x100).getLsbD 6 = false ∧
    privOf ((s.readCsr 0x100).toNat / 2 ^ 4) = some s.ctx.ppriv ∧ (s.readCsr 0x100).toNat / 2 ^ 2 % 4 = 0 ∧
    privOf (s.readCsr 0x100).toNat = some s.ctx.priv

/-- R398, R401, R403: csrw, csrs and csrc of a CSR of kind D whose fields are plain, at a level that may write it and with the VIQ empty,
complete: the CSR then reads as the value written, bits marked zero cleared, and no register, tile, facet or other listed CSR of the
context changes; of status only LP may, for the word that was governed is past (R72). A CSR that nothing writes: `Obligations.PrivilegeTraps`. -/
def Sys2Proof.Claims.CsrWrites : Prop :=
  ∀ (i : Instr) (s : State) (n : BitVec 12) (v mask : Word), csrWrite i s (s.readCsr n) = some (n, v) → csrMask n = some mask →
    Drained s (csrWriteLevel n) → ∃ t, exec i s = .next t ∧ t.readCsr n = v &&& mask ∧
      (∀ m r, m ≠ n → m ≠ 0x100 → csrRights m = some r → t.readCsr m = s.readCsr m) ∧
      t.ctx.priv = s.ctx.priv ∧ t.ctx.ppriv = s.ctx.ppriv ∧ t.ctx.tfv = s.ctx.tfv ∧ t.ctx.skip = s.ctx.skip ∧ t.ctx.cw = s.ctx.cw ∧
      t.ctx.detm = s.ctx.detm ∧ t.ctx.latch = none ∧ t.ctx.heldLatch = s.ctx.heldLatch ∧
      (∀ r, bodyWrites s.ctx r = false → t.getX r = s.getX r) ∧ t = { s with ctx := t.ctx } ∧ t.ctx.v = s.ctx.v ∧
      t.ctx.tiles = s.ctx.tiles ∧ t.ctx.facets = s.ctx.facets

/-- R312, R356, R378, R397, R398, R400, R402: csrw, csrs and csrc of the CSRs of kind D whose write has an effect of its own: hwm takes REG and BYTES, where BYTES is at
most 256, and the bytes outside the rectangle read 0; asid takes a live ASID that the level may take on, and else raises 0x08; a budget
of 0 disarms, and another one, of a unit, arms where the count is below it and else is pending at once; a rhsel with bit 4 set clears the
handle it selects; a key is stored, and a stream makes the handle valid; status takes the fields that sup may write, where LP = 0 clears
the held latch, and no level 11 and no hyp from sup. That a write of a budget above the count withdraws a BUDGET cause already pending is
the model's reading (log 49), and so is that an ASID entry with a nonzero zero field is no valid one (log 76). -/
def Obligations.CsrWritesWithEffect : Prop :=
  ∀ (i : Instr) (s : State) (n : BitVec 12) (v : Word), csrWrite i s (s.readCsr n) = some (n, v) → Drained s .sup →
    (n = 0x00A → v.toNat % 2 ^ 9 ≤ 256 → ∃ t, exec i s = .next t ∧ t.ctx.hwmReg = v.toNat / 2 ^ 9 % 2 ^ 6 ∧
      t.ctx.hwmBytes = v.toNat % 2 ^ 9 ∧
      ∀ (m : BitVec 6) (j : Nat), (t.ctx.getV m).getLsbD j =
        (decide (m.toNat ≤ v.toNat / 2 ^ 9 % 2 ^ 6 ∧ j < 8 * (v.toNat % 2 ^ 9)) && (s.ctx.getV m).getLsbD j)) ∧
    (n = 0x00A → 256 < v.toNat % 2 ^ 9 → exec i s = .next (s.trap 0x02 ((encode i).setWidth 64))) ∧
    (n = 0x106 → s.mayTakeAsid (v.setWidth 13) = true →
      exec i s = .next (s.onCtx fun c => { c with asid := v.setWidth 13 }).retire) ∧
    (n = 0x106 → s.mayTakeAsid (v.setWidth 13) = false → exec i s = .next (s.trap 0x08 v)) ∧
    (n = 0x108 → s.ctx.unit = none → exec i s = .next (s.onCtx fun c => { c with budget := v }).retire) ∧
    (n = 0x108 → s.ctx.unit ≠ none → ∃ t, exec i s = .next t ∧ t.ctx.budget = v ∧
      (v = 0 → t.ctx.armed = false ∧ t.ctx.pBudget = false) ∧
      (v ≠ 0 → s.ctx.bused < v.toNat → t.ctx.armed = true ∧ t.ctx.pBudget = false) ∧
      (v ≠ 0 → v.toNat ≤ s.ctx.bused → t.ctx.armed = false ∧ t.ctx.pBudget = true)) ∧
    (n = 0x109 → ∃ t, exec i s = .next t ∧ t.ctx.rhsel = v.setWidth 4 ∧
      (v.getLsbD 4 = true → t.ctx.handle = ⟨false, 0, 0⟩ ∧ ∀ k : Fin 16, k.val ≠ v.toNat % 16 → t.ctx.rh[k] = s.ctx.rh[k]) ∧
      (v.getLsbD 4 = false → t.ctx.rh = s.ctx.rh)) ∧
    (n = 0x10A → ∃ t, exec i s = .next t ∧ t.ctx.handle = { s.ctx.handle with key := v } ∧
      ∀ k : Fin 16, k.val ≠ s.ctx.rhsel.toNat → t.ctx.rh[k] = s.ctx.rh[k]) ∧
    (n = 0x10B → ∃ t, exec i s = .next t ∧ t.ctx.handle = { s.ctx.handle with stream := v, valid := true } ∧
      ∀ k : Fin 16, k.val ≠ s.ctx.rhsel.toNat → t.ctx.rh[k] = s.ctx.rh[k]) ∧
    (n = 0x100 → ∀ p, privOf (v.toNat / 2 ^ 4) = some p → (p = .hyp → s.ctx.priv = .hyp) → ∃ t, exec i s = .next t ∧
      t.ctx.cw = v.getLsbD 11 ∧ t.ctx.tfv = v.getLsbD 10 ∧ t.ctx.skip = v.getLsbD 9 ∧ t.ctx.ppriv = p ∧
      t.ctx.heldLatch = (if v.getLsbD 8 then s.ctx.heldLatch else none) ∧ t.ctx.priv = s.ctx.priv ∧ t.ctx.detm = s.ctx.detm) ∧
    (n = 0x100 → (privOf (v.toNat / 2 ^ 4) = none ∨ privOf (v.toNat / 2 ^ 4) = some .hyp ∧ s.ctx.priv ≠ .hyp) →
      exec i s = .next (s.trap 0x02 ((encode i).setWidth 64)))

namespace Sys2Proof.Claims

/-- The vector unit has nothing to do and no lend is pending, so that a word for it is issued and reaches the commit point in the same step
(log 6). -/
abbrev VectorIdle (s : State) : Prop := s.ctx.viq = [] ∧ s.ctx.lag = 0 ∧ s.ctx.latch = none ∧ s.ctx.bars = [] ∧ s.ctx.late = none

/-- The machine at the commit point of a word issued into an empty VIQ: the entry holds the word and the values it captured, and the SCT
has gone on. -/
def issued (i : Instr) (op1 op2 : Word) (s : State) : State :=
  (s.onCtx fun c => { c with viq := [⟨i, c.pc, op1, op2, none⟩] }).retire

end Sys2Proof.Claims

/-- R15, R399: csrw, csrs and csrc of an in-order CSR go through the VIQ; with the vector unit idle the CSR then reads as the value
written, bits marked zero cleared, frm's copy with it; a new vtype keeps vl to VLMAX. No other listed CSR, register, tile or facet
changes. -/
def Sys2Proof.Claims.InOrderCsrWrites : Prop :=
  ∀ (i : Instr) (s : State) (n : BitVec 12) (v mask : Word), csrWrite i s (s.readCsr n) = some (n, v) → inOrderMask n = some mask →
    VectorIdle s → s.ctx.frm = s.ctx.frmSct → ∃ t, exec i s = .next t ∧ t.readCsr n = v &&& mask ∧ t.ctx.frm = t.ctx.frmSct ∧
      (n = 0x001 → t.ctx.vl = Nat.min s.ctx.vl (vlmaxOf s.ctx.lgn (sewOf v.toNat))) ∧ (n ≠ 0x001 → t.ctx.vl = s.ctx.vl) ∧
      (∀ m r, m ≠ n → (m = 0x000 → n ≠ 0x001) → csrRights m = some r → t.readCsr m = s.readCsr m) ∧
      (∀ r, bodyWrites s.ctx r = false → t.getX r = s.getX r) ∧ t = { s with ctx := t.ctx } ∧ t.ctx.v = s.ctx.v ∧ t.ctx.viq = [] ∧
      t.ctx.tiles = s.ctx.tiles ∧ t.ctx.facets = s.ctx.facets

/-- R129, R130, R370, R372, R376: what taking a trap writes, the address to resume at, and a trap inside a handler. -/
def Obligations.Traps : Prop := TrapEntry ∧ ResumeAddress ∧ DoubleTrapStops

/-- R375, R404: ecall, ebrk and eret. -/
def Obligations.SystemCallsAndReturn : Prop := SystemCalls ∧ TrapReturn

/-- R397, R398, R400: csrr, and the bits of status. -/
def Obligations.CsrReading : Prop := CsrReads ∧ StatusLayout

/-- R15, R398, R399, R401, R403: csrw, csrs and csrc of the CSRs whose fields are plain, of kind D and in order. -/
def Obligations.CsrWriting : Prop := CsrWrites ∧ InOrderCsrWrites

namespace Sys2Proof.Claims

/-- A facet that R167 does not allow at register `v`: S = 0 with another field, K = 111, L above 256, or P outside v2 to v31. -/
abbrev RefusedFacet (f : BitVec 16) (v : BitVec 6) : Prop :=
  (f.getLsbD 15 = false ∧ f ≠ 0) ∨ f.toNat / 2 ^ 9 % 8 = 7 ∨ 256 < f.toNat % 2 ^ 9 ∨
    (f.getLsbD 12 = true ∧ ¬(2 ≤ v.toNat ∧ v.toNat ≤ 31))

end Sys2Proof.Claims

/-- R353, R408: placew by hyp stores an entry of the place table, or raises 0x08 with the selector for a reserved selector or value; the
entry is read back. R409: vfset by sup sets a facet, or raises 0x02 with its word for a facet that R167 forbids. Both wait for the VIQ. -/
def Sys2Proof.Claims.PlaceAndFacet : Prop :=
  (∀ (s : State) (d a : BitVec 5), Drained s .hyp →
    ((badSelector (s.getX a).toNat = true ∨ badPlace ((s.getX a).toNat / 2 ^ 14 % 4) (s.getX d).toNat = true) →
      exec (.placew d a) s = .next (s.trap 0x08 (s.getX a))) ∧
    (badSelector (s.getX a).toNat = false → badPlace ((s.getX a).toNat / 2 ^ 14 % 4) (s.getX d).toNat = false →
      ∃ t, exec (.placew d a) s = .next t ∧
        t.dev.placeEntry ((s.getX a).toNat / 2 ^ 16 % 2 ^ 8) ((s.getX a).toNat / 2 ^ 14 % 4) ((s.getX a).toNat % 2 ^ 10) = (s.getX d).toNat ∧
        t = { s with dev := { s.dev with place := t.dev.place }, ctx := s.ctx.retire })) ∧
  (∀ (s : State) (a : BitVec 5) (v : BitVec 6), Drained s .sup →
    (RefusedFacet ((s.getX a).setWidth 16) v → exec (.vfset a v) s = .next (s.trap 0x02 ((encode (.vfset a v)).setWidth 64))) ∧
    (¬ RefusedFacet ((s.getX a).setWidth 16) v →
      exec (.vfset a v) s = .next (s.onCtx fun c => { c with facets := c.facets.set v.toNat ((s.getX a).setWidth 16) }).retire))

/-- R360, R365, R407: tlbinv removes the translations that its operand covers and no others, and completes, where no access in progress
could have used one of them and no store waits; while one could, it waits. hyp reaches everything; sup the ASIDs of its own job (reach 0
and 1) and that job (reach 2) only, and anything else raises 0x08, as does a malformed operand. Stated with no line in a write-combining
buffer: what becomes of one is the model's reading (log 54), and so is that an entry of the ASID table with a nonzero zero field is no
valid one of its job (log 76). -/
def Sys2Proof.Claims.TlbInvalidation : Prop :=
  ∀ (s : State) (d a : BitVec 5) (r : Reach) (w : Word), Drained s .sup → w = s.getX d →
    r = ⟨w.toNat / 2 ^ 14 % 4, w.setWidth 13, w.toNat / 2 ^ 16 % 2 ^ 8, (s.getX a).toNat / 2 ^ 16 * 2 ^ 16⟩ →
    let own := asidLive (s.asidEntry r.asid) = true ∧ s.jobOf r.asid = s.jobOf s.ctx.asid
    let wellFormed := w.toNat / 2 ^ 24 = 0 ∧ w.toNat / 2 ^ 13 % 2 = 0
    (¬ wellFormed → exec (.tlbinv d a) s = .next (s.trap 0x08 w)) ∧
    (s.ctx.priv = .sup → (r.code < 2 ∧ ¬ own) ∨ (r.code = 2 ∧ r.job ≠ s.jobOf s.ctx.asid) ∨ r.code = 3 →
      exec (.tlbinv d a) s = .next (s.trap 0x08 w)) ∧
    (wellFormed → (s.ctx.priv = .hyp ∨ (r.code < 2 ∧ own) ∨ (r.code = 2 ∧ r.job = s.jobOf s.ctx.asid)) → s.ctx.stores = [] →
      (∀ c, (s.ctxOf c).wcb = []) → ∃ tlb,
        exec (.tlbinv d a) s = .next (
          let t : State := { s with dev := { s.dev with tlb } }
          if s.invalidating r then t.stallFor .tlb else t.retire) ∧
        ∀ e, e ∈ tlb ↔ e ∈ s.dev.tlb ∧ r.removes (s.jobOf r.asid) e = false)

/-- R224, R225, R410: snap with an area and no snapshot in progress makes the cut and completes: its lines read as they read now, with no
line copied; without an area it raises 0x08; during a snapshot it waits. R411: wfi completes when a cause is pending, and else waits. -/
def Obligations.SnapshotAndWait : Prop :=
  ∀ (s : State), Drained s .sup →
    (s.dev.win.snapSz = 0 → exec .snap s = .next (s.trap 0x08 0)) ∧
    (s.dev.win.snapSz ≠ 0 → s.dev.snap.isSome = true → exec .snap s = .next (s.stallFor .snap)) ∧
    (s.dev.win.snapSz ≠ 0 → s.dev.snap = none → s.ctx.stores = [] → s.ctx.wcb = [] → ∃ t p, exec .snap s = .next t ∧
      t.dev.snap = some p ∧ (s.mem.wf = true → (∀ k ∈ s.snapLines, k % 64 = 0) → ∀ k ∈ s.snapLines, ∀ j, j < 64 → p.image.get (k + j) = s.byteAt (k + j)) ∧
      p.copied = [] ∧ p.overflow = false ∧ p.lines = s.snapLines ∧
      t = { s with dev := { s.dev with snap := some p }, ctx := s.ctx.retire }) ∧
    exec .wfi s = .next (if s.ctx.asyncPending s.cyc = true then s.retire else s.stallFor .wfi)

/-- R379, R380, R406: ctxsave, with no command of the engine in progress and its pages writable, writes the image of the context at
x[xa], the x registers but x[xa] itself each in its slot; where a trap has stopped a unit, the unit is parked with the image and the
context is freed; else it completes. An address that is not 64-byte aligned raises 0x04; a page that cannot be written raises its cause;
and while a command is in progress the word waits. What belongs to the image and is not among its bytes the device keeps, with the image's
physical key and the bytes written; one kept for that key before that held no unit is gone (log 28, the model's choice). -/
def Sys2Proof.Claims.ContextSave : Prop :=
  ∀ (s s1 : State) (a : BitVec 5), Drained s .sup → s.ctx.stores = [] → s.ctx.wcb = [] →
    let img := s.imageParts a
    let placing := s.span 0 .store (img.2 / 65536 + 2) (s.getX a) img.2
    (∀ r : BitVec 5, r ≠ a ∨ r = 0 → (0x40 + 8 * r.toNat, leBytes 8 (s.getX r).toNat) ∈ img.1) ∧
    ((s.ctx.ch.any fun h => h.started.isSome) = true → exec (.ctxsave a) s = .next (s.stallFor .chan)) ∧
    ((s.ctx.ch.any fun h => h.started.isSome) = false →
      ((s.getX a).toNat % 64 ≠ 0 → exec (.ctxsave a) s = .next (s.trap 0x04 (s.getX a))) ∧
      ((s.getX a).toNat % 64 = 0 →
        (∀ r, placing = (.error r, s1) → exec (.ctxsave a) s = .next (s1.refuse r.1)) ∧
        (∀ ps, placing = (.ok ps, s1) → s1.ctx = s.ctx → s1.writesOnBoard (partWrites ps img.1) = false →
          let key := (ps.head?.map fun p => p.1.loc.key).getD 0
          let s2 := s1.perform s1.cur (spanSpot ps s.ctx.pc) [] (partWrites ps img.1)
          let kept := fun (u : Option UnitSt) (images : List (Nat × Saved)) =>
            (key, s.ctx.savedWith img.1 u) :: images.filter fun p => p.1 != key || p.2.unit.isSome
          (∀ u, s2.ctx.tfv = true → s2.ctx.unit = some u →
            exec (.ctxsave a) s = .next ((s2.onDev fun d => { d with images := kept (some u) d.images }).freeCtx s.cur)) ∧
          (s2.ctx.tfv = false ∨ s2.ctx.unit = none →
            exec (.ctxsave a) s = .next (s2.onDev fun d => { d with images := kept none d.images }).retire))))

/-- R267, R381, R406: ctxrst of an image that fits the context takes the context that the image holds and returns as eret does; no channel
is halted any more, and the commands of every channel, those of halted ones among them, are there to be tried again, but for one that a
replayed entry was told to skip. An image that does not fit raises 0x08 with the address, one whose level is 11 or hyp for sup 0x02 or
0x03 with the word, and one of an ASID that the level may not take on 0x08 with it; nothing changes then but the translation. Those three
checks, with what counts as a valid ASID entry, are the model's choice (logs 89 and 76). -/
def Sys2Proof.Claims.ContextRestore : Prop :=
  ∀ (s s1 s2 s3 : State) (a : BitVec 5) (p : Place) (h : List Byte) (ps : List (Place × Nat)), Drained s .sup → s.ctx.stores = [] →
    s.ctx.wcb = [] → s.aligned 0 .load none 64 (s.getX a) = (.ok p, s1) → s1.readOwn 2 (s.getX a) 64 = (.ok h, s2) →
    let total := Nat.max 0x640 (field h 12 4)
    let word := (encode (.ctxrst a)).setWidth 64
    s2.span 0 .load (total / 65536 + 2) (s.getX a) total = (.ok ps, s3) → s3.ctx = s.ctx →
    (s.ctx.fitsImage h = false → exec (.ctxrst a) s = .next (s3.trap 0x08 (s.getX a))) ∧
    (∀ (img : List Byte) (s4 : State), s.ctx.fitsImage h = true → s3.readOwn (total / 65536 + 2) (s.getX a) total = (.ok img, s4) →
      s4.ctx = s.ctx →
      let level := (csrSlot img 11).toNat / 2 ^ 4 % 4
      let asid : BitVec 13 := (csrSlot img 16).setWidth 13
      (level = 3 → exec (.ctxrst a) s = .next (s4.trap 0x02 word)) ∧
      (level = 2 → s.ctx.priv = .sup → exec (.ctxrst a) s = .next (s4.trap 0x03 word)) ∧
      (level ≠ 3 → (level = 2 → s.ctx.priv = .hyp) →
        (s4.mayTakeAsid asid = false → exec (.ctxrst a) s = .next (s4.trap 0x08 (asid.setWidth 64))) ∧
        (s4.mayTakeAsid asid = true →
          let saved := (s4.dev.savedFor p.loc.key img).map (·.2)
          (s4.imageCtx img saved = none → exec (.ctxrst a) s = .next (s4.trap 0x08 (s.getX a))) ∧
          ∀ c, s4.imageCtx img saved = some c → ∃ t, exec (.ctxrst a) s = .next t ∧ t.ctx.x = c.x ∧
            t.ctx.v = c.v ∧ t.ctx.facets = c.facets ∧ t.ctx.tiles = c.tiles ∧ t.ctx.q = c.q ∧ t.ctx.priv = c.ppriv ∧
            t.ctx.tfv = false ∧ t.ctx.pc.toNat = c.epc.toNat % 2 ^ 55 / 4 * 4 ∧ t.ctx.unit = c.unit ∧ t.mem = s4.mem ∧
            t.others = s4.others ∧ (∀ k : Fin 8, t.ctx.ch[k].halted = false) ∧
            (c.skip = false → ∀ k : Fin 8, (t.ctx.ch[k].cmds.map fun x => x.kind) = c.ch[k].cmds.map fun x => x.kind))))

namespace Sys2Proof.Claims

/-- A PC as a CSR or a slot of a frame holds it: 55 bits, a multiple of 4 (R374, R397). -/
abbrev SlotPc (v : Word) : Prop := v.toNat < 2 ^ 55 ∧ v.toNat % 4 = 0

/-- A command whose blocks have 64 bytes, and which has one payload for each row (R254, R262). -/
def savableCmd : CmdKind → Bool
  | .copy b n => b.length == 64 && n.length == 64
  | .gather d k p => d.length == 64 && p.length == k.length && decide (k.length < 2 ^ 64)
  | .push _ => true

/-- What a channel can hold: at most 31 commands, each of a kind as the engine takes it, and status fields in range (R260, R266). -/
abbrev SavableChan (h : Chan) : Prop :=
  h.cmds.length ≤ 31 ∧ h.ecause < 2 ^ 7 ∧ h.oob < 2 ^ 16 ∧ h.done < 2 ^ 32 ∧ h.started = none ∧
    ∀ x ∈ h.cmds, savableCmd x.kind = true

/-- What an entry of a trap frame can hold: an instruction that its word decodes to, and its operands, as far as it captures them (R374). -/
abbrev SavableEntry (e : VEntry) : Prop :=
  decodeWord (encode e.instr) = .ok (.instr e.instr) ∧ SlotPc e.pc ∧ (capturesTwo e.instr = false → e.op2 = 0)

/-- A tile as a raw image can hold it: its shape, mode and state agree (R190, R205), its cells are listed in order for the rows granted,
none of them untouched, and each is in the range of its class, or holds a code of its format. -/
abbrev SavableTile (rows : TClass → Nat) (x : Tile) : Prop :=
  x.bad = false ∧ -2048 ≤ x.anchor.getD 0 ∧ x.anchor.getD 0 ≤ 2047 ∧ (x.state = .empty → x.cls = .none ∧ x.cells = []) ∧
    (x.state ≠ .empty → x.cls ≠ .none ∧ x.mode ≠ .none) ∧ (x.mode = .integer → x.cls = .narrow ∧ x.anchor = none) ∧
    (if x.state = .resolved then 3 ≤ x.rfmt ∧ x.rfmt ≤ 7 else x.rfmt = 0) ∧ rows x.cls * x.cls.cols * (if x.cls = .f64 then 4 else 1) ≤ 24576 ∧
    (x.cells.Pairwise fun p q => p.1 < q.1) ∧
    ∀ p ∈ x.cells, p.1 < rows x.cls * x.cls.cols ∧ p.2 ≠ TCell.zero ∧
      if x.state = .resolved then p.2 = { TCell.zero with held := p.2.held } ∧ p.2.held < 2 ^ fmtWidth x.rfmt
      else p.2.held = 0 ∧ -(2 ^ (x.cls.bits - 1) : Nat) ≤ p.2.x ∧ p.2.x < (2 ^ (x.cls.bits - 1) : Nat)

/-- A context as its image can hold it (R379): queues of at most 8 entries, registers zero outside the rectangle, CSRs inside their fields,
and every part savable. -/
structure Savable (s : State) : Prop where
  x0 : s.ctx.x[0] = 0
  queues : ∀ k : Fin 8, s.ctx.q[k].length ≤ 8
  rect : s.ctx.hwmReg < 64 ∧ s.ctx.hwmBytes ≤ 256 ∧ ∀ (n : BitVec 6) (j : Nat), (s.ctx.getV n).getLsbD j = true →
    n.toNat ≤ s.ctx.hwmReg ∧ j < 8 * s.ctx.hwmBytes
  length : s.ctx.vl ≤ s.ctx.vlmax ∧ s.ctx.vlmax < 2 ^ 64
  csrs : SlotPc s.ctx.tvec ∧ s.ctx.cause = causeBits s.ctx.cause ∧ s.ctx.epc = epcBits s.ctx.epc ∧ SlotPc s.ctx.epcv ∧
    s.ctx.vfs = vfsMask s.ctx.vfs ∧ s.ctx.vnotify.toNat < 2 ^ 55
  chans : ∀ k : Fin 8, SavableChan s.ctx.ch[k]
  entries : s.ctx.frame.length ≤ 64 ∧ (∀ e ∈ s.ctx.frame, SavableEntry e) ∧ (s.ctx.tfv = false → s.ctx.frame = [])
  tiles : ∀ k : Fin 4, SavableTile s.ctx.tileRows s.ctx.tiles[k] ∧ (s.ctx.tiles[k].live = false → s.ctx.tiles[k] = Tile.empty)
  used : s.ctx.bused < 2 ^ 64

end Sys2Proof.Claims

/-- R204, R205, R374, R379 to R381: what an image gives back. Of a savable context, bytes that hold the parts of its image at their offsets
find what the device keeps of it, at the place of the save and at any other that holds no image with these bytes (R355; log 28), and give
with it the registers but x[xa], the facets, codebooks, lanes' hl, cl, queues and tiles as they were; the CSRs of the image; of a parked
unit also the CANCELLED that was pending for it (R31); for each channel its status and its commands; and for each entry of the frame its
instruction, its PC and its captured values, and of its latch what META keeps. -/
def Sys2Proof.Claims.ImageGivesBack : Prop :=
  ∀ (s : State) (a : BitVec 5) (img : List Byte) (u : Option UnitSt), Savable s → (s.imageParts a).2 < 2 ^ 32 →
    (∀ p ∈ (s.imageParts a).1, slice img p.1 p.2.length = p.2) →
    let saved := s.ctx.savedWith (s.imageParts a).1 u
    (∀ (d : Dev) (key place : Nat), (place ≠ key → ∀ p ∈ d.images, p.1 = place → ∃ q ∈ p.2.parts, slice img q.1 q.2.length ≠ q.2) →
      ({ d with images := keepImage key saved d.images } : Dev).savedFor place img = some (key, saved)) ∧
    ∃ c, s.imageCtx img (some saved) = some c ∧
      (∀ r, r ≠ a → c.getX r = s.getX r) ∧ c.v = s.ctx.v ∧ c.facets = s.ctx.facets ∧ c.cb = s.ctx.cb ∧ c.hl = s.ctx.hl ∧ c.cl = s.ctx.cl ∧
      c.q = s.ctx.q ∧ c.tiles = s.ctx.tiles ∧
      c.vl = s.ctx.vl ∧ c.vtype = s.ctx.vtype ∧ c.vmt = s.ctx.vmt ∧ c.vrm = s.ctx.vrm ∧ c.vsat = s.ctx.vsat ∧ c.vfs = s.ctx.vfs ∧
      c.vnotify = s.ctx.vnotify ∧ c.vthr = s.ctx.vthr ∧ c.frm = s.ctx.frm ∧ c.fflags = s.ctx.fflags ∧ c.hwmReg = s.ctx.hwmReg ∧
      c.hwmBytes = s.ctx.hwmBytes ∧ c.wfmt = s.ctx.wfmt ∧ c.cw = s.ctx.cw ∧ c.tfv = s.ctx.tfv ∧ c.skip = s.ctx.skip ∧ c.detm = s.ctx.detm ∧
      c.ppriv = s.ctx.ppriv ∧ c.cause = s.ctx.cause ∧ c.epc = s.ctx.epc ∧ c.epcv = s.ctx.epcv ∧ c.tval = s.ctx.tval ∧
      c.asid = s.ctx.asid ∧ c.budget = s.ctx.budget ∧ c.bused = s.ctx.bused ∧ c.tvec = s.ctx.tvec ∧ c.tmr = s.ctx.tmr ∧ c.unit = u ∧
      (∀ x, u = some x → c.pCancelled = s.ctx.pCancelled.filter fun p => p.tenure.isNone) ∧
      (∀ k : Fin 8, c.ch[k].cmds.map (·.kind) = s.ctx.ch[k].cmds.map (·.kind) ∧ c.ch[k].halted = s.ctx.ch[k].halted ∧
        c.ch[k].ecause = s.ctx.ch[k].ecause ∧ c.ch[k].oob = s.ctx.ch[k].oob ∧ c.ch[k].done = s.ctx.ch[k].done) ∧
      (s.ctx.tfv = true → c.frameVf = s.ctx.frameVf ∧ c.frame.map (fun e => (e.instr, e.pc, e.op1, e.op2)) =
        s.ctx.frame.map fun e => (e.instr, e.pc, e.op1, e.op2)) ∧
      (s.ctx.tfv = true → c.frame.map (fun e => e.latch.map fun l => (l.neg, l.kind, l.pv, l.dcEn, l.dcopy)) =
        s.ctx.frame.map fun e => e.latch.map fun l => (l.neg, l.kind, l.pv, l.dcEn, l.dcopy))

namespace Sys2Proof.Claims

/-- The status word of launch, launch.node, cancel, clasp.cfg and grant (R331). -/
def status (code off : Nat) : Word :=
  if code = 0 then 0 else BitVec.ofNat 64 (2 ^ 63 + off % 2 ^ 16 * 2 ^ 32 + code)

end Sys2Proof.Claims

/-- R303, R330 to R332: launch accepts a valid record whose counters are as R332 asks, and writes status 0; it refuses an invalid record
with CODE 1 and the least failing offset, and a bad counter with its CODE, changing nothing but xd; a misaligned address raises 0x04, and a
block that cannot be read the cause of the read; a block on a scoreboard range makes the word wait (R221). -/
def Sys2Proof.Claims.LaunchStatus : Prop :=
  ∀ (s s1 : State) (a d : BitVec 5), Drained s .sup → s.ctx.stores = [] → s.ctx.wcb = [] →
    ((s.getX a).toNat % 64 ≠ 0 → exec (.launch a d) s = .next (s.trap 0x04 (s.getX a))) ∧
    ((s.getX a).toNat % 64 = 0 →
      (∀ r, s.readLaunch (s.getX a) = (.error (some r), s1) → exec (.launch a d) s = .next (s1.refuse r)) ∧
      (s.readLaunch (s.getX a) = (.error none, s1) → exec (.launch a d) s = .next (s1.stallFor .chan)) ∧
      (∀ b, s.readLaunch (s.getX a) = (.ok b, s1) →
        (∀ o os, s1.launchFails b = o :: os →
          exec (.launch a d) s = .next (s1.setX d (status 1 ((o :: os).foldl Nat.min o))).retire) ∧
        (s1.launchFails b = [] → s1.launchCode b.record = 0 → exec (.launch a d) s = .next ((s1.acceptLaunch b).setX d 0).retire) ∧
        (s1.launchFails b = [] → s1.launchCode b.record ≠ 0 →
          exec (.launch a d) s = .next (s1.setX d (status (s1.launchCode b.record) 0)).retire)))

namespace Sys2Proof.Claims

/-- The block that SPACE names is valid, with the units of its launch, or its first target (R126, R303, R304, R306, R307). -/
def SpaceGives (b : LaunchBytes) (units : Nat) : Prop :=
  (field b.record 0 8 / 2 ^ 55 % 2 = 0 ∧ units < 2 ^ 32 ∧ ∃ n, parseNest b.space = some n ∧ n.count = units) ∨
    (field b.record 0 8 / 2 ^ 55 % 2 = 1 ∧ field b.space 0 1 = 1 ∧ field b.space 1 1 < 4 ∧ field b.space 2 2 = 0 ∧ field b.space 12 4 = 0 ∧
      field b.space 32 32 = 0 ∧ units = if field b.space 4 4 = 0 ∨ field b.space 8 4 = 0 then 0 else 2 ^ 32 - 1)

/-- The logical core `n` is mapped to a core of this die by the place table of the context's job. -/
abbrev MappedHere (s : State) (n : Nat) : Prop := ∃ core, s.dev.physCore (s.jobOf s.ctx.asid) n = some core ∧ dieOf core = s.die

/-- The failing fields of the control doubleword, and the conditions that join fields and report offset 0 (R302, R303, R332). -/
def ControlFails (b : LaunchBytes) : Prop :=
  let ctl := field b.record 0 8
  let kind := ctl / 2 ^ 55 % 2 = 1
  let gang := ctl / 2 ^ 54 % 2 = 1
  let rst := ctl / 2 ^ 53 % 2 = 1
  let det := ctl / 2 ^ 52 % 2 = 1
  let steal := ctl / 2 ^ 51 % 2 = 1
  let plc := ctl / 2 ^ 50 % 2 = 1
  let stgsz := field b.record 132 4
  ctl / 2 ^ 56 ≠ 1 ∨ ctl / 2 ^ 48 % 4 ≠ 0 ∨ ctl % 2 ^ 32 ≠ 0 ∨ ctl / 2 ^ 36 % 16 = 0 ∨ 8 < ctl / 2 ^ 36 % 16 ∨ ctl / 2 ^ 32 % 16 = 0 ∨
    8 < ctl / 2 ^ 32 % 16 ∨ (steal ∧ (¬rst ∨ gang ∨ det)) ∨ (det ∧ (¬plc ∨ kind)) ∨ (kind ∧ (gang ∨ steal ∨ plc)) ∨
    (gang ∧ ¬kind ∧ ∃ n, SpaceGives b n ∧ 96 < n) ∨ (plc ∧ field b.record 138 2 = 0) ∨
    (stgsz ≠ 0 ∧ 0x180000 < field b.record 128 4 % 2 ^ 21 + 2 * stgsz) ∨ (field b.record 40 8 ≠ 0 ∧ stgsz = 0)

end Sys2Proof.Claims

/-- R303, R306, R332: the fields that make a record invalid, each with the byte offset that launch reports for it, and no others. That bytes
160 to 255 report offset 160 (log 39), and that no other field is checked, STGSZ for a multiple of 64 among them (log 47), are the model's
choices. -/
def Sys2Proof.Claims.RecordChecks : Prop :=
  ∀ (s : State) (b : LaunchBytes),
    let r := b.record
    (0 ∈ s.launchFails b ↔ ControlFails b) ∧ (8 ∈ s.launchFails b ↔ field r 8 8 % 4 ≠ 0) ∧
    (32 ∈ s.launchFails b ↔ field r 32 8 % 64 ≠ 0 ∨ ∀ n, ¬ SpaceGives b n) ∧ (40 ∈ s.launchFails b ↔ field r 40 8 % 64 ≠ 0) ∧
    (∀ i, i < 4 → (48 + 2 * i ∈ s.launchFails b ↔ field r (48 + 2 * i) 2 / 2 ^ 13 % 4 ≠ 0)) ∧
    (56 ∈ s.launchFails b ↔ field r 56 2 / 2 ^ 13 ≠ 0) ∧ (58 ∈ s.launchFails b ↔ field r 58 2 / 2 ^ 13 % 4 ≠ 0) ∧
    (60 ∈ s.launchFails b ↔ field r 60 4 ≠ 0) ∧ (128 ∈ s.launchFails b ↔ field r 128 4 / 2 ^ 21 ≠ 0) ∧
    (136 ∈ s.launchFails b ↔ field r 136 2 / 2 ^ 9 ≠ 0 ∨ (field r 0 8 / 2 ^ 50 % 2 = 1 ∧
      ∃ j, j < field r 138 2 % 512 ∧ ¬ MappedHere s (field r 136 2 % 512 + j))) ∧
    (138 ∈ s.launchFails b ↔ field r 138 2 / 2 ^ 9 ≠ 0) ∧ (140 ∈ s.launchFails b ↔ field r 140 4 ≠ 0) ∧
    (144 ∈ s.launchFails b ↔ field r 144 8 % 32 ≠ 0) ∧ (152 ∈ s.launchFails b ↔ field r 152 8 % 4 ≠ 0) ∧
    (160 ∈ s.launchFails b ↔ field r 160 96 ≠ 0) ∧
    ∀ o ∈ s.launchFails b, o ∈ [0, 8, 32, 40, 48, 50, 52, 54, 56, 58, 60, 128, 136, 138, 140, 144, 152, 160]

/-- R330 to R332, R334: the CODE of a valid record for its counters, and that of a node word and a target, in the order of the rules. A
counter belongs to another job where it is armed or done under an ASID of one. -/
def Sys2Proof.Claims.CounterChecks : Prop :=
  ∀ s : State,
    let ctr := fun (n : Nat) => s.dev.counter false (ctrKey s.die (n % 2 ^ 13))
    let armed := fun (n : Nat) => ∃ k, ctr n = some k ∧ k.done = false
    let foreign := fun (n : Nat) => s.ctx.priv = .sup ∧ ∃ k, ctr n = some k ∧ s.jobOf k.asid ≠ s.jobOf s.ctx.asid
    (∀ r : List Byte,
      let c := field r 56 2
      let p := field r 58 2
      let dep := fun (i : Nat) => field r (48 + 2 * i) 2
      let broken := (∃ i, i < 4 ∧ dep i / 2 ^ 15 = 1 ∧ (ctr (dep i) = none ∨ foreign (dep i))) ∨ p / 2 ^ 15 = 0 ∨
        (∀ k, ctr p = some k → k.done = true ∨ k.level ≠ 1) ∨ foreign c ∨ foreign p
      (armed c → s.launchCode r = 2) ∧ (¬ armed c → broken → s.launchCode r = 3) ∧
      (¬ armed c → ¬ broken → s.launchCode r = if ctr c = none ∧ ctrKey s.die (c % 2 ^ 13) ∈ s.dev.unreleased then 4 else 0)) ∧
    ∀ w t : Nat,
      let level := w / 2 ^ 16 % 4
      let pv := w / 2 ^ 48 % 2 = 1
      let bad := w / 2 ^ 49 ≠ 0 ∨ w / 2 ^ 45 % 2 ^ 3 ≠ 0 ∨ w / 2 ^ 18 % 2 ^ 14 ≠ 0 ∨ w / 2 ^ 13 % 2 ^ 3 ≠ 0 ∨ 2 ^ 32 ≤ t ∨
        (pv ∧ (level = 0 ∨ level = 3)) ∨ foreign w ∨ (pv ∧ foreign (w / 2 ^ 32))
      (bad → s.nodeCode w t = 1) ∧ (¬ bad → armed w → s.nodeCode w t = 2) ∧ (¬ bad → ¬ armed w → level = 0 → s.nodeCode w t = 0) ∧
      (¬ bad → ¬ armed w → level ≠ 0 → s.nodeCode w t =
        if pv ∧ ∀ k, ctr (w / 2 ^ 32) = some k → k.done = true ∨ k.level ≠ level + 1 then 3 else 0)

/-- R304, R305, R332: an accepted record arms its counter at level 0 with the units of its block as its target and its parent, and is kept
with the blocks that it names: ready where its dependences are done, waiting where one is not, and ended with its counter cancelled where
one was cancelled. Without units its counter is done at once and its parent counts one more. Stated where no other launch waits. -/
def Sys2Proof.Claims.LaunchAccepted : Prop :=
  ∀ (s t : State) (b : LaunchBytes) (key pkey units : Nat), s.dev.launches = [] → key = ctrKey s.die (field b.record 56 2 % 2 ^ 13) →
    pkey = ctrKey s.die (field b.record 58 2 % 2 ^ 13) → SpaceGives b units → t = s.acceptLaunch b →
    (∀ n ∈ recordDeps b.record, ctrKey s.die n ≠ key) →
    let dep := fun (n : Nat) => s.dev.counter false (ctrKey s.die n)
    let deps := recordDeps b.record
    (∀ n, n ∈ deps ↔ ∃ i, i < 4 ∧ field b.record (48 + 2 * i) 2 / 2 ^ 15 = 1 ∧ n = field b.record (48 + 2 * i) 2 % 2 ^ 13) ∧
    t.ctx = s.ctx ∧ t.others = s.others ∧
    (units ≠ 0 → (∀ n ∈ deps, depCanc (dep n) = false) → t.mem = s.mem ∧ (∃ k, t.dev.counter false key = some k ∧ k.done = false ∧
      k.level = 0 ∧ k.count = 0 ∧ k.target = units ∧ k.parent = some pkey ∧ k.asid = s.ctx.asid) ∧
      ∃ l, t.dev.launches = [l] ∧ l.die = s.die ∧ l.ctr = field b.record 56 2 % 2 ^ 13 ∧ l.record = b.record ∧ l.space = b.space ∧
        l.pro = b.pro ∧ l.proNest = b.proNest ∧ l.cba = b.cba ∧ l.asid = s.ctx.asid ∧ l.head = 0 ∧
        (field b.record 0 8 / 2 ^ 55 % 2 = 0 → l.stop = units) ∧
        l.phase = if deps.all fun n => depDone (dep n) then .ready else .waiting) ∧
    (units ≠ 0 → (∃ n ∈ deps, depCanc (dep n) = true) → t.dev.launches = [] ∧
      ∃ k, t.dev.counter false key = some k ∧ k.done = true ∧ k.canc = true) ∧
    (units = 0 → t.dev.launches = [] ∧ (∃ k, t.dev.counter false key = some k ∧ k.done = true ∧ k.canc = false ∧ k.target = 0) ∧
      ∀ p, pkey ≠ key → s.dev.counter false pkey = some p → p.done = false → key % 8192 ∉ p.counted → p.count + 1 < p.target →
        t.dev.counter false pkey = some { p with count := p.count + 1, counted := p.counted ++ [key % 8192] })

/-- R330, R334: launch.node that its word, its target and the counters allow arms a counter at LEVEL with the target and count 0, or with
LEVEL 0 makes it idle; a target of 0 makes it done at once. It writes status 0, and else the CODE, changing nothing but xd. -/
def Sys2Proof.Claims.LaunchNodeStatus : Prop :=
  ∀ (s : State) (a b d : BitVec 5) (w t : Nat), Drained s .sup → w = (s.getX a).toNat → t = (s.getX b).toNat →
    (s.nodeCode w t ≠ 0 → exec (.launchNode a b d) s = .next (s.setX d (status (s.nodeCode w t) 0)).retire) ∧
    (s.nodeCode w t = 0 → w / 2 ^ 16 % 4 = 0 → ∃ u, exec (.launchNode a b d) s = .next u ∧
      u.dev.counter false (ctrKey s.die (w % 2 ^ 13)) = none ∧ u.ctx = (s.ctx.setX d 0).retire ∧ u.mem = s.mem) ∧
    (s.nodeCode w t = 0 → w / 2 ^ 16 % 4 ≠ 0 → t ≠ 0 → s.dev.launches = [] → ∃ u k, exec (.launchNode a b d) s = .next u ∧
      u.dev.counter false (ctrKey s.die (w % 2 ^ 13)) = some k ∧ k.armed = true ∧ k.done = false ∧ k.count = 0 ∧ k.target = t ∧
      k.level = w / 2 ^ 16 % 4 ∧ k.asid = s.ctx.asid ∧ u.ctx = (s.ctx.setX d 0).retire ∧ u.mem = s.mem) ∧
    (s.nodeCode w t = 0 → w / 2 ^ 16 % 4 ≠ 0 → t = 0 → ∃ u, exec (.launchNode a b d) s = .next u ∧
      u = (((s.onDev fun v => v.arm false (ctrKey s.die (w % 2 ^ 13)) (w / 2 ^ 16 % 4) 0
        (if w / 2 ^ 48 % 2 = 1 then some (ctrKey s.die (w / 2 ^ 32 % 2 ^ 13)) else none) s.ctx.asid).finishCounter false
          (ctrKey s.die (w % 2 ^ 13)) false).settleLaunches.setX d 0).retire)

namespace Sys2Proof.Claims

/-- Counter `n` is counter `key` or lies beneath it (R31, R330): a chain of at most `f` armings, each the parent of the one before it. -/
def Beneath (d : Dev) (key : Nat) : Nat → Nat → Prop
  | 0, n => n = key
  | f + 1, n => n = key ∨ ∃ k p q, d.counter false n = some k ∧ k.parent = some p ∧ d.counter false p = some q ∧ q.arm = k.parentArm ∧
      Beneath d key f p

/-- The arming of a launch's counter at or beneath `key`. -/
def LaunchBeneath (d : Dev) (key arm : Nat) : Prop := ∃ p ∈ d.counters, Beneath d key 4 p.1 ∧ p.2.level = 0 ∧ p.2.arm = arm

end Sys2Proof.Claims

/-- R31, R267: a cancel reaches the whole subtree of its counter. Each counter at or beneath it is done, and has the cancelled flag where it
was not done; of its launches none is left to dispatch; a unit or preload of them that has not started is discarded, and so is one that a double trap has
stopped, as the model's choice (log 98); in a context that runs one, CANCELLED is pending with the counter's number; in each of these
contexts no command that has not started is left. The parent counts one more, for that
number. Where it thereby reaches no target and no launch waits, no other counter changes and no other launch goes. -/
def Sys2Proof.Claims.CancelReaches : Prop :=
  ∀ (s t : State) (key : Nat) (k : Counter), s.dev.counter false key = some k → k.done = false → t = s.cancelNode key →
    (∀ n q, s.dev.counter false n = some q → Beneath s.dev key 4 n → ∃ q', t.dev.counter false n = some q' ∧ q'.done = true ∧
      q'.arm = q.arm ∧ (q.done = false → q'.canc = true)) ∧
    (∀ n q, s.dev.counter false n = some q → Beneath s.dev key 4 n → q.done = false → q.level = 0 → ∀ l ∈ t.dev.launches, l.arm ≠ q.arm) ∧
    (∀ c ∈ s.touched,
      (∀ u, (s.ctxOf c).preload = some u → u.shadow = false → LaunchBeneath s.dev key u.arm → (t.ctxOf c).preload = none) ∧
      (∀ u, (s.ctxOf c).unit = some u → u.shadow = false → LaunchBeneath s.dev key u.arm →
        ((s.ctxOf c).run ≠ .running → (t.ctxOf c).unit = none) ∧
        ((s.ctxOf c).run = .running → (t.ctxOf c).unit = some u ∧ ⟨BitVec.ofNat 64 (key % 2 ^ 13), false, none⟩ ∈ (t.ctxOf c).pCancelled) ∧
        ∀ j : Fin 8, (t.ctxOf c).ch[j].cmds = [] ∧ (t.ctxOf c).ch[j].halted = false ∧
          (t.ctxOf c).ch[j].started = (s.ctxOf c).ch[j].started)) ∧
    ((∀ l ∈ s.dev.launches, l.phase ≠ .waiting) → (∀ p, k.parent = some p → ¬ Beneath s.dev key 4 p ∧
        ∃ q, s.dev.counter false p = some q ∧ q.done = false ∧ q.arm = k.parentArm ∧ key % 2 ^ 13 ∉ q.counted ∧ q.count + 1 < q.target) →
      (∀ p q, k.parent = some p → s.dev.counter false p = some q →
        t.dev.counter false p = some { q with count := q.count + 1, counted := q.counted ++ [key % 2 ^ 13] }) ∧
      (∀ n, ¬ Beneath s.dev key 4 n → k.parent ≠ some n → t.dev.counter false n = s.dev.counter false n) ∧
      ∀ l ∈ s.dev.launches, (∀ p ∈ s.dev.counters, Beneath s.dev key 4 p.1 → p.2.arm ≠ l.arm) → l ∈ t.dev.launches)

/-- R31, R330, R335: cancel gives CODE 1 for nonzero high bits and for another job's counter, CODE 2 for an idle counter, and CODE 0 for a
done one, changing nothing but xd; an armed counter is cancelled with CODE 0 (`Obligations.CancelAndCounters`). -/
def Sys2Proof.Claims.CancelStatus : Prop :=
  ∀ (s : State) (a d : BitVec 5) (key : Nat), Drained s .sup → key = ctrKey s.die ((s.getX a).toNat % 2 ^ 13) →
    (2 ^ 13 ≤ (s.getX a).toNat → exec (.cancel a d) s = .next (s.setX d (status 1 0)).retire) ∧
    ((s.getX a).toNat < 2 ^ 13 → s.dev.counter false key = none → exec (.cancel a d) s = .next (s.setX d (status 2 0)).retire) ∧
    (∀ k, (s.getX a).toNat < 2 ^ 13 → s.dev.counter false key = some k →
      (s.ctx.priv = .sup → s.foreign key = true → exec (.cancel a d) s = .next (s.setX d (status 1 0)).retire) ∧
      ((s.ctx.priv = .hyp ∨ s.foreign key = false) → k.done = true → exec (.cancel a d) s = .next (s.setX d 0).retire) ∧
      ((s.ctx.priv = .hyp ∨ s.foreign key = false) → k.done = false → exec (.cancel a d) s = .next ((s.cancelNode key).setX d 0).retire))

/-- R330, R336: cread writes the counter word and cread.t the target; an idle counter reads 0; a number above 13 bits, and a counter that the
level may not read, raise 0x08: for app one of another ASID, for sup one of another job. -/
def Sys2Proof.Claims.CounterReads : Prop :=
  ∀ (s : State) (a d : BitVec 5), s.ctx.viq = [] →
    (2 ^ 13 ≤ (s.getX a).toNat → exec (.cread a d) s = .next (s.trap 0x08 (s.getX a)) ∧
      exec (.creadT a d) s = .next (s.trap 0x08 (s.getX a))) ∧
    ((s.getX a).toNat < 2 ^ 13 → s.dev.counter false (ctrKey s.die (s.getX a).toNat) = none →
      exec (.cread a d) s = .next (s.setX d 0).retire ∧ exec (.creadT a d) s = .next (s.setX d 0).retire) ∧
    (∀ k, (s.getX a).toNat < 2 ^ 13 → s.dev.counter false (ctrKey s.die (s.getX a).toNat) = some k →
      (s.ctx.priv = .app ∧ k.asid ≠ s.ctx.asid ∨ s.ctx.priv = .sup ∧ s.jobOf k.asid ≠ s.jobOf s.ctx.asid → exec (.cread a d) s = .next (s.trap 0x08 (s.getX a)) ∧
        exec (.creadT a d) s = .next (s.trap 0x08 (s.getX a))) ∧
      (s.ctx.priv = .hyp ∨ s.ctx.priv = .app ∧ k.asid = s.ctx.asid ∨ s.ctx.priv = .sup ∧ s.jobOf k.asid = s.jobOf s.ctx.asid →
        (∃ v, exec (.cread a d) s = .next (s.setX d v).retire ∧ v.toNat % 2 ^ 32 = k.count % 2 ^ 32 ∧ v.getLsbD 63 = k.done ∧
          v.getLsbD 62 = k.canc ∧ v.getLsbD 61 = true ∧ v.toNat / 2 ^ 32 % 2 ^ 29 = 0) ∧
        exec (.creadT a d) s = .next (s.setX d (BitVec.ofNat 64 k.target)).retire))

/-- R267, R337, R376: uend of a unit with its channels empty and its stores performed sends the unit's increment, departs from its clasps
and frees the context; before that a halted channel, the lowest one (log 82, the model's choice), raises its cause with its address, and the
channel keeps that this uend has reported it; while a channel is busy the word waits; without a unit it is illegal. R338: yield gives way
with cause 0x20 and tval 1, epc past the word, where a launch of higher priority wants the context, and else does nothing; in a handler it
is the double trap of its own word. That its cause has INT = 0 is the model's choice (log 49). -/
def Obligations.UnitEnds : Prop :=
  ∀ s : State, s.ctx.viq = [] →
    (s.ctx.unit = none → exec .uend s = .next (s.trap 0x01 ((encode .uend).setWidth 64)) ∧ exec .yield s = .next s.retire) ∧
    (∀ u, s.ctx.unit = some u →
      exec .yield s = .next (if s.outranked u.prio = true then (if s.ctx.tfv = true then s.trap 0x20 1 else s.retire.trap 0x20 1) else s.retire) ∧
      (∀ (k : BitVec 3) (h : Chan), h = s.ctx.ch[k.toNat] → h.halted = true →
        (∀ j : BitVec 3, j < k → s.ctx.ch[j.toNat].halted = false) →
        exec .uend s = .next ((s.onCtx fun c => { c with ch := c.ch.set k.toNat { h with reported := some s.ctx.pc } }).trap
          (h.ecause % 256) h.eaddr)) ∧
      ((∀ j : BitVec 3, s.ctx.ch[j.toNat].halted = false) →
        (s.ctx.channelsEmpty = true → s.ctx.stores = [] → s.ctx.wcb = [] →
          exec .uend s = .next ((((s.sendInc u).depart u).freeCtx s.cur).checkFailed u.arm)) ∧
        (s.ctx.channelsEmpty = false → exec .uend s = .next (s.stallFor .chan))))

/-- R321, R339 to R344, R364, R421: an arrival (clasp, clarr) records the member's stamp in its next episode, once episode e − 2 has
completed, and at a clasp of devices once the device has its domain's gts; clasp then waits for the episode with xd = e, clarr pushes e to
its queue and goes on; clwait goes on once its episode has completed. A clasp to which an eret with CW set has returned is only the wait for
episode x[xd] of the clasp word that was waited for, and clears CW as it ends. A word that names no clasp of the context (the unit's own by
ordinal, of its ASID, or for hyp of any) raises 0x08, and a wait that has begun is not checked again. The model's choices: no drain of the
buffer (log 45), the check of a clasp homed elsewhere (log 68), x[xa] in a resumed wait where no clasp word is kept (log 75), the outbox
(log 17); and, R342 giving no order, a clarr on a full queue waits first and then raises 0x0C (log 95). -/
def Sys2Proof.Claims.ClaspWords : Prop :=
  (∀ (s : State) (w e : Word), s.ctx.viq = [] →
    (s.ctx.stall = some (.clasp w e) → ∀ a d, exec (.clasp a d) s =
      .next (if s.episodeDone w e = true then s.retire else s.stallFor (.clasp w e))) ∧
    (s.ctx.stall = some (.clwait w e) →
      (∀ a d, exec (.clasp a d) s = .next (if s.episodeDone w e = true then
        (s.onCtx fun c => { c with cw := false, claspWord := none, rejoin := none }).retire else s.stallFor (.clwait w e))) ∧
      (∀ a b, exec (.clwait a b) s = .next (if s.episodeDone w e = true then s.retire else s.stallFor (.clwait w e)))) ∧
    (∀ k, (w.toNat / 2 ^ 22 % 2 = 0 ∨ w.toNat / 2 ^ 16 % 64 = s.dev.win.domain) → lookup (w.toNat % 2 ^ 8) s.dev.clasps = some k →
      (s.episodeDone w e = true ↔ e.toNat < k.epoch))) ∧
  ∀ (s : State) (a b d : BitVec 5) (q : BitVec 3), s.ctx.viq = [] → s.ctx.stores = [] → s.ctx.stall = none →
    let w := s.getX a
    let r := s.claspRef w
    let e := s.nextEpisode r
    (r = .refused → exec (.clarr a q) s = .next (s.trap 0x08 w) ∧ exec (.clwait a b) s = .next (s.trap 0x08 w) ∧
      (s.ctx.rejoin ≠ some s.ctx.pc → exec (.clasp a d) s = .next (s.trap 0x08 w))) ∧
    (r ≠ .refused →
      exec (.clwait a b) s = .next (if s.episodeDone w (s.getX b) = true then s.retire else s.stallFor (.clwait w (s.getX b)))) ∧
    (s.ctx.rejoin = some s.ctx.pc → ∀ v, v = s.ctx.claspWord.getD w →
      (s.claspRef v = .refused → exec (.clasp a d) s = .next (s.trap 0x08 v)) ∧
      (s.claspRef v ≠ .refused → exec (.clasp a d) s = .next (if s.episodeDone v (s.getX d) = true then
        (s.onCtx fun c => { c with cw := false, claspWord := none, rejoin := none }).retire else s.stallFor (.clwait v (s.getX d))))) ∧
    (r ≠ .refused → (e < 2 ∨ s.episodeDone w (BitVec.ofNat 64 (e - 2)) = true) → (r.ofDevices = true → s.dev.inTime = true) →
      (s.ctx.q[q.toNat].length < 8 → exec (.clarr a q) s = .next ((s.arriveAt r).onCtx fun c =>
        { c with q := c.q.set q.toNat (s.ctx.q[q.toNat] ++ [BitVec.ofNat 64 e]) }).retire) ∧
      (8 ≤ s.ctx.q[q.toNat].length → exec (.clarr a q) s = .next (s.trap 0x0C ((encode (.clarr a q)).setWidth 64))) ∧
      (s.ctx.rejoin ≠ some s.ctx.pc →
        let t := (s.arriveAt r).setX d (BitVec.ofNat 64 e)
        exec (.clasp a d) s = .next (if t.episodeDone w (BitVec.ofNat 64 e) = true then t.retire
          else t.stallFor (.clasp w (BitVec.ofNat 64 e))))) ∧
    (r ≠ .refused → (2 ≤ e ∧ s.episodeDone w (BitVec.ofNat 64 (e - 2)) = false) ∨ (r.ofDevices = true ∧ s.dev.inTime = false) →
      s.ctx.rejoin ≠ some s.ctx.pc →
      exec (.clasp a d) s = .next (s.stallFor (.arrive w (BitVec.ofNat 64 (e - 2)))) ∧
      exec (.clarr a q) s = .next (s.stallFor (.arrive w (BitVec.ofNat 64 (e - 2))))) ∧
    (w.toNat < 2 ^ 8 →
      (lookup w.toNat s.dev.clasps = none → r = .refused) ∧
      (∀ k u, lookup w.toNat s.dev.clasps = some k → k.devices = false → s.ctx.unit = some u →
        (u.gang = true → u.ord < k.nmem → (k.bound = none ∨ k.bound = some (u.die, u.ctr, u.arm)) →
          (k.asid = s.ctx.asid ∨ s.ctx.priv = .hyp) → r = .here w.toNat u.ord k) ∧
        (u.gang = false ∨ k.nmem ≤ u.ord ∨ (k.asid ≠ s.ctx.asid ∧ s.ctx.priv ≠ .hyp) → r = .refused)))

/-- R320, R323, R340, R344: what an arrival records. The episode of a member that is not rerun is the number of its earlier arrivals; the
stamp is gts, and one already recorded is kept; the member's next episode is one more; a unit clasp that none has bound is bound to the
unit's launch. The episode completes once every member has arrived in it or departed, and not before; late in it is the member whose stamp
exceeds every other by more than Δ, a departed member counting as stamp 0. At a clasp of another device the arrival is sent to its home
with the device's domain number and the stamp, through the outbox (log 17). No context and no memory changes. -/
def Sys2Proof.Claims.ArrivalRecorded : Prop :=
  (∀ (s : State) (id m : Nat) (k : Clasp), lookup id s.dev.clasps = some k → m < k.nmem →
    let r := ClaspRef.here id m k
    let e := s.nextEpisode r
    let t := s.arriveAt r
    (lookup m k.replay = none → e = (k.arrivals.filter fun a => a.1 == m).length) ∧
    t.ctx = s.ctx ∧ t.others = s.others ∧ t.mem = s.mem ∧ (∀ j, j ≠ id → lookup j t.dev.clasps = lookup j s.dev.clasps) ∧
    ∃ k', lookup id t.dev.clasps = some k' ∧ k'.nmem = k.nmem ∧ k'.delta = k.delta ∧ k'.departed = k.departed ∧
      (k.stamp e m = none → k'.stamp e m = some (BitVec.ofNat 64 s.gts)) ∧ (∀ g, k.stamp e m = some g → k'.stamp e m = some g) ∧
      (∀ f j, (f, j) ≠ (e, m) → k'.stamp f j = k.stamp f j) ∧
      (k.stamp e m = none ∨ (lookup m k.replay).isSome → t.nextEpisode (.here id m k') = e + 1) ∧
      (k.devices = false → ∀ u, s.ctx.unit = some u → k'.bound = some (k.bound.getD (u.die, u.ctr, u.arm))) ∧
      (∀ j, j < k.nmem → (j ≠ m ∨ e ≠ k.epoch) → k.stamp k.epoch j = none → j ∉ k.departed → k'.epoch = k.epoch ∧ k'.lateIn = k.lateIn) ∧
      (e = k.epoch → (∀ j, j < k.nmem → j = m ∨ (k.stamp k.epoch j).isSome ∨ j ∈ k.departed) → k.epoch < k'.epoch ∧
        let stamp := fun (j : Nat) => ((k'.stamp k.epoch j).map (·.toNat)).getD 0
        ∀ j, (k.epoch, j) ∈ k'.lateIn ↔ (k.epoch, j) ∈ k.lateIn ∨
          (2 ≤ k.nmem ∧ j < k.nmem ∧ ∀ i, i < k.nmem → i ≠ j → stamp i + k.delta < stamp j))) ∧
  ∀ (s : State) (home id : Nat), s.nextEpisode (.away home id) = (s.dev.remoteAt home id).1 ∧ s.arriveAt (.away home id) = { s with
    dev := { s.dev with
      remote := assign (home * 256 + id) ((s.dev.remoteAt home id).1 + 1, (s.dev.remoteAt home id).2) s.dev.remote
      outbox := s.dev.outbox ++ [⟨0, home, [id, s.dev.win.domain, s.gts], []⟩] } }

/-- R340: clasp.cfg configures a clasp of the device with no episode begun, or removes it, with status 0; CODE 1 for bad operands, K outside
1 to 16 among them, and CODE 2 for a clasp in use change nothing but xd. R346: grant sets the standing grant of a context of the job with
status 0; CODE 1 for bad operands, one of LGN and TRN alone 0 and an LCORE that the job does not map among them, and CODE 5 where both
contexts together would exceed the core, change nothing but xd. -/
def Sys2Proof.Claims.ClaspConfigAndGrant : Prop :=
  ∀ (s : State) (a b d : BitVec 5) (w v : Nat), Drained s .sup → w = (s.getX a).toNat → v = (s.getX b).toNat →
    let nmem := v / 2 ^ 56 % 2 ^ 7
    let k := v / 2 ^ 51 % 2 ^ 5
    let lgn := v / 2 ^ 12 % 16
    let trn := v / 2 ^ 4 % 16
    let placed := s.dev.physCore (s.jobOf s.ctx.asid) (w % 2 ^ 9)
    ((2 ^ 8 ≤ w ∨ v / 2 ^ 32 % 2 ^ 19 ≠ 0 ∨ 64 < nmem ∨ (nmem ≠ 0 ∧ (k = 0 ∨ 17 ≤ k))) →
      exec (.claspCfg a b d) s = .next (s.setX d (status 1 0)).retire) ∧
    (w < 2 ^ 8 → v / 2 ^ 32 % 2 ^ 19 = 0 → nmem ≤ 64 → (nmem ≠ 0 → 1 ≤ k ∧ k ≤ 16) →
      (s.claspBusy w = true → exec (.claspCfg a b d) s = .next (s.setX d (status 2 0)).retire) ∧
      (s.claspBusy w = false → ∃ t, exec (.claspCfg a b d) s = .next t ∧ t.ctx = (s.ctx.setX d 0).retire ∧ t.mem = s.mem ∧
        lookup w t.dev.clasps = if nmem = 0 then none else
          some ⟨v / 2 ^ 63 == 1, nmem, k, v % 2 ^ 32, s.ctx.asid, none, 0, [], [], [], []⟩)) ∧
    ((2 ^ 10 ≤ w ∨ 8 < lgn ∨ 8 < trn ∨ v ≠ lgn * 2 ^ 12 + trn * 2 ^ 4 ∨ (lgn = 0 ∧ trn ≠ 0) ∨ (lgn ≠ 0 ∧ trn = 0) ∨ placed = none) →
      exec (.grant a b d) s = .next (s.setX d (status 1 0)).retire) ∧
    (∀ core c, w < 2 ^ 10 → v = lgn * 2 ^ 12 + trn * 2 ^ 4 → lgn ≤ 8 → trn ≤ 8 → (lgn = 0 ↔ trn = 0) → placed = some core →
      c = core * 2 + w / 2 ^ 9 % 2 →
      let other := s.ctxOf (otherOf c)
      ((8 < lgn + other.standLgn ∨ 8 < trn + other.standTrn) → exec (.grant a b d) s = .next (s.setX d (status 5 0)).retire) ∧
      (lgn + other.standLgn ≤ 8 → trn + other.standTrn ≤ 8 → ∃ t, exec (.grant a b d) s = .next t ∧
        t = (((s.setStanding c lgn trn).unbindPreload c).setX d 0).retire ∧ (t.ctxOf c).standLgn = lgn ∧ (t.ctxOf c).standTrn = trn))

/-- R353, R360, R407 to R409: placew, vfset and tlbinv. -/
def Obligations.PlaceFacetTlb : Prop := PlaceAndFacet ∧ TlbInvalidation

/-- R204, R205, R374, R379 to R381: ctxsave and ctxrst, and what an image gives back. -/
def Obligations.ContextImages : Prop := ContextSave ∧ ContextRestore ∧ ImageGivesBack

/-- R303 to R306, R330 to R332, R334: launch and launch.node, what they check and what is accepted. -/
def Obligations.Launches : Prop := LaunchStatus ∧ LaunchNodeStatus ∧ RecordChecks ∧ CounterChecks ∧ LaunchAccepted

/-- R31, R330, R335, R336: cancel, cread and cread.t. -/
def Obligations.CancelAndCounters : Prop := CancelStatus ∧ CancelReaches ∧ CounterReads

/-- R320, R321, R323, R339 to R344, R346: the clasp words, what an arrival records, clasp.cfg and grant. -/
def Obligations.ClaspsAndGrants : Prop := ClaspWords ∧ ArrivalRecorded ∧ ClaspConfigAndGrant

namespace Sys2Proof.Claims

/-- The status word of a channel (R266): ERR, ECAUSE, a zero field, PEND with the started command in it, OOB and DONE. -/
def StatusWord (h : Chan) (v : Word) : Prop :=
  v.getLsbD 63 = h.halted ∧ v.toNat / 2 ^ 56 % 2 ^ 7 = h.ecause % 2 ^ 7 ∧ v.toNat / 2 ^ 53 % 2 ^ 3 = 0 ∧
    v.toNat / 2 ^ 48 % 2 ^ 5 = (h.cmds.length + if h.started.isSome then 1 else 0) % 2 ^ 5 ∧
    v.toNat / 2 ^ 32 % 2 ^ 16 = min h.oob 0xFFFF ∧ v.toNat % 2 ^ 32 = h.done % 2 ^ 32

/-- A space that a block may name (R254, R261): GLOBAL, POLDER or WBUF. -/
def SpaceCode (n : Nat) : Prop := n = 0 ∨ n = 1 ∨ n = 3

/-- The fields of a copy block of 64 bytes (R254): SSP, DSP, ESZ, TR, SWZ, SO, SRC, DST, NEST and DPITCH. -/
structure CopyFields where
  ssp : Nat
  dsp : Nat
  esz : Nat
  tr : Nat
  swz : Nat
  so : Nat
  src : Nat
  dst : Nat
  nest : Nat
  dpitch : Nat

def copyFields (bs : List Byte) : CopyFields :=
  ⟨field bs 6 1 / 16, field bs 6 1 % 16, field bs 5 1 / 64, field bs 5 1 / 32 % 2, field bs 5 1 / 16 % 2, field bs 5 1 / 8 % 2,
    field bs 8 8, field bs 16 8, field bs 24 8, field bs 32 4⟩

/-- What R258 asks of the block's own fields. -/
def CopyBlockRight (bs : List Byte) : Prop :=
  let f := copyFields bs
  field bs 7 1 = 1 ∧ SpaceCode f.ssp ∧ SpaceCode f.dsp ∧ field bs 5 1 % 8 = 0 ∧ field bs 0 5 = 0 ∧ field bs 36 28 = 0 ∧
    (f.tr = 1 → f.esz ≠ 0) ∧ (f.so = 1 → f.dsp = 0) ∧ (f.swz = 1 → f.dst % 32 = 0 ∧ f.dpitch % 256 = 0)

/-- A bound of a nest block, 1 beyond its dimensions (R255). -/
def boundOf (n : NestBlock) (k : Nat) : Nat := if k < n.ndim then n.bound.getD k 1 else 1

/-- The pitch of a copy (R255): DPITCH, or where it is 0 the bytes of a row. -/
def CopyFields.pitch (f : CopyFields) (n : NestBlock) : Nat :=
  if f.dpitch ≠ 0 then f.dpitch else boundOf n (if f.tr = 1 then 1 else 0) * 2 ^ f.esz

/-- What R258 asks of the two blocks together. -/
def CopyJoins (bs : List Byte) (n : NestBlock) : Prop :=
  let f := copyFields bs
  (f.tr = 1 → 2 ≤ n.ndim) ∧ (f.swz = 1 → f.pitch n % 256 = 0)

/-- What R261 and R262 ask of a gather descriptor at an element width, with TBASE and DBASE multiples of 32 (log 62). -/
def GatherRight (bs : List Byte) (sew : Nat) : Prop :=
  let nseg := field bs 5 1 / 16
  let fsz := field bs 5 1 / 4 % 4
  let rowb := field bs 24 4
  let dpitch := field bs 32 4
  field bs 7 1 = 1 ∧ SpaceCode (field bs 6 1 / 16) ∧ SpaceCode (field bs 6 1 % 16) ∧ (nseg = 0 ∨ 2 ≤ nseg ∧ nseg ≤ 8) ∧
    (nseg = 0 → fsz = 0) ∧ field bs 0 5 = 0 ∧ field bs 40 24 = 0 ∧ field bs 8 8 % 32 = 0 ∧ field bs 16 8 % 32 = 0 ∧ 32 ≤ rowb ∧
    rowb ≤ 65536 ∧ rowb % 32 = 0 ∧ dpitch % 32 = 0 ∧ rowb ≤ dpitch ∧ (field bs 5 1 / 2 % 2 = 1 → dpitch % 256 = 0) ∧
    (nseg ≠ 0 → rowb % (nseg * 2 ^ fsz) = 0) ∧ (field bs 5 1 % 2 = 1 → nseg ≠ 0 ∧ 32 ≤ sew)

/-- A 64-byte block that a word reads at its commit, with no store of its context waiting: aligned, translated, and found as memory holds
it. -/
def BlockRead (s s1 : State) (va : Word) (bs : List Byte) : Prop :=
  ∃ p, s.aligned 0 .load none 64 va = (.ok p, s1) ∧ Plain s1 p.loc.key 64 ∧ s1.ctx = s.ctx ∧ bs = s1.bytesAt p.loc.key 64

/-- A block that is not read, and the cause with its tval (R258): 0x04 for an address that is no multiple of 64; 0x05 for one beyond the
address range; for another the cause that the translation of a load gives (R347 to R350). -/
def BlockFails (s s1 : State) (va : Word) (c : Nat) (t : Word) : Prop :=
  (va.toNat % 64 ≠ 0 ∧ c = 0x04 ∧ t = va ∧ s1 = s) ∨ (va.toNat % 64 = 0 ∧ 2 ^ 55 ≤ va.toNat ∧ c = 0x05 ∧ t = va ∧ s1 = s) ∨
    (va.toNat % 64 = 0 ∧ s.aligned 0 .load none 64 va = (.error (.cause c t), s1))

/-- The elements of a register as numbers (R262). -/
def numbersIn (s : State) (v : BitVec 6) : List Word := (List.range s.ctx.vl).map fun i => BitVec.ofNat 64 (s.ctx.elem v i)

/-- What a command appended to channel `k`, or one that moves nothing, leaves of a word issued by `s` (R258, R266). -/
def pushed (s u : State) (k : BitVec 4) (kind : CmdKind) (w : Work) (board : Option (Nat × Nat)) : Host.Outcome State Fault Refusal :=
  let h := s.ctx.ch[(k.setWidth 3).toNat]
  .next { u with ctx := { s.ctx.retire with ch := s.ctx.ch.set (k.setWidth 3).toNat (
    if w.elems = [] then { h with done := (h.done + 1) % 2 ^ 32 }
    else { h with cmds := h.cmds ++ [⟨kind, s.ctx.asid, s.ctx.priv, board, s.ctx.path, (u.ctxOf (otherOf u.cur)).path⟩] }) } }

end Sys2Proof.Claims

/-- R250, R252, R253, R258, R265, R266: the QUE words with the vector unit idle and no older store waiting or buffered. qpush appends its command, with
the rights it was pushed under and how many stores of its context, and of the core's other one, stand before it, to a channel with a free slot; qstat pushes the channel's status word to its queue; drain of an empty
channel completes, and of a halted one raises its ECAUSE at the commit; a channel without a free slot makes qpush wait in the VIQ, and
where it is halted raises its ECAUSE (R319); a queue number of the wrong kind raises 0x0C with the word. -/
def Sys2Proof.Claims.ChannelWords : Prop :=
  ∀ (s : State) (q k : BitVec 4) (x : BitVec 5), VectorIdle s → s.ctx.stores = [] → s.ctx.wcb = [] →
    (8 ≤ q.toNat → s.ctx.ch[(q.setWidth 3).toNat].used < 16 → ∃ t, exec (.qpush q x) s = .next t ∧
      t = { s with ctx := { s.ctx.retire with ch := t.ctx.ch } } ∧
      t.ctx.ch = s.ctx.ch.set (q.setWidth 3).toNat { s.ctx.ch[(q.setWidth 3).toNat] with
        cmds := s.ctx.ch[(q.setWidth 3).toNat].cmds ++ [⟨.push (s.getX x), s.ctx.asid, s.ctx.priv, none, s.ctx.path, (s.ctxOf (otherOf s.cur)).path⟩] }) ∧
    (8 ≤ q.toNat → 16 ≤ s.ctx.ch[(q.setWidth 3).toNat].used → exec (.qpush q x) s = .next (
      if s.ctx.ch[(q.setWidth 3).toNat].halted = true then (issued (.qpush q x) (s.getX x) 0 s).takeTrap false true
        (s.ctx.ch[(q.setWidth 3).toNat].ecause % 256) s.ctx.ch[(q.setWidth 3).toNat].eaddr
      else issued (.qpush q x) (s.getX x) 0 s)) ∧
    (q.toNat < 8 → exec (.qpush q x) s =
      .next ((issued (.qpush q x) (s.getX x) 0 s).takeTrap false true 0x0C ((encode (.qpush q x)).setWidth 64))) ∧
    (q.toNat < 8 → s.ctx.q[(q.setWidth 3).toNat].length < 8 → ∃ t, exec (.qstat q k) s = .next t ∧
      t = { s with ctx := { s.ctx.retire with q := t.ctx.q } } ∧
      ∃ v, StatusWord s.ctx.ch[(k.setWidth 3).toNat] v ∧
        t.ctx.q = s.ctx.q.set (q.setWidth 3).toNat (s.ctx.q[(q.setWidth 3).toNat] ++ [v])) ∧
    (8 ≤ q.toNat → exec (.qstat q k) s =
      .next ((issued (.qstat q k) 0 0 s).takeTrap false true 0x0C ((encode (.qstat q k)).setWidth 64))) ∧
    (s.ctx.ch[(k.setWidth 3).toNat].cmds = [] → s.ctx.ch[(k.setWidth 3).toNat].started = none →
      s.ctx.ch[(k.setWidth 3).toNat].halted = false → exec (.drain k) s = .next s.retire) ∧
    (s.ctx.ch[(k.setWidth 3).toNat].halted = true → exec (.drain k) s =
      .next ((issued (.drain k) 0 0 s).takeTrap false true (s.ctx.ch[(k.setWidth 3).toNat].ecause % 256) s.ctx.ch[(k.setWidth 3).toNat].eaddr))

/-- R29, R250, R253: qpop of a queue that holds an entry takes the oldest to xd and completes; an empty queue makes the SCT wait, with
nothing else changed; a channel's number raises 0x0C with the word. -/
def Sys2Proof.Claims.QueuePop : Prop :=
  ∀ (s : State) (q : BitVec 4) (d : BitVec 5),
    (∀ v r, q.toNat < 8 → s.ctx.q[(q.setWidth 3).toNat] = v :: r → ∃ t, exec (.qpop q d) s = .next t ∧
      t = ((s.onCtx fun c => { c with q := c.q.set (q.setWidth 3).toNat r }).setX d v).retire) ∧
    (q.toNat < 8 → s.ctx.q[(q.setWidth 3).toNat] = [] → exec (.qpop q d) s = .next (s.stallFor .pop)) ∧
    (8 ≤ q.toNat → exec (.qpop q d) s = .next (s.trap 0x0C ((encode (.qpop q d)).setWidth 64)))

/-- R252 to R254, R258, R261, R262: copy and vgthr, with the vector unit idle, no older store waiting or buffered, a free slot and
readable blocks that pass the checks, append the command that the blocks give. For vgthr it has a row number, and a field order where the
descriptor asks, from each element of v[vb]. A command that moves nothing retires at once. R221: one whose destination lies in the own
polder takes an entry of the core's scoreboard, the smallest range that covers its destinations there, and waits while all 32 are taken. -/
def Sys2Proof.Claims.CommandsPushed : Prop :=
  (∀ (s s1 s2 : State) (k : BitVec 4) (a v : BitVec 5), VectorIdle s → s.ctx.stores = [] → s.ctx.wcb = [] →
    s.ctx.ch[(k.setWidth 3).toNat].used < 16 →
    (∀ bs ns n c s0 r, s0 = issued (.copy k a) (s.getX a) 0 s → copyBlockOk bs = true → parseNest ns = some n → joinBlocks bs n = some c →
      s2.boardRange c.work = r → s1.ctx = s0.ctx → s2.ctx = s0.ctx →
      (∀ go, s0.commitBlock (s.getX a) go = go bs s1) → (∀ go, s1.commitBlock (blockNest bs) go = go ns s2) →
      (r = none ∨ (s2.boards (coreOf s2.cur)).length < 32 → exec (.copy k a) s = pushed s s2 k (.copy bs ns) c.work r) ∧
      (r ≠ none → 32 ≤ (s2.boards (coreOf s2.cur)).length → exec (.copy k a) s = .next s0)) ∧
    (∀ bs s0 ks ps r, s0 = issued (.vgthr v k a) (s.getX a) 0 s → descOk bs s.ctx.sew = true →
      ks = numbersIn s (v.setWidth 6) → ps = (if field bs 0 8 / 2 ^ 40 % 2 = 1 then numbersIn s (v.setWidth 6 + 32) else []) →
      s1.boardRange (gatherWork bs ks ps) = r → s1.ctx = s0.ctx →
      (∀ go, s0.commitBlock (s.getX a) go = go bs s1) →
      (r = none ∨ (s1.boards (coreOf s1.cur)).length < 32 →
        exec (.vgthr v k a) s = pushed s s1 k (.gather bs ks ps) (gatherWork bs ks ps) r) ∧
      (r ≠ none → 32 ≤ (s1.boards (coreOf s1.cur)).length → exec (.vgthr v k a) s = .next s0))) ∧
  ∀ (s : State) (w : Work),
    let own := fun (e : Elem) => e.dst.toNat < 2 ^ 30 ∧ s.dev.physCore (s.jobOf s.ctx.asid) (e.dst.toNat / 2 ^ 21 % 2 ^ 9) = some (coreOf s.cur)
    ((w.dsp ≠ 1 ∨ ∀ e ∈ w.elems, ¬ own e) → s.boardRange w = none) ∧
    (w.dsp = 1 → (∃ e ∈ w.elems, own e) → ∃ lo hi, s.boardRange w = some (lo, hi) ∧
      (∀ e ∈ w.elems, own e → lo ≤ e.dst.toNat % 2 ^ 21 ∧ e.dst.toNat % 2 ^ 21 + e.n ≤ hi) ∧
      (∃ e ∈ w.elems, own e ∧ lo = e.dst.toNat % 2 ^ 21) ∧ ∃ e ∈ w.elems, own e ∧ hi = e.dst.toNat % 2 ^ 21 + e.n)

/-- R252, R274: the older stores of the context are all performed before a block of copy or vgthr is read; the word waits while a scoreboard
range holds one (log 7 lets stores wait). -/
def Sys2Proof.Claims.BlocksFollowStores : Prop :=
  ∀ (s u : State) (va : Word) (go : List Byte → State → Commit), (∀ p ∈ s.ctx.stores, p.barrier = 0) → s.ctx.stores ≠ [] →
    u = (s.onCtx fun c => { c with stores := [] }).performAll s.ctx.stores →
    ((∃ p ∈ s.ctx.stores, s.holds p = true) → s.commitBlock va go = .wait) ∧
    ((∀ p ∈ s.ctx.stores, s.holds p = false) → u.ctx.stores = [] → s.commitBlock va go = u.commitBlock va go)

/-- R258: the checks of copy in their order, with the tval of each: the block's alignment and translation, its own fields, the nest block's
alignment and translation, the nest block, and what joins the two. R252, R319: while the channel holds 16 commands that have not started
copy waits in the VIQ, and raises the ECAUSE of a halted channel. The model's choices: that this comes before the block is read (log 62),
and that a condition which joins the two blocks has the address of copy's block as its tval, where R258 names the block or the nest block
(log 48). -/
def Sys2Proof.Claims.CopyChecks : Prop :=
  ∀ (s s0 s1 s2 : State) (k : BitVec 4) (a : BitVec 5) (va : Word), VectorIdle s → s.ctx.stores = [] → s.ctx.wcb = [] →
    va = s.getX a → s0 = issued (.copy k a) va 0 s →
    let h := s.ctx.ch[(k.setWidth 3).toNat]
    let raises := fun (u : State) (c : Nat) (t : Word) => exec (.copy k a) s = .next (u.takeTrap false true c t)
    (16 ≤ h.used → (h.halted = false → exec (.copy k a) s = .next s0) ∧ (h.halted = true → raises s0 (h.ecause % 256) h.eaddr)) ∧
    (h.used < 16 →
      (∀ c t, BlockFails s0 s1 va c t → raises s1 c t) ∧
      ∀ bs, BlockRead s0 s1 va bs →
        (¬ CopyBlockRight bs → raises s1 0x02 va) ∧
        (CopyBlockRight bs →
          let nva := BitVec.ofNat 64 (copyFields bs).nest
          (∀ c t, BlockFails s1 s2 nva c t → raises s2 c t) ∧
          ∀ ns, BlockRead s1 s2 nva ns →
            (parseNest ns = none → raises s2 0x02 nva) ∧
            (∀ n, parseNest ns = some n → ¬ CopyJoins bs n → raises s2 0x02 va) ∧
            ∀ n, parseNest ns = some n → CopyJoins bs n → ∃ c, joinBlocks bs n = some c ∧
              (s2.boardRange c.work = none → exec (.copy k a) s = pushed s s2 k (.copy bs ns) c.work none)))

/-- R258, R261, R262: the checks of vgthr, with the tval of each: its descriptor's alignment and translation, and its fields. R252, R319: the
full channel, as for copy (log 62). -/
def Sys2Proof.Claims.GatherChecks : Prop :=
  ∀ (s s0 s1 : State) (k : BitVec 4) (a v : BitVec 5) (va : Word), VectorIdle s → s.ctx.stores = [] → s.ctx.wcb = [] →
    va = s.getX a → s0 = issued (.vgthr v k a) va 0 s →
    let h := s.ctx.ch[(k.setWidth 3).toNat]
    let raises := fun (u : State) (c : Nat) (t : Word) => exec (.vgthr v k a) s = .next (u.takeTrap false true c t)
    (16 ≤ h.used → (h.halted = false → exec (.vgthr v k a) s = .next s0) ∧ (h.halted = true → raises s0 (h.ecause % 256) h.eaddr)) ∧
    (h.used < 16 →
      (∀ c t, BlockFails s0 s1 va c t → raises s1 c t) ∧
      ∀ bs, BlockRead s0 s1 va bs →
        (¬ GatherRight bs s.ctx.sew → raises s1 0x02 va) ∧
        (GatherRight bs s.ctx.sew → ∀ ks ps, ks = numbersIn s (v.setWidth 6) →
          ps = (if field bs 5 1 % 2 = 1 then numbersIn s (v.setWidth 6 + 32) else []) → s1.boardRange (gatherWork bs ks ps) = none →
          exec (.vgthr v k a) s = pushed s s1 k (.gather bs ks ps) (gatherWork bs ks ps) none))

/-- R29, R250 to R267: the words of queues and channels. -/
def Obligations.Queues : Prop := ChannelWords ∧ QueuePop

/-- R221, R252 to R254, R258, R261, R262, R274, R319: what copy and vgthr push, the stores before it, and the checks of their blocks in order. -/
def Obligations.CopyAndGather : Prop := CommandsPushed ∧ BlocksFollowStores ∧ CopyChecks ∧ GatherChecks

namespace Sys2Proof.Claims

/-! ## Vector words -/

/-- What a vector word that writes vector registers alone may change: v, the facets, the hwm rectangle, and where the SCT goes on. -/
def VectorOnly (s t : State) : Prop :=
  t = { s with ctx := { s.ctx.retire with
    v := t.ctx.v, facets := t.ctx.facets, hwmReg := t.ctx.hwmReg, hwmBytes := t.ctx.hwmBytes } } ∧
  (∀ a, t.byteAt a = s.byteAt a) ∧ s.ctx.hwmReg ≤ t.ctx.hwmReg ∧ s.ctx.hwmBytes ≤ t.ctx.hwmBytes

/-- Only register `d` of the vector registers and facets is written, and its facet is cleared (R141). -/
def OnlyReg (s t : State) (d : BitVec 6) : Prop :=
  (∀ r, r ≠ d → t.ctx.getV r = s.ctx.getV r ∧ t.ctx.getFacet r = s.ctx.getFacet r) ∧ t.ctx.getFacet d = 0

/-- The active elements of v[d] inside the grant hold `val`, modulo 2^SEW; the others keep their value (R23, R140, R149). -/
def Elements (s t : State) (d : BitVec 6) (m : BitVec 1) (val : Nat → Int) : Prop :=
  (∀ j, s.ctx.active m j = true → (j + 1) * s.ctx.sew ≤ s.ctx.lgn * 256 → (j + 1) * s.ctx.sew ≤ 2048 →
    t.ctx.elem d j = (val j % (2 ^ s.ctx.sew : Nat)).toNat) ∧
  (∀ j, s.ctx.active m j = false → t.ctx.elem d j = s.ctx.elem d j)

/-- The mask bits of the active elements of v[d] hold `val`; the others keep their value (R149). -/
def MaskBits (s t : State) (d : BitVec 6) (m : BitVec 1) (val : Nat → Bool) : Prop :=
  (∀ j, s.ctx.active m j = true → j < s.ctx.lgn * 256 → j < 2048 → (t.ctx.getV d).getLsbD j = val j) ∧
  (∀ j, s.ctx.active m j = false → (t.ctx.getV d).getLsbD j = (s.ctx.getV d).getLsbD j)

/-- The second operand of an integer word: an element of a register, or x[xb] (R149). -/
def operand (s : State) (b : BitVec 6 ⊕ BitVec 5) (j : Nat) : Nat :=
  match b with
  | .inl r => s.ctx.elem r j
  | .inr x => (s.getX x).toNat % 2 ^ s.ctx.sew

/-- A number of `w` bits read as unsigned or in two's complement. -/
def asInt (u : Bool) (w v : Nat) : Int := if u then (v : Int) else if v < 2 ^ (w - 1) then (v : Int) else (v : Int) - 2 ^ w

/-- An elementwise integer word: destination, first and second operand, mask, whether it reads its elements as unsigned, and the function
of R149 in unbounded arithmetic. -/
def arithForm : Instr → Option (BitVec 6 × BitVec 6 × (BitVec 6 ⊕ BitVec 5) × BitVec 1 × Bool × (Nat → Int → Int → Int))
  | .vadd d a b m => some (d, a, .inl b, m, true, fun _ x y => x + y)
  | .vsub d a b m => some (d, a, .inl b, m, true, fun _ x y => x - y)
  | .vmul d a b m => some (d, a, .inl b, m, true, fun _ x y => x * y)
  | .vmulh d a b m u => some (d, a, .inl b, m, u == 1, fun w x y => x * y / (2 ^ w : Nat))
  | .vdiv d a b m u => some (d, a, .inl b, m, u == 1, fun _ x y => if y = 0 then -1 else x.tdiv y)
  | .vrem d a b m u => some (d, a, .inl b, m, u == 1, fun _ x y => if y = 0 then x else x.tmod y)
  | .vmin d a b m u => some (d, a, .inl b, m, u == 1, fun _ x y => min x y)
  | .vmax d a b m u => some (d, a, .inl b, m, u == 1, fun _ x y => max x y)
  | .vand d a b m => some (d, a, .inl b, m, true, fun _ x y => (Nat.land x.toNat y.toNat : Nat))
  | .vor d a b m => some (d, a, .inl b, m, true, fun _ x y => (Nat.lor x.toNat y.toNat : Nat))
  | .vxor d a b m => some (d, a, .inl b, m, true, fun _ x y => (Nat.xor x.toNat y.toNat : Nat))
  | .vsll d a b m => some (d, a, .inl b, m, true, fun w x y => x * (2 ^ (y.toNat % w) : Nat))
  | .vsrl d a b m => some (d, a, .inl b, m, true, fun w x y => x / (2 ^ (y.toNat % w) : Nat))
  | .vsra d a b m => some (d, a, .inl b, m, false, fun w x y => x / (2 ^ (y % w).toNat : Nat))
  | .vxorpop d a b m => some (d, a, .inl b, m, true, fun w x y =>
      ((List.range w).filter fun n => (Nat.xor x.toNat y.toNat).testBit n).length)
  | .vaddVx d a b m => some (d, a, .inr b, m, true, fun _ x y => x + y)
  | .vsubVx d a b m => some (d, a, .inr b, m, true, fun _ x y => x - y)
  | .vmulVx d a b m => some (d, a, .inr b, m, true, fun _ x y => x * y)
  | .vmulhVx d a b m u => some (d, a, .inr b, m, u == 1, fun w x y => x * y / (2 ^ w : Nat))
  | .vdivVx d a b m u => some (d, a, .inr b, m, u == 1, fun _ x y => if y = 0 then -1 else x.tdiv y)
  | .vremVx d a b m u => some (d, a, .inr b, m, u == 1, fun _ x y => if y = 0 then x else x.tmod y)
  | .vminVx d a b m u => some (d, a, .inr b, m, u == 1, fun _ x y => min x y)
  | .vmaxVx d a b m u => some (d, a, .inr b, m, u == 1, fun _ x y => max x y)
  | .vandVx d a b m => some (d, a, .inr b, m, true, fun _ x y => (Nat.land x.toNat y.toNat : Nat))
  | .vorVx d a b m => some (d, a, .inr b, m, true, fun _ x y => (Nat.lor x.toNat y.toNat : Nat))
  | .vxorVx d a b m => some (d, a, .inr b, m, true, fun _ x y => (Nat.xor x.toNat y.toNat : Nat))
  | .vsllVx d a b m => some (d, a, .inr b, m, true, fun w x y => x * (2 ^ (y.toNat % w) : Nat))
  | .vsrlVx d a b m => some (d, a, .inr b, m, true, fun w x y => x / (2 ^ (y.toNat % w) : Nat))
  | .vsraVx d a b m => some (d, a, .inr b, m, false, fun w x y => x / (2 ^ (y % w).toNat : Nat))
  | _ => none

/-- An elementwise comparison: destination, operands, mask, whether it reads its elements as unsigned, and the condition (R149). -/
def compareForm : Instr → Option (BitVec 6 × BitVec 6 × (BitVec 6 ⊕ BitVec 5) × BitVec 1 × Bool × (Int → Int → Bool))
  | .vseq d a b m => some (d, a, .inl b, m, true, fun x y => decide (x = y))
  | .vsne d a b m => some (d, a, .inl b, m, true, fun x y => decide (x ≠ y))
  | .vslt d a b m u => some (d, a, .inl b, m, u == 1, fun x y => decide (x < y))
  | .vsle d a b m u => some (d, a, .inl b, m, u == 1, fun x y => decide (x ≤ y))
  | .vseqVx d a b m => some (d, a, .inr b, m, true, fun x y => decide (x = y))
  | .vsneVx d a b m => some (d, a, .inr b, m, true, fun x y => decide (x ≠ y))
  | .vsltVx d a b m u => some (d, a, .inr b, m, u == 1, fun x y => decide (x < y))
  | .vsleVx d a b m u => some (d, a, .inr b, m, u == 1, fun x y => decide (x ≤ y))
  | _ => none

/-- The words of one operand or of none: destination, mask, and the value of element j (R149, R150, R161). -/
def soloForm (i : Instr) (s : State) : Option (BitVec 6 × BitVec 1 × (Nat → Int)) :=
  let w := s.ctx.sew
  match i with
  | .vpopc d a m => some (d, m, fun j => ((List.range w).filter fun n => (s.ctx.elem a j).testBit n).length)
  | .vclz d a m => some (d, m, fun j => if s.ctx.elem a j = 0 then (w : Int) else (w - 1 - Nat.log2 (s.ctx.elem a j) : Nat))
  | .vsel d a b => some (d, 0, fun j => if s.ctx.maskBit j then s.ctx.elem a j else s.ctx.elem b j)
  | .vmv d a m => if m = 1 then some (d, m, fun j => s.ctx.elem a j) else none
  | .vbcast d b m => some (d, m, fun _ => (s.getX b).toNat)
  | .vidxs d b m => some (d, m, fun j => (s.getX b).toNat + j)
  | .vidx d st p => some (d, 0, fun j => st.toInt + j * p.toInt)
  | _ => none

/-- An element of a float word. -/
def fElem (s : State) (t : FType) (r : BitVec 6) (j : Nat) : FVal := t.decode (s.ctx.elem r j)

/-- A captured scalar of a float word (R55). -/
def fScalar (s : State) (t : FType) (b : BitVec 5) : FVal := t.decode ((s.getX b).toNat % 2 ^ t.width)

/-- A vector float word that writes elements: destination, mask, kind bit, whether it rounds under frm, and the code and flags of element
j in a type and a rounding (R151). -/
def floatForm (i : Instr) (s : State) :
    Option (BitVec 6 × BitVec 1 × BitVec 1 × Bool × (FType → RMode → Nat → Nat × BitVec 5)) :=
  let e := fElem s
  let x := fScalar s
  let c := fun r j => s.ctx.elem r j
  let z := fun (t : FType) (b : BitVec 5) => (s.getX b).toNat % 2 ^ t.width
  match i with
  | .vfadd d a b m k => some (d, m, k, true, fun t rm j => fAdd t rm (e t a j) (e t b j))
  | .vfsub d a b m k => some (d, m, k, true, fun t rm j => fSub t rm (e t a j) (e t b j))
  | .vfmul d a b m k => some (d, m, k, true, fun t rm j => fMul t rm (e t a j) (e t b j))
  | .vfdiv d a b m k => some (d, m, k, true, fun t rm j => fDiv t rm (e t a j) (e t b j))
  | .vfmadd d a b m k => some (d, m, k, true, fun t rm j => fFma t rm (e t a j) (e t b j) (e t d j))
  | .vfsqrt d a m k => some (d, m, k, true, fun t rm j => fSqrt t rm (e t a j))
  | .vfexp2 d a m k => some (d, m, k, true, fun t rm j => fExp2 t rm (e t a j))
  | .vfmin d a b m k => some (d, m, k, false, fun t _ j => fMinMax t false (c a j) (c b j))
  | .vfmax d a b m k => some (d, m, k, false, fun t _ j => fMinMax t true (c a j) (c b j))
  | .vfclass d a m k => some (d, m, k, false, fun t _ j => (fClass t (c a j), 0))
  | .vfaddVf d a b m k => some (d, m, k, true, fun t rm j => fAdd t rm (e t a j) (x t b))
  | .vfsubVf d a b m k => some (d, m, k, true, fun t rm j => fSub t rm (e t a j) (x t b))
  | .vfmulVf d a b m k => some (d, m, k, true, fun t rm j => fMul t rm (e t a j) (x t b))
  | .vfdivVf d a b m k => some (d, m, k, true, fun t rm j => fDiv t rm (e t a j) (x t b))
  | .vfmaddVf d a b m k => some (d, m, k, true, fun t rm j => fFma t rm (e t a j) (x t b) (e t d j))
  | .vfminVf d a b m k => some (d, m, k, false, fun t _ j => fMinMax t false (c a j) (z t b))
  | .vfmaxVf d a b m k => some (d, m, k, false, fun t _ j => fMinMax t true (c a j) (z t b))
  | _ => none

/-- A vector float comparison: destination, mask, kind bit, and the result and flags of element j (R93, R151). -/
def floatCompare (i : Instr) (s : State) : Option (BitVec 6 × BitVec 1 × BitVec 1 × (FType → Nat → Bool × BitVec 5)) :=
  let e := fElem s
  let x := fScalar s
  match i with
  | .vfeq d a b m k => some (d, m, k, fun t j => fEq (e t a j) (e t b j))
  | .vflt d a b m k => some (d, m, k, fun t j => fLt (e t a j) (e t b j))
  | .vfle d a b m k => some (d, m, k, fun t j => fLe (e t a j) (e t b j))
  | .vfeqVf d a b m k => some (d, m, k, fun t j => fEq (e t a j) (x t b))
  | .vfltVf d a b m k => some (d, m, k, fun t j => fLt (e t a j) (x t b))
  | .vfleVf d a b m k => some (d, m, k, fun t j => fLe (e t a j) (x t b))
  | _ => none

/-- The x registers that a word of the vector unit names, in order: those whose values its entry captures at issue (R13). -/
def capturedX : Instr → List (BitVec 5)
  | .vaddVx _ _ a _ | .vsubVx _ _ a _ | .vmulVx _ _ a _ | .vmulhVx _ _ a _ _ | .vdivVx _ _ a _ _ | .vremVx _ _ a _ _ => [a]
  | .vminVx _ _ a _ _ | .vmaxVx _ _ a _ _ | .vandVx _ _ a _ | .vorVx _ _ a _ | .vxorVx _ _ a _ | .vsllVx _ _ a _ | .vsrlVx _ _ a _ => [a]
  | .vsraVx _ _ a _ | .vseqVx _ _ a _ | .vsneVx _ _ a _ | .vsltVx _ _ a _ _ | .vsleVx _ _ a _ _ | .vbcast _ a _ | .vclset a => [a]
  | .vidxs _ a _ | .vfaddVf _ _ a _ _ | .vfsubVf _ _ a _ _ | .vfmulVf _ _ a _ _ | .vfdivVf _ _ a _ _ | .vfmaddVf _ _ a _ _ => [a]
  | .vfminVf _ _ a _ _ | .vfmaxVf _ _ a _ _ | .vfeqVf _ _ a _ _ | .vfltVf _ _ a _ _ | .vfleVf _ _ a _ _ | .vslideup _ _ a _ => [a]
  | .vslidedn _ _ a _ | .vld _ a _ _ | .vldIndexed _ a _ _ _ | .vldSeg _ a _ _ _ | .vldF _ a _ _ | .vldFSeg _ a _ _ _ => [a]
  | .vldSegIndexed _ a _ _ _ _ | .vst _ a _ _ | .vstIndexed _ a _ _ _ | .vstSeg _ a _ _ _ | .vstN _ a _ _ | .vstNSeg _ a _ _ _ => [a]
  | .vstNIndexed _ a _ _ _ | .vpart _ _ a _ | .vtopk _ _ a _ | .mopaW _ _ a _ _ | .mopaGr _ _ a _ | .tanchor _ a | .tmovr _ _ a _ => [a]
  | .tmovw _ _ a _ | .tldRaw _ a | .tstRaw _ a | .tldCan _ a _ | .tstCan _ a _ | .cbld _ a | .qpush _ a | .copy _ a | .vgthr _ _ a => [a]
  | .vrand _ a b _ | .vldStrided _ a b _ _ | .vstStrided _ a b _ _ => [a, b]
  | _ => []

/-- The values that an entry holds (R13): of the first and the second x register that its word names, 0 where it names fewer. -/
def captured (i : Instr) (s : State) (n : Nat) : Word := (((capturedX i)[n]?).map s.getX).getD 0

/-- The flags of the active elements together (R92, R144). -/
def flagsOf (s : State) (m : BitVec 1) (f : Nat → BitVec 5) : BitVec 5 :=
  ((List.range s.ctx.vl).filter (s.ctx.active m)).foldr (fun j acc => f j ||| acc) 0

end Sys2Proof.Claims

/-- R12 to R14, log 6: a vector word with the vector unit busy is issued: its entry, with the pc and the x values it captures, goes to the tail
of the VIQ, and the SCT goes on; a full VIQ makes the SCT wait. `commit` is what the entry does when it reaches the commit point, which
with an idle vector unit is at once (log 6, the model's choice). An entry that has been translated and waits in the access path stands there,
and the fences that follow no later entry behind it (R245). -/
def Obligations.VectorIssue : Prop :=
  ∀ (i : Instr) (s : State), entersViq i = true → xDest i = none → (∀ a n, i ≠ .csrw a n ∧ i ≠ .csrs a n ∧ i ≠ .csrc a n) →
    (64 ≤ s.ctx.viq.length → exec i s = .next (s.stallFor .viq)) ∧
    (s.ctx.viq.length < 64 → (s.ctx.viq ≠ [] ∨ s.ctx.lag ≠ 0) → exec i s =
      .next (s.onCtx fun c => { c with
        viq := c.viq ++ [⟨i, c.pc, captured i s 0, captured i s 1, c.latch.map fun l => { l with begun := false }⟩] }).retire) ∧
    (VectorIdle s →
      let u := issued i (captured i s 0) (captured i s 1) s
      exec i s = .next (match commit i (captured i s 0) (captured i s 1) u with
        | .done t => t.popHead
        | .wait => u
        | .held t ps => t.enterHead ps
        | .trap c v t => t.takeTrap false true c v))

/-- R16, R147: vsetvl writes min(x[xa], VLMAX) to xd and, at its commit, to vl, and sets vtype; stated where no lane groups change hands. -/
def Sys2Proof.Claims.SetVectorLength : Prop :=
  ∀ (s : State) (d a : BitVec 5) (sc : BitVec 3) (e : BitVec 2) (n : Nat), VectorIdle s → s.issueLgn = s.ctx.lgn →
    n = Nat.min (s.getX a).toNat (s.ctx.lgn * 256 / (8 * 2 ^ e.toNat)) → s.ctx.lgn ≤ 8 →
    ∃ t, exec (.vsetvl d a sc e) s = .next t ∧
      t = { s with ctx := { (s.ctx.setX d (BitVec.ofNat 64 n)).retire with vl := n, vtype := BitVec.ofNat 5 (4 * sc.toNat + e.toNat) } }

/-- R23, R139 to R141, R149: the elementwise integer words, of two registers or of a register and a scalar: each active element of v[d]
inside the grant holds the function of its table, modulo 2^SEW; nothing else changes but the facet and the hwm rectangle. -/
def Sys2Proof.Claims.IntegerElements : Prop :=
  ∀ (i : Instr) (s : State) (d a : BitVec 6) (b : BitVec 6 ⊕ BitVec 5) (m : BitVec 1) (u : Bool) (f : Nat → Int → Int → Int),
    arithForm i = some (d, a, b, m, u, f) → VectorIdle s →
    ∃ t, exec i s = .next t ∧ VectorOnly s t ∧ OnlyReg s t d ∧
      Elements s t d m fun j => f s.ctx.sew (asInt u s.ctx.sew (s.ctx.elem a j)) (asInt u s.ctx.sew (operand s b j))

/-- R149: the comparisons write one mask bit for each active element. -/
def Sys2Proof.Claims.IntegerCompares : Prop :=
  ∀ (i : Instr) (s : State) (d a : BitVec 6) (b : BitVec 6 ⊕ BitVec 5) (m : BitVec 1) (u : Bool) (f : Int → Int → Bool),
    compareForm i = some (d, a, b, m, u, f) → VectorIdle s →
    ∃ t, exec i s = .next t ∧ VectorOnly s t ∧ OnlyReg s t d ∧
      MaskBits s t d m fun j => f (asInt u s.ctx.sew (s.ctx.elem a j)) (asInt u s.ctx.sew (operand s b j))

/-- R149, R150, R161: the words of one operand or none: population count, leading zeros, select by v0, masked move, broadcast, indices. -/
def Sys2Proof.Claims.SingleOperandElements : Prop :=
  ∀ (i : Instr) (s : State) (d : BitVec 6) (m : BitVec 1) (f : Nat → Int), soloForm i s = some (d, m, f) → VectorIdle s →
    ∃ t, exec i s = .next t ∧ VectorOnly s t ∧ OnlyReg s t d ∧ Elements s t d m f

/-- R150: the unmasked vmv copies the granted bytes of v[a] and its facet; with the pairing bit set and a destination with a partner the
payload register goes with it, and else the pairing bit is cleared. The masked vmv copies the active elements and clears the facet. -/
def Sys2Proof.Claims.RegisterMove : Prop :=
  ∀ (s : State) (d a : BitVec 6), VectorIdle s → ∃ t, exec (.vmv d a 0) s = .next t ∧ VectorOnly s t ∧
    (∀ n, n < s.ctx.lgn * 256 → n < 2048 → (t.ctx.getV d).getLsbD n = (s.ctx.getV a).getLsbD n) ∧
    (∀ n, s.ctx.lgn * 256 ≤ n → (t.ctx.getV d).getLsbD n = (s.ctx.getV d).getLsbD n) ∧
    (facetP (s.ctx.getFacet a) = false → t.ctx.getFacet d = s.ctx.getFacet a ∧
      ∀ r, r ≠ d → t.ctx.getV r = s.ctx.getV r ∧ t.ctx.getFacet r = s.ctx.getFacet r) ∧
    (facetP (s.ctx.getFacet a) = true → hasPartner d = false → t.ctx.getFacet d = s.ctx.getFacet a &&& 0xEFFF ∧
      ∀ r, r ≠ d → t.ctx.getV r = s.ctx.getV r ∧ t.ctx.getFacet r = s.ctx.getFacet r) ∧
    (facetP (s.ctx.getFacet a) = true → hasPartner d = true → t.ctx.getFacet d = s.ctx.getFacet a ∧ t.ctx.getFacet (d + 32) = 0 ∧
      (∀ n, n < s.ctx.lgn * 256 → n < 2048 → (t.ctx.getV (d + 32)).getLsbD n = (s.ctx.getV (a + 32)).getLsbD n) ∧
      (∀ n, s.ctx.lgn * 256 ≤ n → (t.ctx.getV (d + 32)).getLsbD n = (s.ctx.getV (d + 32)).getLsbD n) ∧
      ∀ r, r ≠ d → r ≠ d + 32 → t.ctx.getV r = s.ctx.getV r ∧ t.ctx.getFacet r = s.ctx.getFacet r) ∧
    (∃ u, exec (.vmv d a 1) s = .next u ∧ VectorOnly s u ∧ OnlyReg s u d ∧ Elements s u d 1 fun j => s.ctx.elem a j)

/-- R143, R144, R151: the vector float words: under a width that has a type of the word's kind, and a frm that is not reserved where the
word rounds, each active element inside the grant holds its code, and the flags of all active elements are set. -/
def Sys2Proof.Claims.FloatElements : Prop :=
  ∀ (i : Instr) (s : State) (d : BitVec 6) (m k : BitVec 1) (r : Bool) (f : FType → RMode → Nat → Nat × BitVec 5) (ty : FType),
    floatForm i s = some (d, m, k, r, f) → VectorIdle s → floatKind (k == 1) s.ctx.sew = some ty →
    (r = true → frmReserved s.ctx.frm = false) →
    ∃ t, exec i s = .next t ∧ VectorOnly { s with ctx := { s.ctx with fflags := t.ctx.fflags } } t ∧ OnlyReg s t d ∧
      Elements s t d m (fun j => (f ty (rmOf s.ctx.frm) j).1) ∧
      t.ctx.fflags = s.ctx.fflags ||| flagsOf s m fun j => (f ty (rmOf s.ctx.frm) j).2

/-- R93, R151: the vector float comparisons write one mask bit for each active element, and set their flags. -/
def Sys2Proof.Claims.FloatCompares : Prop :=
  ∀ (i : Instr) (s : State) (d : BitVec 6) (m k : BitVec 1) (f : FType → Nat → Bool × BitVec 5) (ty : FType),
    floatCompare i s = some (d, m, k, f) → VectorIdle s → floatKind (k == 1) s.ctx.sew = some ty →
    ∃ t, exec i s = .next t ∧ VectorOnly { s with ctx := { s.ctx with fflags := t.ctx.fflags } } t ∧ OnlyReg s t d ∧
      MaskBits s t d m (fun j => (f ty j).1) ∧ t.ctx.fflags = s.ctx.fflags ||| flagsOf s m fun j => (f ty j).2

/-- R87, R143: a vector float word under a width without a type of its kind, or one that rounds under a reserved frm, raises 0x02 at its
commit with its word as tval, and has written nothing; so does a vector float comparison, which rounds nothing, for its width alone. -/
def Sys2Proof.Claims.FloatFieldTraps : Prop :=
  (∀ (i : Instr) (s : State) (d : BitVec 6) (m k : BitVec 1) (f : FType → Nat → Bool × BitVec 5), floatCompare i s = some (d, m, k, f) →
    VectorIdle s → floatKind (k == 1) s.ctx.sew = none →
    exec i s = .next ((issued i (captured i s 0) 0 s).takeTrap false true 0x02 ((encode i).setWidth 64))) ∧
  ∀ (i : Instr) (s : State) (d : BitVec 6) (m k : BitVec 1) (r : Bool) (f : FType → RMode → Nat → Nat × BitVec 5),
    floatForm i s = some (d, m, k, r, f) → VectorIdle s →
    (floatKind (k == 1) s.ctx.sew = none ∨ r = true ∧ frmReserved s.ctx.frm = true) →
    exec i s = .next ((issued i (captured i s 0) 0 s).takeTrap false true 0x02 ((encode i).setWidth 64))

namespace Sys2Proof.Claims

/-- The running value of a recurrence after the active elements below `n` (R158). -/
def running (s : State) (m : BitVec 1) (g : Nat → Nat → Nat) : Nat → Nat
  | 0 => s.ctx.cl.toNat % 2 ^ s.ctx.sew
  | n + 1 => if s.ctx.active m n then g n (running s m g n) else running s m g n

/-- A recurrence: destination, mask, whether cl receives an unsigned value, and the step (R158). -/
def recurForm (i : Instr) (s : State) : Option (BitVec 6 × BitVec 1 × Bool × (Nat → Nat → Nat)) :=
  let w := s.ctx.sew
  match i with
  | .vrecAdd d a m => some (d, m, false, fun j y => (y + s.ctx.elem a j) % 2 ^ w)
  | .vrecMax d a m u => some (d, m, u == 1, fun j y =>
      if asInt (u == 1) w y < asInt (u == 1) w (s.ctx.elem a j) then s.ctx.elem a j else y)
  | .vrecLin d a b m => some (d, m, false, fun j y => (s.ctx.elem a j * y + s.ctx.elem b j) % 2 ^ w)
  | _ => none

end Sys2Proof.Claims

/-- R158: a recurrence starts from cl, writes its running value to each active element, and leaves the last in cl, extended to 64 bits; with
vl = 0 cl stays. R159: vclset sets cl. -/
def Obligations.Recurrences : Prop :=
  (∀ (i : Instr) (s : State) (d : BitVec 6) (m : BitVec 1) (u : Bool) (g : Nat → Nat → Nat), recurForm i s = some (d, m, u, g) →
    VectorIdle s → ∃ t, exec i s = .next t ∧ VectorOnly { s with ctx := { s.ctx with cl := t.ctx.cl } } t ∧ OnlyReg s t d ∧
      Elements s t d m (fun j => running s m g (j + 1)) ∧
      (s.ctx.vl = 0 → t.ctx.cl = s.ctx.cl) ∧
      (s.ctx.vl ≠ 0 → t.ctx.cl = BitVec.ofInt 64 (asInt u s.ctx.sew (running s m g s.ctx.vl)))) ∧
  (∀ (s : State) (b : BitVec 5), VectorIdle s →
    exec (.vclset b) s = .next { s with ctx := { s.ctx.retire with cl := s.getX b } })

/-- R16, R147, R150: vsetvl, and the unmasked vmv. -/
def Obligations.LengthAndMove : Prop := SetVectorLength ∧ RegisterMove

/-- R23, R139 to R141, R149, R150, R161: the elementwise integer words. -/
def Obligations.IntegerVectors : Prop := IntegerElements ∧ IntegerCompares ∧ SingleOperandElements

/-- R87, R93, R143, R144, R151: the vector float words. -/
def Obligations.FloatVectors : Prop := FloatElements ∧ FloatCompares ∧ FloatFieldTraps

namespace Sys2Proof.Claims

/-- The active elements of v[d] at width `w` inside the grant hold `val`, modulo 2^w; the others keep their value. -/
def ElementsAt (w : Nat) (s t : State) (d : BitVec 6) (m : BitVec 1) (val : Nat → Int) : Prop :=
  (∀ j, s.ctx.active m j = true → (j + 1) * w ≤ s.ctx.lgn * 256 → (j + 1) * w ≤ 2048 →
    elemIn t.ctx.lgn w (t.ctx.getV d) j = (val j % (2 ^ w : Nat)).toNat) ∧
  (∀ j, s.ctx.active m j = false → elemIn t.ctx.lgn w (t.ctx.getV d) j = elemIn s.ctx.lgn w (s.ctx.getV d) j)

/-- The active elements of the pair v[d], v[d + 1] at width `w` hold `val`, modulo 2^w; the others keep their value (R146). -/
def PairElements (w : Nat) (s t : State) (d : BitVec 6) (act : Nat → Bool) (val : Nat → Int) : Prop :=
  (∀ j, act j = true → j < 2 * (s.ctx.lgn * 256 / w) → t.ctx.pairElem d w j = (val j % (2 ^ w : Nat)).toNat) ∧
  (∀ j, act j = false → t.ctx.pairElem d w j = s.ctx.pairElem d w j)

/-- Only the pair v[d], v[d + 1] is written, and both facets are cleared (R141). -/
def OnlyPair (s t : State) (d : BitVec 6) : Prop :=
  (∀ r, r ≠ d → r ≠ d + 1 → t.ctx.getV r = s.ctx.getV r ∧ t.ctx.getFacet r = s.ctx.getFacet r) ∧
  t.ctx.getFacet d = 0 ∧ t.ctx.getFacet (d + 1) = 0

/-- A widening word: the pair it writes, its mask, and the exact value of element j (R153). -/
def wideForm (i : Instr) (s : State) : Option (BitVec 6 × BitVec 1 × (Nat → Int)) :=
  let e := fun (u : BitVec 1) r j => asInt (u == 1) s.ctx.sew (s.ctx.elem r j)
  match i with
  | .vwmul d a b m u => some (d, m, fun j => e u a j * e u b j)
  | .vwadd d a b m u => some (d, m, fun j => e u a j + e u b j)
  | .vwmacc d a b m u => some (d, m, fun j => s.ctx.pairElem d (2 * s.ctx.sew) j + e u a j * e u b j)
  | _ => none

/-- A saturating word: destination, mask, whether its type is unsigned, and the exact value of element j before saturation (R100, R153). -/
def satForm (i : Instr) (s : State) : Option (BitVec 6 × BitVec 1 × Bool × (Nat → Int)) :=
  let w := s.ctx.sew
  let e := fun (u : BitVec 1) r j => asInt (u == 1) w (s.ctx.elem r j)
  match i with
  | .vsadd d a b m u => some (d, m, u == 1, fun j => e u a j + e u b j)
  | .vssub d a b m u => some (d, m, u == 1, fun j => e u a j - e u b j)
  | .vnclip d a b m u => some (d, m, u == 1, fun j =>
      fixShift s.ctx.vrm (asInt (u == 1) (2 * w) (s.ctx.pairElem a (2 * w) j)) (s.ctx.elem b j % (2 * w)))
  | _ => none

/-- The nearest value of a type of `w` bits (R100). -/
def clamp (u : Bool) (w : Nat) (v : Int) : Int :=
  if u then max 0 (min (2 ^ w - 1) v) else max (-(2 ^ (w - 1))) (min (2 ^ (w - 1) - 1) v)

/-- The words that only move elements, or average: destination, mask, and element j of the result (R153, R155, R157). -/
def moveForm (i : Instr) (s : State) : Option (BitVec 6 × BitVec 1 × (Nat → Int)) :=
  let rd := fun (r : BitVec 6) (j : Int) => if 0 ≤ j ∧ j < s.ctx.vl then (s.ctx.elem r j.toNat : Int) else 0
  match i with
  | .vaadd d a b m u => some (d, m, fun j => fixShift s.ctx.vrm
      (asInt (u == 1) s.ctx.sew (s.ctx.elem a j) + asInt (u == 1) s.ctx.sew (s.ctx.elem b j)) 1)
  | .vslideup d a b m => some (d, m, fun j => rd a ((j : Int) - (s.getX b).toNat))
  | .vslidedn d a b m => some (d, m, fun j => rd a ((j : Int) + (s.getX b).toNat))
  | .vperm d a b m => some (d, m, fun j => rd a (s.ctx.elem b j))
  | .vexpand d a m => some (d, m, fun j => rd a (((List.range j).filter (s.ctx.active m)).length : Int))
  | _ => none

/-- The mask words: destination, mask, and bit j of the result (R154). -/
def maskForm (i : Instr) (s : State) : Option (BitVec 6 × BitVec 1 × (Nat → Bool)) :=
  let e := fun r j => decide (j < s.ctx.lgn * 256) && (s.ctx.getV r).getLsbD j
  match i with
  | .vmand d a b m => some (d, m, fun j => e a j && e b j)
  | .vmor d a b m => some (d, m, fun j => e a j || e b j)
  | .vmxor d a b m => some (d, m, fun j => e a j != e b j)
  | .vmnot d a m => some (d, m, fun j => !e a j)
  | _ => none

/-- The words that push one value to a queue: the queue and the value (R148, R154, R160, R186). -/
def queueForm (i : Instr) (s : State) : Option (BitVec 3 × Word) :=
  let act := fun (m : BitVec 1) => (List.range s.ctx.vl).filter (s.ctx.active m)
  let e := fun (u : BitVec 1) a m => (act m).map fun j => asInt (u == 1) s.ctx.sew (s.ctx.elem a j)
  let bit := fun r j => decide (j < s.ctx.lgn * 256) && (s.ctx.getV r).getLsbD j
  let w := s.ctx.sew
  match i with
  | .vgetvl q => some (q, BitVec.ofNat 64 s.ctx.vl)
  | .vredsum q a m u =>
    let sum := (((act m).map fun j => s.ctx.elem a j).sum) % 2 ^ w
    some (q, BitVec.ofInt 64 (asInt (u == 1) w sum))
  | .vredmax q a m u => some (q, BitVec.ofInt 64 ((e u a m).foldr max (clamp (u == 1) w (-(2 ^ 64)))))
  | .vredmin q a m u => some (q, BitVec.ofInt 64 ((e u a m).foldr min (clamp (u == 1) w (2 ^ 64))))
  | .vredand q a m => some (q, BitVec.ofNat 64 (((act m).map fun j => s.ctx.elem a j).foldr Nat.land (2 ^ w - 1)))
  | .vredor q a m => some (q, BitVec.ofNat 64 (((act m).map fun j => s.ctx.elem a j).foldr Nat.lor 0))
  | .vfirst q a m => some (q, match (act m).find? (bit a) with
      | some j => BitVec.ofNat 64 j
      | none => BitVec.ofInt 64 (-1))
  | .vcount q a m => some (q, BitVec.ofNat 64 ((act m).filter (bit a)).length)
  | .vfacet q a => some (q, (s.ctx.getFacet a).setWidth 64)
  | _ => none

end Sys2Proof.Claims

/-- R143, R153: the widening words write the exact result modulo 2^(2·SEW) to a register pair; with SEW 64 they raise 0x02 at the commit. -/
def Sys2Proof.Claims.WideningElements : Prop :=
  ∀ (i : Instr) (s : State) (d : BitVec 6) (m : BitVec 1) (f : Nat → Int), wideForm i s = some (d, m, f) → VectorIdle s →
    (s.ctx.sew ≠ 64 → s.ctx.lgn ≤ 8 → ∃ t, exec i s = .next t ∧ VectorOnly s t ∧ OnlyPair s t d ∧
      PairElements (2 * s.ctx.sew) s t d (s.ctx.active m) f) ∧
    (s.ctx.sew = 64 → exec i s = .next ((issued i 0 0 s).takeTrap false true 0x02 ((encode i).setWidth 64)))

/-- R98, R99: a right shift by `d` rounded by vrm delivers floor(x ÷ 2^d), and one more where the mode's column says so: rnu for bit
d − 1, rne for that bit beside bit d or a nonzero rest, rdn never, rod for an even quotient with a nonzero rest; by 0 it delivers x. -/
def Sys2Proof.Claims.RoundedShift : Prop :=
  ∀ (x : Int) (d : Nat),
    let bit := fun (k : Nat) => x / (2 ^ k : Nat) % 2 = 1
    let rest := fun (k : Nat) => x % (2 ^ k : Nat) ≠ 0
    (∀ rm, fixShift rm x 0 = x) ∧
    fixShift 0 x (d + 1) = x / (2 ^ (d + 1) : Nat) + (if bit d then 1 else 0) ∧
    fixShift 1 x (d + 1) = x / (2 ^ (d + 1) : Nat) + (if bit d ∧ (bit (d + 1) ∨ rest d) then 1 else 0) ∧
    fixShift 2 x (d + 1) = x / (2 ^ (d + 1) : Nat) ∧
    fixShift 3 x (d + 1) = x / (2 ^ (d + 1) : Nat) + (if ¬ bit (d + 1) ∧ rest (d + 1) then 1 else 0)

/-- R98, R100, R143, R153: the saturating words write the nearest value of their type, and set vsat when some active element was replaced;
vnclip reads a pair, and with SEW 64 raises 0x02 at the commit. -/
def Sys2Proof.Claims.SaturatingElements : Prop :=
  ∀ (i : Instr) (s : State) (d : BitVec 6) (m : BitVec 1) (u : Bool) (f : Nat → Int), satForm i s = some (d, m, u, f) → VectorIdle s →
    ((∃ d a b m u, i = .vnclip d a b m u) → s.ctx.sew = 64 →
      exec i s = .next ((issued i 0 0 s).takeTrap false true 0x02 ((encode i).setWidth 64))) ∧
    (((∀ d a b m u, i ≠ .vnclip d a b m u) ∨ s.ctx.sew ≠ 64) → ∃ t, exec i s = .next t ∧
      VectorOnly { s with ctx := { s.ctx with vsat := t.ctx.vsat } } t ∧ OnlyReg s t d ∧
      Elements s t d m (fun j => clamp u s.ctx.sew (f j)) ∧
      (t.ctx.vsat = true ↔ s.ctx.vsat = true ∨ ∃ j, s.ctx.active m j = true ∧ clamp u s.ctx.sew (f j) ≠ f j))

/-- R98, R99, R139, R153, R155, R157: averaging add, slides, permute and expand. -/
def Sys2Proof.Claims.MovedElements : Prop :=
  ∀ (i : Instr) (s : State) (d : BitVec 6) (m : BitVec 1) (f : Nat → Int), moveForm i s = some (d, m, f) → VectorIdle s →
    ∃ t, exec i s = .next t ∧ VectorOnly s t ∧ OnlyReg s t d ∧ Elements s t d m f

/-- R154: the mask words. -/
def Sys2Proof.Claims.MaskWords : Prop :=
  ∀ (i : Instr) (s : State) (d : BitVec 6) (m : BitVec 1) (f : Nat → Bool), maskForm i s = some (d, m, f) → VectorIdle s →
    ∃ t, exec i s = .next t ∧ VectorOnly s t ∧ OnlyReg s t d ∧ MaskBits s t d m f

/-- R155, R156: vzip interleaves two registers into a pair; vunzip takes a pair apart; vcmprs packs the active elements to the front, their
indices into the payload partner, fills the rest below vl with 0 and sets vl to their number. -/
def Sys2Proof.Claims.PairsAndCompress : Prop :=
  (∀ (s : State) (d a b : BitVec 6) (m : BitVec 1), VectorIdle s → s.ctx.lgn ≤ 8 → ∃ t, exec (.vzip d a b m) s = .next t ∧
    VectorOnly s t ∧ OnlyPair s t d ∧ PairElements s.ctx.sew s t d (fun j => s.ctx.active m (j / 2))
      fun j => s.ctx.elem (if j % 2 = 0 then a else b) (j / 2)) ∧
  (∀ (s : State) (d a : BitVec 6) (m : BitVec 1), VectorIdle s → s.ctx.lgn ≤ 8 → ∃ t, exec (.vunzip d a m) s = .next t ∧
    VectorOnly s t ∧ OnlyPair s t d ∧ Elements s t d m (fun j => s.ctx.pairElem a s.ctx.sew (2 * j)) ∧
    Elements s t (d + 1) m (fun j => s.ctx.pairElem a s.ctx.sew (2 * j + 1))) ∧
  (∀ (s : State) (d a : BitVec 6) (m : BitVec 1) (k : Nat), VectorIdle s → k = ((List.range s.ctx.vl).filter (s.ctx.active m)).length →
    s.ctx.vl * s.ctx.sew ≤ s.ctx.lgn * 256 → s.ctx.lgn ≤ 8 → ∃ t, exec (.vcmprs d a m) s = .next t ∧
    VectorOnly { s with ctx := { s.ctx with vl := k } } t ∧ t.ctx.vl = k ∧
    (∀ j, s.ctx.active m j = true → t.ctx.elem d ((List.range j).filter (s.ctx.active m)).length = s.ctx.elem a j) ∧
    (hasPartner d = true → ∀ j, s.ctx.active m j = true →
      t.ctx.elem (d + 32) ((List.range j).filter (s.ctx.active m)).length = j % 2 ^ s.ctx.sew) ∧
    (∀ j, k ≤ j → j < s.ctx.vl → t.ctx.elem d j = 0 ∧ (hasPartner d = true → t.ctx.elem (d + 32) j = 0)) ∧
    (∀ j, s.ctx.vl ≤ j → t.ctx.elem d j = s.ctx.elem d j ∧ (hasPartner d = true → t.ctx.elem (d + 32) j = s.ctx.elem (d + 32) j)) ∧
    t.ctx.getFacet d = 0 ∧ (hasPartner d = true → t.ctx.getFacet (d + 32) = 0) ∧
    (∀ r, r ≠ d → (hasPartner d = false ∨ r ≠ d + 32) → t.ctx.getV r = s.ctx.getV r ∧ t.ctx.getFacet r = s.ctx.getFacet r))

/-- R18, R29, R148, R154, R160, R186: the words that push a value to a queue: into a queue of fewer than 8 entries the value goes behind them; a
full queue holds the entry at the commit point, and the SCT has gone on. No vector register changes. -/
def Sys2Proof.Claims.QueueResults : Prop :=
  ∀ (i : Instr) (s : State) (q : BitVec 3) (v : Word), queueForm i s = some (q, v) → VectorIdle s →
    (s.ctx.q[q.toNat].length < 8 →
      exec i s = .next { s with ctx := { s.ctx.retire with q := s.ctx.q.set q.toNat (s.ctx.q[q.toNat] ++ [v]) } }) ∧
    (8 ≤ s.ctx.q[q.toNat].length → exec i s = .next (issued i 0 0 s))

/-- The rational number that a finite value stands for. -/
def Sys2Proof.Claims.ratVal : FVal → ℚ
  | .fin n m e => ratOf n m e
  | _ => 0

/-- A zero of one sign. -/
def Sys2Proof.Claims.zeroOf (neg : Bool) : FVal → Bool
  | .fin n m _ => n == neg && m == 0
  | _ => false

/-- R85, R87, R110, R143, R160: vfredsum raises 0x02 with its word under a width without a type of its kind and under a reserved frm, with
nothing pushed; else it pushes the exact sum of the active elements, rounded once, and sets its flags. A sum of finite
elements that is not 0 is ONE rounding of the rational sum; a zero sum has the sign of R85; no element gives +0, a NaN or infinities of both
signs the canonical NaN, and infinities of one sign that infinity. Two clauses are the model's choice: that nv is set where a NaN stands
beside infinities of both signs (log 50), and that elements which are all +0 give +0 under rdn too (log 71). -/
def Sys2Proof.Claims.FloatSum : Prop :=
  (∀ (s : State) (q : BitVec 3) (a : BitVec 6) (m k : BitVec 1), VectorIdle s →
    (floatKind (k == 1) s.ctx.sew = none ∨ frmReserved s.ctx.frm = true) →
    exec (.vfredsum q a m k) s =
      .next ((issued (.vfredsum q a m k) 0 0 s).takeTrap false true 0x02 ((encode (.vfredsum q a m k)).setWidth 64))) ∧
  (∀ (s : State) (q : BitVec 3) (a : BitVec 6) (m k : BitVec 1) (ty : FType), VectorIdle s → floatKind (k == 1) s.ctx.sew = some ty →
    frmReserved s.ctx.frm = false → s.ctx.q[q.toNat].length < 8 →
    exec (.vfredsum q a m k) s = .next { s with ctx := { s.ctx.retire with
      q := s.ctx.q.set q.toNat (s.ctx.q[q.toNat] ++ [BitVec.ofNat 64
        (exactSum ty (rmOf s.ctx.frm) (((List.range s.ctx.vl).filter (s.ctx.active m)).map fun j => ty.decode (s.ctx.elem a j))).1]),
      fflags := s.ctx.fflags |||
        (exactSum ty (rmOf s.ctx.frm) (((List.range s.ctx.vl).filter (s.ctx.active m)).map fun j => ty.decode (s.ctx.elem a j))).2 } }) ∧
  (∀ (ty : FType) (rm : RMode) (codes : List Nat) (vs : List FVal) (sum : ℚ), vs = codes.map ty.decode → sum = (vs.map ratVal).sum →
    ((∀ v ∈ vs, v.isFin = true) → sum ≠ 0 → RoundsRat ty rm sum (exactSum ty rm vs)) ∧
    ((∀ v ∈ vs, v.isFin = true) → sum = 0 → exactSum ty rm vs =
      (if vs.all (zeroOf false) then 0 else if rm = .rdn ∨ vs.all (zeroOf true) then ty.signBit else 0, 0)) ∧
    ((∃ v ∈ vs, v.isNan = true) → exactSum ty rm vs =
      (ty.nanCode, if (∃ v ∈ vs, v.isSig = true) ∨ (.inf false ∈ vs ∧ .inf true ∈ vs) then flagNV else 0)) ∧
    ((∀ v ∈ vs, v.isNan = false) → .inf false ∈ vs → .inf true ∈ vs → exactSum ty rm vs = (ty.nanCode, flagNV)) ∧
    (∀ n, (∀ v ∈ vs, v.isNan = false) → .inf n ∈ vs → .inf (!n) ∉ vs →
      exactSum ty rm vs = (ty.infCode + (if n then ty.signBit else 0), 0)))

namespace Sys2Proof.Claims

/-- The butterfly of vhad at distance `dist` over elements that `get` reads: sum at the lower of two partners, difference at the upper
(R162). -/
def butterfly (s : State) (ty : Option FType) (dist : Nat) (get : Nat → Nat) (j : Nat) : Nat × BitVec 5 :=
  let rd := fun n => if n < s.ctx.vl then get n else 0
  let x := rd (if j / dist % 2 = 0 then j else j - dist)
  let y := rd (if j / dist % 2 = 0 then j + dist else j)
  match ty with
  | none => if j / dist % 2 = 0 then ((x + y) % 2 ^ 8, 0) else (((x : Int) - y).emod (2 ^ 8) |>.toNat, 0)
  | some ty =>
    let rm := rmOf s.ctx.frm
    if j / dist % 2 = 0 then fAdd ty rm (ty.decode x) (ty.decode y) else fSub ty rm (ty.decode x) (ty.decode y)

end Sys2Proof.Claims

/-- R162: vhad writes one stage of the transform to v[d], vhad.c to the latch hl, which it also reads where its source is v0; at SEW 8 the
stage is modular and sets no flag. -/
def Sys2Proof.Claims.HadamardStages : Prop :=
  (∀ (s : State) (d a n : BitVec 6) (m : BitVec 1), VectorIdle s → (wideKind s.ctx.sew = none ∨ frmReserved s.ctx.frm = false) →
    ∃ t, exec (.vhad d a n m) s = .next t ∧ VectorOnly { s with ctx := { s.ctx with fflags := t.ctx.fflags } } t ∧ OnlyReg s t d ∧
      (wideKind s.ctx.sew = none → s.ctx.sew = 8) ∧
      Elements s t d m (fun j => (butterfly s (wideKind s.ctx.sew) (2 ^ n.toNat) (s.ctx.elem a) j).1) ∧
      t.ctx.fflags = s.ctx.fflags ||| flagsOf s m fun j => (butterfly s (wideKind s.ctx.sew) (2 ^ n.toNat) (s.ctx.elem a) j).2) ∧
  (∀ (s : State) (a n : BitVec 6) (m : BitVec 1) (get : Nat → Nat), VectorIdle s →
    (wideKind s.ctx.sew = none ∨ frmReserved s.ctx.frm = false) →
    get = (fun j => if a = 0 then elemIn s.ctx.lgn s.ctx.sew s.ctx.hl j else s.ctx.elem a j) →
    ∃ t, exec (.vhadC a n m) s = .next t ∧
      t = { s with ctx := { s.ctx.retire with hl := t.ctx.hl, fflags := t.ctx.fflags } } ∧
      (∀ j, s.ctx.active m j = true → (j + 1) * s.ctx.sew ≤ s.ctx.lgn * 256 → (j + 1) * s.ctx.sew ≤ 2048 →
        elemIn s.ctx.lgn s.ctx.sew t.ctx.hl j = (butterfly s (wideKind s.ctx.sew) (2 ^ n.toNat) get j).1 % 2 ^ s.ctx.sew) ∧
      (∀ j, s.ctx.active m j = false → elemIn s.ctx.lgn s.ctx.sew t.ctx.hl j = elemIn s.ctx.lgn s.ctx.sew s.ctx.hl j) ∧
      t.ctx.fflags = s.ctx.fflags ||| flagsOf s m fun j => (butterfly s (wideKind s.ctx.sew) (2 ^ n.toNat) get j).2)

/-- R163: vqnt and vqnt.c write the codes of the scaled elements at the width of the narrow type; R164: vdqnt the wide values of scaled
codes; the flags of the active elements are set. R152: vfcvt converts each element by the code in vb. R165: vrand writes the
Philox block of its handle and offset to each active element, or raises 0x08 for a handle that is not valid. -/
def Sys2Proof.Claims.Conversions : Prop :=
  (∀ (s : State) (d a : BitVec 6) (c : BitVec 2) (m : BitVec 1) (ty : BitVec 3) (wide : FType) (block : Nat)
    (q : (Nat → Nat) → Nat → Nat × BitVec 5) (w : Nat → Nat × BitVec 5), VectorIdle s →
    wideKind s.ctx.sew = some wide → s.ctx.scaleBlock = some block → (ty = 3 ∨ frmReserved s.ctx.frm = false) → ty.toNat ≤ 4 →
    q = (fun get j => s.ctx.quantiseTo (narrowOf ty c) (rmOf s.ctx.frm) ((wide.decode (get j)).mul (s.ctx.scaleAt block j))) →
    w = (fun j => match (s.ctx.codeValue (narrowOf ty c) (elemIn s.ctx.lgn (narrowOf ty c).width (s.ctx.getV a) j)).mul
        (s.ctx.scaleAt block j) with
      | none => nanOut wide true
      | some v => v.into wide (rmOf s.ctx.frm)) →
    (∃ t, exec (.vqnt d a c m ty) s = .next t ∧ VectorOnly { s with ctx := { s.ctx with fflags := t.ctx.fflags } } t ∧ OnlyReg s t d ∧
      ElementsAt (narrowOf ty c).width s t d m (fun j => (q (s.ctx.elem a) j).1) ∧
      t.ctx.fflags = s.ctx.fflags ||| flagsOf s m fun j => (q (s.ctx.elem a) j).2) ∧
    (∃ t, exec (.vqntC d c m ty) s = .next t ∧ VectorOnly { s with ctx := { s.ctx with fflags := t.ctx.fflags } } t ∧ OnlyReg s t d ∧
      ElementsAt (narrowOf ty c).width s t d m (fun j => (q (elemIn s.ctx.lgn s.ctx.sew s.ctx.hl) j).1) ∧
      t.ctx.fflags = s.ctx.fflags ||| flagsOf s m fun j => (q (elemIn s.ctx.lgn s.ctx.sew s.ctx.hl) j).2) ∧
    (frmReserved s.ctx.frm = false →
      ∃ t, exec (.vdqnt d a c m ty) s = .next t ∧ VectorOnly { s with ctx := { s.ctx with fflags := t.ctx.fflags } } t ∧ OnlyReg s t d ∧
        Elements s t d m (fun j => (w j).1) ∧ t.ctx.fflags = s.ctx.fflags ||| flagsOf s m fun j => (w j).2)) ∧
  (∀ (s : State) (d a c : BitVec 6) (m : BitVec 1) (ty : FType) (f : Nat → Nat × BitVec 5), VectorIdle s →
    floatKind false s.ctx.sew = some ty → frmReserved s.ctx.frm = false → c.toNat ≤ 5 → (4 ≤ c.toNat → s.ctx.sew = 16) →
    f = (fun j =>
      if c = 0 then fToInt false s.ctx.sew (rmOf s.ctx.frm) (fElem s ty a j)
      else if c = 1 then fToInt true s.ctx.sew (rmOf s.ctx.frm) (fElem s ty a j)
      else if c = 2 then intToF ty (rmOf s.ctx.frm) (asInt false s.ctx.sew (s.ctx.elem a j))
      else if c = 3 then intToF ty (rmOf s.ctx.frm) (s.ctx.elem a j)
      else if c = 4 then (fElem s .f16 a j).into .bf16 (rmOf s.ctx.frm)
      else (fElem s .bf16 a j).into .f16 (rmOf s.ctx.frm)) →
    ∃ t, exec (.vfcvt d a c m) s = .next t ∧ VectorOnly { s with ctx := { s.ctx with fflags := t.ctx.fflags } } t ∧ OnlyReg s t d ∧
      Elements s t d m (fun j => (f j).1) ∧ t.ctx.fflags = s.ctx.fflags ||| flagsOf s m fun j => (f j).2) ∧
  (∀ (s : State) (d : BitVec 6) (h o : BitVec 5) (m : BitVec 1) (key stream : Word), VectorIdle s →
    s.ctx.rh.toList[(s.getX h).toNat]? = some ⟨true, key, stream⟩ →
    ∃ t, exec (.vrand d h o m) s = .next t ∧ VectorOnly s t ∧ OnlyReg s t d ∧ Elements s t d m fun j =>
      let r := philox key.toNat stream.toNat (((s.getX o).toNat + j) % 2 ^ 64)
      if s.ctx.sew = 64 then r.1 + r.2.1 * 2 ^ 32 else r.1) ∧
  (∀ (s : State) (d : BitVec 6) (h o : BitVec 5) (m : BitVec 1), VectorIdle s →
    (∀ key stream, s.ctx.rh.toList[(s.getX h).toNat]? ≠ some ⟨true, key, stream⟩) →
    exec (.vrand d h o m) s = .next ((issued (.vrand d h o m) (s.getX h) (s.getX o) s).takeTrap false true 0x08 (s.getX h)))

/-- R87, R143, R152, R162 to R164, R399: the words that convert raise 0x02 at their commit with their word as tval, and write nothing: a float
stage of vhad and vhad.c under a reserved frm; vqnt, vqnt.c and vdqnt under a width without a wide type, under a reserved scale block, and,
but for vqnt and vqnt.c to a codebook, which round nothing, under a reserved frm; vfcvt under a width without a float type, under a
reserved frm, and for a code between f16 and bf16 at another width than 16. -/
def Sys2Proof.Claims.ConversionTraps : Prop :=
  ∀ s : State, VectorIdle s →
    let raises := fun (i : Instr) => exec i s = .next ((issued i 0 0 s).takeTrap false true 0x02 ((encode i).setWidth 64))
    (∀ (d a n : BitVec 6) (m : BitVec 1), s.ctx.sew ≠ 8 → frmReserved s.ctx.frm = true → raises (.vhad d a n m) ∧ raises (.vhadC a n m)) ∧
    (∀ (d a : BitVec 6) (c : BitVec 2) (m : BitVec 1) (ty : BitVec 3), ty.toNat ≤ 4 →
      (s.ctx.sew = 8 ∨ 5 ≤ s.ctx.vtype.toNat / 4 ∨ ty ≠ 3 ∧ frmReserved s.ctx.frm = true) →
        raises (.vqnt d a c m ty) ∧ raises (.vqntC d c m ty)) ∧
    (∀ (d a : BitVec 6) (c : BitVec 2) (m : BitVec 1) (ty : BitVec 3), ty.toNat ≤ 4 →
      (s.ctx.sew = 8 ∨ 5 ≤ s.ctx.vtype.toNat / 4 ∨ frmReserved s.ctx.frm = true) → raises (.vdqnt d a c m ty)) ∧
    (∀ (d a c : BitVec 6) (m : BitVec 1), c.toNat ≤ 5 →
      (s.ctx.sew = 8 ∨ frmReserved s.ctx.frm = true ∨ 4 ≤ c.toNat ∧ s.ctx.sew ≠ 16) → raises (.vfcvt d a c m))

/-- R98 to R100, R143, R153: the widening and the saturating words, and the shift with rounding. -/
def Obligations.WideAndSaturating : Prop := WideningElements ∧ RoundedShift ∧ SaturatingElements

/-- R98, R99, R139, R153 to R157: the words that move elements, the mask words, zip, unzip and compress. -/
def Obligations.MovesAndMasks : Prop := MovedElements ∧ MaskWords ∧ PairsAndCompress

/-- R18, R29, R85, R87, R110, R143, R148, R154, R160, R186: the words that push a value to a queue. Two corners of the float sum are the model's choice (logs 50 and 71). -/
def Obligations.QueuePushes : Prop := QueueResults ∧ FloatSum

/-- R87, R143, R152, R162 to R165: vhad, vqnt, vdqnt, vfcvt and vrand, and where they trap. -/
def Obligations.TransformsAndConversions : Prop := HadamardStages ∧ Conversions ∧ ConversionTraps

namespace Sys2Proof.Claims

/-! ## Sorted runs -/

/-- The elements of `xs` are in order (R170): none precedes one before it. -/
abbrev InOrder (k : Nat) (desc : Bool) (xs : List Keyed) : Prop := xs.Pairwise fun x y => before k desc y.1 x.1 = false

/-- `out` is `src` sorted, equal keys in their source order (R176, R177). -/
def StableSort (k : Nat) (desc : Bool) (src out : List Keyed) : Prop :=
  InOrder k desc out ∧ ∀ b, out.filter (fun x => x.1 == b) = src.filter fun x => x.1 == b

/-- v[d] holds the run `xs` (R174): its keys, then 0 up to the vl in force before, and where the result carries them the payloads with
0 likewise in v[d + 32]; the elements at and above vl stay; the facet says S, D, U, P, K and L. -/
def RunAt (s t : State) (d : BitVec 6) (desc p : Bool) (k : Nat) (xs : List Keyed) : Prop :=
  (∀ j, j < s.ctx.vl → (j + 1) * s.ctx.sew ≤ s.ctx.lgn * 256 → (j + 1) * s.ctx.sew ≤ 2048 →
    t.ctx.elem d j = (xs.getD j (0, 0)).1 % 2 ^ s.ctx.sew ∧
      (p = true → t.ctx.elem (d + 32) j = (xs.getD j (0, 0)).2 % 2 ^ s.ctx.sew)) ∧
  (∀ j, s.ctx.vl ≤ j → t.ctx.elem d j = s.ctx.elem d j ∧ (p = true → t.ctx.elem (d + 32) j = s.ctx.elem (d + 32) j)) ∧
  t.ctx.getFacet d = mkFacet desc (distinctKeys (xs.map (·.1))) p k xs.length ∧ (p = true → t.ctx.getFacet (d + 32) = 0)

/-- Of the vector registers and facets only those of `ds` change, and with `p` those of their payload partners. -/
def OnlyRuns (s t : State) (ds : List (BitVec 6)) (p : Bool) : Prop :=
  ∀ r, r ∉ ds → (p = false ∨ r ∉ ds.map (· + 32)) → t.ctx.getV r = s.ctx.getV r ∧ t.ctx.getFacet r = s.ctx.getFacet r

/-- va is a sorted operand of key type K at SEW (R173, checks 1 to 3). -/
abbrev SortedOne (s : State) (a : BitVec 6) (k : BitVec 3) : Prop :=
  keyWidth k.toNat = s.ctx.sew ∧ facetS (s.ctx.getFacet a) = true ∧ facetK (s.ctx.getFacet a) = k.toNat

/-- va and vb are sorted operands of key type K at SEW that agree in their direction (R173, checks 1 to 3). -/
abbrev SortedTwo (s : State) (a b : BitVec 6) (k : BitVec 3) : Prop :=
  SortedOne s a k ∧ SortedOne s b k ∧ facetD (s.ctx.getFacet a) = facetD (s.ctx.getFacet b)

/-- A word of one sorted operand: the operand, K, whether it needs payloads, and its destinations where it carries them. -/
def sortOne : Instr → Option (BitVec 6 × BitVec 3 × Bool × List (BitVec 6))
  | .vuniq d a k => some (a, k, false, [d])
  | .vrank _ a _ k | .vrankLe _ a _ k => some (a, k, false, [])
  | .vpart d a _ k => some (a, k, false, [d, d + 1])
  | .vtopk _ a _ k => some (a, k, true, [])
  | .vcmpt _ a k => some (a, k, false, [])
  | _ => none

/-- A word of two sorted operands: the operands, K, whether their P must agree, and its destinations where it carries payloads. -/
def sortTwo : Instr → Option (BitVec 6 × BitVec 6 × BitVec 3 × Bool × List (BitVec 6))
  | .vmrg d a b k => some (a, b, k, true, [d, d + 1])
  | .vmrgc _ a b k => some (a, b, k, true, [])
  | .visec d a b k => some (a, b, k, false, [d])
  | _ => none

/-- R174, R176: vsort sorts the elements below vl of va, stable, with or without payloads. -/
def SortRun : Prop :=
  ∀ (s : State) (d a : BitVec 6) (p de : BitVec 1) (k : BitVec 3), VectorIdle s → keyWidth k.toNat = s.ctx.sew →
    (p = 1 → hasPartner d = true) → ∃ t xs, exec (.vsort d a p de k) s = .next t ∧ VectorOnly s t ∧ OnlyRuns s t [d] (p == 1) ∧
      StableSort k.toNat (de == 1) (s.ctx.keyed a (p == 1) s.ctx.vl) xs ∧ RunAt s t d (de == 1) (p == 1) k.toNat xs

/-- R177, R178: vmrg merges two runs into a pair, with va before vb among equal keys; vmrgc counts the elements of va in the lower half:
element i of va stands at place i plus the number of the keys of vb that precede it. -/
def MergeRuns : Prop :=
  ∀ (s : State) (d a b : BitVec 6) (q : BitVec 3) (k : BitVec 3) (desc p : Bool) (xs ys : List Keyed), VectorIdle s → SortedTwo s a b k →
    desc = facetD (s.ctx.getFacet a) → p = facetP (s.ctx.getFacet a) → p = facetP (s.ctx.getFacet b) →
    xs = s.ctx.sortedRun a → ys = s.ctx.sortedRun b →
    ((p = true → hasPartner d = true ∧ hasPartner (d + 1) = true) → ∃ t, exec (.vmrg d a b k) s = .next t ∧ VectorOnly s t ∧
      OnlyRuns s t [d, d + 1] p ∧
      (InOrder k.toNat desc xs → InOrder k.toNat desc ys → ∃ seq, StableSort k.toNat desc (xs ++ ys) seq ∧
        RunAt s t d desc p k.toNat (seq.take s.ctx.vl) ∧ RunAt s t (d + 1) desc p k.toNat (seq.drop s.ctx.vl))) ∧
    (s.ctx.q[q.toNat].length < 8 → ∃ n, exec (.vmrgc q a b k) s = .next { s with ctx := { s.ctx.retire with
        q := s.ctx.q.set q.toNat (s.ctx.q[q.toNat] ++ [BitVec.ofNat 64 n]) } } ∧
      (InOrder k.toNat desc xs → InOrder k.toNat desc ys → n = ((List.range xs.length).filter fun i =>
        decide (i + (ys.filter fun y => before k.toNat desc y.1 (xs.getD i (0, 0)).1).length < s.ctx.vl)).length)) ∧
    (8 ≤ s.ctx.q[q.toNat].length → exec (.vmrgc q a b k) s = .next (issued (.vmrgc q a b k) 0 0 s))

/-- R179, R180: visec keeps the keys of va that have a partner in vb: of equal keys the first ones, as many as vb has; vuniq keeps the
first of each group of equal keys. Both set vl to what they keep. -/
def IntersectRuns : Prop :=
  ∀ (s : State) (d a b : BitVec 6) (k : BitVec 3) (desc p : Bool) (xs ys : List Keyed), VectorIdle s →
    desc = facetD (s.ctx.getFacet a) → p = facetP (s.ctx.getFacet a) → (p = true → hasPartner d = true) →
    xs = s.ctx.sortedRun a → ys = s.ctx.sortedRun b →
    (SortedTwo s a b k → ∃ t, exec (.visec d a b k) s = .next t ∧ VectorOnly { s with ctx := { s.ctx with vl := t.ctx.vl } } t ∧
      OnlyRuns s t [d] p ∧
      (InOrder k.toNat desc xs → InOrder k.toNat desc ys → ∃ out, t.ctx.vl = out.length ∧ RunAt s t d desc p k.toNat out ∧
        out = ((List.range xs.length).filter fun i =>
          decide (((xs.take i).filter fun x => x.1 == (xs.getD i (0, 0)).1).length <
            (ys.filter fun y => y.1 == (xs.getD i (0, 0)).1).length)).map fun i => xs.getD i (0, 0))) ∧
    (SortedOne s a k → ∃ t out, exec (.vuniq d a k) s = .next t ∧ VectorOnly { s with ctx := { s.ctx with vl := t.ctx.vl } } t ∧
      OnlyRuns s t [d] p ∧ t.ctx.vl = out.length ∧ RunAt s t d desc p k.toNat out ∧
        out = ((List.range xs.length).filter fun i =>
          !((xs.take i).any fun x => x.1 == (xs.getD i (0, 0)).1)).map fun i => xs.getD i (0, 0))

/-- R181, R182: vrank counts the keys before each probe, vrank.le those before it or equal to it; vpart splits a run at a pivot. -/
def SplitRuns : Prop :=
  ∀ (s : State) (d a b : BitVec 6) (x : BitVec 5) (k : BitVec 3) (desc p : Bool) (xs : List Keyed), VectorIdle s → SortedOne s a k →
    desc = facetD (s.ctx.getFacet a) → p = facetP (s.ctx.getFacet a) → xs = s.ctx.sortedRun a →
    (∃ t, exec (.vrank d a b k) s = .next t ∧ VectorOnly s t ∧ OnlyReg s t d ∧
      Elements s t d 0 fun j => (xs.filter fun y => before k.toNat desc y.1 (s.ctx.elem b j)).length) ∧
    (∃ t, exec (.vrankLe d a b k) s = .next t ∧ VectorOnly s t ∧ OnlyReg s t d ∧
      Elements s t d 0 fun j => (xs.filter fun y => before k.toNat desc y.1 (s.ctx.elem b j) || y.1 == s.ctx.elem b j).length) ∧
    ((p = true → hasPartner d = true ∧ hasPartner (d + 1) = true) → ∃ t, exec (.vpart d a x k) s = .next t ∧ VectorOnly s t ∧
      OnlyRuns s t [d, d + 1] p ∧
      RunAt s t d desc p k.toNat
        (xs.filter fun y => decide (ordinal k.toNat y.1 ≤ ordinal k.toNat ((s.getX x).toNat % 2 ^ s.ctx.sew))) ∧
      RunAt s t (d + 1) desc p k.toNat
        (xs.filter fun y => decide (ordinal k.toNat ((s.getX x).toNat % 2 ^ s.ctx.sew) < ordinal k.toNat y.1)))

/-- R183 to R185: vtopk takes the x[xk] greatest keys that are no NaN, the lower payload first among equal ones, counts the NaN keys in
vfs and sets nv where there is one; vcmpt keeps the keys at or above the threshold; vchks tags va as it stands. -/
def SelectRuns : Prop :=
  ∀ (s : State) (d a : BitVec 6) (x : BitVec 5) (k : BitVec 3) (de : BitVec 1) (desc p : Bool) (xs : List Keyed) (kk : Nat), VectorIdle s →
    kk = k.toNat → desc = facetD (s.ctx.getFacet a) → p = facetP (s.ctx.getFacet a) → xs = s.ctx.sortedRun a →
    (SortedOne s a k → p = true → hasPartner d = true → ∃ (t : State) (cand : List Keyed), exec (.vtopk d a x k) s = .next t ∧
      VectorOnly { s with ctx := { s.ctx with vfs := t.ctx.vfs, fflags := t.ctx.fflags } } t ∧ OnlyRuns s t [d] true ∧
      cand.Perm (xs.filter fun y => !keyNan kk y.1) ∧
      cand.Pairwise (fun y z => ordinal kk z.1 < ordinal kk y.1 ∨ y.1 = z.1 ∧ y.2 ≤ z.2) ∧
      RunAt s t d true true kk (cand.take (s.getX x).toNat) ∧
      t.ctx.vfs.toNat = s.ctx.vfs.toNat % 2 ^ 33 + (xs.filter fun y => keyNan kk y.1).length % 2 ^ 9 * 2 ^ 33 ∧
      t.ctx.fflags = s.ctx.fflags ||| (if (xs.filter fun y => keyNan kk y.1) = [] then 0 else flagNV)) ∧
    (SortedOne s a k → hasPartner d = true → ∃ t out, exec (.vcmpt d a k) s = .next t ∧
      VectorOnly { s with ctx := { s.ctx with vl := t.ctx.vl } } t ∧ OnlyRuns s t [d] true ∧ t.ctx.vl = out.length ∧
      RunAt s t d desc true kk out ∧
      out = ((List.range xs.length).filter fun i =>
        !keyNan kk (s.ctx.vthr.toNat % 2 ^ s.ctx.sew) && !keyNan kk (xs.getD i (0, 0)).1 &&
          decide (ordinal kk (s.ctx.vthr.toNat % 2 ^ s.ctx.sew) ≤ ordinal kk (xs.getD i (0, 0)).1)).map fun i =>
        ((xs.getD i (0, 0)).1, if p = true then (xs.getD i (0, 0)).2 else i)) ∧
    (keyWidth kk = s.ctx.sew → exec (.vchks a de k) s = .next { s with ctx := { s.ctx.retire with
      facets := s.ctx.facets.set a.toNat
        (if (List.range (s.ctx.vl - 1)).all fun j => !before kk (de == 1) (s.ctx.elem a (j + 1)) (s.ctx.elem a j) then
          mkFacet (de == 1) (distinctKeys ((List.range s.ctx.vl).map fun j => s.ctx.elem a j)) (hasPartner a) kk s.ctx.vl
        else 0) } })

/-- R173: the checks of the sorted family, in their order: K against SEW, then S, then D, K and P, with vb's facet, or the one that the
instruction requires, beside va's in tval, then the destinations of payloads. A
word that fails one raises its cause and has written nothing. Which of several disagreements is reported is the model's reading (log 73). -/
def SortTraps : Prop :=
  (∀ (i : Instr) (s : State) (a : BitVec 6) (k : BitVec 3) (needP : Bool) (ds : List (BitVec 6)), sortOne i = some (a, k, needP, ds) →
    VectorIdle s → let op1 := captured i s 0
      (keyWidth k.toNat ≠ s.ctx.sew → exec i s = .next ((issued i op1 0 s).takeTrap false true 0x02 ((encode i).setWidth 64))) ∧
      (keyWidth k.toNat = s.ctx.sew → facetS (s.ctx.getFacet a) = false →
        exec i s = .next ((issued i op1 0 s).takeTrap false true 0x09 (a.setWidth 64))) ∧
      (keyWidth k.toNat = s.ctx.sew → facetS (s.ctx.getFacet a) = true →
        (facetK (s.ctx.getFacet a) ≠ k.toNat ∨ needP = true ∧ facetP (s.ctx.getFacet a) = false) →
        exec i s = .next ((issued i op1 0 s).takeTrap false true 0x0A (BitVec.ofNat 64 ((s.ctx.getFacet a).toNat +
          2 ^ 16 * (2 ^ 15 + (if facetD (s.ctx.getFacet a) then 2 ^ 14 else 0) + (if needP then 2 ^ 12 else 0) + k.toNat * 2 ^ 9))))) ∧
      (SortedOne s a k → facetP (s.ctx.getFacet a) = true → (∃ d ∈ ds, hasPartner d = false) →
        exec i s = .next ((issued i op1 0 s).takeTrap false true 0x02 ((encode i).setWidth 64)))) ∧
  (∀ (i : Instr) (s : State) (a b : BitVec 6) (k : BitVec 3) (sameP : Bool) (ds : List (BitVec 6)) (fa fb : BitVec 16),
    sortTwo i = some (a, b, k, sameP, ds) → VectorIdle s → fa = s.ctx.getFacet a → fb = s.ctx.getFacet b →
      (keyWidth k.toNat ≠ s.ctx.sew → exec i s = .next ((issued i 0 0 s).takeTrap false true 0x02 ((encode i).setWidth 64))) ∧
      (keyWidth k.toNat = s.ctx.sew → facetS fa = false →
        exec i s = .next ((issued i 0 0 s).takeTrap false true 0x09 (a.setWidth 64))) ∧
      (keyWidth k.toNat = s.ctx.sew → facetS fa = true → facetS fb = false →
        exec i s = .next ((issued i 0 0 s).takeTrap false true 0x09 (b.setWidth 64))) ∧
      (keyWidth k.toNat = s.ctx.sew → facetS fa = true → facetS fb = true →
        (facetD fa ≠ facetD fb ∨ facetK fa ≠ facetK fb ∨ facetK fa = k.toNat ∧ sameP = true ∧ facetP fa ≠ facetP fb) →
        exec i s = .next ((issued i 0 0 s).takeTrap false true 0x0A (BitVec.ofNat 64 (fa.toNat + 2 ^ 16 * fb.toNat)))) ∧
      (keyWidth k.toNat = s.ctx.sew → facetS fa = true → facetS fb = true → facetD fa = facetD fb → facetK fa = facetK fb →
        facetK fa ≠ k.toNat → exec i s = .next ((issued i 0 0 s).takeTrap false true 0x0A (BitVec.ofNat 64 (fa.toNat +
          2 ^ 16 * (2 ^ 15 + (if facetD fa then 2 ^ 14 else 0) + k.toNat * 2 ^ 9))))) ∧
      (SortedTwo s a b k → (sameP = true → facetP fa = facetP fb) → facetP fa = true → (∃ d ∈ ds, hasPartner d = false) →
        exec i s = .next ((issued i 0 0 s).takeTrap false true 0x02 ((encode i).setWidth 64)))) ∧
  (∀ (s : State) (d a : BitVec 6) (p de : BitVec 1) (k : BitVec 3), VectorIdle s → keyWidth k.toNat ≠ s.ctx.sew →
    exec (.vsort d a p de k) s =
      .next ((issued (.vsort d a p de k) 0 0 s).takeTrap false true 0x02 ((encode (.vsort d a p de k)).setWidth 64)) ∧
    exec (.vchks a de k) s = .next ((issued (.vchks a de k) 0 0 s).takeTrap false true 0x02 ((encode (.vchks a de k)).setWidth 64)))

end Sys2Proof.Claims

/-- R170 to R182: the words that sort, merge, intersect, rank and split sorted runs. -/
def Obligations.SortedRuns : Prop := SortRun ∧ MergeRuns ∧ IntersectRuns ∧ SplitRuns

/-- R173, R183 to R185: the words that select from a run or tag one, and the checks of the whole family. -/
def Obligations.SelectedRuns : Prop := SelectRuns ∧ SortTraps

namespace Sys2Proof.Claims

/-! ## Vector loads and stores -/

/-- A vector memory word: its first register, mask, fields, element width code, whether it is indexed and whether it is a fof form or
notifies, the address of field f of element i (R237), and the x values that it captures. -/
structure VecMem where
  reg : BitVec 6
  mask : BitVec 1
  fields : Nat
  ew : BitVec 2
  indexed : Bool
  special : Bool
  addr : Nat → Nat → Word
  op1 : Word
  op2 : Word

/-- The vector loads (R237); `special` for vld.f and vld.f.seg. -/
def vecLoad (i : Instr) (s : State) : Option VecMem :=
  let z := fun (n : Nat) => BitVec.ofNat 64 n
  let w := fun (e : BitVec 2) => 2 ^ e.toNat
  match i with
  | .vld d a m e => some ⟨d, m, 1, e, false, false, fun i _ => s.getX a + z (i * w e), s.getX a, 0⟩
  | .vldStrided d a b m e => some ⟨d, m, 1, e, false, false, fun i _ => s.getX a + z i * s.getX b, s.getX a, s.getX b⟩
  | .vldIndexed d a v m e => some ⟨d, m, 1, e, true, false, fun i _ => s.getX a + z (s.ctx.elem v i), s.getX a, 0⟩
  | .vldSeg d a m n e =>
    some ⟨d, m, n.toNat + 1, e, false, false, fun i f => s.getX a + z ((i * (n.toNat + 1) + f) * w e), s.getX a, 0⟩
  | .vldF d a m e => some ⟨d, m, 1, e, false, true, fun i _ => s.getX a + z (i * w e), s.getX a, 0⟩
  | .vldFSeg d a m n e =>
    some ⟨d, m, n.toNat + 1, e, false, true, fun i f => s.getX a + z ((i * (n.toNat + 1) + f) * w e), s.getX a, 0⟩
  | .vldSegIndexed d a v m n e =>
    some ⟨d, m, n.toNat + 1, e, true, false, fun i f => s.getX a + z (s.ctx.elem v i + f * w e), s.getX a, 0⟩
  | _ => none

/-- The vector stores (R237); `special` for the forms that notify. -/
def vecStore (i : Instr) (s : State) : Option VecMem :=
  let z := fun (n : Nat) => BitVec.ofNat 64 n
  let w := fun (e : BitVec 2) => 2 ^ e.toNat
  match i with
  | .vst x a m e => some ⟨x, m, 1, e, false, false, fun i _ => s.getX a + z (i * w e), s.getX a, 0⟩
  | .vstStrided x a b m e => some ⟨x, m, 1, e, false, false, fun i _ => s.getX a + z i * s.getX b, s.getX a, s.getX b⟩
  | .vstIndexed x a v m e => some ⟨x, m, 1, e, true, false, fun i _ => s.getX a + z (s.ctx.elem v i), s.getX a, 0⟩
  | .vstSeg x a m n e =>
    some ⟨x, m, n.toNat + 1, e, false, false, fun i f => s.getX a + z ((i * (n.toNat + 1) + f) * w e), s.getX a, 0⟩
  | .vstN x a m e => some ⟨x, m, 1, e, false, true, fun i _ => s.getX a + z (i * w e), s.getX a, 0⟩
  | .vstNSeg x a m n e =>
    some ⟨x, m, n.toNat + 1, e, false, true, fun i f => s.getX a + z ((i * (n.toNat + 1) + f) * w e), s.getX a, 0⟩
  | .vstNIndexed x a v m e => some ⟨x, m, 1, e, true, true, fun i _ => s.getX a + z (s.ctx.elem v i), s.getX a, 0⟩
  | _ => none

/-- The bytes of an element (R238). -/
def VecMem.width (v : VecMem) : Nat := 2 ^ v.ew.toNat

/-- The checks of R238 that a vector memory word makes first hold: a space, and ew = SEW. -/
abbrev VecMem.fits (v : VecMem) (s : State) : Prop := s.ctx.vmt.toNat ≤ 3 ∧ 8 * v.width = s.ctx.sew

/-- The accesses of the word, each with its place or its cause, in the order of R237. -/
def VecMem.places (v : VecMem) (i : Instr) (k : AccKind) (s : State) : List (Acc × Except Refused Place) × State :=
  (issued i v.op1 v.op2 s).locate s.ctx.vmt.toNat k v.indexed v.width (s.ctx.accs v.mask v.fields v.addr)

/-- Nothing of the context holds a vector memory word back at its commit: no store of its own waits, and no line is buffered. -/
abbrev VectorPath (s : State) : Prop := VectorIdle s ∧ s.ctx.stores = [] ∧ s.ctx.wcb = []

/-- hwm covers what a word writes (R142): REG rises to the highest register, and BYTES to one past the highest byte, of the elements
`at_ f j` inside the grant, and neither beyond them. -/
def HwmRises (v : VecMem) (s t : State) (at_ : Nat → Nat → Prop) : Prop :=
  let inside := fun (f j : Nat) => at_ f j ∧ (j + 1) * s.ctx.sew ≤ s.ctx.lgn * 256
  s.ctx.hwmReg ≤ t.ctx.hwmReg ∧ s.ctx.hwmBytes ≤ t.ctx.hwmBytes ∧
    (∀ f j, inside f j → (v.reg + BitVec.ofNat 6 f).toNat ≤ t.ctx.hwmReg ∧ (j + 1) * v.width ≤ t.ctx.hwmBytes) ∧
    (t.ctx.hwmReg = s.ctx.hwmReg ∨ ∃ f j, inside f j ∧ (v.reg + BitVec.ofNat 6 f).toNat = t.ctx.hwmReg) ∧
    (t.ctx.hwmBytes = s.ctx.hwmBytes ∨ ∃ f j, inside f j ∧ (j + 1) * v.width = t.ctx.hwmBytes)

/-- Loaded values in the field registers: element a.i of v[reg + a.f] holds the bytes at its place for each access of `ps` inside the
grant; elements that are not active, and below vl not to be cleared (`zero`), keep their value; facets of field registers are
cleared, no other register changes, and hwm rises to cover what is written (R239, R240). -/
def Loaded (v : VecMem) (s s1 t : State) (ps : List (Acc × Except Refused Place)) (zero : Nat → Bool) : Prop :=
  (∀ a p, (a, Except.ok p) ∈ ps → zero a.i = false → (a.i + 1) * s.ctx.sew ≤ s.ctx.lgn * 256 → (a.i + 1) * s.ctx.sew ≤ 2048 →
    t.ctx.elem (v.reg + BitVec.ofNat 6 a.f) a.i = s1.natAt p.loc.key v.width) ∧
  (∀ f j, f < v.fields → zero j = false → s.ctx.active v.mask j = false →
    t.ctx.elem (v.reg + BitVec.ofNat 6 f) j = s.ctx.elem (v.reg + BitVec.ofNat 6 f) j) ∧
  (∀ f j, f < v.fields → zero j = true → t.ctx.elem (v.reg + BitVec.ofNat 6 f) j = 0) ∧
  (∀ f, f < v.fields → t.ctx.getFacet (v.reg + BitVec.ofNat 6 f) = 0) ∧
  HwmRises v s t (fun f j => (∃ a p, (a, Except.ok p) ∈ ps ∧ a.f = f ∧ a.i = j) ∨ f < v.fields ∧ zero j = true) ∧
  (∀ r, (∀ f, f < v.fields → r ≠ v.reg + BitVec.ofNat 6 f) → t.ctx.getV r = s.ctx.getV r ∧ t.ctx.getFacet r = s.ctx.getFacet r)

/-- R237 to R240: a vector load whose accesses are all located and plain writes the values at their places and completes; nothing else
changes but what the translations change. A fof form clears TRIM; where its first failing element k is not element 0 it loads what
lies below k, clears the rest below vl, and sets vl, TRIM and TIDX. -/
def VectorLoads : Prop :=
  ∀ (i : Instr) (s s1 : State) (v : VecMem) (ps : List (Acc × Except Refused Place)), vecLoad i s = some v → VectorPath s → v.fits s →
    v.places i .load s = (ps, s1) →
    ((∀ a p, (a, Except.ok p) ∈ ps → Plain s1 p.loc.key v.width) → (∀ q ∈ ps, isRefused q = false) → ∃ t, exec i s = .next t ∧
      t = { s1 with ctx := { s.ctx.retire with
        v := t.ctx.v, facets := t.ctx.facets, hwmReg := t.ctx.hwmReg, hwmBytes := t.ctx.hwmBytes
        vfs := if v.special then setTrim s.ctx.vfs none else s.ctx.vfs } } ∧ Loaded v s s1 t ps fun _ => false) ∧
    (∀ a c va, v.special = true → ps.find? isRefused = some (a, .error (.cause c va)) → a.i ≠ 0 →
      (∀ b p, (b, Except.ok p) ∈ ps → Plain s1 p.loc.key v.width) → ∃ t, exec i s = .next t ∧
      t = { s1 with ctx := { s.ctx.retire with
        v := t.ctx.v, facets := t.ctx.facets, hwmReg := t.ctx.hwmReg, hwmBytes := t.ctx.hwmBytes
        vl := a.i, vfs := setTrim s.ctx.vfs (some a.i) } } ∧
      Loaded v s s1 t (ps.filter fun q => decide (q.1.i < a.i)) fun j => decide (a.i ≤ j) && decide (j < s.ctx.vl))

/-- R238: a vector memory word with a reserved space or ew ≠ SEW raises 0x02 with its word; else the first refused access raises its cause,
with NPG the number of distinct pages that failed, and nothing is written. A fof form does so for element 0 alone (R240). A notify form
without a progress word or with a reserved scope raises 0x02 (R242), and one whose progress word does not translate for a
read-modify-write 0x06 with its address, or 0x08 where no memory is there, after its elements (R238, check 3). That NPG is 0 for a cause
that is no failed translation is the model's reading (log 50). -/
def VectorMemoryTraps : Prop :=
  ∀ (i : Instr) (s s1 : State) (v : VecMem) (k : AccKind) (ps : List (Acc × Except Refused Place)),
    (vecLoad i s = some v ∧ k = .load ∨ vecStore i s = some v ∧ k = .store) → VectorPath s →
    (¬ v.fits s → exec i s = .next (((issued i v.op1 v.op2 s).withNpg 0).takeTrap false true 0x02 ((encode i).setWidth 64))) ∧
    (v.fits s → k = .store → v.special = true → (s.ctx.vnotify.toNat % 2 ^ 55 < 8 ∨ 4 < s.ctx.vnotify.toNat % 8) →
      exec i s = .next (((issued i v.op1 v.op2 s).withNpg 0).takeTrap false true 0x02 ((encode i).setWidth 64))) ∧
    (∀ a c va, v.fits s → v.places i k s = (ps, s1) → ps.find? isRefused = some (a, .error (.cause c va)) →
      (v.special = true → k = .load → a.i = 0) →
      (v.special = true → k = .store → 8 ≤ s.ctx.vnotify.toNat % 2 ^ 55 ∧ s.ctx.vnotify.toNat % 8 ≤ 4) →
      exec i s = .next ((s1.withNpg (failedPages ps)).takeTrap false true c va)) ∧
    (∀ s2 c va, v.fits s → v.special = true → k = .store → 8 ≤ s.ctx.vnotify.toNat % 2 ^ 55 → s.ctx.vnotify.toNat % 8 ≤ 4 →
      v.places i k s = (ps, s1) → (∀ q ∈ ps, isRefused q = false) →
      s1.aligned 0 .rmw none 8 (BitVec.ofNat 64 (s.ctx.vnotify.toNat % 2 ^ 55 / 8 * 8)) = (.error (.cause c va), s2) →
      va = BitVec.ofNat 64 (s.ctx.vnotify.toNat % 2 ^ 55 / 8 * 8) ∧ (c = 0x06 ∨ c = 0x08) ∧
        exec i s = .next ((s2.withNpg 0).takeTrap false true c va))

/-- R219, R237, R241 to R243: a vector store whose accesses are all located and plain writes each element at its place, the last of those
that meet, and every other byte reads as after the translations; no register changes. A notify form then adds the number of its active
elements to the 64-bit word that vnotify names. Stated for stores that are performed at once (log 7)
and outside a snapshot (`Obligations.BackgroundEngines`). -/
def VectorStores : Prop :=
  ∀ (i : Instr) (s s1 : State) (v : VecMem) (ps : List (Acc × Except Refused Place)), vecStore i s = some v → VectorPath s → v.fits s →
    s.ctx.detm = false → s.dev.holdStores = false → s.dev.regens = [] → s.dev.snap = none → s.dev.eccBad = [] → s1.mem.wf = true →
    v.places i .store s = (ps, s1) → (∀ q ∈ ps, isRefused q = false) → (∀ a p, (a, Except.ok p) ∈ ps → Plain s1 p.loc.key v.width) →
    (v.special = false → ∃ t, exec i s = .next t ∧ t = { s1 with mem := t.mem, ctx := { s.ctx.retire with path := t.ctx.path } } ∧
      (∀ l r a p k, ps = l ++ (a, Except.ok p) :: r → (∀ b q, (b, Except.ok q) ∈ r → q.loc.key + v.width ≤ p.loc.key ∨ p.loc.key + v.width ≤ q.loc.key) →
        k < v.width →
        t.byteAt (p.loc.key + k) = BitVec.ofNat 8 (s.ctx.elem (v.reg + BitVec.ofNat 6 a.f) a.i / 256 ^ k)) ∧
      (∀ b, (∀ a p, (a, Except.ok p) ∈ ps → b < p.loc.key ∨ p.loc.key + v.width ≤ b) → areaOf b ≠ 7 → t.byteAt b = s1.byteAt b)) ∧
    (∀ p s2 n, v.special = true → 8 ≤ s.ctx.vnotify.toNat % 2 ^ 55 → s.ctx.vnotify.toNat % 8 ≤ 4 →
      s1.aligned 0 .rmw none 8 (BitVec.ofNat 64 (s.ctx.vnotify.toNat % 2 ^ 55 / 8 * 8)) = (.ok p, s2) → s2.mem.wf = true →
      Plain s2 p.loc.key 8 → (∀ a q, (a, Except.ok q) ∈ ps → q.loc.key + v.width ≤ p.loc.key ∨ p.loc.key + 8 ≤ q.loc.key) →
      n = ((List.range s.ctx.vl).filter (s.ctx.active v.mask)).length → ∃ t, exec i s = .next t ∧
      t = { s2 with mem := t.mem, ctx := { s.ctx.retire with path := t.ctx.path } } ∧
      (∀ k, k < 8 → t.byteAt (p.loc.key + k) = BitVec.ofNat 8 ((s2.natAt p.loc.key 8 + n) % 2 ^ 64 / 256 ^ k)) ∧
      (∀ l r a q k, ps = l ++ (a, Except.ok q) :: r → (∀ b o, (b, Except.ok o) ∈ r → o.loc.key + v.width ≤ q.loc.key ∨ q.loc.key + v.width ≤ o.loc.key) →
        k < v.width →
        t.byteAt (q.loc.key + k) = BitVec.ofNat 8 (s.ctx.elem (v.reg + BitVec.ofNat 6 a.f) a.i / 256 ^ k)) ∧
      (∀ b, (∀ a q, (a, Except.ok q) ∈ ps → b < q.loc.key ∨ q.loc.key + v.width ≤ b) → (b < p.loc.key ∨ p.loc.key + 8 ≤ b) →
        areaOf b ≠ 7 → t.byteAt b = s2.byteAt b))

end Sys2Proof.Claims

/-- R142, R217, R236 to R240: the vector loads, and the traps of all vector memory words. NPG of a cause that is no failed translation is 0
(log 50, the model's reading). -/
def Obligations.VectorLoadResults : Prop := VectorLoads ∧ VectorMemoryTraps

/-- R219, R241 to R243: the vector stores. -/
def Obligations.VectorStoreResults : Prop := VectorStores

namespace Sys2Proof.Claims

/-! ## Tiles -/

/-- The cells of a tile are listed by ascending number, as every step keeps them (`Obligations.TileFormKept`). -/
abbrev TileOrdered (x : Tile) : Prop := x.cells.Pairwise fun p q => p.1 < q.1

/-- The vector unit is idle, and the tile has no parity error (R389). -/
abbrev TileReady (s : State) (t : BitVec 2) : Prop := VectorIdle s ∧ (s.ctx.tile t).bad = false

/-- The machine after a tile word that changes one tile and ORs flags. -/
def withTile (s : State) (t : BitVec 2) (y : Tile) (fl : BitVec 5) : State :=
  { s with ctx := { s.ctx.retire with tiles := s.ctx.tiles.set t.toNat y, fflags := s.ctx.fflags ||| fl } }

/-- What adding products to a tile leaves (R103, R104, R107, R195, R199): a resolved tile is converted back, an unset mode, class and anchor
are fixed, and each product is added to its cell. `ps` lists products by cell number. -/
def Accumulated (x y : Tile) (mode : TMode) (cls : TClass) (ps : List (Nat × Option FVal)) : Prop :=
  ∃ z, z = ({ x.back with
      mode := if x.mode = .none then mode else x.mode, cls := if x.cls = .none then cls else x.cls, state := .redundant } : Tile).anchored
        (ps.map (·.2)) ∧
    y.state = .redundant ∧ y.mode = z.mode ∧ y.cls = z.cls ∧ y.anchor = z.anchor ∧ y.bad = z.bad ∧ TileOrdered y ∧
    ∀ n, y.cell n = ((ps.filter fun p => p.1 == n).map (·.2)).foldl z.addTo (z.cell n)

/-- nv where some product is 0 × ±inf or has a signalling NaN (R104). -/
def productFlags (ps : List (Nat × Option FVal)) : BitVec 5 :=
  if ps.any fun p => p.2.isNone || (p.2.map FVal.isSig).getD false then flagNV else 0

/-- The products of a dense mopa (R195): row i of the granted rows whose mask bit is set, column j, with the column's scale. -/
def denseProducts (s : State) (f : Nat) (cls : TClass) (a : BitVec 6) (m : BitVec 1) (cols : List (FVal × Option FVal)) :
    List (Nat × Option FVal) :=
  ((List.range (s.ctx.tileRows cls)).filter fun i => m == 0 || (decide (i < s.ctx.lgn * 256) && (s.ctx.getV 0).getLsbD i)).flatMap fun i =>
    ((List.range cols.length).zip cols).map fun c => (i * cls.cols + c.1, product (s.ctx.rowValue f a i) c.2.1 c.2.2)

/-- A row of the weight buffer that can be read: its offset is aligned and inside, and its bytes are plain (R197). -/
abbrev RowReadable (s : State) (o n : Nat) : Prop :=
  o % 16 = 0 ∧ o + n ≤ Config.wbufBytes ∧ Plain s (wbufKey (coreOf s.cur) o) n ∧ s.ctx.stores = [] ∧ s.ctx.wcb = []

/-- R97, R103, R104, R188, R195 to R199: the mopa family adds its exact products to the cells of its tile, fixes the mode, class and
anchor of a tile that has none, and sets nv alone. -/
def MopaResults : Prop :=
  (∀ (s : State) (t : BitVec 2) (a b : BitVec 6) (m : BitVec 1) (f : BitVec 4) (k : Nat) (ps : List (Nat × Option FVal)), TileReady s t →
    TileOrdered (s.ctx.tile t) → k = f.toNat → (s.ctx.tile t).conflicts (fmtMode k) (fmtClass k) = false →
    ps = denseProducts s k (fmtClass k) a m ((s.ctx.columns k b).map fun v => (v, none)) →
    ∃ y, exec (.mopa t a b m f) s = .next (withTile s t y (productFlags ps)) ∧
      Accumulated (s.ctx.tile t) y (fmtMode k) (fmtClass k) ps) ∧
  (∀ (s : State) (t : BitVec 2) (a b : BitVec 6) (m : BitVec 1) (f : BitVec 4) (k block : Nat) (ps : List (Nat × Option FVal)),
    TileReady s t → TileOrdered (s.ctx.tile t) → k = f.toNat → (s.ctx.tile t).conflicts (fmtMode k) (fmtClass k) = false →
    s.ctx.scaleBlock = some block →
    ps = denseProducts s k (fmtClass k) a m (((List.range (s.ctx.columns k b).length).zip (s.ctx.columns k b)).map fun p =>
      (p.2, some (s.ctx.scaleAt block p.1))) →
    ∃ y, exec (.mopaS t a b m f) s = .next (withTile s t y (productFlags ps)) ∧
      Accumulated (s.ctx.tile t) y (fmtMode k) (fmtClass k) ps) ∧
  (∀ (s : State) (t : BitVec 2) (a : BitVec 6) (w : BitVec 5) (m : BitVec 1) (f : BitVec 4) (n : Nat) (ps : List (Nat × Option FVal)),
    TileReady s t → TileOrdered (s.ctx.tile t) → (s.ctx.tile t).conflicts .float .half = false → s.ctx.rowBytes = some n →
    RowReadable s (s.getX w).toNat n →
    ps = denseProducts s f.toNat .half a m ((s.ctx.weightRow (s.bytesAt (wbufKey (coreOf s.cur) (s.getX w).toNat) n)).map fun v =>
      (v, none)) →
    ∃ y, exec (.mopaW t a w m f) s = .next (withTile s t y (productFlags ps)) ∧ Accumulated (s.ctx.tile t) y .float .half ps) ∧
  (∀ (s : State) (t : BitVec 2) (a : BitVec 6) (x : BitVec 5) (f : BitVec 4) (n row : Nat) (o : Nat → Nat) (ps : List (Nat × Option FVal)),
    TileReady s t → TileOrdered (s.ctx.tile t) → (s.ctx.tile t).conflicts .float .half = false → s.ctx.rowBytes = some n →
    s.ctx.sew = fmtWidth f.toNat → (s.getX x).toNat < 2 ^ 39 → (s.getX x).toNat / 2 ^ 20 % 2 ^ 12 = 0 →
    row = (s.getX x).toNat / 2 ^ 32 → row < s.ctx.tileRows .half →
    o = (fun i => (s.getX x).toNat % 2 ^ 20 + s.ctx.elem (a + 32) i * n) → (∀ i, i < s.ctx.vl → RowReadable s (o i) n) →
    ps = (List.range 96).flatMap (fun j => (List.range s.ctx.vl).map fun i => (row * 96 + j, product (s.ctx.rowValue f.toNat a i)
      ((s.ctx.weightRow (s.bytesAt (wbufKey (coreOf s.cur) (o i)) n)).getD j (.fin false 0 0)) none)) →
    ∃ y, exec (.mopaGr t a x f) s = .next (withTile s t y (productFlags ps)) ∧ Accumulated (s.ctx.tile t) y .float .half ps)

/-- The bits of element `i` at width `w` of a register as an operand reads them: 0 outside the grant (R23). -/
def operandBits (s : State) (w : Nat) (r : BitVec 6) (i : Nat) : Nat :=
  if (i + 1) * w ≤ s.ctx.lgn * 256 then (s.ctx.getV r).toNat / 2 ^ (i * w) % 2 ^ w else 0

/-- The value of a code in a fmt of the tile instructions (R64): a float, or for s8 and s32 a signed integer. -/
def fmtValue (f code : Nat) : FVal :=
  match fmtFloat f with
  | some t => t.decode code
  | none => .fin (decide (toSigned (fmtWidth f) code < 0)) (toSigned (fmtWidth f) code).natAbs 0

/-- R23, R94, R97, R104, R188, R195 to R199: the operands of the mopa family. A row element is the element of va in the format; the columns
are those of vb, and for the wide classes go on in vb + 1; a scale is a bf16 element of v1, +0 past 127; a weight row is 96 codes of the
codebook, two to a byte, or 96 bf16 values, and WBUF is read at 48 or 192 bytes. A product is exact, with its scale where there is one: none
for 0 × ±inf, a NaN for a NaN operand, signalling if one is, an infinity for ±inf × nonzero. The model's choice (log 90): the scale
multiplies the product of the other two, so that 0 × ±inf stays none and a NaN a NaN. -/
def MopaOperands : Prop :=
  (∀ (s : State) (f : Nat) (a : BitVec 6) (i : Nat), f ≤ 6 → s.ctx.rowValue f a i = fmtValue f (operandBits s (fmtWidth f) a i)) ∧
  (∀ (s : State) (f : Nat) (b : BitVec 6), f ≤ 6 → (s.ctx.columns f b).length = (fmtClass f).cols ∧
    ∀ j, j < (fmtClass f).cols → (s.ctx.columns f b)[j]? = some (fmtValue f
      (if j < 2048 / fmtWidth f then operandBits s (fmtWidth f) b j else operandBits s (fmtWidth f) (b + 1) (j - 2048 / fmtWidth f)))) ∧
  (∀ (s : State) (block j : Nat), s.ctx.scaleAt block j =
    FType.bf16.decode (if j / block ≤ 127 then operandBits s 16 1 (j / block) else 0)) ∧
  (∀ s : State, s.ctx.rowBytes =
    if s.ctx.wfmt.toNat / 4 = 0 then some 48 else if s.ctx.wfmt.toNat / 4 = 1 then some 192 else none) ∧
  (∀ (s : State) (bs : List Byte),
    (s.ctx.wfmt.toNat / 4 = 0 → bs.length = 48 → (s.ctx.weightRow bs).length = 96 ∧ ∀ j, j < 96 → (s.ctx.weightRow bs)[j]? = some
      (FType.bf16.decode ((s.ctx.cb[(s.ctx.wfmt.setWidth 2).toNat]).toNat / 2 ^ (16 * (field bs (j / 2) 1 / 16 ^ (j % 2) % 16)) % 2 ^ 16))) ∧
    (s.ctx.wfmt.toNat / 4 = 1 → bs.length = 192 → (s.ctx.weightRow bs).length = 96 ∧ ∀ j, j < 96 →
      (s.ctx.weightRow bs)[j]? = some (FType.bf16.decode (field bs (2 * j) 2)))) ∧
  ∀ (na nb nc : Bool) (ma mb mc : Nat) (ea eb ec : Int) (x y : FVal),
    let a := FVal.fin na ma ea
    let b := FVal.fin nb mb eb
    let c := FVal.fin nc mc ec
    (∃ n m e, product a b none = some (.fin n m e) ∧ ratOf n m e = ratOf na ma ea * ratOf nb mb eb) ∧
    (∃ n m e, product a b (some c) = some (.fin n m e) ∧ ratOf n m e = ratOf na ma ea * ratOf nb mb eb * ratOf nc mc ec) ∧
    (mb ≠ 0 → product (.inf na) b none = some (.inf (na != nb)) ∧ product b (.inf na) none = some (.inf (na != nb))) ∧
    product (.inf na) (.inf nb) none = some (.inf (na != nb)) ∧
    (mb = 0 → product (.inf na) b none = none ∧ product b (.inf na) none = none ∧ ∀ z, product (.inf na) b (some z) = none) ∧
    (x.isNan ∨ y.isNan → product x y none = some (.nan (x.isSig || y.isSig))) ∧
    (∀ p z, product x y none = some p → product x y (some z) = product p z none)

/-- R107: what converting a resolved tile back leaves: each held value as floor(v ÷ unit), a NaN and an infinity as their flags, and a value
out of the range as P or M. Another tile stays as it is. The model's choice: fractions in an integer tile or one without an anchor are
rounded down too (log 55). -/
def TileBack : Prop :=
  (∀ x : Tile, x.state ≠ .resolved → x.back = x) ∧
  ∀ x : Tile, x.state = .resolved → 3 ≤ x.rfmt → x.rfmt ≤ 7 → TileOrdered x → x.back.state = .redundant ∧ x.back.rfmt = 0 ∧
    x.back.mode = x.mode ∧ x.back.cls = x.cls ∧ x.back.anchor = x.anchor ∧ x.back.bad = x.bad ∧ TileOrdered x.back ∧
    ∀ n, let c := x.back.cell n
      let v := fmtValue x.rfmt (x.cell n).held
      (v.isNan → c = { TCell.zero with n := true }) ∧ (v = .inf true → c = { TCell.zero with m := true }) ∧
      (v = .inf false → c = { TCell.zero with p := true }) ∧
      ∀ neg m e, v = .fin neg m e →
        let term := ⌊ratOf neg m e / (2 : ℚ) ^ x.unitExp⌋
        let half : Int := 2 ^ (if x.cls = .f64 then 271 else 67)
        (m = 0 → c = TCell.zero) ∧ (m ≠ 0 → -half ≤ term → term < half → c = { TCell.zero with x := term }) ∧
          (m ≠ 0 → term < -half ∨ half ≤ term → c = if neg then { TCell.zero with m := true } else { TCell.zero with p := true })

/-- A finite value that is not 0, among products (R103). -/
def Counted (ps : List (Option FVal)) (q : ℚ) : Prop := ∃ n m e, some (FVal.fin n m e) ∈ ps ∧ m ≠ 0 ∧ q = |ratOf n m e|

/-- R85, R89, R101 to R109, R191: what adding a product to a cell does: its term floor(p ÷ unit) is added modulo 2^68, or 2^272 in an FP64
tile, or sets P or M out of range; the order of the products does not matter. The unit is 2^(A − 56), or 2^(A − 248). A tile without an
anchor takes emax + 8, kept to 12 bits. A read of a redundant cell is ONE rounding of X × unit, or the special result of R106; an empty tile
reads 0, and a resolved one its held value. The model's: such fractions again (log 55), and an integer cell that does not fit s32 reads as
the nearest bound (log 52). -/
def TileSums : Prop :=
  (∀ (x : Tile) (c : TCell) (neg : Bool) (m : Nat) (e term half : Int), term = ⌊ratOf neg m e / (2 : ℚ) ^ x.unitExp⌋ →
    half = 2 ^ (if x.cls = .f64 then 271 else 67) →
    x.addTo c none = { c with n := true } ∧ (∀ sig, x.addTo c (some (.nan sig)) = { c with n := true }) ∧
    (x.addTo c (some (.inf true)) = { c with m := true } ∧ x.addTo c (some (.inf false)) = { c with p := true }) ∧
    (m = 0 → x.addTo c (some (.fin neg m e)) = c) ∧
    (m ≠ 0 → -half ≤ term → term < half → ∃ v, x.addTo c (some (.fin neg m e)) = { c with x := v } ∧ -half ≤ v ∧ v < half ∧
      (v - (c.x + term)) % (2 * half) = 0) ∧
    (m ≠ 0 → term < -half ∨ half ≤ term →
      x.addTo c (some (.fin neg m e)) = if neg then { c with m := true } else { c with p := true })) ∧
  (∀ (x : Tile) (c : TCell) (ps qs : List (Option FVal)), ps.Perm qs → ps.foldl x.addTo c = qs.foldl x.addTo c) ∧
  (∀ x : Tile, (x.mode = .integer → x.unitExp = 0) ∧
    ∀ a, x.mode ≠ .integer → x.anchor = some a → x.unitExp = a - if x.cls = .f64 then 248 else 56) ∧
  (∀ (x : Tile) (ps : List (Option FVal)), (x.mode ≠ .float ∨ x.anchor ≠ none ∨ (∀ q, ¬ Counted ps q) → x.anchored ps = x) ∧
    (x.mode = .float → x.anchor = none → ∀ k : Int, (∃ q, Counted ps q ∧ (2 : ℚ) ^ k ≤ q) → (∀ q, Counted ps q → q < (2 : ℚ) ^ (k + 1)) →
      x.anchored ps = { x with anchor := some (max (-2048) (min 2047 (k + 8))) })) ∧
  ∀ (x : Tile) (f : Nat) (rm : RMode) (c : TCell) (half : Int), half = 2 ^ (if x.cls = .f64 then 255 else 63) →
    let bound := fun (neg : Bool) => if neg then 2 ^ 31 else 2 ^ 31 - 1
    (x.state = .empty → x.read f rm c = (0, 0)) ∧
    (x.state = .resolved → (∀ t, fmtFloat f = some t → x.read f rm c = (heldValue x.rfmt c.held).into t rm) ∧
      (fmtFloat f = none → x.read f rm c = fToInt false 32 rm (heldValue x.rfmt c.held))) ∧
    (x.state = .redundant →
      (c.n = true ∨ (c.p = true ∧ c.m = true) →
        (∀ t, fmtFloat f = some t → x.read f rm c = (t.nanCode, if c.p = true ∧ c.m = true then flagNV else 0)) ∧
        (fmtFloat f = none → x.read f rm c = (0, flagNV))) ∧
      (c.n = false → c.p ≠ c.m →
        (∀ t, fmtFloat f = some t → t.hasInf = true → x.read f rm c = (t.infCode + (if c.m then t.signBit else 0), 0)) ∧
        (fmtFloat f = none → x.read f rm c = (bound c.m, flagNV))) ∧
      (c.n = false → c.p = false → c.m = false →
        (c.x < -half ∨ half ≤ c.x →
          (∀ t, fmtFloat f = some t → x.read f rm c = ((if t.hasInf ∧ (rm = .rne ∨ rm = .rmm ∨ (rm = .rdn ∧ c.x < 0) ∨ (rm = .rup ∧ 0 ≤ c.x))
            then t.infCode else t.maxCode) + (if c.x < 0 then t.signBit else 0), flagOF ||| flagNX)) ∧
          (fmtFloat f = none → x.read f rm c = (bound (decide (c.x < 0)), flagOF ||| flagNX))) ∧
        (c.x = 0 → x.read f rm c = (0, 0)) ∧
        (-half ≤ c.x → c.x < half → c.x ≠ 0 →
          let q := (c.x : ℚ) * (2 : ℚ) ^ x.unitExp
          (∀ t, fmtFloat f = some t → RoundsRat t rm q (x.read f rm c)) ∧
          (fmtFloat f = none → x.read f rm c =
            if intRound rm q < -(2 ^ 31) then (2 ^ 31, flagNV) else if 2 ^ 31 - 1 < intRound rm q then (2 ^ 31 - 1, flagNV)
            else ((intRound rm q % 2 ^ 32).toNat, if q = intRound rm q then 0 else flagNX)))))

/-- R101, R106 to R108, R201 to R203: tzero empties a tile; tanchor sets the anchor of an empty one; tres rounds every cell once into a
format; tmovr reads part of a row as resolved values; tmovw replaces part of a row, and sets no flag. The model's choices: none for a signalling
NaN either (log 72); and a resolved tile is converted back before tmovw sets an anchor that it lacks (log 92). -/
def TileWords : Prop :=
  ∀ (s : State) (t : BitVec 2) (d a : BitVec 6) (c : BitVec 5) (f : BitVec 4) (x : Tile) (k row c0 n : Nat), TileReady s t →
    x = s.ctx.tile t → k = f.toNat → row = (s.getX c).toNat % 2 ^ 16 → c0 = (s.getX c).toNat / 2 ^ 16 % 2 ^ 16 → n = x.cls.cols →
    exec (.tzero t) s = .next (withTile s t Tile.empty 0) ∧
    (-2048 ≤ (s.getX c).toInt → (s.getX c).toInt ≤ 2047 → x.state = .empty → x.anchor = none → x.mode ≠ .integer →
      exec (.tanchor t c) s = .next (withTile s t { x with anchor := some (s.getX c).toInt, mode := .float } 0)) ∧
    (frmReserved s.ctx.frm = false → x.state = .empty → exec (.tres t f) s = .next (withTile s t x 0)) ∧
    (frmReserved s.ctx.frm = false → x.state ≠ .empty → TileOrdered x → ∃ y,
      exec (.tres t f) s = .next (withTile s t y (orAll (x.cells.map fun p => (x.read k (rmOf s.ctx.frm) p.2).2))) ∧
      y.state = .resolved ∧ y.rfmt = k ∧ y.mode = x.mode ∧ y.cls = x.cls ∧ y.anchor = x.anchor ∧ TileOrdered y ∧
      ∀ m, y.cell m = { TCell.zero with held := if (lookup m x.cells).isSome then (x.read k (rmOf s.ctx.frm) (x.cell m)).1 else 0 }) ∧
    ((s.getX c).toNat < 2 ^ 32 → s.ctx.sew = fmtWidth k → frmReserved s.ctx.frm = false → row < s.ctx.tileRows x.cls →
      ∃ u, exec (.tmovr t d c f) s = .next u ∧ VectorOnly { s with ctx := { s.ctx with fflags := u.ctx.fflags } } u ∧ OnlyReg s u d ∧
        Elements s u d 0 (fun j => if c0 + j < n then (x.read k (rmOf s.ctx.frm) (x.cell (row * n + c0 + j))).1 else 0) ∧
        u.ctx.fflags = s.ctx.fflags ||| flagsOf s 0 fun j =>
          if c0 + j < n then (x.read k (rmOf s.ctx.frm) (x.cell (row * n + c0 + j))).2 else 0) ∧
    ((s.getX c).toNat < 2 ^ 32 → s.ctx.sew = fmtWidth k → ¬(x.mode = .float ∧ k = 7) → ¬(x.mode = .integer ∧ k ≠ 7) →
      row < s.ctx.tileRows x.cls → x.state ≠ .empty → TileOrdered x → ∃ y z, exec (.tmovw t a c f) s = .next (withTile s t y 0) ∧
        z = ({ x.back with state := .redundant } : Tile).anchored
          (((List.range s.ctx.vl).filter fun j => decide (c0 + j < n)).map fun j => some (heldValue k (s.ctx.elem a j))) ∧
        y.state = .redundant ∧ y.mode = z.mode ∧ y.cls = z.cls ∧ y.anchor = z.anchor ∧ TileOrdered y ∧
        (∀ j, j < s.ctx.vl → c0 + j < n →
          y.cell (row * n + c0 + j) = z.addTo TCell.zero (some (heldValue k (s.ctx.elem a j)))) ∧
        ∀ m, (∀ j, j < s.ctx.vl → c0 + j < n → m ≠ row * n + c0 + j) → y.cell m = z.cell m)

/-- The places of the range that a tile image or a codebook moves: `n` bytes from x[a], aligned, in a space that has ranges (R200, R208,
R211), and plain. -/
abbrev ImageAt (i : Instr) (s s1 : State) (a : BitVec 5) (k : AccKind) (align n : Nat) (ps : List (Place × Nat)) : Prop :=
  s.ctx.stores = [] ∧ s.ctx.wcb = [] ∧ s.ctx.vmt.toNat ≤ 3 ∧ s.ctx.vmt.toNat ≠ 2 ∧ (s.getX a).toNat % align = 0 ∧
    (issued i (s.getX a) 0 s).span s.ctx.vmt.toNat k 8 (s.getX a) n = (.ok ps, s1) ∧ ∀ p ∈ ps, Plain s1 p.1.loc.key p.2

/-- The bytes of such a range. -/
def imageBytes (s : State) (ps : List (Place × Nat)) : List Byte := ps.flatMap fun p => s.bytesAt p.1.loc.key p.2

/-- R204 to R208: tld.raw takes the tile that a raw image holds; tld.can makes the tile resolved with the values of a canonical image, their
NaNs made canonical; cbld loads a codebook. Only the translation changes anything else; no flag for a signalling NaN (log 72). -/
def TileLoads : Prop :=
  ∀ (s s1 : State) (t : BitVec 2) (a : BitVec 5) (f : BitVec 4) (k v w count : Nat) (ps : List (Place × Nat)), VectorIdle s →
    k = f.toNat → v = valueFmt k → w = fmtWidth v / 8 → count = s.ctx.tileRows (fmtClass k) * (fmtClass k).cols →
    (∀ x, ImageAt (.tldRaw t a) s s1 a .load 64 rawBytes ps → tileFrom s.ctx.tileRows (imageBytes s1 ps) = some x →
      exec (.tldRaw t a) s = .next { s1 with ctx := { s.ctx.retire with tiles := s.ctx.tiles.set t.toNat x } }) ∧
    (ImageAt (.tldRaw t a) s s1 a .load 64 rawBytes ps → tileFrom s.ctx.tileRows (imageBytes s1 ps) = none →
      exec (.tldRaw t a) s = .next (s1.takeTrap false true 0x02 ((encode (.tldRaw t a)).setWidth 64))) ∧
    (TileReady s t → (s.ctx.tile t).conflicts (fmtMode k) (fmtClass k) = false →
      ImageAt (.tldCan t a f) s s1 a .load 64 (count * w) ps → ∃ y code, exec (.tldCan t a f) s =
        .next { s1 with ctx := { s.ctx.retire with tiles := s.ctx.tiles.set t.toNat y } } ∧
        code = (fun n => match fmtFloat v with
          | some ft => if (ft.decode (field (imageBytes s1 ps) (n * w) w)).isNan then ft.nanCode else field (imageBytes s1 ps) (n * w) w
          | none => field (imageBytes s1 ps) (n * w) w) ∧
        y.state = .resolved ∧ y.mode = fmtMode k ∧ y.cls = fmtClass k ∧ y.rfmt = v ∧ TileOrdered y ∧
        y.anchor = (({ Tile.empty with mode := fmtMode k, anchor := (s.ctx.tile t).anchor } : Tile).anchored
          ((List.range count).map fun n => some (heldValue v (code n)))).anchor ∧
        ∀ n, y.cell n = { TCell.zero with held := if n < count then code n else 0 }) ∧
    (ImageAt (.cbld t a) s s1 a .load 32 32 ps → exec (.cbld t a) s = .next { s1 with ctx := { s.ctx.retire with
      cb := s.ctx.cb.set t.toNat (BitVec.ofNat 256 (leNat (imageBytes s1 ps))) } })

/-- R204 to R206, R208: tst.raw stores the raw image of its tile, and tst.can one resolved value for each cell, setting the flags of the
roundings. No other byte and no register changes. Stated for stores that are performed at once (log 7) and outside a snapshot. -/
def TileStores : Prop :=
  ∀ (s s1 : State) (t : BitVec 2) (a : BitVec 5) (f : BitVec 4) (x : Tile) (k v w count : Nat) (ps : List (Place × Nat)), TileReady s t →
    x = s.ctx.tile t → k = f.toNat → v = valueFmt k → w = fmtWidth v / 8 → count = s.ctx.tileRows (fmtClass k) * (fmtClass k).cols →
    s.ctx.detm = false → s.dev.holdStores = false → s.dev.regens = [] → s.dev.snap = none → s.dev.eccBad = [] →
    (ImageAt (.tstRaw t a) s s1 a .store 64 rawBytes ps → ∃ n, exec (.tstRaw t a) s = .next { s1 with
      ctx := { s.ctx.retire with path := n }
      mem := s1.mem.setAll (partWrites ps [(0, (x.rawImage (s.ctx.tileRows x.cls) (s.steps * 2 ^ 20)).take (ps.map (·.2)).sum)]) }) ∧
    (TileOrdered x → frmReserved s.ctx.frm = false → x.conflicts (fmtMode k) (fmtClass k) = false →
      ImageAt (.tstCan t a f) s s1 a .store 64 (count * w) ps → ∃ rs n, exec (.tstCan t a f) s = .next { s1 with
        ctx := { s.ctx.retire with fflags := s.ctx.fflags ||| orAll (rs.map (·.2)), path := n }
        mem := s1.mem.setAll (partWrites ps [(0, (rs.flatMap fun r => leBytes w r.1).take (ps.map (·.2)).sum)]) } ∧
        rs = (List.range count).map fun n => x.read v (rmOf s.ctx.frm) (x.cell n))

/-- R204, R205: a raw image, however its cells are split, gives back the tile. -/
def RawRoundTrip : Prop :=
  ∀ (x : Tile) (rows : TClass → Nat) (seed : Nat), SavableTile rows x → tileFrom rows (x.rawImage (rows x.cls) seed) = some x

/-- The codes of a class, state and mode in the header of a raw image (R204). -/
def classNo (c : TClass) : Nat :=
  match c with
  | .none => 0
  | .narrow => 1
  | .half => 2
  | .f32 => 3
  | .f64 => 4

def stateNo (c : TState) : Nat :=
  match c with
  | .empty => 0
  | .redundant => 1
  | .resolved => 2

def modeNo (c : TMode) : Nat :=
  match c with
  | .none => 0
  | .float => 1
  | .integer => 2

/-- The header of a raw image says what a tile is (R204). -/
def HeaderOf (img : List Byte) (x : Tile) : Prop :=
  field img 0 1 = 1 ∧ field img 1 1 = (if x.anchor.isSome then 128 else 0) + 16 * classNo x.cls + 4 * stateNo x.state + modeNo x.mode ∧
    toSigned 16 (field img 2 2) = x.anchor.getD 0 ∧ field img 4 1 = (if x.state = .resolved then x.rfmt else 0) ∧ field img 5 59 = 0

/-- A header that no refusal of R205 concerns. -/
def HeaderRight (img : List Byte) : Prop :=
  let b := field img 1 1
  let a := toSigned 16 (field img 2 2)
  let cls := b / 16 % 8
  let st := b / 4 % 4
  let mode := b % 4
  field img 0 1 = 1 ∧ cls ≤ 4 ∧ st ≤ 2 ∧ mode ≤ 2 ∧ field img 5 59 = 0 ∧ -2048 ≤ a ∧ a ≤ 2047 ∧ (b / 128 = 0 → a = 0) ∧ (st = 0 → cls = 0) ∧
    (st ≠ 0 → cls ≠ 0 ∧ mode ≠ 0) ∧ (mode = 2 → cls = 1 ∧ b / 128 = 0) ∧
    if st = 2 then 3 ≤ field img 4 1 ∧ field img 4 1 ≤ 7 else field img 4 1 = 0

/-- The amount of the carry bits of a cell word (R102): ck counts 2^(8k + 8). -/
def carriesOf (c : Nat) : Nat := ((List.range 8).map fun k => c / 2 ^ k % 2 * 2 ^ (8 * k + 8)).sum

/-- The cell that the words of a raw image hold for cell number `n` (R204): a held value; or X, split among S, carries and guard, with the
flags of the side byte. A cell of the f64 class has four words. -/
def cellIn (img : List Byte) (x : Tile) (n : Nat) : TCell :=
  let per := if x.cls = .f64 then 4 else 1
  let word := fun (w : Nat) => field img (64 + 9 * w) 8
  let side := fun (w : Nat) => field img (221248 + w) 1
  if x.state = .empty then TCell.zero
  else if x.state = .resolved then { TCell.zero with held := word (per * n) % 2 ^ fmtWidth x.rfmt }
  else
    let sum := ((List.range per).map fun k => (word (per * n + k) + carriesOf (field img (64 + 9 * (per * n + k) + 8) 1)) * 2 ^ (64 * k) +
      side (per * n + k) % 16 * 2 ^ (64 * per + 4 * k)).sum
    ⟨toSigned (68 * per) (sum % 2 ^ (68 * per)), side (per * n) / 16 % 2 == 1, side (per * n) / 32 % 2 == 1, side (per * n) / 64 % 2 == 1, 0⟩

/-- R204, R205: the layout of a raw image: 245,824 bytes; the header; the granted cells, row by row, in words of 9 bytes and side bytes;
else 0. A raw image is refused by its header alone, and gives the tile of its header with the cells of its words, for the rows granted. The
model's: the order of the four words of an f64 cell (log 52); that a resolved image has side bytes 0, and bits that its format leaves 0 are
not read (log 60). -/
def RawLayout : Prop :=
  (∀ (x : Tile) (rows : TClass → Nat) (seed : Nat), SavableTile rows x →
    let img := x.rawImage (rows x.cls) seed
    let words := if x.state = .empty then 0 else rows x.cls * x.cls.cols * (if x.cls = .f64 then 4 else 1)
    img.length = 245824 ∧ HeaderOf img x ∧ (∀ n, n < rows x.cls * x.cls.cols → cellIn img x n = x.cell n) ∧
      (∀ w, words ≤ w → w < 24576 → field img (64 + 9 * w) 9 = 0 ∧ field img (221248 + w) 1 = 0) ∧
      ∀ w, w < words → field img (221248 + w) 1 < 128 ∧ (x.state = .resolved →
        field img (64 + 9 * w + 8) 1 = 0 ∧ field img (221248 + w) 1 = 0 ∧ (x.cls = .f64 → w % 4 ≠ 0 → field img (64 + 9 * w) 8 = 0)) ∧
        (x.cls = .f64 → w % 4 ≠ 0 → field img (221248 + w) 1 < 16)) ∧
  ∀ (img : List Byte) (rows : TClass → Nat), img.length = 245824 → (∀ c, rows c * c.cols * (if c = .f64 then 4 else 1) ≤ 24576) →
    ((tileFrom rows img).isSome = true ↔ HeaderRight img) ∧
    ∀ x, tileFrom rows img = some x → HeaderOf img x ∧ x.bad = false ∧ TileOrdered x ∧
      ∀ n, x.cell n = if n < rows x.cls * x.cls.cols then cellIn img x n else TCell.zero

/-- The tile of a word that a parity error of it stops: every tile word but tzero and tld.raw (R389). -/
def parityOf : Instr → Option (BitVec 2)
  | .mopa t _ _ _ _ | .mopaS t _ _ _ _ | .mopaW t _ _ _ _ | .mopaGr t _ _ _ | .tanchor t _ | .tres t _ | .tmovr t _ _ _ | .tmovw t _ _ _
  | .tstRaw t _ | .tldCan t _ _ | .tstCan t _ _ => some t
  | _ => none

/-- R200: TILE_STATE: code 1 for another mode or class, 2 with the row for a row outside the grant, 3 for tanchor of a tile that is not
empty or has an anchor or integer mode, 4 for tmovw of an empty tile; nothing is written. A format, mode or operand field that does not fit
raises 0x02 first: tanchor outside −2048 to 2047 and tres under a reserved frm among them (R201). mopa.w and mopa.gr raise 0x04
or 0x08 with the first offset that is misaligned or leaves WBUF (R197, R199). A tile with a parity error raises MACHINE_CHECK (R389). The
model's: that it does so before every check of R200 (log 59), and its mark (log 44); code 1 for tmovw.s32 of an empty float tile (log 92);
and 0x04 for an offset's alignment before 0x08 (log 51). -/
def TileTraps : Prop :=
  ∀ (s : State) (t : BitVec 2) (d a b : BitVec 6) (c : BitVec 5) (m : BitVec 1) (f : BitVec 4) (x : Tile) (k row : Nat), VectorIdle s →
    x = s.ctx.tile t → k = f.toNat → row = (s.getX c).toNat % 2 ^ 16 →
    (x.bad = false → x.conflicts (fmtMode k) (fmtClass k) = true → exec (.mopa t a b m f) s =
      .next ((issued (.mopa t a b m f) 0 0 s).takeTrap false true 0x0D (BitVec.ofNat 64 (2 ^ 56 + t.toNat)))) ∧
    (x.bad = false → x.conflicts .float .half = true → s.ctx.rowBytes ≠ none → exec (.mopaW t a c m f) s =
      .next ((issued (.mopaW t a c m f) (s.getX c) 0 s).takeTrap false true 0x0D (BitVec.ofNat 64 (2 ^ 56 + t.toNat)))) ∧
    (x.bad = false → -2048 ≤ (s.getX c).toInt → (s.getX c).toInt ≤ 2047 →
      (x.state ≠ .empty ∨ x.anchor ≠ none ∨ x.mode = .integer) → exec (.tanchor t c) s =
      .next ((issued (.tanchor t c) (s.getX c) 0 s).takeTrap false true 0x0D (BitVec.ofNat 64 (3 * 2 ^ 56 + t.toNat)))) ∧
    (x.bad = false → (2 ^ 32 ≤ (s.getX c).toNat ∨ s.ctx.sew ≠ fmtWidth k ∨ frmReserved s.ctx.frm = true) → exec (.tmovr t d c f) s =
      .next ((issued (.tmovr t d c f) (s.getX c) 0 s).takeTrap false true 0x02 ((encode (.tmovr t d c f)).setWidth 64))) ∧
    (x.bad = false → (s.getX c).toNat < 2 ^ 32 → s.ctx.sew = fmtWidth k → frmReserved s.ctx.frm = false → s.ctx.tileRows x.cls ≤ row →
      exec (.tmovr t d c f) s = .next ((issued (.tmovr t d c f) (s.getX c) 0 s).takeTrap false true 0x0D
        (BitVec.ofNat 64 (2 * 2 ^ 56 + row * 2 ^ 8 + t.toNat)))) ∧
    (x.bad = false → (s.getX c).toNat < 2 ^ 32 → s.ctx.sew = fmtWidth k → ¬(x.mode = .float ∧ k = 7) → ¬(x.mode = .integer ∧ k ≠ 7) →
      row < s.ctx.tileRows x.cls → x.state = .empty → exec (.tmovw t a c f) s =
      .next ((issued (.tmovw t a c f) (s.getX c) 0 s).takeTrap false true 0x0D (BitVec.ofNat 64 (4 * 2 ^ 56 + t.toNat)))) ∧
    (x.bad = false → (s.ctx.scaleBlock = none → exec (.mopaS t a b m f) s =
        .next ((issued (.mopaS t a b m f) 0 0 s).takeTrap false true 0x02 ((encode (.mopaS t a b m f)).setWidth 64))) ∧
      (s.ctx.scaleBlock ≠ none → x.conflicts (fmtMode k) (fmtClass k) = true → exec (.mopaS t a b m f) s =
        .next ((issued (.mopaS t a b m f) 0 0 s).takeTrap false true 0x0D (BitVec.ofNat 64 (2 ^ 56 + t.toNat))))) ∧
    (x.bad = false → s.ctx.rowBytes = none →
      exec (.mopaW t a c m f) s =
        .next ((issued (.mopaW t a c m f) (s.getX c) 0 s).takeTrap false true 0x02 ((encode (.mopaW t a c m f)).setWidth 64)) ∧
      exec (.mopaGr t a c f) s =
        .next ((issued (.mopaGr t a c f) (s.getX c) 0 s).takeTrap false true 0x02 ((encode (.mopaGr t a c f)).setWidth 64))) ∧
    (x.bad = false → s.ctx.rowBytes ≠ none →
      let v := (s.getX c).toNat
      let u := issued (.mopaGr t a c f) (s.getX c) 0 s
      (s.ctx.sew ≠ fmtWidth k ∨ 2 ^ 39 ≤ v ∨ v / 2 ^ 20 % 2 ^ 12 ≠ 0 →
        exec (.mopaGr t a c f) s = .next (u.takeTrap false true 0x02 ((encode (.mopaGr t a c f)).setWidth 64))) ∧
      (s.ctx.sew = fmtWidth k → v < 2 ^ 39 → v / 2 ^ 20 % 2 ^ 12 = 0 →
        (x.conflicts .float .half = true →
          exec (.mopaGr t a c f) s = .next (u.takeTrap false true 0x0D (BitVec.ofNat 64 (2 ^ 56 + t.toNat)))) ∧
        (x.conflicts .float .half = false → s.ctx.tileRows .half ≤ v / 2 ^ 32 → exec (.mopaGr t a c f) s =
          .next (u.takeTrap false true 0x0D (BitVec.ofNat 64 (2 * 2 ^ 56 + v / 2 ^ 32 * 2 ^ 8 + t.toNat)))))) ∧
    (x.bad = false →
      let u := issued (.tmovw t a c f) (s.getX c) 0 s
      (2 ^ 32 ≤ (s.getX c).toNat ∨ s.ctx.sew ≠ fmtWidth k →
        exec (.tmovw t a c f) s = .next (u.takeTrap false true 0x02 ((encode (.tmovw t a c f)).setWidth 64))) ∧
      ((s.getX c).toNat < 2 ^ 32 → s.ctx.sew = fmtWidth k →
        ((x.mode = .float ∧ k = 7) ∨ (x.mode = .integer ∧ k ≠ 7) →
          exec (.tmovw t a c f) s = .next (u.takeTrap false true 0x0D (BitVec.ofNat 64 (2 ^ 56 + t.toNat)))) ∧
        (¬(x.mode = .float ∧ k = 7) → ¬(x.mode = .integer ∧ k ≠ 7) → s.ctx.tileRows x.cls ≤ row → exec (.tmovw t a c f) s =
          .next (u.takeTrap false true 0x0D (BitVec.ofNat 64 (2 * 2 ^ 56 + row * 2 ^ 8 + t.toNat)))))) ∧
    (x.bad = false →
      let u := issued (.tldCan t c f) (s.getX c) 0 s
      let v := issued (.tstCan t c f) (s.getX c) 0 s
      (3 < s.ctx.vmt.toNat → exec (.tldCan t c f) s = .next (u.takeTrap false true 0x02 ((encode (.tldCan t c f)).setWidth 64))) ∧
      (3 < s.ctx.vmt.toNat ∨ frmReserved s.ctx.frm = true →
        exec (.tstCan t c f) s = .next (v.takeTrap false true 0x02 ((encode (.tstCan t c f)).setWidth 64))) ∧
      (s.ctx.vmt.toNat ≤ 3 → x.conflicts (fmtMode k) (fmtClass k) = true →
        exec (.tldCan t c f) s = .next (u.takeTrap false true 0x0D (BitVec.ofNat 64 (2 ^ 56 + t.toNat))) ∧
        (frmReserved s.ctx.frm = false →
          exec (.tstCan t c f) s = .next (v.takeTrap false true 0x0D (BitVec.ofNat 64 (2 ^ 56 + t.toNat)))))) ∧
    (x.bad = false →
      ((s.getX c).toInt < -2048 ∨ 2047 < (s.getX c).toInt → exec (.tanchor t c) s =
        .next ((issued (.tanchor t c) (s.getX c) 0 s).takeTrap false true 0x02 ((encode (.tanchor t c)).setWidth 64))) ∧
      (frmReserved s.ctx.frm = true → exec (.tres t f) s =
        .next ((issued (.tres t f) 0 0 s).takeTrap false true 0x02 ((encode (.tres t f)).setWidth 64)))) ∧
    (∀ n, x.bad = false → x.conflicts .float .half = false → s.ctx.rowBytes = some n →
      let o := (s.getX c).toNat
      let u := issued (.mopaW t a c m f) (s.getX c) 0 s
      (o % 16 ≠ 0 → exec (.mopaW t a c m f) s = .next (u.takeTrap false true 0x04 (s.getX c))) ∧
      (o % 16 = 0 → 0xC0000 < o + n → exec (.mopaW t a c m f) s = .next (u.takeTrap false true 0x08 (s.getX c)))) ∧
    (∀ n i o, x.bad = false → x.conflicts .float .half = false → s.ctx.rowBytes = some n → s.ctx.sew = fmtWidth k →
      (s.getX c).toNat < 2 ^ 39 → (s.getX c).toNat / 2 ^ 20 % 2 ^ 12 = 0 → (s.getX c).toNat / 2 ^ 32 < s.ctx.tileRows .half →
      o = (fun j => (s.getX c).toNat % 2 ^ 20 + s.ctx.elem (a + 32) j * n) → i < s.ctx.vl →
      (∀ j, j < i → o j % 16 = 0 ∧ o j + n ≤ 0xC0000) →
      let u := issued (.mopaGr t a c f) (s.getX c) 0 s
      (o i % 16 ≠ 0 → exec (.mopaGr t a c f) s = .next (u.takeTrap false true 0x04 (BitVec.ofNat 64 (o i)))) ∧
      (o i % 16 = 0 → 0xC0000 < o i + n → exec (.mopaGr t a c f) s = .next (u.takeTrap false true 0x08 (BitVec.ofNat 64 (o i))))) ∧
    ∀ i, parityOf i = some t → x.bad = true → ∃ (u : State) (r : Word), exec i s = .next (u.takeTrap false true 0x12 r) ∧
      u.ctx = (issued i (captured i s 0) 0 s).ctx

/-- R200, R208, R211, R362: the range that tld.raw, tst.raw and cbld move: a reserved space raises 0x02, a misaligned address
0x04, LANE 0x08; else the first refused access of the range raises its cause, with NPG the number of its pages that failed (log 59). tld.can
and tst.can make these checks after those of `TileTraps`. -/
def TileImageTraps : Prop :=
  ∀ (s s1 : State) (i : Instr) (t : BitVec 2) (a : BitVec 5) (f : BitVec 4) (k : AccKind) (align n c m : Nat) (va : Word), VectorIdle s →
    s.ctx.stores = [] →
    (i = .tldRaw t a ∧ k = .load ∧ align = 64 ∧ n = rawBytes ∨ i = .tstRaw t a ∧ k = .store ∧ align = 64 ∧ n = rawBytes ∧
      (s.ctx.tile t).bad = false ∨ i = .cbld t a ∧ k = .load ∧ align = 32 ∧ n = 32 ∨
      (i = .tldCan t a f ∧ k = .load ∨ i = .tstCan t a f ∧ k = .store ∧ frmReserved s.ctx.frm = false) ∧ align = 64 ∧
        n = s.ctx.tileRows (fmtClass f.toNat) * (fmtClass f.toNat).cols * (fmtWidth (valueFmt f.toNat) / 8) ∧
        (s.ctx.tile t).bad = false ∧ (s.ctx.tile t).conflicts (fmtMode f.toNat) (fmtClass f.toNat) = false) →
    (3 < s.ctx.vmt.toNat → exec i s = .next ((issued i (s.getX a) 0 s).takeTrap false true 0x02 ((encode i).setWidth 64))) ∧
    (s.ctx.vmt.toNat ≤ 3 → (s.getX a).toNat % align ≠ 0 →
      exec i s = .next (((issued i (s.getX a) 0 s).withNpg 0).takeTrap false true 0x04 (s.getX a))) ∧
    (s.ctx.vmt = 2 → (s.getX a).toNat % align = 0 →
      exec i s = .next (((issued i (s.getX a) 0 s).withNpg 0).takeTrap false true 0x08 (s.getX a))) ∧
    (s.ctx.vmt.toNat ≤ 3 → s.ctx.vmt ≠ 2 → (s.getX a).toNat % align = 0 →
      (issued i (s.getX a) 0 s).span s.ctx.vmt.toNat k 8 (s.getX a) n = (.error (.cause c va, m), s1) →
      exec i s = .next ((s1.withNpg m).takeTrap false true c va))

end Sys2Proof.Claims

/-- R97, R101 to R109, R188, R191, R195 to R203: the mopa family with its operands, the sums of cells and their reads, and the tile words
without memory. Readings and choices of the model: scaled products (log 90), fractions in an integer or unanchored tile (log 55), the order
of tmovw (log 92), an integer cell that does not fit (log 52), and no flag for a signalling NaN (log 72). -/
def Obligations.TileResults : Prop := MopaResults ∧ MopaOperands ∧ TileBack ∧ TileSums ∧ TileWords

/-- R200, R204 to R208, R362, R389: tile images and codebooks, and the traps of the tile words. Readings and choices of the model: the mark of a
parity error (log 44), its place before the checks of R200 (log 59), the side bytes of a resolved image and the bits that no format names (log
60), the words of an f64 cell (log 52), alignment before range (log 51), and tmovw.s32 of an empty float tile (log 92). -/
def Obligations.TileImages : Prop := TileLoads ∧ TileStores ∧ RawRoundTrip ∧ RawLayout ∧ TileTraps ∧ TileImageTraps

namespace Sys2Proof.Claims

/-! ## Events -/

/-- Writes that memory takes as they stand: no uncorrectable word (R389), no regeneration trigger (R227), no snapshot in progress (R225), no
location that the far side refuses (R367). -/
abbrev Takes (s : State) (ws : List (Nat × Byte)) : Prop :=
  s.dev.eccBad = [] ∧ s.dev.regens = [] ∧ s.dev.snap = none ∧ ∀ w ∈ ws, s.refuses w.1 = false

/-- No launch waits for a counter, so that a change of one makes none ready (R305), and none has failed (R386). -/
abbrev NoneWaits (s : State) : Prop := ∀ l ∈ s.dev.launches, l.phase ≠ .waiting ∧ l.failed = none

/-- Neither context of the core of context `c` has a command queued or started, so that nothing lies on its scoreboard (R221). -/
abbrev BoardClear (s : State) (c : Nat) : Prop := (s.ctxOf c).commands = [] ∧ (s.ctxOf (otherOf c)).commands = []

/-- The machine whose context `c` enters its handler for the asynchronous cause `code` (`Obligations.Traps`); `hyp` sends it to hyp
whatever the level. -/
def interrupted (u : State) (c : Ctx) (hyp : Bool) (code : Nat) (tval : Word) : State :=
  ({ u with ctx := c } : State).intoHandler (c.enterTrap hyp true false code tval)

/-- R31, R312, R316, R368, R370, R371, R392, R403: at a safe point, with no cause pending before it in the order of R371, each event takes its
cause at the context that it names: CANCELLED with the counter, RECLAIM with the requested grant, BUDGET with the limit, PREEMPT and TIMER
with 0; the cause is pending no more. A pending machine check comes first, and is taken at hyp where its kind asks for that. -/
def AsyncCauses : Prop :=
  (∀ (c : Ctx) (cyc : Nat) (a : Pending) (r : List Pending), c.safePoint = true → c.pMcheck = a :: r → ∃ t, c.takeAsync cyc = some t ∧
    t.pMcheck = r ∧ t.cause = 0x8000000000000012 ∧ t.tval = a.tval ∧ t.ppriv = c.priv ∧ t.tfv = true ∧
    (a.hyp = true ∨ c.priv = .hyp → t.priv = .hyp ∧ t.pc = c.htvec) ∧ (a.hyp = false → c.priv ≠ .hyp → t.priv = .sup ∧ t.pc = c.tvec)) ∧
  ∀ (s u : State) (c : Nat), c < numContexts → u = s.turnTo c → u.ctx.safePoint = true → u.ctx.pMcheck = [] →
    (∀ n r, u.ctx.pCancelled = n :: r →
      exec (.cancelled c) s = .next ((interrupted u { u.ctx with pCancelled := r } n.hyp 0x13 n.tval).turnTo s.cur)) ∧
    (∀ t, u.ctx.pCancelled = [] → u.ctx.reclaimAt = some t → t + 2048 ≤ s.cyc → exec (.reclaim c) s =
      .next ((interrupted u { u.ctx with reclaimAt := none, pReclaim := none } false 0x11 (u.ctx.requested (c % 2 == 1))).turnTo s.cur)) ∧
    (u.ctx.pCancelled = [] → u.ctx.pReclaim = none → u.ctx.armed = true → u.ctx.budget ≠ 0 → u.ctx.budget.toNat ≤ u.ctx.bused →
      exec (.budget c) s =
        .next ((interrupted u { u.ctx with armed := false, pBudget := false } false 0x10 u.ctx.budget).turnTo s.cur)) ∧
    (u.ctx.pCancelled = [] → u.ctx.pReclaim = none → u.ctx.pBudget = false →
      exec (.preempt c) s = .next ((interrupted u { u.ctx with pPreempt := false } false 0x20 0).turnTo s.cur)) ∧
    (u.ctx.pCancelled = [] → u.ctx.pReclaim = none → u.ctx.pBudget = false → u.ctx.pPreempt = false → u.ctx.tmr ≠ 0 →
      u.ctx.tmr.toNat ≤ s.cyc → exec (.timer c) s = .next ((interrupted u { u.ctx with tmr := 0 } false 0x21 0).turnTo s.cur))

/-- R14, R18, R45, R137, R245, R371: what the oldest queue entry makes of a step of its context. A trap of it comes before every asynchronous
cause, and is taken in that step; where the SCT is in a load or an amo that has begun, once that word is done, and then instead of a trap of
the word's own. Else an asynchronous cause that may be taken is taken; with none, an entry that can commit does and leaves the queue, and one
that waits in the access path stands there. That the entry commits as soon as it can is the model's choice (log 6). -/
def HeadGoesOn : Prop :=
  ∀ (s u : State) (e : VEntry) (r : List VEntry) (k : Commit), s.moves = [] → u = s.tick → u.ctx.run = .running → u.ctx.lag = 0 →
    u.ctx.viq = e :: r → k = u.guarded e (commit e.instr e.op1 e.op2) →
    (∀ c v t, k = .trap c v t →
      (u.ctx.loading = false → step s = .next (t.takeTrap false true c v)) ∧
      (u.ctx.loading = true → ∀ w, u.advanceSct = .next w →
        ((u.ctx.tfv = false ∧ w.ctx.tfv = true) ∨ w.ctx.run ≠ .running → step s = .next (t.takeTrap false true c v)) ∧
        (¬(u.ctx.tfv = false ∧ w.ctx.tfv = true) → w.ctx.run = .running → step s = .next w))) ∧
    (∀ a, (∀ c v t, k ≠ .trap c v t) → u.ctx.takeAsync u.cyc = some a → step s = .next (u.intoHandler a)) ∧
    (u.ctx.takeAsync u.cyc = none → (∀ t, k = .done t → step s = .next t.popHead) ∧
      (∀ t ps, k = .held t ps → u.ctx.late = none → step s = .next (t.enterHead ps)))

/-- R248, R341, R343, R358, R360: a context that waits at its word executes it again when the event of its wait happens, and no other context
changes hands; nothing happens where its word has to wait for the walk of its fetch. -/
def WaitEvents : Prop :=
  ∀ (s u v : State) (c : Nat) (w : Word32), c < numContexts → u = s.turnTo c →
    (u.fetchWaits = true → ∀ i : Instr, (i = .waitSatisfied c ∨ i = .tlbinvComplete c ∨ i = .claspWake c) → exec i s = .next s) ∧
    (u.fetchWaits = false → u.sctWord = (.ok w, v) →
    (∀ a b k, u.ctx.stall = some .word → decodeWord w = .ok (.late (.waitge a b k)) →
      ∃ t, exec (.waitge a b k) v = .next t ∧ exec (.waitSatisfied c) s = .next (t.turnTo s.cur)) ∧
    (∀ a b k, u.ctx.stall = some .word → decodeWord w = .ok (.late (.waiteq a b k)) →
      ∃ t, exec (.waiteq a b k) v = .next t ∧ exec (.waitSatisfied c) s = .next (t.turnTo s.cur)) ∧
    (∀ d a, u.ctx.stall = some .tlb → decodeWord w = .ok (.late (.tlbinv d a)) →
      ∃ t, exec (.tlbinv d a) v = .next t ∧ exec (.tlbinvComplete c) s = .next (t.turnTo s.cur)) ∧
    (∀ a b x e, u.ctx.stall = some (.clwait x e) → decodeWord w = .ok (.late (.clwait a b)) →
      ∃ t, exec (.clwait a b) v.hearClasp = .next t ∧ exec (.claspWake c) s = .next (t.turnTo s.cur)) ∧
    (∀ a q x e, u.ctx.stall = some (.arrive x e) → decodeWord w = .ok (.late (.clarr a q)) →
      ∃ t, exec (.clarr a q) v.hearClasp = .next t ∧ exec (.claspWake c) s = .next (t.turnTo s.cur)) ∧
    (∀ a d x e, (u.ctx.stall = some (.clasp x e) ∨ u.ctx.stall = some (.clwait x e) ∨ u.ctx.stall = some (.arrive x e)) → decodeWord w = .ok (.late (.clasp a d)) →
      ∃ t, exec (.clasp a d) v.hearClasp = .next t ∧ exec (.claspWake c) s = .next (t.turnTo s.cur)))

/-- R217, R221 to R223, R276, R283: the store at place `k` of the access path is performed where nothing before it holds it; of a drained line
of a launch's unit, each byte is written unless a higher logical core of the launch has written it, and the writers are kept. A full buffer
drains the oldest line of its core. A load, an amo or a nest that a scoreboard range held is performed once the range is released, before
anything else of its context (R17, R231, R235), and not before. A store of a deterministic context enters the buffer: no memory changes, and
its own loads find it. The model's choices: when a store is performed (log 7), and that the oldest line is the one whose first byte came
first (log 54). -/
def AccessEvents : Prop :=
  (∀ (s u : State) (c k : Nat) (p : Pend) (rest : List Pend), c < numContexts → u = s.turnTo c → u.ctx.stores[k]? = some p → p.barrier = 0 →
    p.waits (u.ctx.stores.take k) = false → u.holds p = false → Takes u p.writes →
    rest = (u.ctx.stores.take k ++ u.ctx.stores.drop (k + 1)).dropWhile (fun q => q.barrier != 0) →
    (p.drain = false ∨ u.ctx.unit = none → exec (.accessPerform c k) s =
      .next (({ u with mem := u.mem.setAll p.writes, ctx := { u.ctx with stores := rest } } : State).turnTo s.cur)) ∧
    (∀ x wr, p.drain = true → u.ctx.unit = some x → wr = (lookup x.arm u.dev.writers).getD [] → ∃ ws wr',
      ws = (p.writes.filter fun w => match lookup w.1 wr with
        | some h => decide (h ≤ u.drainRank)
        | none => true) ∧
      (∀ b, lookup b wr' = if ws.any (fun w => w.1 == b) then some u.drainRank else lookup b wr) ∧ exec (.accessPerform c k) s =
      .next (({ u with
        mem := u.mem.setAll ws, ctx := { u.ctx with stores := rest }
        dev := { u.dev with writers := assign x.arm wr' u.dev.writers } } : State).turnTo s.cur))) ∧
  (∀ (s : State) (c e : Nat) (l : WLine) (r : List WLine), c < numContexts → coreOf e = coreOf c → 4096 ≤ s.wcbLines (coreOf c) →
    (s.ctxOf e).wcb = l :: r → (∀ m, (s.ctxOf (otherOf e)).wcb.head? = some m → l.age < m.age) →
    ∃ t, exec (.wcbEarlyDrain c 1) s = .next t ∧ (t.ctxOf e).wcb = r ∧ (∀ d, d ≠ e → t.ctxOf d = s.ctxOf d) ∧
      (s.dev.holdStores = true → t.mem = s.mem ∧ (t.ctxOf e).stores = (s.ctxOf e).stores ++ [{ l.pend with num := (s.ctxOf e).path }]) ∧
      (s.dev.holdStores = false → (s.ctxOf e).stores = [] → (s.ctxOf e).unit = none → BoardClear s e → Takes s l.writes →
        t.mem = s.mem.setAll l.writes ∧ (t.ctxOf e).stores = [])) ∧
  (∀ (s v : State) (c n : Nat) (p : Option Place) (w : Word32) (i : Instr), c < numContexts → (s.turnTo c).ctx.stall = some (.board p n) →
    (s.turnTo c).fetchWaits = false → (s.turnTo c).sctWord = (.ok w, v) → decodeWord w = .ok (.instr i) →
    ((∀ q, p = some q → v.onBoard q.loc.key n = false) → v.ctx.stores.any v.holds = false → v.ctx.resume = false →
      ((loadForm i).isSome ∨ (amoForm i).isSome ∨ ∃ a l, i = .nest a l) →
      ∃ t, exec i v = .next t ∧ exec (.scoreboardWaitEnd c) s = .next (t.turnTo s.cur)) ∧
    ((∃ q, p = some q ∧ v.onBoard q.loc.key n = true) ∨ v.ctx.stores.any v.holds = true → exec (.scoreboardWaitEnd c) s = .next (v.turnTo s.cur))) ∧
  (∀ (s : State) (p : Place) (pc : Word) (bs : List Byte), s.ctx.detm = true → p.loc.hs = false → s.wcbLines (coreOf s.cur) < 4096 →
    (∀ l ∈ s.ctx.wcb, l.line = p.loc.key / 64 → l.asid = s.ctx.asid) → p.loc.key % 64 + bs.length ≤ 64 →
    (s.writeAt 0 p pc bs).mem = s.mem ∧ (s.writeAt 0 p pc bs).ctx.stores = s.ctx.stores ∧
      (s.writeAt 0 p pc bs).ownBytes p.loc.key bs.length = bs)

/-- R208, R252, R257, R259, R260, R264, R266: the engine starts the command at the head of a channel once the stores before it are performed: its
elements checked, what it will write read; one without elements retires; a failed check halts the channel with the cause and the address; a
started command retires with its writes performed and counts in DONE. A request out of range counts in OOB once its slot is filled (R264): with
the last of its bytes, which may land before the command retires. That all elements are checked and read at the start, and that the writes
are performed at the end but for the chunks that land before, is the model's (log 14). -/
def EngineEvents : Prop :=
  ∀ (s s0 s1 s2 : State) (c n : Nat) (k : BitVec 3) (h : Chan), c < numContexts → k = BitVec.ofNat 3 n → h = (s.ctxOf c).ch[k.toNat] →
    (∀ cmd r, h.cmds = cmd :: r → h.halted = false → h.started = none →
      (s.storesBefore c cmd = none → exec (.copyCommandStart c n) s = .next s) ∧
      (∀ w ks, s.storesBefore c cmd = some s0 → s0.cmdWork c cmd = (.ok w, s1) → s1.checkElems (coreOf c) cmd.asid cmd.priv w w.elems = (.ok ks, s2) →
        (w.elems ≠ [] → (∀ q ∈ ks, ∀ a, q.1 = some a → s2.refuses a = false) → ∃ zs, zs.length = w.oob ∧
          (∀ bs rows ps, cmd.kind = .gather bs rows ps → ∀ z ∈ zs, ∃ i row, rows[i]? = some row ∧ field bs 28 4 ≤ row.toNat ∧
            z = ((destsOf w ks).drop (i * (w.elems.length / rows.length))).take (w.elems.length / rows.length)) ∧
          exec (.copyCommandStart c n) s = .next (s2.setChan c k { h with
            cmds := r, started := some ⟨cmd, s2.jobOf cmd.asid, s2.moveBytes ks, destsOf w ks, w.so, zs⟩ })) ∧
        (w.elems = [] → exec (.copyCommandStart c n) s =
          .next (s2.setChan c k { h with cmds := r, done := (h.done + 1) % 2 ^ 32 }))) ∧
      (∀ e va, s.storesBefore c cmd = some s0 → s0.cmdWork c cmd = (.error (.cause e va), s1) →
        exec (.copyCommandStart c n) s = .next (s1.setChan c k { (s1.ctxOf c).ch[k.toNat] with halted := true, ecause := e, eaddr := va })) ∧
      (∀ w e va, s.storesBefore c cmd = some s0 → s0.cmdWork c cmd = (.ok w, s1) →
        s1.checkElems (coreOf c) cmd.asid cmd.priv w w.elems = (.error (.cause e va), s2) → exec (.copyCommandStart c n) s =
          .next (s2.setChan c k { (s2.ctxOf c).ch[k.toNat] with halted := true, ecause := e, eaddr := va }))) ∧
    (∀ st, h.started = some st → Takes s st.writes →
      st.cmd.board = none ∨ ((s.ctxOf (c / 2 * 2)).stores = [] ∧ (s.ctxOf (c / 2 * 2 + 1)).stores = []) →
      ∃ t, exec (.copyCommandRetire c n) s = .next t ∧
        t = { s.setChan c k { h with started := none, done := (h.done + 1) % 2 ^ 32, oob := Nat.min 0xFFFF (h.oob + st.zeros.length) } with
          mem := s.mem.setAll st.writes }) ∧
    (∀ (u : State) (mv : List Move) (st : Started) (i : Nat) (w : Nat × Byte) (here left : List (Nat × Byte)), u.moves = .land c n i :: mv →
      s = { u.tick with moves := mv } → s.dev.win.state ≠ 6 → s.dev.win.level ≠ 4 → h.started = some st → st.so = false → st.writes[i]? = some w →
      here = (st.writes.filter fun x => decide (x.1 / 32 = w.1 / 32)) → left = (st.writes.filter fun x => decide (x.1 / 32 ≠ w.1 / 32)) →
      Takes s here → ∃ full rest : List (List (Nat × Nat × Word)), full.length + rest.length = st.zeros.length ∧ (∀ z, z ∈ st.zeros ↔ z ∈ full ∨ z ∈ rest) ∧
        (∀ z ∈ full, ∀ x ∈ left, ∀ d ∈ z, x.1 < d.1 ∨ d.1 + d.2.1 ≤ x.1) ∧ (∀ z ∈ rest, ∃ x ∈ left, ∃ d ∈ z, d.1 ≤ x.1 ∧ x.1 < d.1 + d.2.1) ∧
        step u = .next { s.setChan c k { h with
            oob := Nat.min 0xFFFF (h.oob + full.length), started := some { st with writes := left, zeros := rest } } with
          mem := s.mem.setAll here })

/-- A destination offset through the swizzle (R256). -/
def swizzled (swz : Nat) (pitch d : Nat) : Nat :=
  if swz = 1 then d / pitch * pitch + 32 * (d % pitch / 32 ^^^ d / pitch % 8) + d % pitch % 32 else d

/-- R255, R256: the destination offset of a copy's tuple, before the swizzle: the column and row indices, and for each further dimension a
span of all those within it. -/
def copyOffset (f : CopyFields) (n : NestBlock) (j : List Nat) : Nat :=
  let col := if f.tr = 1 then 1 else 0
  let row := if f.tr = 1 then 0 else 1
  j.getD col 0 * 2 ^ f.esz + j.getD row 0 * f.pitch n +
    (((List.range n.ndim).filter (2 ≤ ·)).map fun k =>
      j.getD k 0 * (boundOf n row * f.pitch n * (((List.range k).filter (2 ≤ ·)).map (boundOf n)).prod)).sum

/-- The work that a copy's two blocks give: an element of ESZ bytes for each tuple in order, from SRC by the tuple's strides to DST by the
offset of the tuple. -/
def CopyWork (bs : List Byte) (n : NestBlock) (w : Work) : Prop :=
  let f := copyFields bs
  w.ssp = f.ssp ∧ w.dsp = f.dsp ∧ (w.so = true ↔ f.so = 1) ∧ w.oob = 0 ∧ w.elems.length = n.count ∧
    ∀ m, m < n.count → w.elems[m]? = some
      ⟨some (BitVec.ofInt 64 ((f.src : Int) + ((List.range n.ndim).map fun k => ((n.nth m).getD k 0 : Int) * n.stride.getD k 0).sum)),
        BitVec.ofNat 64 (f.dst + swizzled f.swz (f.pitch n) (copyOffset f n (n.nth m))), 2 ^ f.esz⟩

/-- R212, R252, R255, R256, R258, R261 to R264: the elements that a command moves. A copy moves one for each tuple of its nest block, a gather for each row
number the row's bytes, whole or as planes of fields, to the slot of the request; a row out of bounds, and a plane whose field is out of
range, is zeros. The blocks of a qpush are read and checked as the engine takes it; that a condition which does not hold between the two
names the command's own block is a reading (log 48). An element of a POLDER or WBUF space is checked
against its window and found by the place table; one of GLOBAL is translated. The bytes moved are those of the sources, or zeros, in order. -/
def EngineElements : Prop :=
  (∀ (s : State) (c : Nat) (cmd : Cmd) (bs ns : List Byte) (n : NestBlock), cmd.kind = .copy bs ns → parseNest ns = some n →
    CopyJoins bs n → ∃ w, s.cmdWork c cmd = (.ok w, s) ∧ CopyWork bs n w) ∧
  (∀ (s s1 s2 : State) (c : Nat) (cmd : Cmd) (va : Word), cmd.kind = .push va →
    (va.toNat % 64 ≠ 0 → s.cmdWork c cmd = (.error (.cause 0x04 va), s)) ∧
    ∀ bs, va.toNat % 64 = 0 → s.readBlock c 0 cmd.asid cmd.priv 2 va 64 = (.ok bs, s1) →
      (¬ CopyBlockRight bs → s.cmdWork c cmd = (.error (.cause 0x02 va), s1)) ∧
      (CopyBlockRight bs →
        let nva := BitVec.ofNat 64 (copyFields bs).nest
        (nva.toNat % 64 ≠ 0 → s.cmdWork c cmd = (.error (.cause 0x04 nva), s1)) ∧
        ∀ ns, nva.toNat % 64 = 0 → s1.readBlock c 0 cmd.asid cmd.priv 2 nva 64 = (.ok ns, s2) →
          (parseNest ns = none → s.cmdWork c cmd = (.error (.cause 0x02 nva), s2)) ∧
          ∀ n, parseNest ns = some n → (¬ CopyJoins bs n → s.cmdWork c cmd = (.error (.cause 0x02 va), s2)) ∧
            (CopyJoins bs n → ∃ w, s.cmdWork c cmd = (.ok w, s2) ∧ CopyWork bs n w))) ∧
  (∀ (s : State) (c : Nat) (cmd : Cmd) (bs : List Byte) (ks ps : List Word), cmd.kind = .gather bs ks ps → GatherRight bs 32 →
    let nseg := field bs 5 1 / 16
    let fsz := 2 ^ (field bs 5 1 / 4 % 4)
    let rowb := field bs 24 4
    let recs := rowb / (nseg * fsz)
    let slotAt := fun (i o : Nat) => BitVec.ofNat 64 (field bs 16 8 + swizzled (field bs 5 1 / 2 % 2) (field bs 32 4) ((field bs 36 4 + i) * field bs 32 4 + o))
    let source := fun (k : Word) (o : Nat) => BitVec.ofNat 64 (field bs 8 8 + k.toNat * rowb + o)
    ∃ w, s.cmdWork c cmd = (.ok w, s) ∧ w.ssp = field bs 6 1 / 16 ∧ w.dsp = field bs 6 1 % 16 ∧ w.so = false ∧
      w.oob = (ks.filter fun k => decide (field bs 28 4 ≤ k.toNat)).length ∧
      (nseg = 0 → w.elems.length = ks.length * (rowb / 32) ∧ ∀ i k m, ks[i]? = some k → m < rowb / 32 → w.elems[i * (rowb / 32) + m]? =
        some ⟨if k.toNat < field bs 28 4 then some (source k (32 * m)) else none, slotAt i (32 * m), 32⟩) ∧
      (nseg ≠ 0 → w.elems.length = ks.length * (nseg * recs) ∧ ∀ i k p r, ks[i]? = some k → p < nseg → r < recs →
        let e := if field bs 5 1 % 2 = 1 then (ps.getD i 0).toNat / 2 ^ (4 * p) % 16 else p
        w.elems[i * (nseg * recs) + p * recs + r]? =
          some ⟨if k.toNat < field bs 28 4 ∧ e < nseg then some (source k ((r * nseg + e) * fsz)) else none, slotAt i ((p * recs + r) * fsz), fsz⟩)) ∧
  (∀ (s : State) (core : Nat) (asid : BitVec 13) (priv : Priv) (k : AccKind) (n : Nat) (va : Word),
    (∀ sp, va.toNat % min n 8 ≠ 0 → (s.engineLoc core asid priv sp k n va).1 = .error (.cause 0x04 va)) ∧
    (va.toNat % min n 8 = 0 →
      s.engineLoc core asid priv 0 k n va = s.translate asid priv k va ∧
      (∀ p, va.toNat < 2 ^ 30 → va.toNat % 2 ^ 21 < Config.polderBytes →
        s.dev.physCore (s.jobOf asid) (va.toNat / 2 ^ 21 % 2 ^ 9) = some p →
        ∃ l, s.engineLoc core asid priv 1 k n va = (.ok l, s) ∧ l.key = polderKey p (va.toNat % 2 ^ 21)) ∧
      (2 ^ 30 ≤ va.toNat ∨ Config.polderBytes ≤ va.toNat % 2 ^ 21 ∨ s.dev.physCore (s.jobOf asid) (va.toNat / 2 ^ 21 % 2 ^ 9) = none →
        s.engineLoc core asid priv 1 k n va = (.error (.cause 0x08 va), s)) ∧
      (va.toNat < Config.wbufBytes → ∃ l, s.engineLoc core asid priv 3 k n va = (.ok l, s) ∧ l.key = wbufKey core va.toNat) ∧
      (Config.wbufBytes ≤ va.toNat → s.engineLoc core asid priv 3 k n va = (.error (.cause 0x08 va), s)))) ∧
  ∀ (s : State) (ks : List (Option Nat × Nat × Nat)), s.moveBytes ks = ks.flatMap fun q => (List.range q.2.2).map fun j =>
    (q.2.1 + j, match q.1 with
      | some a => s.byteAt (a + j)
      | none => 0)

/-- R30, R330, R331, R384: an increment counts once for its ordinal and arming; a counter that reaches its target becomes done and sends
one increment to its parent; the journal entry of a done launch is released. That an increment made for another arming of its counter, or of
the parent, does not count is the model's choice (log 46). -/
def CounterEvents : Prop :=
  (∀ (s : State) (n : Nat) (i : Inc) (k : Counter), s.dev.incs[n]? = some i → s.dev.counter i.shadow i.key = some k → NoneWaits s →
    ((k.done = true ∨ k.arm ≠ i.arm ∨ i.ord ∈ k.counted) →
      exec (.counterIncrement n) s = .next { s with dev := { s.dev with incs := s.dev.incs.eraseIdx n } }) ∧
    (k.done = false → k.arm = i.arm → i.ord ∉ k.counted → ∃ t, exec (.counterIncrement n) s = .next t ∧
      t.ctx = s.ctx ∧ t.others = s.others ∧ t.dev.incs = s.dev.incs.eraseIdx n ∧
      (k.count + 1 < k.target → t.mem = s.mem ∧
        t.dev.counter i.shadow i.key = some { k with count := k.count + 1, counted := k.counted ++ [i.ord] }) ∧
      (k.target ≤ k.count + 1 → k.parent = none →
        t.dev.counter i.shadow i.key = some { k with count := k.count + 1, counted := k.counted ++ [i.ord], done := true, canc := false }) ∧
      (∀ p q, k.target ≤ k.count + 1 → k.parent = some p → p ≠ i.key → s.dev.counter i.shadow p = some q → q.done = false →
        q.arm = k.parentArm → i.key % 8192 ∉ q.counted → q.count + 1 < q.target →
        t.dev.counter i.shadow i.key = some { k with count := k.count + 1, counted := k.counted ++ [i.ord], done := true, canc := false } ∧
        t.dev.counter i.shadow p = some { q with count := q.count + 1, counted := q.counted ++ [i.key % 8192] }))) ∧
  (∀ (s : State) (die ctr : Nat), ∃ t, exec (.journalRelease die ctr) s = .next t ∧ ctrKey die ctr ∉ t.dev.unreleased ∧
    (∀ key, key ≠ ctrKey die ctr → (key ∈ t.dev.unreleased ↔ key ∈ s.dev.unreleased)) ∧
    t = { s with dev := { s.dev with unreleased := t.dev.unreleased } })

/-- R320, R323, R324, R344: a member of another device arrives at a clasp in its next episode, which completes once every member has
arrived or departed; flags of a domain clasp reach the walkers, where those of the clasp that completed last replace the ones before, as
the model's choice (log 88). -/
def ClaspEvents : Prop :=
  (∀ (s : State) (id m : Nat) (stamp : Word) (k : Clasp), lookup id s.dev.clasps = some k → k.devices = true → m < k.nmem →
    ∃ t k', exec (.deviceMemberArrival id m stamp) s = .next t ∧ lookup id t.dev.clasps = some k' ∧
      k'.arrivals = k.arrivals ++ [(m, k.nextOf m, stamp)] ∧
      ((∀ j, j < k.nmem → k'.arrived j k.epoch = true ∨ j ∈ k.departed) → (∃ j, j < k.nmem ∧ k'.arrived j k.epoch = true) →
        k.epoch < k'.epoch) ∧
      ((∃ j, j < k.nmem ∧ k'.arrived j k.epoch = false ∧ j ∉ k.departed) → k'.epoch = k.epoch) ∧
      t.ctx = s.ctx ∧ t.others = s.others ∧ t.mem = s.mem ∧ ∀ e, e ≠ id → lookup e t.dev.clasps = lookup e s.dev.clasps) ∧
  (∀ (s : State) (f : Word), exec (.stragglerFlag f) s = .next { s with dev := { s.dev with flagged := f } })

/-- A launch at the head of its bank (R313): no other of the bank has a higher PRIO, or the same and was ready before. -/
def HeadOf (ready : List Launch) (bank : Nat) (x : Launch) : Prop :=
  x ∈ ready ∧ x.bank = bank ∧ ∀ y ∈ ready, y.bank = bank → y.prio < x.prio ∨ (y.prio = x.prio ∧ x.readySeq ≤ y.readySeq)

/-- The launch that a pop takes of a die's ready ones, where the LFSR samples two banks (R313, R314): of the strict ones the oldest; with
none strict the head of the only bank that holds one, or the better of the heads of the two banks. -/
def PopTakes (ready : List Launch) (b1 b2 : Nat) (x : Launch) : Prop :=
  (x ∈ ready ∧ x.strict = true ∧ ∀ y ∈ ready, y.strict = true → x.readySeq ≤ y.readySeq) ∨
    ((∀ y ∈ ready, y.strict = false) ∧
      (((∀ y ∈ ready, y.bank = b1) ∧ HeadOf ready b1 x) ∨
        (b1 ≠ b2 ∧ ∃ y z, HeadOf ready b1 y ∧ HeadOf ready b2 z ∧
          x = if y.prio < z.prio ∨ (y.prio = z.prio ∧ z.readySeq < y.readySeq) then z else y)))

/-- R313 to R315 (which bank a launch is in, log 16): a pop takes the launch of the rule's choice, where fewer than 8 of the die are active and it is no gang that can never be
co-resident: it is active from then on, and every older ready launch of the die counts one pass more, and is strict from the 1,024th on;
none is prepared ahead (log 86). Stated for ready launches of the 16 banks, told apart by when they became ready. A gang whose reservation is
complete, of contexts that run nothing and still fit, starts its units together on the contexts reserved. -/
def DispatcherEvents : Prop :=
  (∀ (s : State) (die b1 b2 : Nat) (x : Launch), (s.dev.inPhase die .active).length < 8 →
    (∀ y ∈ s.dev.inPhase die .ready, y.bank < 16 ∧ ∀ z ∈ s.dev.inPhase die .ready, z.readySeq = y.readySeq → z = y) →
    PopTakes (s.dev.inPhase die .ready) b1 b2 x → ¬(x.isGang = true ∧ x.head < x.stop ∧ s.gangHopeless die x = true) →
    ∃ t, exec (.dispatcherPop die b1 b2) s = .next t ∧
      t = { s with dev := { s.dev with launches := t.dev.launches, seq := s.dev.seq + 1 } } ∧
      t.dev.launches = s.dev.launches.map fun l =>
        if l.arm = x.arm then { x with phase := .active, takenSeq := s.dev.seq }
        else if l.phase = .ready ∧ s.dev.hostDie l = die ∧ l.readySeq < x.readySeq then
          { l with passes := l.passes + 1, strict := l.strict || decide (1024 ≤ l.passes + 1) }
        else l) ∧
  (∀ (s : State) (die : Nat) (l : Launch), s.dev.reserving die = some l → l.isPlc = false → l.proAddr = 0 → l.back = [] →
    l.reserved.length = l.units → l.reserved.Nodup → (∀ c ∈ l.reserved, (s.ctxOf c).run = .off ∧ (s.ctxOf c).unit = none ∧
      s.dev.coreUp (coreOf c) = true ∧ s.fits l c = true) → ∃ t, exec (.gangAdmit die) s = .next t ∧
      (∀ n c, n < l.units → l.reserved[n]? = some c → (t.ctxOf c).run = .running ∧ (t.ctxOf c).unit = some (l.nestUnit n) ∧
        (t.ctxOf c).asid = l.asid ∧ (t.ctxOf c).pc = BitVec.ofNat 64 (field l.record 8 8 % 2 ^ 55 / 4 * 4)) ∧
      (∀ c, c ∉ l.reserved → t.ctxOf c = s.ctxOf c) ∧ t.mem = s.mem)

/-- R304, R308, R309, R311 (what fits a context, log 30): the walker gives a free context the next unit of the first active launch that it
fits, of its die or a range stolen from another device (log 67); of a placed launch the units of one logical core go out in ascending order, also those that were lost and are handed out again, so
that one that may not go to the core it was lost on (R385) holds the later ones back; the next unit of a running
unit's launch is preloaded where the walker would hand it out next, its ordinal has the other parity and the launch has staging (log 47). R310: a prologue is copied with
app rights (log 31), and its unit is ready. R32, R333: a unit
that is ready starts on its context with the registers that the launch record gives; the two lowest bits of an entry or a vector are not
kept (log 79, the model's choice). -/
def WalkerEvents : Prop :=
  ∀ (s : State) (c : Nat) (l : Launch), c < numContexts →
    (∀ r, l.isPlc = false → l.isPanel = false → l.isGang = false → l.back = [] → s.isFree c = true →
      sortBy (·.takenSeq) (s.dev.handing (dieOfCtx c)) = l :: r → s.fits l c = true → l.head < l.stop →
      ∃ t, exec (.unitHandOut c) s = .next t ∧ t.mem = s.mem ∧ (∀ e, e ≠ c → t.ctxOf e = s.ctxOf e) ∧
        t.ctxOf c = { (s.ctxOf c).newTenure with
          unit := some { l.nestUnit l.head with ready := l.proAddr == 0 }, asid := l.asid } ∧
        t.dev = s.dev.putLaunch { l with head := l.head + 1 }) ∧
    (∀ j u r, l.isPlc = true → l.isPanel = false → l.isGang = false → c % 2 = 0 → s.isFree c = true →
      sortBy (·.takenSeq) (s.dev.handing (dieOfCtx c)) = l :: r → s.fits l c = true → j < l.lcn → s.declared l (coreOf c) j = true →
      (∀ i, i < j → s.declared l (coreOf c) i = false) → u ∈ l.back → u.ord % l.lcn = j →
      (∀ v ∈ l.back, v.ord % l.lcn = j → u.ord ≤ v.ord ∧ (v.ord = u.ord → v = u)) →
      (u.avoid ≠ some (coreOf c) → ∃ t, exec (.unitHandOut c) s = .next t ∧ t.mem = s.mem ∧ (∀ e, e ≠ c → t.ctxOf e = s.ctxOf e) ∧
        t.ctxOf c = { (s.ctxOf c).newTenure with unit := some { u with ready := l.proAddr == 0 }, asid := l.asid } ∧
        t.dev = s.dev.putLaunch { l with back := l.back.erase u }) ∧
      (u.avoid = some (coreOf c) → r = [] → (∀ i, j < i → i < l.lcn → s.declared l (coreOf c) i = false) →
        exec (.unitHandOut c) s = .next s)) ∧
    (∀ u r, l.isPlc = false → l.isPanel = false → l.isGang = false → l.back = [] → (s.ctxOf c).unit = some u →
      (s.ctxOf c).preload = none → (s.ctxOf c).run = .running → u.arm = l.arm → l.stgsz ≠ 0 →
      sortBy (·.takenSeq) (s.dev.handing (dieOfCtx c)) = l :: r → s.fits l c = true → l.head < l.stop → l.head % 2 ≠ u.ord % 2 →
      ∃ t, exec (.unitPreload c) s = .next t ∧ t.mem = s.mem ∧ (∀ e, e ≠ c → t.ctxOf e = s.ctxOf e) ∧
        t.ctxOf c = { s.ctxOf c with preload := some { l.nestUnit l.head with ready := l.proAddr == 0 } } ∧
        t.dev = s.dev.putLaunch { l with head := l.head + 1 }) ∧
    (∀ u w ks s1, (s.ctxOf c).unit = some u → (s.ctxOf c).run = .off → u.ready = false → s.dev.launchOf u.arm = some l →
      l.prologue u = some w → s.checkElems (coreOf c) l.asid .app w w.elems = (.ok ks, s1) →
      (∀ q ∈ ks, ∀ a, q.1 = some a → s1.refuses a = false) → Takes s1 (s1.moveBytes ks) →
      ∃ t, exec (.prologueComplete c) s = .next t ∧ t.mem = s1.mem.setAll (s1.moveBytes ks) ∧
        t.ctxOf c = { s1.ctxOf c with unit := some { u with ready := true } } ∧ ∀ e, e ≠ c → t.ctxOf e = s1.ctxOf e) ∧
    (∀ u, (s.ctxOf c).unit = some u → (s.ctxOf c).run = .off → u.ready = true → s.dev.launchOf u.arm = some l →
      ∃ t, exec (.unitStart c) s = .next t ∧ t.mem = s.mem ∧ t.dev = s.dev ∧ (∀ e, e ≠ c → t.ctxOf e = s.ctxOf e) ∧
        (t.ctxOf c).run = .running ∧ (t.ctxOf c).unit = some u ∧ (t.ctxOf c).priv = .app ∧ (t.ctxOf c).asid = l.asid ∧
        (t.ctxOf c).pc = BitVec.ofNat 64 (field l.record 8 8 % 2 ^ 55 / 4 * 4) ∧
        (t.ctxOf c).tvec = (if field l.record 152 8 = 0 then (s.ctxOf c).tvec else BitVec.ofNat 64 (field l.record 152 8 % 2 ^ 55 / 4 * 4)) ∧
        (t.ctxOf c).getX 2 = BitVec.ofNat 64 (field l.record 16 8) ∧
        (∀ k, k < 8 → (t.ctxOf c).getX (BitVec.ofNat 5 (3 + k)) = BitVec.ofNat 64 (field l.record (64 + 8 * k) 8)) ∧
        (∀ k, 11 ≤ k → k < 25 → (t.ctxOf c).getX (BitVec.ofNat 5 k) = 0) ∧ (t.ctxOf c).getX 25 = BitVec.ofNat 64 u.ord ∧
        (∀ k, k < 6 → (t.ctxOf c).getX (BitVec.ofNat 5 (26 + k)) = BitVec.ofNat 64 (u.idx.getD k 0)) ∧
        (t.ctxOf c).v = Vector.replicate 64 0 ∧ (t.ctxOf c).facets = Vector.replicate 64 0 ∧
        (t.ctxOf c).tiles = Vector.replicate 4 Tile.empty ∧ (t.ctxOf c).viq = [] ∧ (t.ctxOf c).detm = u.det)

/-- R324 to R326, R418, R420 (which jobs and ASIDs other devices hold, log 18; where a stolen range runs, log 67): a theft request is served
with at most half of what a launch has left, from its end, or with an empty reply, one for the fourth request outstanding at its walker
among them; a request leaves once for a flagged device at the other end of a direct link, where a free context fits the launch, for a record
version that this device accepts, also while a unit is preloaded (log 88); a stolen range that was asked for runs under the copied record.
A tripped device sends none (log 77). -/
def TheftEvents : Prop :=
  (∀ (s : State) (die ctr n thief : Nat) (wait : List (Nat × Nat × Nat × Nat)) (found : Option Launch),
    found = (s.dev.launches.find? fun l => l.die == die && l.ctr == ctr && !l.shadow && l.owner.isNone) →
    wait = s.dev.thefts.erase (die, ctr, n, thief) →
    (∀ l g, found = some l → l.isSteal = true → (l.phase = .ready ∨ l.phase = .active) → (thief, s.jobOf l.asid) ∈ s.dev.peers →
      (thief, l.asid.toNat) ∈ s.dev.peerAsids → (wait.filter fun t => t.1 == die).length + 1 < 4 → g = Nat.min n ((l.stop - l.head) / 2) → g ≠ 0 →
      exec (.theftRequest die ctr n thief) s = .next { s with dev := { s.dev.putLaunch { l with
          stop := l.stop - g, stolen := l.stolen ++ [(thief, l.stop - g, l.stop)] } with
        thefts := wait, outbox := s.dev.outbox ++ [⟨2, thief, [die, ctr, l.stop - g, l.stop], l.blob⟩] } }) ∧
    ((∀ l, found = some l → l.isSteal = false ∨ (l.phase ≠ .ready ∧ l.phase ≠ .active) ∨ (thief, s.jobOf l.asid) ∉ s.dev.peers ∨
        (thief, l.asid.toNat) ∉ s.dev.peerAsids ∨ 4 ≤ (wait.filter fun t => t.1 == die).length + 1 ∨ Nat.min n ((l.stop - l.head) / 2) = 0) →
      exec (.theftRequest die ctr n thief) s = .next { s with dev := { s.dev with
        thefts := wait, outbox := s.dev.outbox ++ [⟨2, thief, [die, ctr, 0, 0], []⟩] } })) ∧
  (∀ (s : State) (victim die ctr lo hi : Nat) (blob : List Byte),
    ((victim, die, ctr) ∈ s.dev.asked → lo < hi → field blob 7 1 = 1 → ∃ t l, exec (.theftReply victim die ctr lo hi blob) s = .next t ∧
      t.dev.launches = s.dev.launches ++ [l] ∧ l.head = lo ∧ l.stop = hi ∧ (l.phase = .active ∨ l.phase = .ready ∧ l.strict = true) ∧
      l.record = slice blob 0 256 ∧ l.space = slice blob 256 64 ∧ l.asid.toNat = field blob 576 2 % 2 ^ 13 ∧
      l.owner = some (victim, die, ctr, field blob 578 8) ∧ t.dev.asked = s.dev.asked.erase (victim, die, ctr) ∧
      (l.phase = .active → (s.dev.inPhase l.die .active).length < 8) ∧ t.ctx = s.ctx ∧ t.mem = s.mem) ∧
    ((victim, die, ctr) ∉ s.dev.asked → exec (.theftReply victim die ctr lo hi blob) s = .next s)) ∧
  (∀ (u v : State) (walker victim die ctr ver lg tr n : Nat) (r : List Move), u.moves = .steal walker victim die ctr ver lg tr n :: r →
    v = { u.tick with moves := r } →
    let fits := fun (c : Nat) => v.isFree c = true ∧ 1 ≤ lg ∧ lg ≤ (v.avail c).1 ∧ 1 ≤ tr ∧ tr ≤ (v.avail c).2
    (v.dev.win.state ≠ 6 → ver = 1 → v.dev.flagged.getLsbD victim = true → (∃ c ∈ ctxsOf walker, fits c) →
      (∀ c ∈ ctxsOf walker, (v.ctxOf c).unit = none ∨ (v.ctxOf c).run ≠ .off) → (∃ l ∈ v.dev.links, l.up = true ∧ l.peer = victim) →
      (∀ a ∈ v.dev.asked, a.1 ≠ victim) → step u = .next { v with dev := { v.dev with
        asked := v.dev.asked ++ [(victim, die, ctr)], outbox := v.dev.outbox ++ [⟨5, victim, [die, ctr, n, v.dev.win.domain], []⟩] } }) ∧
    ((v.dev.win.state = 6 ∨ ver ≠ 1 ∨ v.dev.flagged.getLsbD victim = false ∨ (∀ c ∈ ctxsOf walker, ¬ fits c) ∨ (∀ l ∈ v.dev.links, l.up = true → l.peer ≠ victim) ∨
      (∃ a ∈ v.dev.asked, a.1 = victim)) → step u = .next v))

end Sys2Proof.Claims

/-- R14, R18, R31, R45, R137, R217, R221 to R223, R245, R248, R312, R316, R341, R343, R360, R371, R403: the events of a context: asynchronous
causes, what its oldest queue entry does, the ends of waits, and its accesses on their way. The model's choices: when stores are performed (log 7), and which line is the oldest (log 54). -/
def Obligations.ContextEvents : Prop := AsyncCauses ∧ HeadGoesOn ∧ WaitEvents ∧ AccessEvents

/-- R30, R208, R252, R255 to R257, R259, R260, R262 to R264, R266, R320, R324, R330, R331, R384: the copy engine, completion counters, and
arrivals of other devices. The model's choices: when a command's bytes move (log 14), that an increment for another arming does not count
and what DEVICE_MEMBER_ARRIVAL names (log 46), the address of a condition between two blocks (log 48), and the flags that a walker has (log
88). -/
def Obligations.EngineAndCounterEvents : Prop := EngineEvents ∧ EngineElements ∧ CounterEvents ∧ ClaspEvents

/-- R32, R304, R308 to R311, R313, R315, R324 to R326, R333, R418, R420: the dispatcher, the walker and theft. The model's choices: logs 14,
16, 18, 30, 31, 47, 67, 77, 79, 86 and 88. -/
def Obligations.DispatchEvents : Prop := DispatcherEvents ∧ WalkerEvents ∧ TheftEvents

namespace Sys2Proof.Claims

/-- R226, R227, R269, R279, R414, R425 (bytes without a location, log 34): an owed regeneration run starts and reads what it needs; at its end
its writes are performed and its generation word is one more, read and written in one access; each store of a TRIG word counts, and at a
multiple of N a run is owed, at most one behind the one in progress or to start. Registering appends a descriptor, or is refused;
unregistering removes one, after its run where one is in progress. A random fill is kept with its writes, and performed at its end
likewise. That a tripped device takes no registration (log 77) and that the engines rest while HBM is not awake (log 35) are the model's
choices, beside R423 and R425; so is that a fill's words are all performed with its GEN word (log 83). -/
def RegenEvents : Prop :=
  (∀ (s s1 : State) (k : Nat) (r : Regen) (f : Fill), s.dev.hbmAwake = true → s.dev.regens[k]? = some r → r.owed ≠ 0 → r.running = none →
    s.regenRun r.addr.toNat = (f, s1) → exec (.regenerationRun k) s = .next { s1 with dev := { s1.dev with
      regens := s1.dev.regens.set k { r with owed := r.owed - 1, running := some f } } }) ∧
  (∀ (s : State) (k : Nat) (r : Regen) (f : Fill) (m : Memory), s.dev.hbmAwake = true → s.dev.regens[k]? = some r → r.running = some f → s.dev.eccBad = [] →
    s.dev.snap = none → (∀ w ∈ f.writes, s.refuses w.1 = false) → (∀ g j, f.gen = some g → j < 8 → s.refuses (g + j) = false) →
    m = s.mem.setAll f.writes → ∃ t, exec (.regenerationRunComplete k) s = .next t ∧ t.ctx = s.ctx ∧ t.others = s.others ∧
      (f.gen = none → t.mem = m) ∧
      (∀ g, f.gen = some g → t.mem = m.setAll (writesAt g (leBytes 8 (({ s with mem := m } : State).natAt g 8 + 1)))) ∧
      (r.drop = true → t.dev.regens.length + 1 = s.dev.regens.length) ∧
      (r.drop = false → t.dev.regens = s.dev.regens.set k { r with running := none })) ∧
  (∀ (n : Nat) (r : Regen), r.drop = false →
    (Regen.count1 n r).count = r.count + 1 ∧
    (Regen.count1 n r).owed = if n ≠ 0 ∧ (r.count + 1) % n = 0 then min (r.owed + 1) (if r.running = none then 2 else 1) else r.owed) ∧
  (∀ (s : State) (a : Word), a.toNat % 2 = 0 → s.dev.win.state ≠ 6 →
    (a.toNat % 128 = 0 → s.dev.regens.length < 64 → (s.dev.regens.all fun r => r.addr != a) →
      exec (.regenRegister a) s = .next { s with dev := { s.dev with
        regens := s.dev.regens ++ [⟨a, 0, none, 0, false⟩], win := { s.dev.win with regRefused := false } } }) ∧
    ((a.toNat % 128 ≠ 0 ∨ 64 ≤ s.dev.regens.length ∨ (s.dev.regens.any fun r => r.addr == a)) →
      exec (.regenRegister a) s = .next { s with dev := { s.dev with win := { s.dev.win with regRefused := true } } })) ∧
  (∀ (s : State) (a : Word), a.toNat % 128 = 0 → s.dev.win.state ≠ 6 → (∃ r ∈ s.dev.regens, r.addr = a ∧ r.drop = false) →
    exec (.regenUnregister (a + 1)) s = .next { s with dev := { s.dev with
      regens := (s.dev.regens.map fun r => if r.addr = a then
          { r with owed := if r.running = none then min r.owed 1 else 0, drop := true } else r).filter fun r =>
        r.drop == false || r.running.isSome || r.owed != 0
      win := { s.dev.win with regRefused := false } } }) ∧
  (∀ (s s1 s2 s3 : State) (a : Word) (d : List Byte) (ws : List (Nat × Byte)) (gen : Option Nat), s.dev.hbmAwake = true →
    s.jobBytes a.toNat 64 = (d, s1) → s1.jobWrites (field d 0 8)
      ((List.range (field d 8 8)).flatMap fun n => leBytes 4 (philox (field d 24 8) (field d 32 8) (field d 16 8 + n)).1) = (ws, s2) →
    s2.jobKey .rmw (field d 40 8) = (gen, s3) →
    exec (.rfill a) s = .next { s3 with dev := { s3.dev with fills := s3.dev.fills ++ [⟨ws, gen⟩] } }) ∧
  (∀ (s : State) (a : Word), s.dev.win.state = 6 →
    exec (.regenRegister a) s = .next s ∧ exec (.regenUnregister a) s = .next s) ∧
  (∀ s : State, (s.dev.hbmAwake = true ↔ s.dev.win.state ≠ 6 ∧ s.dev.win.level < 3) ∧ (s.dev.hbmAwake = false → ∀ i : Instr,
    (∃ k a, i = .regenerationRun k ∨ i = .regenerationRunComplete k ∨ i = .rfill a ∨ i = .randomFillDone k) → exec i s = .next s)) ∧
  (∀ (s : State) (k : Nat) (f : Fill), s.dev.hbmAwake = true → s.dev.fills[k]? = some f → Takes s f.writes →
    (f.gen = none → exec (.randomFillDone k) s = .next { s with
      mem := s.mem.setAll f.writes, dev := { s.dev with fills := s.dev.fills.eraseIdx k } }) ∧
    (∀ g n, f.gen = some g → n = ({ s with mem := s.mem.setAll f.writes } : State).natAt g 8 → (∀ j, j < 8 → s.refuses (g + j) = false) →
      exec (.randomFillDone k) s = .next { s with
        mem := (s.mem.setAll f.writes).setAll (writesAt g (leBytes 8 (n + 1)))
        dev := { s.dev with fills := s.dev.fills.eraseIdx k } }))

/-- The greatest magnitude among the finite bf16 values of a list, 0 where it has none (R227). -/
def GreatestMag (ws : List Nat) (m : ℚ) : Prop :=
  (∀ w ∈ ws, ∀ n k e, FType.bf16.decode w = .fin n k e → |ratOf n k e| ≤ m) ∧
    (m = 0 ∨ ∃ w ∈ ws, ∃ n k e, FType.bf16.decode w = .fin n k e ∧ |ratOf n k e| = m)

/-- R227: the codebook of a run. With m and t the greatest magnitudes of the weights and of the template, an entry is BASE(e) × m ÷ t, rounded
once; it is the template's own where m or t is 0 or the template is not finite (log 61), and where it is a zero. -/
def BookOf (base ws book : List Nat) : Prop :=
  ∃ m t : ℚ, GreatestMag ws m ∧ GreatestMag base t ∧ book.length = base.length ∧ ∀ e b c : Nat, base[e]? = some b → book[e]? = some c →
    (m = 0 ∨ t = 0 ∨ (base.any fun w => (FType.bf16.decode w).isFin == false) → c = b) ∧
    ∀ n k x, FType.bf16.decode b = .fin n k x → (ratOf n k x = 0 → c = b) ∧
      (ratOf n k x ≠ 0 → m ≠ 0 → t ≠ 0 → (base.all fun w => (FType.bf16.decode w).isFin) → ∃ fl, RoundsRat .bf16 .rne (ratOf n k x * m / t) (c, fl))

/-- R95: how far a value lies from an entry, none where either is NaN: an infinite entry lies beyond every finite one, and from an infinite
value the entries lie in the order of their numbers. -/
def farOf : FVal → FVal → Option (ℤ × ℚ)
  | .fin n k e, .fin n' k' e' => some (0, |ratOf n k e - ratOf n' k' e'|)
  | .fin _ _ _, .inf _ => some (1, 0)
  | .inf neg, .fin n k e => some (1, if neg then ratOf n k e else -ratOf n k e)
  | .inf p, .inf q => some (if p = q then 0 else 2, 0)
  | _, _ => none

/-- R95, R227: the code of a weight under a codebook: the nearest entry, among equals an even code and then the smaller; 0 where there is none. -/
def CodeOf (book : List Nat) (w k : Nat) : Prop :=
  let far := fun i => farOf (FType.bf16.decode w) (FType.bf16.decode (book.getD i 0))
  ((∀ i, i < 16 → far i = none) → k = 0) ∧
    ((∃ i, i < 16 ∧ far i ≠ none) → k < 16 ∧ ∃ f, far k = some f ∧ ∀ i g, i < 16 → i ≠ k → far i = some g →
      lessRank f g ∨ (f = g ∧ (k % 2 < i % 2 ∨ (k % 2 = i % 2 ∧ k < i))))

/-- R226, R227: what a run on the descriptor at an address will write: to OUT[(g + 1) mod 2], g the GEN word, the codebook of 16 bf16 values
and from byte 32 on the codes of each row, two to a byte, the first of them low (R94); to NANC, at byte 96 of the descriptor, the number of
NaN weights more; and GEN goes up at its end. -/
def RegenEffect : Prop :=
  ∀ (s s1 s2 s3 : State) (a rows : Nat) (d master g : List Byte) (w : Nat → Nat), s.jobBytes a 128 = (d, s1) → rows = field d 12 4 →
    s1.jobBytes (field d 16 8) (192 * rows) = (master, s2) → (∀ i, w i = field master (2 * i) 2) → s2.jobBytes (field d 40 8) 8 = (g, s3) →
    ∃ (out : List Byte) (book : List Nat) (ws ns : List (Nat × Byte)) (gen : Option Nat) (s4 s5 s6 : State),
      BookOf ((List.range 16).map fun e => field d (64 + 2 * e) 2) ((List.range (96 * rows)).map w) book ∧
      out.length = 32 + 48 * rows ∧ (∀ e, e < 16 → book[e]? = some (field out (2 * e) 2)) ∧
      (∀ r j, r < rows → j < 96 → CodeOf book (w (96 * r + j)) (field out (32 + 48 * r + j / 2) 1 / 16 ^ (j % 2) % 16)) ∧
      s3.jobWrites (field d (24 + 8 * ((leNat g + 1) % 2)) 8) out = (ws, s4) ∧
      s4.jobWrites (a + 96) (leBytes 8 (field d 96 8 + ((List.range (96 * rows)).countP fun i => (FType.bf16.decode (w i)).isNan))) = (ns, s5) ∧
      s5.jobKey .rmw (field d 40 8) = (gen, s6) ∧ s.regenRun a = (⟨ws ++ ns, gen⟩, s6)

/-- R224, R225, R410, R414 (line n of the cut lies at offset 64 × n, log 32; the area, log 10): a line of the snapshot in progress is copied as
it stood at the cut, or ends the copying where it does not fit; the first write to a line that is not copied copies it before it changes
it; at the end the generation word is one more, with bit 63 where a line did not fit. The model's choices: that nothing is copied while HBM
is not awake (log 35), and that the generation word is found under ASID 0 with the rights of hyp (log 93). -/
def SnapshotEvents : Prop :=
  (∀ s : State, s.dev.hbmAwake = false → ∀ i : Instr, (i = .snapshotComplete ∨ ∃ asid va, i = .snapshotLineCopy asid va) →
    exec i s = .next s) ∧
  (∀ (s : State) (asid : BitVec 13) (va : Word) (e level key n : Nat) (l : Loc) (p : Snap), s.dev.hbmAwake = true →
    s.walk asid va.toNat = .leaf e level key →
    s.locOf asid va.toNat ⟨e, levelBits level, areaOf key == 5, true⟩ .load = .ok l → s.dev.snap = some p → indexIn (l.key / 64 * 64) p.lines 0 = some n →
    l.key / 64 * 64 ∉ p.copied → p.overflow = false →
    (64 * n + 64 ≤ p.size → s.dev.eccBad = [] →
      (∀ j, j < 64 → s.refuses (reservedKey (Config.snapAreaOff + p.base + 64 * n) + j) = false) →
      exec (.snapshotLineCopy asid va) s = .next { s with
        mem := s.mem.setAll (writesAt (reservedKey (Config.snapAreaOff + p.base + 64 * n))
          ((List.range 64).map fun j => p.image.get (l.key / 64 * 64 + j)))
        dev := { s.dev with snap := some { p with copied := l.key / 64 * 64 :: p.copied } } }) ∧
    (p.size < 64 * n + 64 → exec (.snapshotLineCopy asid va) s = .next { s with
      dev := { s.dev with snap := some { p with overflow := true } } })) ∧
  (∀ (s : State) (a v : Word) (n k i : Nat) (p : Snap), (n = 1 ∨ n = 2 ∨ n = 4 ∨ n = 8) → a.toNat % n = 0 → a.toNat + n ≤ 704 * 2 ^ 30 →
    s.dev.win.state ≠ 6 → s.dev.win.level < 3 → a.toNat / 2 ^ 30 / 44 ∉ s.dev.lostStacks → s.dev.snap = some p →
    k = cxlKey a.toNat / 64 * 64 → p.lines.Nodup → indexIn k p.lines 0 = some i → k ∉ p.copied → p.overflow = false → 64 * i + 64 ≤ p.size →
    s.dev.eccBad = [] → s.dev.regens = [] → s.dev.refusing = [] → exec (.hostMemoryAccess true a n v) s = .next { s with
      mem := (s.mem.setAll (writesAt (reservedKey (Config.snapAreaOff + p.base + 64 * i))
        ((List.range 64).map fun j => p.image.get (k + j)))).setAll (writesAt (cxlKey a.toNat) (leBytes n v.toNat))
      dev := { s.dev with snap := some { p with copied := k :: p.copied } } }) ∧
  (∀ (s s1 : State) (p : Snap) (l : Loc) (g : Nat), s.dev.hbmAwake = true → s.dev.snap = some p → (p.overflow = true ∨ ∀ k ∈ p.lines, k ∈ p.copied) →
    ({ s with dev := { s.dev with snap := none } } : State).translate 0 .hyp .rmw p.gen = (.ok l, s1) → s1.dev.eccBad = [] → (∀ j, j < 8 → s1.refuses (l.key + j) = false) → g = s1.natAt l.key 8 % 2 ^ 63 →
    exec .snapshotComplete s = .next { s1 with
      mem := s1.mem.setAll (writesAt l.key (leBytes 8 ((g + 1) % 2 ^ 63 + if p.overflow then 2 ^ 63 else 0))) })

/-- R226, R227: stores that are performed count once each at the TRIG word that their bytes meet, and those that do not meet it never do:
for the stores of any agent, for a host store to HBM, and for a scalar store (performed at once, log 7; which other stores count, log 22).
Stated with one descriptor registered, whose TRIG word and period are as the translations under job 0 give them: they are read again at each
store, and not kept from the registration, as the model's choice (log 93). -/
def TriggerCounts : Prop :=
  (∀ (s s1 : State) (parts : List (Nat × Nat)) (r : Regen) (key n : Nat), s.dev.regens = [r] → s.trigOf r.addr = (some (key, n), s1) →
    s1.dev.regens = [r] → parts ≠ [] → s.noteStores parts = { s1 with dev := { s1.dev with
      regens := [(Regen.count1 n)^[(parts.filter fun q => decide (key < q.1 + q.2 ∧ q.1 < key + 8)).length] r] } }) ∧
  (∀ (s s1 : State) (a v : Word) (w key n : Nat) (r : Regen), (w = 1 ∨ w = 2 ∨ w = 4 ∨ w = 8) → a.toNat % w = 0 → a.toNat + w ≤ 704 * 2 ^ 30 →
    s.dev.win.state ≠ 6 → s.dev.win.level < 3 → a.toNat / 2 ^ 30 / 44 ∉ s.dev.lostStacks → s.dev.eccBad = [] → s.dev.snap = none →
    s.dev.refusing = [] → s.dev.regens = [r] →
    ({ s with mem := s.mem.setAll (writesAt (cxlKey a.toNat) (leBytes w v.toNat)) } : State).trigOf r.addr = (some (key, n), s1) →
    s1.dev.regens = [r] → exec (.hostMemoryAccess true a w v) s = .next { s1 with dev := { s1.dev with
      regens := [if key < cxlKey a.toNat + w ∧ cxlKey a.toNat < key + 8 then Regen.count1 n r else r] } }) ∧
  ∀ (i : Instr) (s s1 : State) (x a : BitVec 5) (o : BitVec 16) (n : Nat) (p : Place) (r : Regen),
    storeForm i = some (x, a, o, n) → PathClear s → Plain s1 p.loc.key n → s1.dev.holdStores = false → s1.dev.regens = [r] →
    s1.dev.snap = none → s1.dev.eccBad = [] → (s.ctx.detm = false ∨ p.loc.hs = true) →
    s.aligned 0 .store none n (s.getX a + o.signExtend 64) = (.ok p, s1) → ∃ t u : State, exec i s = .next t ∧
      u = { s1 with mem := s1.mem.setAll (writesAt p.loc.key (leBytes n (s.getX x).toNat)), ctx := u.ctx } ∧
      ∀ key m u1, u.trigOf r.addr = (some (key, m), u1) → u1.dev.regens = [r] →
        t.dev.regens = [if key < p.loc.key + n ∧ p.loc.key < key + 8 then Regen.count1 m r else r]

/-- The value of the replace register (R393, R413). -/
def replaceWord (reason part spare die : Nat) : Word := BitVec.ofNat 64 (reason + part * 2 ^ 8 + spare * 2 ^ 16 + die * 2 ^ 24)

/-- R367, R388, R389, R393: the far side comes to refuse a page, or takes it again (log 33); a word becomes uncorrectable, which is counted
where ERRCNT has its part (log 42): stated for a context without waiting stores. A stack that is lost ends the stores that were writing to
it, each with a machine check of its context; a part whose errors pass the threshold is reported. -/
def ErrorEvents : Prop :=
  (∀ (s u : State) (c k : Nat) (a : Word) (l : Loc), c < numContexts → u = s.turnTo c → u.ctx.stores = [] →
    (u.translate u.ctx.asid .hyp .load a).1 = .ok l →
    ((areaOf l.key = 4 ∨ areaOf l.key = 6) → l.key / 65536 ∉ u.dev.refusing → exec (.remoteRefusal c a) s =
      .next (({ u with dev := { u.dev with refusing := l.key / 65536 :: u.dev.refusing } } : State).turnTo s.cur)) ∧
    ((areaOf l.key = 4 ∨ areaOf l.key = 6) → l.key / 65536 ∈ u.dev.refusing → exec (.remoteRefusal c a) s =
      .next (({ u with dev := { u.dev with refusing := u.dev.refusing.filter (· != l.key / 65536) } } : State).turnTo s.cur)) ∧
    (areaOf l.key ≠ 7 → l.key / 8 ∉ u.dev.eccBad → exec (.partialStoreError c a) s =
      .next (({ u with dev := { u.dev.countLost l.key with eccBad := l.key / 8 :: u.dev.eccBad } } : State).turnTo s.cur)) ∧
    (areaOf l.key = 0 → l.key / 2 ^ 36 < 16 → (0x1000 + 8 * (424 + 2 * (l.key / 2 ^ 36) + 1)) = k →
      lookup k (u.dev.countLost l.key).win.errcnt = some ((lookup k u.dev.win.errcnt).getD 0 + 1))) ∧
  (∀ (s : State) (k : Nat) (hits : Nat → Bool), k < 16 → k ∉ s.dev.lostStacks →
    hits = (fun key => areaOf key == 0 && key / 2 ^ 36 == k) → ∃ t, exec (.hbmStackLost k) s = .next t ∧
      t.dev.lostStacks = k :: s.dev.lostStacks ∧ t.dev.win.replace = replaceWord 3 0 0 (k / 4) ∧
      t.dev.win.msix = s.dev.win.msix ++ [3] ∧
      (∀ c ∈ s.touched, (t.ctxOf c).pMcheck.length = (s.ctxOf c).pMcheck.length + ((s.ctxOf c).writing hits).length ∧
        ((t.ctxOf c).writing hits) = []) ∧
      ((∀ c ∈ s.touched, (s.ctxOf c).writing hits = []) → t.mem = s.mem ∧ t.ctx = s.ctx)) ∧
  (∀ (s : State) (k : Nat), k < 512 → ∃ t, exec (.softErrorThreshold k) s = .next t ∧
    lookup (0x1000 + 8 * k) t.dev.win.errcnt = some ((lookup (0x1000 + 8 * k) s.dev.win.errcnt).getD 0 + 1) ∧
    t.dev.win.replace = replaceWord 7 0 0 0 ∧ t.dev.win.msix = s.dev.win.msix ++ [3] ∧ t.mem = s.mem ∧ t.ctx = s.ctx)

/-- What an accepted launch keeps through a failure of a part (R387, R395): its record and blocks, its counter, what is still to be handed
out, and what was lost of it. -/
def SameWork (l l' : Launch) : Prop :=
  l'.arm = l.arm ∧ l'.die = l.die ∧ l'.ctr = l.ctr ∧ l'.record = l.record ∧ l'.space = l.space ∧ l'.pro = l.pro ∧ l'.proNest = l.proNest ∧
    l'.cba = l.cba ∧ l'.asid = l.asid ∧ l'.head = l.head ∧ l'.stop = l.stop ∧ l'.cores = l.cores ∧ l'.curR = l.curR ∧ l'.curC = l.curC ∧
    l'.band = l.band ∧ l'.lost = l.lost ∧ l'.failed = l.failed

/-- Each unit that ran on the core is a unit of its launch to be handed out again, and not to that core (R385). -/
def UnitsReturn (s t : State) (core : Nat) : Prop :=
  ∀ c ∈ s.touched, coreOf c = core → ∀ u l, (s.ctxOf c).unit = some u → s.dev.launchOf u.arm = some l →
    ∃ l', t.dev.launchOf u.arm = some l' ∧ ∃ v ∈ l'.back, v.ord = u.ord ∧ v.idx = u.idx ∧ v.avoid = some core

/-- R387, R395: the lost die's counters stand in the shadow bank with their values, an increment on its way to one goes there too, and its
launches are accepted still, are counted there, and are ready again in the order of acceptance; their units that run elsewhere count there
from now on, and the kept writers of a DET launch (R223) stay its own. Stated for launches that are restartable and wait for no counter. -/
def MirrorRebuilds (s t : State) (die : Nat) : Prop :=
  (∀ l ∈ s.dev.launches, l.isRst = true ∧ l.phase ≠ .waiting) → (∀ p ∈ s.dev.shadow, p.1 / 8192 ≠ die) →
    (∀ key, t.dev.counter false key = if key / 8192 = die then none else s.dev.counter false key) ∧
    (∀ key, t.dev.counter true key = if key / 8192 = die then s.dev.counter false key else s.dev.counter true key) ∧
    t.dev.incs = (s.dev.incs.map fun i => if i.key / 8192 = die then { i with shadow := true } else i) ∧ t.dev.writers = s.dev.writers ∧
    (∀ core, core / 52 = die → UnitsReturn s t core) ∧
    (∀ arm l, s.dev.launchOf arm = some l → l.owner = none → ∃ l', t.dev.launchOf arm = some l' ∧ SameWork l l' ∧
      (l.die ≠ die → l'.shadow = l.shadow) ∧ (l.die = die → l.shadow = false → l'.shadow = true ∧ (∀ v ∈ l'.back, v.shadow = true) ∧
        ∀ c ∈ s.touched, coreOf c / 52 ≠ die → ∀ u, (s.ctxOf c).unit = some u → u.arm = arm → u.die = die →
          (t.ctxOf c).unit = some { u with shadow := true })) ∧
    ∀ a b l m, a < b → s.dev.launchOf a = some l → s.dev.launchOf b = some m → (∀ k ∈ [l, m], k.die = die ∧ k.owner = none ∧
        k.shadow = false ∧ (k.phase = .ready ∨ k.phase = .active)) →
      ∃ l' m', t.dev.launchOf a = some l' ∧ t.dev.launchOf b = some m' ∧ l'.phase = .ready ∧ m'.phase = .ready ∧
        s.dev.seq ≤ l'.readySeq ∧ l'.readySeq < m'.readySeq ∧ m'.readySeq < t.dev.seq

/-- R385, R392 to R395: a core that fails gives its place to the lowest idle spare of its die, or leaves its die with fewer cores; its contexts
stop, its polder is lost, no logical core is placed on it, the host is told, and the context that MCTGT names has a machine check to take at
hyp; the units of restartable launches are to run elsewhere, and no counter changes. A die that is lost takes its cores, their polders and its
four stacks with it, and its journal mirror rebuilds its counters and launches, whose lost units are counted there. Where nothing is recorded
(no ring is registered), all other memory is as before; a lost polder reads as memory without contents does (log 3). -/
def FailureEvents : Prop :=
  (∀ (s : State) (die slot core : Nat), slot < 52 → core = die * 52 + slot → s.dev.alive core = true → core ∉ s.dev.spares →
    ∃ t, exec (.coreFailed die slot) s = .next t ∧ core ∈ t.dev.failed ∧ core ∉ t.dev.enabled ∧ (∀ j n, t.dev.physCore j n ≠ some core) ∧
      (∀ p, s.dev.spareOf die = some p → p ∈ t.dev.enabled ∧ p ∉ t.dev.spares ∧ t.dev.win.replace = replaceWord 1 slot (p % 52) die) ∧
      (s.dev.spareOf die = none → t.dev.enabled = s.dev.enabled.filter (· != core) ∧ t.dev.win.replace = replaceWord 2 slot 0 die) ∧
      3 ∈ t.dev.win.msix ∧ (∀ m, t.mcTarget = some m → ∃ p ∈ (t.ctxOf m).pMcheck, p.hyp = true) ∧
      (∀ c ∈ s.touched, coreOf c = core → (t.ctxOf c).run = .stopped ∧ (t.ctxOf c).unit = none) ∧
      ((∀ l ∈ s.dev.launches, l.isRst = true) → UnitsReturn s t core ∧ t.dev.counters = s.dev.counters ∧ t.dev.shadow = s.dev.shadow ∧
        (∀ arm l, s.dev.launchOf arm = some l → ∃ l', t.dev.launchOf arm = some l' ∧ SameWork l l') ∧
        (s.mem.wf = true → s.dev.mcRings = [] →
          (∀ off, off < 2 ^ 21 → t.mem.get (polderKey core off) = 0) ∧
          ∀ a, (∀ off, off < 2 ^ 21 → a ≠ polderKey core off) → t.mem.get a = s.mem.get a))) ∧
  (∀ (s : State) (die : Nat), die < 4 → die ∉ s.dev.lostDies →
    ∃ t, exec (.dieLost die) s = .next t ∧ t.dev.lostDies = die :: s.dev.lostDies ∧ (∀ k, k < 4 → 4 * die + k ∈ t.dev.lostStacks) ∧
      t.dev.win.replace = replaceWord 6 0 0 die ∧ (∀ p ∈ t.dev.counters, p.1 / 8192 ≠ die) ∧
      (∀ c ∈ s.touched, coreOf c / 52 = die → (t.ctxOf c).run = .stopped ∧ (t.ctxOf c).unit = none) ∧ MirrorRebuilds s t die ∧
      ((∀ l ∈ s.dev.launches, l.isRst = true ∧ l.phase ≠ .waiting) → s.mem.wf = true → s.dev.mcRings = [] →
        (∀ slot off, slot < 52 → off < 2 ^ 21 → t.mem.get (polderKey (die * 52 + slot) off) = 0) ∧
        ∀ a, (∀ slot off, slot < 52 → off < 2 ^ 21 → a ≠ polderKey (die * 52 + slot) off) → t.mem.get a = s.mem.get a))

/-- R367, R393, R418, R421, R422: a trained link is up at full width with its peer's jobs known (log 18), or stays down and is reported; a link
that loses lanes runs on 4; a lost link is down, and without any link no device has a path (log 24); the device takes gts from its domain
before it is ready, and later gts follows the domain's and never decreases. -/
def LinkEvents : Prop :=
  (∀ (s : State) (n peer lo hi : Nat) (l : Link), s.dev.links[n]? = some l →
    (lo ≤ 1 → 1 ≤ hi → peer < 64 → peer ≠ s.dev.win.domain → ∃ t, exec (.linkTraining n peer lo hi) s = .next t ∧
      t.dev.links = s.dev.links.set n ⟨true, peer, 8, 1⟩ ∧ t.dev.cutOff = [] ∧
      (∀ d j, d ≠ peer → ((d, j) ∈ t.dev.peers ↔ (d, j) ∈ s.dev.peers)) ∧
      (∀ j, j < 256 → ((peer, j) ∈ t.dev.peers ↔ Config.residentOn peer j = true)) ∧
      (∀ a, a < 8192 → ((peer, a) ∈ t.dev.peerAsids ↔ Config.asidOn peer a = true)) ∧
      ((∀ k ∈ s.dev.links, k.up = false) → t.dev.gtsTaken = false ∧ t.dev.inTime = false) ∧ t.mem = s.mem ∧ t.ctx = s.ctx) ∧
    (¬(lo ≤ 1 ∧ 1 ≤ hi) ∨ 64 ≤ peer ∨ peer = s.dev.win.domain → ∃ t, exec (.linkTraining n peer lo hi) s = .next t ∧
      t.dev.links = s.dev.links.set n { l with up := false } ∧ t.dev.win.replace = replaceWord 5 n 0 0 ∧ t.dev.peers = s.dev.peers) ∧
    (l.up = true → ∃ t, exec (.linkLanesFailed n) s = .next t ∧ t.dev.links = s.dev.links.set n { l with lanes := 4 } ∧
      t.dev.win.replace = replaceWord 4 n 0 0 ∧ t.mem = s.mem ∧ t.ctx = s.ctx) ∧
    (l.up = true → ∃ t, exec (.linkLost n) s = .next t ∧ t.dev.links = s.dev.links.set n { l with up := false } ∧
      t.dev.win.replace = replaceWord 5 n 0 0 ∧ t.mem = s.mem ∧ t.ctx = s.ctx ∧
      ((∀ k ∈ t.dev.links, k.up = false) → ∀ d j, (d, j) ∈ s.dev.peers → d ∈ t.dev.cutOff))) ∧
  (∀ (s : State) (g : Word), exec (.gtsSync g) s = .next { s with
    gts := if s.dev.win.state < 4 then g.toNat else max s.gts g.toNat, dev := { s.dev with gtsTaken := true } })

/-- R390, R412, R413, R414, R416, R422, R424: what the host does: an aligned store to HBM is performed and a load changes nothing; the registers
of the control window that only hold their value hold what is written, a write of one with a behaviour of its own is that behaviour, and one
of any other offset changes nothing (log 19); what the window reads, where the place of each error count is log 42; a machine-check ring and
a job ring are registered; a read of REPLACE clears it. -/
def HostEvents : Prop :=
  ∀ (s : State) (v : Word),
    (∀ a n, (n = 1 ∨ n = 2 ∨ n = 4 ∨ n = 8) → a.toNat % n = 0 → a.toNat + n ≤ 704 * 2 ^ 30 → s.dev.win.state ≠ 6 → s.dev.win.level < 3 →
      a.toNat / 2 ^ 30 / 44 ∉ s.dev.lostStacks → Takes s (writesAt (cxlKey a.toNat) (leBytes n v.toNat)) →
      exec (.hostMemoryAccess true a n v) s = .next { s with mem := s.mem.setAll (writesAt (cxlKey a.toNat) (leBytes n v.toNat)) } ∧
      exec (.hostMemoryAccess false a n v) s = .next s) ∧
    (∀ off, off ∉ [0x08, 0x20, 0x30, 0x38, 0x68, 0x80, 0x88, 0x90, 0xA8, 0xB0] → exec (.controlWindowWrite off v) s = .next { s with dev := { s.dev with win := { s.dev.win with
      hentry := if off = 0x18 then v else s.dev.win.hentry, snapBase := if off = 0x48 then v else s.dev.win.snapBase
      snapGen := if off = 0x50 then v else s.dev.win.snapGen, mctgt := if off = 0x58 then v else s.dev.win.mctgt
      mcsel := if off = 0x60 then v else s.dev.win.mcsel, jrsel := if off = 0x70 then v else s.dev.win.jrsel
      jraddr := if off = 0x78 then v else s.dev.win.jraddr, snapSz := if off = 0xC0 then v else s.dev.win.snapSz } } }) ∧
    (exec (.controlWindowWrite 0x08 v) s = exec (.boot v) s ∧ exec (.controlWindowWrite 0x20 v) s = exec (.plreq v) s ∧
      exec (.controlWindowWrite 0x30 v) s = exec (.twarn v) s ∧ exec (.controlWindowWrite 0x38 v) s = exec (.ttrip v) s ∧
      exec (.controlWindowWrite 0x68 v) s = exec (.mcaddr v) s ∧ exec (.controlWindowWrite 0x80 v) s = exec (.jrctr v) s ∧
      exec (.controlWindowWrite 0x88 v) s = exec (if v.toNat % 2 = 0 then .regenRegister v else .regenUnregister v) s ∧
      exec (.controlWindowWrite 0x90 v) s = exec (.rfill v) s ∧ exec (.controlWindowWrite 0xA8 v) s = exec (.domain v) s ∧
      exec (.controlWindowWrite 0xB0 v) s = exec (.reset v) s) ∧
    (s.windowRead 0x00 = some 0x01010101 ∧ s.windowRead 0x10 = some (BitVec.ofNat 64 s.dev.win.state) ∧
      s.windowRead 0x98 = some s.dev.win.replace ∧ s.windowRead 0xA0 = some (BitVec.ofNat 64 s.gts) ∧
      (∀ w, s.windowRead 0x28 = some w → w.toNat % 8 = s.dev.win.level % 8 ∧ w.getLsbD 8 = s.dev.win.busy.isSome ∧
        w.getLsbD 9 = s.dev.win.refused ∧ w.getLsbD 10 = s.dev.win.warn ∧ w.getLsbD 11 = s.dev.win.trip ∧ w.toNat < 2 ^ 12) ∧
      (∀ w, s.windowRead 0xB8 = some w → w.getLsbD 63 = s.dev.win.regRefused ∧ (s.dev.regens.length < 128 →
        w.toNat % 2 ^ 63 = s.dev.regens.length)) ∧
      (∀ n, n < 512 → s.windowRead (0x1000 + 8 * n) = some ((lookup (0x1000 + 8 * n) s.dev.win.errcnt).getD 0)) ∧
      ∀ off, 0xC0 < off → off < 0x1000 ∨ 0x2000 ≤ off → s.windowRead off = some 0) ∧
    (∃ t, exec (.mcaddr v) s = .next t ∧ t = { s with dev := { s.dev with win := { s.dev.win with mcaddr := v }, mcRings := t.dev.mcRings } } ∧
      lookup (s.dev.win.mcsel.toNat % 256) t.dev.mcRings = some (v, 0) ∧
      ∀ j, j ≠ s.dev.win.mcsel.toNat % 256 → lookup j t.dev.mcRings = lookup j s.dev.mcRings) ∧
    (exec (.jrctr v) s = .next { s with dev := { s.dev with
      win := { s.dev.win with jrctr := v }
      jobRings := (s.dev.jobRings.filter fun q => q.index != s.dev.win.jrsel.toNat % 256) ++
        [⟨s.dev.win.jrsel.toNat % 256, s.dev.win.jraddr, v.toNat / 2 ^ 13 % 4, v.toNat % 2 ^ 13⟩] } }) ∧
    exec .replace s = .next { s with dev := { s.dev with win := { s.dev.win with replace := 0 } } } ∧
    exec (.domain v) s = .next (if s.dev.win.state = 0 then
      { s with dev := { s.dev with win := { s.dev.win with domain := v.toNat % 64 } } } else s)

/-- A context that is resident on a core in service: it runs or is stopped, or a unit is bound to it or preloaded (R423; log 35). -/
abbrev ResidentIn (s : State) (c : Nat) : Prop :=
  coreOf c ∈ s.dev.enabled ∧ coreOf c / 52 ∉ s.dev.lostDies ∧
    ((s.ctxOf c).run ≠ .off ∨ (s.ctxOf c).unit ≠ none ∨ (s.ctxOf c).preload ≠ none)

/-- A core among the 24 enabled ones in the highest slots of its die (R423). -/
abbrev HighSlot (s : State) (core : Nat) : Prop :=
  (s.dev.enabled.filter fun e => decide (e / 52 = core / 52 ∧ core < e)).length < 24

/-- R423: which levels may be entered. PL0 and PL1 always; PL2 where no context is resident on a core that it gates; PL3 and PL4 where none
is resident anywhere and every channel is empty; 5 to 7 are no levels (log 41, the model's choice). -/
def MayEnter : Prop :=
  ∀ s : State, s.mayEnter 0 = true ∧ s.mayEnter 1 = true ∧
    (s.mayEnter 2 = true ↔ ∀ c, ResidentIn s c → ¬ HighSlot s (coreOf c)) ∧
    (∀ n, n = 3 ∨ n = 4 → (s.mayEnter n = true ↔
      ∀ c, ¬ ResidentIn s c ∧ ∀ k : Fin 8, (s.ctxOf c).ch[k].cmds = [] ∧ (s.ctxOf c).ch[k].started = none)) ∧
    ∀ n, 5 ≤ n → n ≤ 7 → s.mayEnter n = false

/-- R423, R424: a request for a level that may be entered begins the transition at once, or waits for the one in progress; one that may not
is refused with vector 4; at its end the level holds, BUSY is clear and vector 4 is raised. Every level keeps HBM; levels 3 and 4 lose every
context, level 3 what the TLB held too, and level 4 the polders and what the device knew beside. That level 3 keeps the accepted launches and the counters, that a context
lost so has a new tenure, and what level 4 forgets are the model's choices (log 35). -/
def PowerEvents : Prop :=
  ∀ (s : State) (v : Word) (n : Nat), n = v.toNat % 8 → s.dev.win.state ≠ 6 →
    (s.dev.win.busy = none → ∃ t, exec (.plreq v) s = .next t ∧ t.dev.win.plreq = v ∧ t.mem = s.mem ∧ t.ctx = s.ctx ∧
      (s.mayEnter n = true → t.dev.win.busy = some n ∧ t.dev.win.refused = false ∧ t.dev.win.msix = s.dev.win.msix) ∧
      (s.mayEnter n = false → t.dev.win.busy = none ∧ t.dev.win.refused = true ∧ t.dev.win.msix = s.dev.win.msix ++ [4])) ∧
    (∀ b, s.dev.win.busy = some b → ∃ t, exec (.plreq v) s = .next t ∧ t.dev.win.busy = some b ∧ t.dev.win.waiting = some n ∧
      t.mem = s.mem ∧ t.ctx = s.ctx) ∧
    (∀ b, s.dev.win.busy = some b → s.dev.win.waiting = none → ∃ t, exec .powerTransitionDone s = .next t ∧ t.dev.win.level = b ∧
      t.dev.win.busy = none ∧ t.dev.win.msix = s.dev.win.msix ++ [4] ∧
      (s.mem.wf = true → ∀ a, areaOf a = 0 → t.mem.get a = s.mem.get a) ∧
      (b < 2 → t.mem = s.mem ∧ t.ctx = s.ctx) ∧
      (b = 3 → b ≠ s.dev.win.level →
        (∀ c ∈ s.touched, t.ctxOf c = { Ctx.reset (c % 2 == 1) with tenure := (s.ctxOf c).tenure + 1 }) ∧
        t.dev.tlb = [] ∧ t.dev.launches = s.dev.launches ∧ t.dev.counters = s.dev.counters ∧ t.dev.shadow = s.dev.shadow ∧
        (s.mem.wf = true → ∀ a, areaOf a = 1 → t.mem.get a = s.mem.get a)) ∧
      (b = 4 → b ≠ s.dev.win.level → t.ctx = Ctx.reset (s.cur % 2 == 1) ∧ t.others = [] ∧ t.dev.launches = [] ∧ t.dev.counters = [] ∧
        t.dev.peers = [] ∧ t.dev.peerAsids = [] ∧ t.dev.flagged = 0 ∧ t.dev.gtsTaken = false ∧ (∀ l ∈ t.dev.links, l.up = false) ∧
        (s.mem.wf = true → ∀ a, areaOf a = 1 → t.mem.get a = 0)) ∧
      (s.dev.win.level = 4 → b ≠ 4 → t.dev.win.state = 0))

/-- R424, R425 (the sensors' numbers, log 66): limits that keep TWARN below TTRIP and TTRIP at most 110 are taken, and WARN follows the readings;
a sensor that crosses TWARN and one that crosses TTRIP upward raise their vectors, and the second starts a timer; WARN clears once the last
sensor is below TWARN − 3; a timer that ends without a deeper request, and a sensor at 115 °C, by whichever event it is told, trip the
device: every context is lost and the state is tripped. -/
def ThermalEvents : Prop :=
  ∀ (s : State) (v : Word) (n : Nat) (deg : Int),
    (∃ w, exec (.twarn v) s = .next { s with dev := { s.dev with win := { s.dev.win with
        twarn := if v.toInt < s.dev.win.ttrip then v.toInt else s.dev.win.twarn, warn := w } } } ∧
      (v.toInt < s.dev.win.ttrip → (w = true ↔ (∃ m, m < 256 ∧ v.toInt ≤ s.dev.win.temp m) ∨
        s.dev.win.warn = true ∧ ∃ m, m < 256 ∧ v.toInt - 3 ≤ s.dev.win.temp m)) ∧
      (s.dev.win.ttrip ≤ v.toInt → w = s.dev.win.warn)) ∧
    exec (.ttrip v) s = .next { s with dev := { s.dev with win := { s.dev.win with
      ttrip := if s.dev.win.twarn < v.toInt ∧ v.toInt ≤ 110 then v.toInt else s.dev.win.ttrip } } } ∧
    (s.dev.win.state ≠ 6 → n < 256 → ∃ temps, (lookup n temps = some deg ∧ ∀ m, m ≠ n → lookup m temps = lookup m s.dev.win.temps) ∧
      (deg < 115 →
        (s.dev.win.temp n < s.dev.win.twarn → s.dev.win.twarn ≤ deg → deg < s.dev.win.ttrip → exec (.twarnCrossing ⟨n, deg⟩) s =
          .next { s with dev := { s.dev with win := { s.dev.win with temps, warn := true, msix := s.dev.win.msix ++ [0] } } }) ∧
        (deg < s.dev.win.twarn - 3 → deg < s.dev.win.ttrip → (∀ m, m < 256 → m ≠ n → s.dev.win.temp m < s.dev.win.twarn - 3) →
          exec (.warnClear ⟨n, deg⟩) s = .next { s with dev := { s.dev with win := { s.dev.win with temps, warn := false } } }) ∧
        (s.dev.win.temp n < s.dev.win.ttrip → s.dev.win.ttrip ≤ deg → s.dev.win.twarn ≤ deg → exec (.ttripCrossing ⟨n, deg⟩) s =
          .next { s with dev := { s.dev with win := { s.dev.win with
            temps, warn := true, tripTimers := s.dev.win.tripTimers ++ [false]
            msix := s.dev.win.msix ++ (if s.dev.win.temp n < s.dev.win.twarn then [0] else []) ++ [1] } } })) ∧
      (115 ≤ deg → ∀ i : Instr, i = .immediateTrip ⟨n, deg⟩ ∨
          (i = .twarnCrossing ⟨n, deg⟩ ∧ s.dev.win.temp n < s.dev.win.twarn ∧ s.dev.win.twarn ≤ deg) ∨
          (i = .ttripCrossing ⟨n, deg⟩ ∧ s.dev.win.temp n < s.dev.win.ttrip ∧ s.dev.win.ttrip ≤ deg) →
        ∃ t, exec i s = .next t ∧ t.dev.win.state = 6 ∧ t.dev.win.trip = true ∧ t.dev.win.temps = temps ∧ 2 ∈ t.dev.win.msix ∧
          t.ctx = Ctx.reset (s.cur % 2 == 1) ∧ t.others = [] ∧ t.dev.launches = [] ∧ t.mem = s.mem)) ∧
    (s.dev.win.state ≠ 6 →
      (∀ r, s.dev.win.tripTimers = true :: r →
        exec .tripTimerExpiry s = .next { s with dev := { s.dev with win := { s.dev.win with tripTimers := r } } }) ∧
      (∀ r, s.dev.win.tripTimers = false :: r → ∃ t, exec .tripTimerExpiry s = .next t ∧ t.dev.win.state = 6 ∧ t.dev.win.trip = true ∧
        t.dev.win.msix = s.dev.win.msix ++ [2] ∧ t.ctx = Ctx.reset (s.cur % 2 == 1) ∧ t.others = [] ∧ t.dev.launches = [] ∧
        t.mem = s.mem))

/-- R426, R429: the device is as after reset (gts 0, log 9; memory of the device reads 0, log 3), with what lies outside it, and its failed parts
with their replacements (log 36) and the readings of its sensors. -/
def AfterReset (s t : State) : Prop :=
  t.ctx = Ctx.reset (s.cur % 2 == 1) ∧ t.others = [] ∧ t.cyc = 0 ∧ t.gts = 0 ∧ t.dev.win = { Window.reset with temps := s.dev.win.temps } ∧ t.dev.counters = [] ∧
    t.dev.launches = [] ∧ t.dev.clasps = [] ∧ t.dev.place = [] ∧ t.dev.tlb = [] ∧ t.dev.links = Dev.reset.links ∧
    t.dev.enabled = s.dev.enabled ∧ t.dev.spares = s.dev.spares ∧ t.dev.failed = s.dev.failed ∧
    (s.mem.wf = true → (∀ a, areaOf a ≠ 4 → areaOf a ≠ 6 → t.mem.get a = 0) ∧
      ∀ a, areaOf a = 4 ∨ areaOf a = 6 → t.mem.get a = s.mem.get a)

/-- R413, R426, R429: RESET with a 1, a function-level and a conventional reset return the device to its state after reset; power-on
gives the machine after power-on, with the memories outside the device as they are. -/
def ResetEvents : Prop :=
  ∀ s : State, (∃ t, exec (.reset 1) s = .next t ∧ AfterReset s t) ∧ (∀ v, v ≠ 1 → exec (.reset v) s = .next s) ∧
    (∃ t, exec .functionLevelReset s = .next t ∧ AfterReset s t) ∧ (∃ t, exec .conventionalReset s = .next t ∧ AfterReset s t) ∧
    (∃ t, exec .powerOnReset s = .next t ∧
      t = { State.reset with mem := t.mem, moves := s.moves, steps := s.steps } ∧
      (s.mem.wf = true → (∀ a, areaOf a ≠ 4 → areaOf a ≠ 6 → t.mem.get a = 0) ∧
        ∀ a, areaOf a = 4 ∨ areaOf a = 6 → t.mem.get a = s.mem.get a))

/-- R426 to R428: BOOT in the state after reset fetches the image; a good image leads to the self-test, whose failed cores are replaced
by spares that it did not find failed (log 107), and a bad one ends bring-up with vector 5; once the links are trained, and gts taken where one is up, bring-up starts the hyp context at
HENTRY on the primary context of logical core 0, with the ASID table and job 0's table in x3 and x4 (log 10) and the device running. While no core may run it, since HBM is not awake or a level gates
the cores that logical core 0 could be (R423), bring-up waits (log 37). Bits
[1:0] of HENTRY count as 0 (log 79). -/
def BringUpEvents : Prop :=
  ∀ (s : State) (a : Word) (bad : List Nat),
    (s.dev.win.state = 0 → s.dev.win.level < 3 →
      exec (.boot a) s = .next { s with dev := { s.dev with win := { s.dev.win with boot := a, state := 1 } } }) ∧
    (s.dev.win.state = 1 → exec (.bootImageLoaded false bad) s = .next { s with
      dev := { s.dev with win := { s.dev.win with state := 5, msix := s.dev.win.msix ++ [5] } } }) ∧
    (s.dev.win.state = 1 → ∃ t, exec (.bootImageLoaded true bad) s = .next t ∧ t.dev.win.state = 2 ∧ t.mem = s.mem ∧ t.ctx = s.ctx ∧
      ∀ c ∈ bad, (c ∈ s.dev.enabled → c ∈ t.dev.failed) ∧
        (c ∈ s.dev.spares → c ∉ s.dev.enabled → c ∈ t.dev.failed ∧ c ∉ t.dev.spares ∧ c ∉ t.dev.enabled)) ∧
    (s.mayStart = true ↔ s.dev.win.state ≠ 6 ∧ s.dev.win.level < 3 ∧ ∃ core, s.dev.defaults.physCore 0 0 = some core) ∧
    (s.dev.win.state ≠ 3 ∨ s.dev.inTime = false ∨ s.mayStart = false → exec .hypContextStart s = .next s) ∧
    (s.dev.win.state = 3 → s.dev.inTime = true → s.mayStart = true → ∃ t, exec .hypContextStart s = .next t ∧ t.dev.win.state = 4 ∧
      t.dev.win.msix = s.dev.win.msix ++ [5] ∧ t.dev.place = [] ∧ t.dev.counters = [] ∧
      ∀ core h, h = s.dev.win.hentry.toNat % 2 ^ 55 / 4 * 4 → (s.clearCtxs.onDev Dev.defaults).dev.physCore 0 0 = some core →
        (t.ctxOf (core * 2)).priv = .hyp ∧ (t.ctxOf (core * 2)).run = .running ∧
        (t.ctxOf (core * 2)).pc = BitVec.ofNat 64 h ∧ (t.ctxOf (core * 2)).asid = 0 ∧
        (t.ctxOf (core * 2)).getX 3 = BitVec.ofNat 64 (reservedVaFor h) ∧
        (t.ctxOf (core * 2)).getX 4 = BitVec.ofNat 64 (reservedVaFor h + Config.bootL3Off))

end Sys2Proof.Claims

/-- R224 to R227, R269, R410, R414: the regeneration, fill and snapshot engines. The model's choices: where the snapshot area lies (log 10),
which stores count (log 22), the lines' offsets (log 32), bytes without a location (log 34), engines at rest while HBM sleeps (log 35), a
template that is not finite (log 61), a tripped device that takes no registration (log 77), when a fill is seen (log 83), and how SNAPGEN and
a TRIG word are found (log 93). -/
def Obligations.BackgroundEngines : Prop := RegenEvents ∧ RegenEffect ∧ TriggerCounts ∧ SnapshotEvents

/-- R367, R385, R388, R389, R392 to R395, R418, R421, R422: errors, failures of parts, and links. The model's choices: the places of the error
counts (log 42), which devices are cut off (log 24), and which jobs and ASIDs they hold (log 18). -/
def Obligations.FailuresAndLinks : Prop := ErrorEvents ∧ FailureEvents ∧ LinkEvents

/-- R390, R412 to R414, R416, R422 to R424: the host's accesses, its control window, and power levels. The model's choices: when an input
arrives, and what a write that no rule describes does (log 19); what level 3 keeps and level 4 forgets (log 35); and the layout of ERRCNT (log
42). -/
def Obligations.HostAndPower : Prop := HostEvents ∧ MayEnter ∧ PowerEvents

/-- R413, R421, R424 to R429: thermal limits, resets and bring-up. The model's choices: where the reserved memory lies, which x3 and x4 name (log
10), the bits of HENTRY that pc holds (log 79), that memory without contents reads 0 (log 3), gts after reset (log 9), and what a timer answers (log 23). -/
def Obligations.ThermalResetAndBringUp : Prop := ThermalEvents ∧ ResetEvents ∧ BringUpEvents

namespace Sys2Proof.Claims

/-! ## The whole machine -/

/-- Every tile of every context lists its cells by ascending number. -/
def TilesOrdered (s : State) : Prop :=
  (∀ x ∈ s.ctx.tiles.toList, TileOrdered x) ∧ ∀ p ∈ s.others, ∀ x ∈ p.2.tiles.toList, TileOrdered x

/-- Nothing comes before the next word of the context whose turn it is: no agent moves, the context runs, its vector unit has nothing to
do, no cause is taken, and its SCT does not wait. -/
abbrev AboutToFetch (s : State) : Prop :=
  s.moves = [] ∧ s.ctx.run = .running ∧ s.ctx.viq = [] ∧ s.ctx.stall = none ∧ s.ctx.resume = false ∧
    s.tick.ctx.takeAsync s.tick.cyc = none

/-- A move that is let act: not in the tripped state but for what the host and the world outside do (R425, log 77), nor at level 4, where the
device is off, but for those, the sensors and the end of a transition (R423, log 35). -/
abbrev LetAct (s : State) (m : Move) : Prop := (s.dev.win.state ≠ 6 ∨ m.outlives = true) ∧ (s.dev.win.level ≠ 4 ∨ m.whileOff = true)

/-- The CSR values after device reset in a primary context (R397), but for gts and domid. -/
def resetCsrs : List (BitVec 12 × Word) :=
  [(0x000, 0), (0x001, 0x02), (0x002, 0), (0x003, 0), (0x004, 0), (0x005, 0), (0x006, 0), (0x007, 0), (0x008, 0), (0x009, 0), (0x00A, 0),
    (0x00B, 0x8000000000000000), (0x00C, 0), (0x010, 0), (0x012, 0x0100), (0x013, 0xFF), (0x100, 0), (0x101, 0), (0x102, 0), (0x103, 0),
    (0x104, 0), (0x105, 0), (0x106, 0), (0x107, 0x8080), (0x108, 0), (0x109, 0), (0x10A, 0), (0x10B, 0), (0x10C, 0), (0x205, 0)]

/-- Words that the spec gives with their assembly, of each family of the opcode table, and the instructions that the assembly names. -/
def sampleWords : List (Word32 × Decoded) := [
  -- add x5, x6, x7; div x10, x11, x12; addi x5, x5, -4; srai x5, x6, 3 (by R48: the spec's own 0x20C6_0083
  -- names xd 6, see log 38); lui x5, 0x5F (written out, R117)
  (0x04A63800, .instr (.add 5 6 7)), (0x054B600D, .instr (.div 10 11 12)), (0x08A5FFFC, .instr (.addi 5 5 (-4))),
  (0b001000_00101_00110_00000000_10_000011#32, .instr (.srai 5 6 3)), (0b001001_00101_000000000000001011111#32, .instr (.lui 5 0x5F)),
  -- jalr x0, 0(x1); lw x9, 8(x5); sd x6, -8(x2); amo.add.d.rel.device x5, x6, (x7); amo.cas.w.acqrel.system x5, x6, (x7)
  (0x78010000, .instr (.jalr 0 1 0)), (0x3D250008, .instr (.lw 9 5 8)), (0x54C2FFF8, .instr (.sd 6 2 (-8))),
  (0x58A73049, .instr (.amoAdd 5 7 6 2 2 1)), (0x58A734F0, .instr (.amoCas 5 7 6 3 4 0)),
  -- fadd.f64 x3, x4, x5; lend x9, x12; vgetvl q2; vclset x7
  (0x84642810, .instr (.fadd 3 4 5 1)), (0x88499000, .instr (.lend 0 0 9 12 1)), (0x8C400001, .instr (.vgetvl 2)),
  (0x94000E1B, .instr (.vclset 7)),
  -- vadd.s32 v9, v8, x5; vsne.z8 v0, v20, x0; vrec.add.s32 v9, v8; vfmadd.f32 v12, v13, v14; vwmul.z8 v10, v4, v6
  (0x94920A00, .instr (.vaddVx 9 8 5 0)), (0x9405000F, .instr (.vsneVx 0 20 0 0)), (0x90920018, .instr (.vrecAdd 9 8 0)),
  (0x98C34E05, .instr (.vfmadd 12 13 14 0 0)), (0xA0A10640, .instr (.vwmul 10 4 6 0 1)),
  -- vhad.c.f32 hl, 4; vqnt.c.e2m1 v24; vslidedn.z32 v5, v6, x7; vcmprs.z8.m v4, v20; vredsum.s32 q3, v8; vfirst q4, v9
  (0xA4000201, .instr (.vhadC 0 2 0)), (0xA580001A, .instr (.vqntC 24 0 0 2)), (0xA8518701, .instr (.vslidedn 5 6 7 0)),
  (0xA8450085, .instr (.vcmprs 4 20 1)), (0xAC320000, .instr (.vredsum 3 8 0 0)), (0xB0424004, .instr (.vfirst 4 9 0)),
  -- vidx.s32 v9, 0, 1; vld.z32 v8, (x7); vld.z64.m v6, (x9), v12; vld.seg.z8 v10, (x5), 3; vst.n.z32 v8, (x7)
  (0xB4900001, .instr (.vidx 9 0 1)), (0xB8838002, .instr (.vld 8 7 0 2)), (0xB8649943, .instr (.vldIndexed 6 9 12 1 3)),
  (0xB8A28068, .instr (.vldSeg 10 5 0 2 0)), (0xBC838082, .instr (.vstN 8 7 0 2)),
  -- vsort.p.s32.a v2, v3; vmrg.s32 v6, v4, v5; vtopk.f32 v10, v12, x7; vfacet q1, v7
  (0xC020C200, .instr (.vsort 2 3 1 0 0)), (0xC0610508, .instr (.vmrg 6 4 5 0)), (0xC0A30742, .instr (.vtopk 10 12 7 2)),
  (0xC011C058, .instr (.vfacet 1 7)),
  -- mopa.e4m3.m t0, v2, v3; mopa.gr.e4m3 t0, v4, x9; tmovr.f32 v8, t0, x5; tld.can.e4m3 t0, (x5)
  (0xC4083800, .instr (.mopa 0 2 3 1 0)), (0xC4109004, .instr (.mopaGr 0 4 9 0)), (0xC8205283, .instr (.tmovr 0 8 5 5)),
  (0xC8005006, .instr (.tldCan 0 5 0)),
  -- qpush q9, x7; qpop x9, q3; copy 1, (x5); vgthr 0, v4, (x6); drain 2
  (0xCE470000, .instr (.qpush 9 7)), (0xCCC90020, .instr (.qpop 3 9)), (0xCC001065, .instr (.copy 1 5)),
  (0xCC240086, .instr (.vgthr 4 0 6)), (0xCC0020A0, .instr (.drain 2)),
  -- launch x10, (x11); cread.t x9, x11; clasp x9, x12; grant x10, x11, x12
  (0xD4058140, .late (.launch 11 10)), (0xD4258121, .late (.creadT 11 9)), (0xD4560120, .late (.clasp 12 9)),
  (0xD485B140, .late (.grant 11 12 10)),
  -- csrr x9, fflags; csrw vrm, x5; csrs status, x7; tlbinv x5, x6; vfset v4, x5
  (0xD9200090, .instr (.csrr 9 0x009)), (0xD8050031, .instr (.csrw 5 0x003)), (0xD8071002, .instr (.csrs 7 0x100)),
  (0xD8C50009, .late (.tlbinv 6 5)), (0xD805004B, .late (.vfset 5 4))]

end Sys2Proof.Claims

/-- R11, R38, R40, R122, R124 (and log 5, 6): a step of a context with nothing before its next word is that word's instruction: fetched at the
pc, or read from the loop buffer. A word that is no instruction runs as such. The SCT waits where the walk of a fetch has to follow stores
before a fence that a scoreboard range holds (R358; log 7). An event that is the next move happens in the step, but for one that the
tripped state or level 4 shuts out (logs 77 and 35). The context whose turn it is goes on where no move is to come, and where the next move
lets it; a move passes the turn (log 5). -/
def Obligations.StepRunsDecoded : Prop :=
  (∀ s : State, AboutToFetch s → s.tick.fetchWaits = true → step s = .next (s.tick.stallFor .chan)) ∧
  (∀ s : State, s.fetchWaits = true ↔ s.ctx.loop = none ∧ s.beforeFetch = none ∧ s.walkFree .fetch s.ctx.pc = false) ∧
  (∀ (u : State) (i : Instr) (r : List Move), u.moves = .event i :: r → isEvent i = true →
    (LetAct u.tick (.event i) → step u = exec i { u.tick with moves := r }) ∧
    (¬LetAct u.tick (.event i) → step u = .next { u.tick with moves := r })) ∧
  (∀ s : State, s.moves = [] → step s = s.tick.advance) ∧
  (∀ (s : State) (r : List Move), s.moves = .go :: r → LetAct s.tick .go → step s = ({ s.tick with moves := r } : State).advance) ∧
  (∀ (s : State) (c : Nat) (r : List Move), s.moves = .turn c :: r → c < numContexts → LetAct s.tick (.turn c) →
    step s = .next (({ s.tick with moves := r } : State).turnTo c)) ∧
  ∀ (s s1 : State) (w : Word32), s.tick.sctWord = (.ok w, s1) → s.ctx.latch = none → AboutToFetch s → s.tick.fetchWaits = false →
    (∀ i, decode w = .ok i → step s = exec i (s1.onCtx fun c => { c with lag := c.lag - 1 })) ∧
    (∀ e, decode w = .error e → step s = exec (.illegalWord w e) (s1.onCtx fun c => { c with lag := c.lag - 1 }))

/-- R38 to R64: words of the encoding tables decode to the instructions that the tables give them. -/
def Obligations.DecodeWords : Prop := ∀ p ∈ sampleWords, decodeWord p.1 = .ok p.2

/-- R38, R39, R42: every instruction that has a word is read back from it, with every operand. -/
def Obligations.DecodeEncode : Prop := ∀ i : Instr, i.wellFormed = true → decode (encode i) = .ok i

/-- R42 to R44: a word that decodes is the one word of its instruction, which is well formed: no bit of an instruction is ignored. -/
def Obligations.EncodeDecode : Prop := ∀ (w : Word32) (i : Instr), decode w = .ok i → encode i = w ∧ i.wellFormed = true

/-- R43 to R45, R66, R74: a word that is no instruction raises ILLEGAL_OP, ILLEGAL_FIELD, PRIV where the level is below that of its form, or
QUEUE_TYPE, with the word as tval: at once, or where it is bound for the vector unit from the queue. -/
def Obligations.IllegalWords : Prop :=
  ∀ (s : State) (w : Word32) (e : DecodeError) (code : Nat),
    code = (match e with
      | .op => 0x01
      | .field p => if s.ctx.priv.rank < p.rank then 0x03 else 0x02
      | .queue => 0x0C) →
    (illegalEnters w = false → s.ctx.latch = none → exec (.illegalWord w e) s = .next (s.trap code (w.setWidth 64))) ∧
    (illegalEnters w = true → VectorIdle s →
      exec (.illegalWord w e) s = .next ((issued (.illegalWord w e) 0 0 s).takeTrap false true code (w.setWidth 64)))

/-- R397, R426, R32: the machine after power-on: the CSRs at their reset values, registers and facets 0, queues and channels empty, tiles
empty, no context running, the device in its reset state, and no byte of memory written (log 9 and 3 name what the spec leaves open). -/
def Obligations.ResetState : Prop :=
  (∀ p ∈ resetCsrs, State.reset.readCsr p.1 = p.2) ∧ (∀ r, State.reset.getX r = 0) ∧ (∀ r, State.reset.ctx.getV r = 0) ∧
    (∀ r, State.reset.ctx.getFacet r = 0) ∧ (∀ t, State.reset.ctx.tile t = Tile.empty) ∧
    (∀ q : Fin 8, State.reset.ctx.q[q] = [] ∧ State.reset.ctx.ch[q] = Chan.idle) ∧ State.reset.ctx.run = .off ∧
    State.reset.others = [] ∧ State.reset.dev.win.state = 0 ∧ State.reset.dev.win.twarn = 95 ∧ State.reset.dev.win.ttrip = 105 ∧
    State.reset.dev.enabled.length = 192 ∧ State.reset.mem.wf = true ∧ (∀ a, State.reset.byteAt a = 0) ∧
    TilesOrdered State.reset

/-- R28, R217 (the model's canonical form): every step keeps the memory in the one form in which equal memories are equal data: cells in
ascending order, none that holds what an unlisted byte reads as. -/
def Obligations.MemoryFormKept : Prop := ∀ s t : State, s.mem.wf = true → step s = .next t → t.mem.wf = true

/-- R101, R190, R204 (the model's canonical form): every step keeps the cells of every tile in ascending order. -/
def Obligations.TileFormKept : Prop := ∀ s t : State, TilesOrdered s → step s = .next t → TilesOrdered t

/-- R43, R69, R329, R356, R370, R397: no word that an app context executes raises its level but by a trap, which goes to the vector of sup;
none changes its ASID, the vectors, or DETM. -/
def Obligations.AppIsConfined : Prop :=
  ∀ (i : Instr) (s t : State), isEvent i = false → s.ctx.priv = .app → exec i s = .next t →
    (t.ctx.priv = .app ∨ t.ctx.priv = .sup ∧ t.ctx.pc = s.ctx.tvec ∧ t.ctx.tfv = true ∧ t.ctx.ppriv = .app) ∧
      t.ctx.asid = s.ctx.asid ∧ t.ctx.tvec = s.ctx.tvec ∧ t.ctx.htvec = s.ctx.htvec ∧ t.ctx.detm = s.ctx.detm
end

