-- ==== Sys2Proof/Laws/Memory.lean ====
section
/-! SUPPORT. The memory's canonical form, that every memory operation keeps it, and what a byte reads as after each. -/

namespace Sys2Proof.Machine

/-! ## The canonical form -/

/-- Every cell stands above `n`. -/
def Memory.above (n : Nat) (m : Memory) : Prop := ∀ c ∈ m, n < c.1

theorem Memory.wf_cons {a : Nat} {b : Byte} {r : Memory} :
    Memory.wf ((a, b) :: r) = true ↔ b ≠ unlisted ∧ Memory.above a r ∧ Memory.wf r = true := by
  induction r generalizing a b with
  | nil => simp [Memory.wf, Memory.above]
  | cons c r ih =>
    obtain ⟨k, v⟩ := c
    simp only [Memory.wf, Bool.and_eq_true, decide_eq_true_eq, bne_iff_ne]
    rw [ih]
    simp only [Memory.above, List.mem_cons, forall_eq_or_imp]
    constructor
    · rintro ⟨⟨h, hb⟩, hv, hr, hw⟩
      exact ⟨hb, ⟨h, fun c hc => Nat.lt_trans h (hr c hc)⟩, hv, hr, hw⟩
    · rintro ⟨hb, ⟨h, -⟩, hv, hr, hw⟩
      exact ⟨⟨h, hb⟩, hv, hr, hw⟩

@[simp] theorem Memory.wf_nil : Memory.wf [] = true := rfl

theorem Memory.above_set {m : Memory} {n a : Nat} {b : Byte} (h : Memory.above n m) (ha : n < a) : Memory.above n (m.set a b) := by
  induction m with
  | nil =>
    simp only [Memory.set]
    split
    · simp [Memory.above]
    · simpa [Memory.above] using ha
  | cons c r ih =>
    obtain ⟨k, v⟩ := c
    simp only [Memory.above, List.mem_cons, forall_eq_or_imp] at h ih ⊢
    simp only [Memory.set]
    split
    · split <;> simp only [List.mem_cons, forall_eq_or_imp]
      · exact h
      · exact ⟨ha, h⟩
    · split
      · split
        · exact h.2
        · simp only [List.mem_cons, forall_eq_or_imp]
          exact ⟨ha, h.2⟩
      · simp only [List.mem_cons, forall_eq_or_imp]
        exact ⟨h.1, ih h.2⟩

/-- A write keeps the canonical form. -/
theorem Memory.wf_set {m : Memory} (h : m.wf = true) (a : Nat) (b : Byte) : (m.set a b).wf = true := by
  induction m with
  | nil =>
    simp only [Memory.set]
    split
    · rfl
    · rename_i hb
      exact Memory.wf_cons.2 ⟨hb, by simp [Memory.above], rfl⟩
  | cons c r ih =>
    obtain ⟨k, v⟩ := c
    have h' := Memory.wf_cons.1 h
    simp only [Memory.set]
    split
    · rename_i hk
      split
      · exact h
      · rename_i hb
        refine Memory.wf_cons.2 ⟨hb, ?_, h⟩
        simp only [Memory.above, List.mem_cons, forall_eq_or_imp]
        exact ⟨hk, fun c hc => Nat.lt_trans hk (h'.2.1 c hc)⟩
    · split
      · rename_i hk
        split
        · exact h'.2.2
        · rename_i hb
          exact Memory.wf_cons.2 ⟨hb, hk ▸ h'.2.1, h'.2.2⟩
      · rename_i h1 h2
        exact Memory.wf_cons.2 ⟨h'.1, Memory.above_set h'.2.1 (by omega), ih h'.2.2⟩

/-- A list of writes keeps the canonical form. -/
theorem Memory.wf_setAll {m : Memory} (h : m.wf = true) (ws : List (Nat × Byte)) : (m.setAll ws).wf = true := by
  induction ws generalizing m with
  | nil => exact h
  | cons w ws ih => exact ih (Memory.wf_set h w.1 w.2)

/-- Leaving out cells keeps the canonical form. -/
theorem Memory.wf_filter {m : Memory} (h : m.wf = true) (p : Host.Cell → Bool) : Memory.wf (m.filter p) = true := by
  induction m with
  | nil => rfl
  | cons c r ih =>
    obtain ⟨k, v⟩ := c
    have h' := Memory.wf_cons.1 h
    rw [List.filter_cons]
    split
    · exact Memory.wf_cons.2 ⟨h'.1, fun c hc => h'.2.1 c (List.mem_of_mem_filter hc), ih h'.2.2⟩
    · exact ih h'.2.2

theorem Memory.wf_without {m : Memory} (h : m.wf = true) (gone : Nat → Bool) : (m.without gone).wf = true := Memory.wf_filter h _

theorem Memory.wf_withoutPolder {m : Memory} (h : m.wf = true) (core : Nat) : (m.withoutPolder core).wf = true := Memory.wf_filter h _

/-- Byte writes at their locations keep the canonical form. -/
theorem State.put_wf {s : State} (h : s.mem.wf = true) (ws : List (Nat × Byte)) : (s.put ws).mem.wf = true := Memory.wf_setAll h _

/-- The copy of a snapshot's line keeps it. -/
theorem State.copyLine_wf {s : State} (h : s.mem.wf = true) (key : Nat) : (s.copyLine key).mem.wf = true := by
  unfold State.copyLine
  repeat' split
  all_goals first
    | exact h
    | exact State.put_wf h _

/-- So do the copies that come before a write. -/
theorem State.copyFirst_wf {s : State} (h : s.mem.wf = true) (ws : List (Nat × Byte)) : (s.copyFirst ws).mem.wf = true := by
  unfold State.copyFirst
  split
  · exact h
  · exact List.foldlRecOn (motive := fun t : State => t.mem.wf = true) _ _ h fun t ht k _ => State.copyLine_wf ht k

/-- Byte writes performed keep the canonical form. -/
theorem State.store_wf {s : State} (h : s.mem.wf = true) (ws : List (Nat × Byte)) : (s.store ws).mem.wf = true :=
  State.put_wf (State.copyFirst_wf h ws) ws

/-- The memory after reset is in its canonical form: it lists nothing. -/
theorem State.reset_wf : State.reset.mem.wf = true := rfl

/-! ## What a byte reads as -/

theorem Memory.get_above {m : Memory} {a n : Nat} (h : Memory.above n m) (ha : a ≤ n) : m.get a = unlisted := by
  cases m with
  | nil => rfl
  | cons c r =>
    obtain ⟨k, v⟩ := c
    have := h (k, v) (by simp)
    simp only at this
    simp only [Memory.get]
    rw [if_neg (by omega), if_pos (by omega)]

/-- A read after a write: the byte written at its place, and every other byte as before. -/
theorem Memory.get_set {m : Memory} (h : m.wf = true) (a x : Nat) (b : Byte) :
    (m.set a b).get x = if x = a then b else m.get x := by
  induction m with
  | nil =>
    by_cases hb : b = unlisted
    · simp [Memory.set, hb, Memory.get]
    · simp only [Memory.set, if_neg hb, Memory.get]
      by_cases hx : x = a
      · simp [hx]
      · rw [if_neg (fun e => hx e.symm), if_neg hx]
        split <;> rfl
  | cons c r ih =>
    obtain ⟨k, v⟩ := c
    obtain ⟨hv, hab, hw⟩ := Memory.wf_cons.1 h
    by_cases h1 : a < k
    · by_cases hb : b = unlisted
      · simp only [Memory.set, if_pos h1, if_pos hb]
        by_cases hx : x = a
        · rw [if_pos hx, hb]
          simp only [Memory.get]
          rw [if_neg (by omega), if_pos (by omega)]
        · rw [if_neg hx]
      · simp only [Memory.set, if_pos h1, if_neg hb]
        rw [Memory.get]
        by_cases hx : x = a
        · simp [hx]
        · rw [if_neg (fun e => hx e.symm), if_neg hx]
          by_cases h2 : x < a
          · rw [if_pos h2]
            simp only [Memory.get]
            rw [if_neg (by omega), if_pos (by omega)]
          · rw [if_neg h2]
    · by_cases h2 : a = k
      · by_cases hb : b = unlisted
        · simp only [Memory.set, if_neg h1, if_pos h2, if_pos hb]
          by_cases hx : x = a
          · rw [if_pos hx, hb]
            exact Memory.get_above hab (by omega)
          · rw [if_neg hx]
            simp only [Memory.get]
            rw [if_neg (by omega)]
            by_cases h3 : x < k
            · rw [if_pos h3]
              exact Memory.get_above hab (by omega)
            · rw [if_neg h3]
        · simp only [Memory.set, if_neg h1, if_pos h2, if_neg hb]
          subst h2
          by_cases hx : x = a
          · simp [hx, Memory.get]
          · simp only [Memory.get, if_neg hx, if_neg (Ne.symm hx)]
      · simp only [Memory.set, if_neg h1, if_neg h2, Memory.get]
        by_cases hk : k = x
        · rw [if_pos hk, if_pos hk, if_neg (by omega)]
        · rw [if_neg hk, if_neg hk]
          by_cases h3 : x < k
          · rw [if_pos h3, if_pos h3, if_neg (by omega)]
          · rw [if_neg h3, if_neg h3]
            exact ih hw

/-- A byte that no write of a list names reads as before. -/
theorem Memory.get_setAll_of_not_mem {m : Memory} (h : m.wf = true) {ws : List (Nat × Byte)} {x : Nat} (hx : ∀ w ∈ ws, w.1 ≠ x) :
    (m.setAll ws).get x = m.get x := by
  induction ws generalizing m with
  | nil => rfl
  | cons w ws ih =>
    have h1 := hx w (by simp)
    show (Memory.setAll (m.set w.1 w.2) ws).get x = _
    rw [ih (Memory.wf_set h _ _) fun v hv => hx v (by simp [hv]), Memory.get_set h, if_neg (fun e => h1 e.symm)]

/-- Of the writes of a list the last one at a place stands. -/
theorem Memory.get_setAll {m : Memory} (h : m.wf = true) (ws : List (Nat × Byte)) (x : Nat) :
    (m.setAll ws).get x = ((ws.reverse.find? fun w => w.1 == x).map (·.2)).getD (m.get x) := by
  induction ws generalizing m with
  | nil => rfl
  | cons w ws ih =>
    show (Memory.setAll (m.set w.1 w.2) ws).get x = _
    rw [ih (Memory.wf_set h _ _), Memory.get_set h, List.reverse_cons, List.find?_append]
    cases hf : ws.reverse.find? fun w => w.1 == x with
    | some v => simp
    | none =>
      by_cases e : x = w.1
      · subst e; simp
      · have : (w.1 == x) = false := by simpa using fun h => e h.symm
        simp [this, if_neg e]

/-- A read of a memory without some areas. -/
theorem Memory.get_without {m : Memory} (h : m.wf = true) (gone : Nat → Bool) (x : Nat) :
    (m.without gone).get x = if gone (areaOf x) then unlisted else m.get x := by
  unfold Memory.without
  induction m with
  | nil => simp [Memory.get]
  | cons c r ih =>
    obtain ⟨k, v⟩ := c
    obtain ⟨hv, hab, hw⟩ := Memory.wf_cons.1 h
    have ih := ih hw
    rw [List.filter_cons]
    split
    · rename_i hk
      simp only [Memory.get]
      by_cases e : k = x
      · subst e
        have : gone (areaOf k) = false := by simpa using hk
        simp [this]
      · rw [if_neg e, if_neg e]
        by_cases h3 : x < k
        · rw [if_pos h3, if_pos h3]; simp
        · rw [if_neg h3, if_neg h3]; exact ih
    · rename_i hk
      have hg : gone (areaOf k) = true := by simpa using hk
      rw [ih]
      by_cases e : k = x
      · subst e; simp [hg]
      · simp only [Memory.get, if_neg e]
        by_cases h3 : x < k
        · rw [if_pos h3, Memory.get_above hab (by omega)]
        · rw [if_neg h3]

/-! ## Consecutive bytes -/

@[simp] theorem leBytes_length (n v : Nat) : (leBytes n v).length = n := by
  induction n generalizing v with
  | zero => rfl
  | succ n ih => simp [leBytes, ih]

/-- Little-endian bytes are read back, modulo their width. -/
theorem leNat_leBytes (n v : Nat) : leNat (leBytes n v) = v % 256 ^ n := by
  induction n generalizing v with
  | zero => simp [leBytes, leNat, Nat.mod_one]
  | succ n ih =>
    simp only [leBytes, leNat, ih, BitVec.toNat_ofNat]
    have : 256 ^ (n + 1) = 256 * 256 ^ n := by rw [pow_succ, Nat.mul_comm]
    rw [this, Nat.mod_mul]

theorem leNat_lt (bs : List Byte) : leNat bs < 256 ^ bs.length := by
  induction bs with
  | nil => simp [leNat]
  | cons b r ih =>
    simp only [leNat, List.length_cons, pow_succ]
    have := b.isLt
    omega

theorem writesAt_mem {key : Nat} {bs : List Byte} {w : Nat × Byte} (h : w ∈ writesAt key bs) : key ≤ w.1 ∧ w.1 < key + bs.length := by
  induction bs generalizing key with
  | nil => simp [writesAt] at h
  | cons b r ih =>
    simp only [writesAt, List.mem_cons] at h
    rcases h with h | h
    · subst h; simp
    · have := ih h
      simp only [List.length_cons]
      omega

/-- Consecutive bytes that are written are read back. -/
theorem Memory.get_setAll_writesAt {m : Memory} (h : m.wf = true) (key : Nat) (bs : List Byte) (x : Nat) :
    (m.setAll (writesAt key bs)).get x = if key ≤ x ∧ x < key + bs.length then bs.getD (x - key) 0 else m.get x := by
  induction bs generalizing m key with
  | nil => simp [writesAt, Memory.setAll]
  | cons b r ih =>
    show (Memory.setAll (m.set key b) (writesAt (key + 1) r)).get x = _
    rw [ih (Memory.wf_set h _ _), Memory.get_set h]
    simp only [List.length_cons]
    by_cases e : x = key
    · subst e
      rw [if_neg (by omega), if_pos rfl, if_pos (by omega)]
      simp
    · rw [if_neg e]
      by_cases h1 : key + 1 ≤ x ∧ x < key + 1 + r.length
      · rw [if_pos h1, if_pos (by omega)]
        obtain ⟨d, rfl⟩ : ∃ d, x = key + 1 + d := ⟨x - (key + 1), by omega⟩
        have e1 : key + 1 + d - (key + 1) = d := by omega
        have e2 : key + 1 + d - key = d + 1 := by omega
        rw [e1, e2]
        simp
      · rw [if_neg h1, if_neg (by omega)]

/-! ## Association lists -/

theorem lookup_assign {α : Type} (k j : Nat) (v : α) (l : List (Nat × α)) :
    lookup j (assign k v l) = if j = k then some v else lookup j l := by
  induction l with
  | nil => simp only [assign, lookup, eq_comm]
  | cons p l ih =>
    obtain ⟨a, b⟩ := p
    simp only [assign]
    by_cases h : a = k
    · subst h
      rw [if_pos rfl]
      simp only [lookup]
      by_cases e : j = a
      · subst e; simp
      · rw [if_neg (Ne.symm e), if_neg e, if_neg (Ne.symm e)]
    · rw [if_neg h]
      simp only [lookup, ih]
      by_cases e : a = j
      · subst e; rw [if_pos rfl, if_pos rfl, if_neg h]
      · rw [if_neg e, if_neg e]

/-- The context that is written is read back, and every other context stays. -/
theorem State.ctxOf_setCtx (s : State) (c e : Nat) (x : Ctx) : (s.setCtx c x).ctxOf e = if e = c then x else s.ctxOf e := by
  unfold State.setCtx
  by_cases hc : c = s.cur
  · subst hc
    rw [if_pos rfl]
    by_cases h : e = s.cur
    · subst h; simp [State.ctxOf]
    · simp [State.ctxOf, h]
  · rw [if_neg hc]
    unfold State.ctxOf
    by_cases h : e = s.cur
    · subst h
      simp only [if_true]
      rw [if_neg (fun h => hc h.symm)]
    · simp only [if_neg h, lookup_assign]
      by_cases h2 : e = c
      · simp [h2]
      · simp [h2]


end Sys2Proof.Machine
end

