-- ==== Sys2Proof/Laws/State.lean ====
section
/-! SUPPORT. For each update of a state record, what every field holds after it: one lemma per field, so that no later proof unfolds a
record update. -/

namespace Sys2Proof.Machine

/-! ## The machine -/

@[simp] theorem State.setX_ctx (s : State) (r : BitVec 5) (v : Word) : (s.setX r v).ctx = s.ctx.setX r v := rfl
@[simp] theorem State.setX_cur (s : State) (r : BitVec 5) (v : Word) : (s.setX r v).cur = s.cur := rfl
@[simp] theorem State.setX_others (s : State) (r : BitVec 5) (v : Word) : (s.setX r v).others = s.others := rfl
@[simp] theorem State.setX_mem (s : State) (r : BitVec 5) (v : Word) : (s.setX r v).mem = s.mem := rfl
@[simp] theorem State.setX_dev (s : State) (r : BitVec 5) (v : Word) : (s.setX r v).dev = s.dev := rfl
@[simp] theorem State.setX_moves (s : State) (r : BitVec 5) (v : Word) : (s.setX r v).moves = s.moves := rfl
@[simp] theorem State.setX_steps (s : State) (r : BitVec 5) (v : Word) : (s.setX r v).steps = s.steps := rfl
@[simp] theorem State.setX_cyc (s : State) (r : BitVec 5) (v : Word) : (s.setX r v).cyc = s.cyc := rfl
@[simp] theorem State.setX_gts (s : State) (r : BitVec 5) (v : Word) : (s.setX r v).gts = s.gts := rfl

@[simp] theorem State.onCtx_ctx (s : State) (f : Ctx → Ctx) : (s.onCtx f).ctx = f s.ctx := rfl
@[simp] theorem State.onCtx_cur (s : State) (f : Ctx → Ctx) : (s.onCtx f).cur = s.cur := rfl
@[simp] theorem State.onCtx_others (s : State) (f : Ctx → Ctx) : (s.onCtx f).others = s.others := rfl
@[simp] theorem State.onCtx_mem (s : State) (f : Ctx → Ctx) : (s.onCtx f).mem = s.mem := rfl
@[simp] theorem State.onCtx_dev (s : State) (f : Ctx → Ctx) : (s.onCtx f).dev = s.dev := rfl
@[simp] theorem State.onCtx_moves (s : State) (f : Ctx → Ctx) : (s.onCtx f).moves = s.moves := rfl
@[simp] theorem State.onCtx_steps (s : State) (f : Ctx → Ctx) : (s.onCtx f).steps = s.steps := rfl
@[simp] theorem State.onCtx_cyc (s : State) (f : Ctx → Ctx) : (s.onCtx f).cyc = s.cyc := rfl
@[simp] theorem State.onCtx_gts (s : State) (f : Ctx → Ctx) : (s.onCtx f).gts = s.gts := rfl

@[simp] theorem State.onDev_ctx (s : State) (f : Dev → Dev) : (s.onDev f).ctx = s.ctx := rfl
@[simp] theorem State.onDev_cur (s : State) (f : Dev → Dev) : (s.onDev f).cur = s.cur := rfl
@[simp] theorem State.onDev_others (s : State) (f : Dev → Dev) : (s.onDev f).others = s.others := rfl
@[simp] theorem State.onDev_mem (s : State) (f : Dev → Dev) : (s.onDev f).mem = s.mem := rfl
@[simp] theorem State.onDev_dev (s : State) (f : Dev → Dev) : (s.onDev f).dev = f s.dev := rfl
@[simp] theorem State.onDev_moves (s : State) (f : Dev → Dev) : (s.onDev f).moves = s.moves := rfl
@[simp] theorem State.onDev_steps (s : State) (f : Dev → Dev) : (s.onDev f).steps = s.steps := rfl
@[simp] theorem State.onDev_cyc (s : State) (f : Dev → Dev) : (s.onDev f).cyc = s.cyc := rfl
@[simp] theorem State.onDev_gts (s : State) (f : Dev → Dev) : (s.onDev f).gts = s.gts := rfl

@[simp] theorem State.onWin_ctx (s : State) (f : Window → Window) : (s.onWin f).ctx = s.ctx := rfl
@[simp] theorem State.onWin_cur (s : State) (f : Window → Window) : (s.onWin f).cur = s.cur := rfl
@[simp] theorem State.onWin_others (s : State) (f : Window → Window) : (s.onWin f).others = s.others := rfl
@[simp] theorem State.onWin_mem (s : State) (f : Window → Window) : (s.onWin f).mem = s.mem := rfl
@[simp] theorem State.onWin_dev (s : State) (f : Window → Window) : (s.onWin f).dev = { s.dev with win := f s.dev.win } := rfl
@[simp] theorem State.onWin_moves (s : State) (f : Window → Window) : (s.onWin f).moves = s.moves := rfl
@[simp] theorem State.onWin_steps (s : State) (f : Window → Window) : (s.onWin f).steps = s.steps := rfl
@[simp] theorem State.onWin_cyc (s : State) (f : Window → Window) : (s.onWin f).cyc = s.cyc := rfl
@[simp] theorem State.onWin_gts (s : State) (f : Window → Window) : (s.onWin f).gts = s.gts := rfl

@[simp] theorem State.orFlags_ctx (s : State) (fl : BitVec 5) : (s.orFlags fl).ctx = { s.ctx with fflags := s.ctx.fflags ||| fl } := rfl
@[simp] theorem State.orFlags_cur (s : State) (fl : BitVec 5) : (s.orFlags fl).cur = s.cur := rfl
@[simp] theorem State.orFlags_others (s : State) (fl : BitVec 5) : (s.orFlags fl).others = s.others := rfl
@[simp] theorem State.orFlags_mem (s : State) (fl : BitVec 5) : (s.orFlags fl).mem = s.mem := rfl
@[simp] theorem State.orFlags_dev (s : State) (fl : BitVec 5) : (s.orFlags fl).dev = s.dev := rfl
@[simp] theorem State.orFlags_moves (s : State) (fl : BitVec 5) : (s.orFlags fl).moves = s.moves := rfl
@[simp] theorem State.orFlags_steps (s : State) (fl : BitVec 5) : (s.orFlags fl).steps = s.steps := rfl
@[simp] theorem State.orFlags_cyc (s : State) (fl : BitVec 5) : (s.orFlags fl).cyc = s.cyc := rfl
@[simp] theorem State.orFlags_gts (s : State) (fl : BitVec 5) : (s.orFlags fl).gts = s.gts := rfl

@[simp] theorem State.retire_ctx (s : State) : (s.retire).ctx = s.ctx.retire := rfl
@[simp] theorem State.retire_cur (s : State) : (s.retire).cur = s.cur := rfl
@[simp] theorem State.retire_others (s : State) : (s.retire).others = s.others := rfl
@[simp] theorem State.retire_mem (s : State) : (s.retire).mem = s.mem := rfl
@[simp] theorem State.retire_dev (s : State) : (s.retire).dev = s.dev := rfl
@[simp] theorem State.retire_moves (s : State) : (s.retire).moves = s.moves := rfl
@[simp] theorem State.retire_steps (s : State) : (s.retire).steps = s.steps := rfl
@[simp] theorem State.retire_cyc (s : State) : (s.retire).cyc = s.cyc := rfl
@[simp] theorem State.retire_gts (s : State) : (s.retire).gts = s.gts := rfl

@[simp] theorem State.retireTo_ctx (s : State) (p : Word) : (s.retireTo p).ctx = { s.ctx with latch := none, stall := none, pc := p, loop := none } := rfl
@[simp] theorem State.retireTo_cur (s : State) (p : Word) : (s.retireTo p).cur = s.cur := rfl
@[simp] theorem State.retireTo_others (s : State) (p : Word) : (s.retireTo p).others = s.others := rfl
@[simp] theorem State.retireTo_mem (s : State) (p : Word) : (s.retireTo p).mem = s.mem := rfl
@[simp] theorem State.retireTo_dev (s : State) (p : Word) : (s.retireTo p).dev = s.dev := rfl
@[simp] theorem State.retireTo_moves (s : State) (p : Word) : (s.retireTo p).moves = s.moves := rfl
@[simp] theorem State.retireTo_steps (s : State) (p : Word) : (s.retireTo p).steps = s.steps := rfl
@[simp] theorem State.retireTo_cyc (s : State) (p : Word) : (s.retireTo p).cyc = s.cyc := rfl
@[simp] theorem State.retireTo_gts (s : State) (p : Word) : (s.retireTo p).gts = s.gts := rfl

@[simp] theorem State.stallFor_cur (s : State) (k : Stall) : (s.stallFor k).cur = s.cur := rfl
@[simp] theorem State.stallFor_others (s : State) (k : Stall) : (s.stallFor k).others = s.others := rfl
@[simp] theorem State.stallFor_mem (s : State) (k : Stall) : (s.stallFor k).mem = s.mem := rfl
@[simp] theorem State.stallFor_dev (s : State) (k : Stall) : (s.stallFor k).dev = s.dev := rfl
@[simp] theorem State.stallFor_moves (s : State) (k : Stall) : (s.stallFor k).moves = s.moves := rfl
@[simp] theorem State.stallFor_steps (s : State) (k : Stall) : (s.stallFor k).steps = s.steps := rfl
@[simp] theorem State.stallFor_cyc (s : State) (k : Stall) : (s.stallFor k).cyc = s.cyc := rfl
@[simp] theorem State.stallFor_gts (s : State) (k : Stall) : (s.stallFor k).gts = s.gts := rfl

@[simp] theorem State.setCtx_cur (s : State) (n : Nat) (x : Ctx) : (s.setCtx n x).cur = s.cur := by unfold State.setCtx; split <;> rfl
@[simp] theorem State.setCtx_mem (s : State) (n : Nat) (x : Ctx) : (s.setCtx n x).mem = s.mem := by unfold State.setCtx; split <;> rfl
@[simp] theorem State.setCtx_dev (s : State) (n : Nat) (x : Ctx) : (s.setCtx n x).dev = s.dev := by unfold State.setCtx; split <;> rfl
@[simp] theorem State.setCtx_moves (s : State) (n : Nat) (x : Ctx) : (s.setCtx n x).moves = s.moves := by unfold State.setCtx; split <;> rfl
@[simp] theorem State.setCtx_steps (s : State) (n : Nat) (x : Ctx) : (s.setCtx n x).steps = s.steps := by unfold State.setCtx; split <;> rfl
@[simp] theorem State.setCtx_cyc (s : State) (n : Nat) (x : Ctx) : (s.setCtx n x).cyc = s.cyc := by unfold State.setCtx; split <;> rfl
@[simp] theorem State.setCtx_gts (s : State) (n : Nat) (x : Ctx) : (s.setCtx n x).gts = s.gts := by unfold State.setCtx; split <;> rfl


/-- What every step of a fold keeps, the fold keeps. -/
theorem foldl_keeps {σ α β : Type} (g : σ → β) (f : σ → α → σ) (h : ∀ s a, g (f s a) = g s) (l : List α) (s : σ) :
    g (l.foldl f s) = g s := by
  induction l generalizing s with
  | nil => rfl
  | cons a r ih => rw [List.foldl_cons, ih, h]

@[simp] theorem State.put_ctx (s : State) (ws : List (Nat × Byte)) : (s.put ws).ctx = s.ctx := rfl
@[simp] theorem State.put_cur (s : State) (ws : List (Nat × Byte)) : (s.put ws).cur = s.cur := rfl
@[simp] theorem State.put_others (s : State) (ws : List (Nat × Byte)) : (s.put ws).others = s.others := rfl
@[simp] theorem State.put_moves (s : State) (ws : List (Nat × Byte)) : (s.put ws).moves = s.moves := rfl
@[simp] theorem State.put_steps (s : State) (ws : List (Nat × Byte)) : (s.put ws).steps = s.steps := rfl
@[simp] theorem State.put_cyc (s : State) (ws : List (Nat × Byte)) : (s.put ws).cyc = s.cyc := rfl
@[simp] theorem State.put_gts (s : State) (ws : List (Nat × Byte)) : (s.put ws).gts = s.gts := rfl

@[simp] theorem State.copyLine_ctx (s : State) (key : Nat) : (s.copyLine key).ctx = s.ctx := by
  unfold State.copyLine
  repeat' split
  all_goals rfl
@[simp] theorem State.copyLine_cur (s : State) (key : Nat) : (s.copyLine key).cur = s.cur := by
  unfold State.copyLine
  repeat' split
  all_goals rfl
@[simp] theorem State.copyLine_others (s : State) (key : Nat) : (s.copyLine key).others = s.others := by
  unfold State.copyLine
  repeat' split
  all_goals rfl
@[simp] theorem State.copyLine_moves (s : State) (key : Nat) : (s.copyLine key).moves = s.moves := by
  unfold State.copyLine
  repeat' split
  all_goals rfl
@[simp] theorem State.copyLine_steps (s : State) (key : Nat) : (s.copyLine key).steps = s.steps := by
  unfold State.copyLine
  repeat' split
  all_goals rfl
@[simp] theorem State.copyLine_cyc (s : State) (key : Nat) : (s.copyLine key).cyc = s.cyc := by
  unfold State.copyLine
  repeat' split
  all_goals rfl
@[simp] theorem State.copyLine_gts (s : State) (key : Nat) : (s.copyLine key).gts = s.gts := by
  unfold State.copyLine
  repeat' split
  all_goals rfl

@[simp] theorem State.copyFirst_ctx (s : State) (ws : List (Nat × Byte)) : (s.copyFirst ws).ctx = s.ctx := by
  unfold State.copyFirst
  split
  · rfl
  · exact foldl_keeps State.ctx State.copyLine (State.copyLine_ctx) _ s
@[simp] theorem State.copyFirst_cur (s : State) (ws : List (Nat × Byte)) : (s.copyFirst ws).cur = s.cur := by
  unfold State.copyFirst
  split
  · rfl
  · exact foldl_keeps State.cur State.copyLine (State.copyLine_cur) _ s
@[simp] theorem State.copyFirst_others (s : State) (ws : List (Nat × Byte)) : (s.copyFirst ws).others = s.others := by
  unfold State.copyFirst
  split
  · rfl
  · exact foldl_keeps State.others State.copyLine (State.copyLine_others) _ s
@[simp] theorem State.copyFirst_moves (s : State) (ws : List (Nat × Byte)) : (s.copyFirst ws).moves = s.moves := by
  unfold State.copyFirst
  split
  · rfl
  · exact foldl_keeps State.moves State.copyLine (State.copyLine_moves) _ s
@[simp] theorem State.copyFirst_steps (s : State) (ws : List (Nat × Byte)) : (s.copyFirst ws).steps = s.steps := by
  unfold State.copyFirst
  split
  · rfl
  · exact foldl_keeps State.steps State.copyLine (State.copyLine_steps) _ s
@[simp] theorem State.copyFirst_cyc (s : State) (ws : List (Nat × Byte)) : (s.copyFirst ws).cyc = s.cyc := by
  unfold State.copyFirst
  split
  · rfl
  · exact foldl_keeps State.cyc State.copyLine (State.copyLine_cyc) _ s
@[simp] theorem State.copyFirst_gts (s : State) (ws : List (Nat × Byte)) : (s.copyFirst ws).gts = s.gts := by
  unfold State.copyFirst
  split
  · rfl
  · exact foldl_keeps State.gts State.copyLine (State.copyLine_gts) _ s

@[simp] theorem State.store_ctx (s : State) (ws : List (Nat × Byte)) : (s.store ws).ctx = s.ctx := by simp [State.store]
@[simp] theorem State.store_cur (s : State) (ws : List (Nat × Byte)) : (s.store ws).cur = s.cur := by simp [State.store]
@[simp] theorem State.store_others (s : State) (ws : List (Nat × Byte)) : (s.store ws).others = s.others := by simp [State.store]
@[simp] theorem State.store_moves (s : State) (ws : List (Nat × Byte)) : (s.store ws).moves = s.moves := by simp [State.store]
@[simp] theorem State.store_steps (s : State) (ws : List (Nat × Byte)) : (s.store ws).steps = s.steps := by simp [State.store]
@[simp] theorem State.store_cyc (s : State) (ws : List (Nat × Byte)) : (s.store ws).cyc = s.cyc := by simp [State.store]
@[simp] theorem State.store_gts (s : State) (ws : List (Nat × Byte)) : (s.store ws).gts = s.gts := by simp [State.store]

/-- Without a snapshot in progress a write is only the write (R225). -/
@[simp] theorem State.store_eq (s : State) (ws : List (Nat × Byte)) (h : s.dev.snap = none) : s.store ws = s.put ws := by
  simp [State.store, State.copyFirst, h]

/-! ## A context -/

@[simp] theorem Ctx.setX_pc (c : Ctx) (r : BitVec 5) (v : Word) : (c.setX r v).pc = c.pc := by unfold Ctx.setX; split <;> rfl
@[simp] theorem Ctx.setX_v (c : Ctx) (r : BitVec 5) (v : Word) : (c.setX r v).v = c.v := by unfold Ctx.setX; split <;> rfl
@[simp] theorem Ctx.setX_facets (c : Ctx) (r : BitVec 5) (v : Word) : (c.setX r v).facets = c.facets := by unfold Ctx.setX; split <;> rfl
@[simp] theorem Ctx.setX_tiles (c : Ctx) (r : BitVec 5) (v : Word) : (c.setX r v).tiles = c.tiles := by unfold Ctx.setX; split <;> rfl
@[simp] theorem Ctx.setX_cb (c : Ctx) (r : BitVec 5) (v : Word) : (c.setX r v).cb = c.cb := by unfold Ctx.setX; split <;> rfl
@[simp] theorem Ctx.setX_hl (c : Ctx) (r : BitVec 5) (v : Word) : (c.setX r v).hl = c.hl := by unfold Ctx.setX; split <;> rfl
@[simp] theorem Ctx.setX_cl (c : Ctx) (r : BitVec 5) (v : Word) : (c.setX r v).cl = c.cl := by unfold Ctx.setX; split <;> rfl
@[simp] theorem Ctx.setX_latch (c : Ctx) (r : BitVec 5) (v : Word) : (c.setX r v).latch = c.latch := by unfold Ctx.setX; split <;> rfl
@[simp] theorem Ctx.setX_heldLatch (c : Ctx) (r : BitVec 5) (v : Word) : (c.setX r v).heldLatch = c.heldLatch := by unfold Ctx.setX; split <;> rfl
@[simp] theorem Ctx.setX_q (c : Ctx) (r : BitVec 5) (v : Word) : (c.setX r v).q = c.q := by unfold Ctx.setX; split <;> rfl
@[simp] theorem Ctx.setX_ch (c : Ctx) (r : BitVec 5) (v : Word) : (c.setX r v).ch = c.ch := by unfold Ctx.setX; split <;> rfl
@[simp] theorem Ctx.setX_rh (c : Ctx) (r : BitVec 5) (v : Word) : (c.setX r v).rh = c.rh := by unfold Ctx.setX; split <;> rfl
@[simp] theorem Ctx.setX_rhsel (c : Ctx) (r : BitVec 5) (v : Word) : (c.setX r v).rhsel = c.rhsel := by unfold Ctx.setX; split <;> rfl
@[simp] theorem Ctx.setX_vl (c : Ctx) (r : BitVec 5) (v : Word) : (c.setX r v).vl = c.vl := by unfold Ctx.setX; split <;> rfl
@[simp] theorem Ctx.setX_vtype (c : Ctx) (r : BitVec 5) (v : Word) : (c.setX r v).vtype = c.vtype := by unfold Ctx.setX; split <;> rfl
@[simp] theorem Ctx.setX_vmt (c : Ctx) (r : BitVec 5) (v : Word) : (c.setX r v).vmt = c.vmt := by unfold Ctx.setX; split <;> rfl
@[simp] theorem Ctx.setX_vrm (c : Ctx) (r : BitVec 5) (v : Word) : (c.setX r v).vrm = c.vrm := by unfold Ctx.setX; split <;> rfl
@[simp] theorem Ctx.setX_vsat (c : Ctx) (r : BitVec 5) (v : Word) : (c.setX r v).vsat = c.vsat := by unfold Ctx.setX; split <;> rfl
@[simp] theorem Ctx.setX_vfs (c : Ctx) (r : BitVec 5) (v : Word) : (c.setX r v).vfs = c.vfs := by unfold Ctx.setX; split <;> rfl
@[simp] theorem Ctx.setX_vnotify (c : Ctx) (r : BitVec 5) (v : Word) : (c.setX r v).vnotify = c.vnotify := by unfold Ctx.setX; split <;> rfl
@[simp] theorem Ctx.setX_vthr (c : Ctx) (r : BitVec 5) (v : Word) : (c.setX r v).vthr = c.vthr := by unfold Ctx.setX; split <;> rfl
@[simp] theorem Ctx.setX_frm (c : Ctx) (r : BitVec 5) (v : Word) : (c.setX r v).frm = c.frm := by unfold Ctx.setX; split <;> rfl
@[simp] theorem Ctx.setX_frmSct (c : Ctx) (r : BitVec 5) (v : Word) : (c.setX r v).frmSct = c.frmSct := by unfold Ctx.setX; split <;> rfl
@[simp] theorem Ctx.setX_fflags (c : Ctx) (r : BitVec 5) (v : Word) : (c.setX r v).fflags = c.fflags := by unfold Ctx.setX; split <;> rfl
@[simp] theorem Ctx.setX_hwmReg (c : Ctx) (r : BitVec 5) (v : Word) : (c.setX r v).hwmReg = c.hwmReg := by unfold Ctx.setX; split <;> rfl
@[simp] theorem Ctx.setX_hwmBytes (c : Ctx) (r : BitVec 5) (v : Word) : (c.setX r v).hwmBytes = c.hwmBytes := by unfold Ctx.setX; split <;> rfl
@[simp] theorem Ctx.setX_wfmt (c : Ctx) (r : BitVec 5) (v : Word) : (c.setX r v).wfmt = c.wfmt := by unfold Ctx.setX; split <;> rfl
@[simp] theorem Ctx.setX_priv (c : Ctx) (r : BitVec 5) (v : Word) : (c.setX r v).priv = c.priv := by unfold Ctx.setX; split <;> rfl
@[simp] theorem Ctx.setX_ppriv (c : Ctx) (r : BitVec 5) (v : Word) : (c.setX r v).ppriv = c.ppriv := by unfold Ctx.setX; split <;> rfl
@[simp] theorem Ctx.setX_tfv (c : Ctx) (r : BitVec 5) (v : Word) : (c.setX r v).tfv = c.tfv := by unfold Ctx.setX; split <;> rfl
@[simp] theorem Ctx.setX_skip (c : Ctx) (r : BitVec 5) (v : Word) : (c.setX r v).skip = c.skip := by unfold Ctx.setX; split <;> rfl
@[simp] theorem Ctx.setX_detm (c : Ctx) (r : BitVec 5) (v : Word) : (c.setX r v).detm = c.detm := by unfold Ctx.setX; split <;> rfl
@[simp] theorem Ctx.setX_cw (c : Ctx) (r : BitVec 5) (v : Word) : (c.setX r v).cw = c.cw := by unfold Ctx.setX; split <;> rfl
@[simp] theorem Ctx.setX_cause (c : Ctx) (r : BitVec 5) (v : Word) : (c.setX r v).cause = c.cause := by unfold Ctx.setX; split <;> rfl
@[simp] theorem Ctx.setX_epc (c : Ctx) (r : BitVec 5) (v : Word) : (c.setX r v).epc = c.epc := by unfold Ctx.setX; split <;> rfl
@[simp] theorem Ctx.setX_epcv (c : Ctx) (r : BitVec 5) (v : Word) : (c.setX r v).epcv = c.epcv := by unfold Ctx.setX; split <;> rfl
@[simp] theorem Ctx.setX_tval (c : Ctx) (r : BitVec 5) (v : Word) : (c.setX r v).tval = c.tval := by unfold Ctx.setX; split <;> rfl
@[simp] theorem Ctx.setX_tvec (c : Ctx) (r : BitVec 5) (v : Word) : (c.setX r v).tvec = c.tvec := by unfold Ctx.setX; split <;> rfl
@[simp] theorem Ctx.setX_htvec (c : Ctx) (r : BitVec 5) (v : Word) : (c.setX r v).htvec = c.htvec := by unfold Ctx.setX; split <;> rfl
@[simp] theorem Ctx.setX_asid (c : Ctx) (r : BitVec 5) (v : Word) : (c.setX r v).asid = c.asid := by unfold Ctx.setX; split <;> rfl
@[simp] theorem Ctx.setX_lgb (c : Ctx) (r : BitVec 5) (v : Word) : (c.setX r v).lgb = c.lgb := by unfold Ctx.setX; split <;> rfl
@[simp] theorem Ctx.setX_lgn (c : Ctx) (r : BitVec 5) (v : Word) : (c.setX r v).lgn = c.lgn := by unfold Ctx.setX; split <;> rfl
@[simp] theorem Ctx.setX_trb (c : Ctx) (r : BitVec 5) (v : Word) : (c.setX r v).trb = c.trb := by unfold Ctx.setX; split <;> rfl
@[simp] theorem Ctx.setX_trn (c : Ctx) (r : BitVec 5) (v : Word) : (c.setX r v).trn = c.trn := by unfold Ctx.setX; split <;> rfl
@[simp] theorem Ctx.setX_standLgn (c : Ctx) (r : BitVec 5) (v : Word) : (c.setX r v).standLgn = c.standLgn := by unfold Ctx.setX; split <;> rfl
@[simp] theorem Ctx.setX_standTrn (c : Ctx) (r : BitVec 5) (v : Word) : (c.setX r v).standTrn = c.standTrn := by unfold Ctx.setX; split <;> rfl
@[simp] theorem Ctx.setX_reclaimAt (c : Ctx) (r : BitVec 5) (v : Word) : (c.setX r v).reclaimAt = c.reclaimAt := by unfold Ctx.setX; split <;> rfl
@[simp] theorem Ctx.setX_budget (c : Ctx) (r : BitVec 5) (v : Word) : (c.setX r v).budget = c.budget := by unfold Ctx.setX; split <;> rfl
@[simp] theorem Ctx.setX_bused (c : Ctx) (r : BitVec 5) (v : Word) : (c.setX r v).bused = c.bused := by unfold Ctx.setX; split <;> rfl
@[simp] theorem Ctx.setX_armed (c : Ctx) (r : BitVec 5) (v : Word) : (c.setX r v).armed = c.armed := by unfold Ctx.setX; split <;> rfl
@[simp] theorem Ctx.setX_tmr (c : Ctx) (r : BitVec 5) (v : Word) : (c.setX r v).tmr = c.tmr := by unfold Ctx.setX; split <;> rfl
@[simp] theorem Ctx.setX_viq (c : Ctx) (r : BitVec 5) (v : Word) : (c.setX r v).viq = c.viq := by unfold Ctx.setX; split <;> rfl
@[simp] theorem Ctx.setX_frame (c : Ctx) (r : BitVec 5) (v : Word) : (c.setX r v).frame = c.frame := by unfold Ctx.setX; split <;> rfl
@[simp] theorem Ctx.setX_frameVf (c : Ctx) (r : BitVec 5) (v : Word) : (c.setX r v).frameVf = c.frameVf := by unfold Ctx.setX; split <;> rfl
@[simp] theorem Ctx.setX_lag (c : Ctx) (r : BitVec 5) (v : Word) : (c.setX r v).lag = c.lag := by unfold Ctx.setX; split <;> rfl
@[simp] theorem Ctx.setX_loop (c : Ctx) (r : BitVec 5) (v : Word) : (c.setX r v).loop = c.loop := by unfold Ctx.setX; split <;> rfl
@[simp] theorem Ctx.setX_resume (c : Ctx) (r : BitVec 5) (v : Word) : (c.setX r v).resume = c.resume := by unfold Ctx.setX; split <;> rfl
@[simp] theorem Ctx.setX_pMcheck (c : Ctx) (r : BitVec 5) (v : Word) : (c.setX r v).pMcheck = c.pMcheck := by unfold Ctx.setX; split <;> rfl
@[simp] theorem Ctx.setX_pCancelled (c : Ctx) (r : BitVec 5) (v : Word) : (c.setX r v).pCancelled = c.pCancelled := by unfold Ctx.setX; split <;> rfl
@[simp] theorem Ctx.setX_pReclaim (c : Ctx) (r : BitVec 5) (v : Word) : (c.setX r v).pReclaim = c.pReclaim := by unfold Ctx.setX; split <;> rfl
@[simp] theorem Ctx.setX_pBudget (c : Ctx) (r : BitVec 5) (v : Word) : (c.setX r v).pBudget = c.pBudget := by unfold Ctx.setX; split <;> rfl
@[simp] theorem Ctx.setX_pPreempt (c : Ctx) (r : BitVec 5) (v : Word) : (c.setX r v).pPreempt = c.pPreempt := by unfold Ctx.setX; split <;> rfl
@[simp] theorem Ctx.setX_unit (c : Ctx) (r : BitVec 5) (v : Word) : (c.setX r v).unit = c.unit := by unfold Ctx.setX; split <;> rfl
@[simp] theorem Ctx.setX_preload (c : Ctx) (r : BitVec 5) (v : Word) : (c.setX r v).preload = c.preload := by unfold Ctx.setX; split <;> rfl
@[simp] theorem Ctx.setX_run (c : Ctx) (r : BitVec 5) (v : Word) : (c.setX r v).run = c.run := by unfold Ctx.setX; split <;> rfl
@[simp] theorem Ctx.setX_tenure (c : Ctx) (r : BitVec 5) (v : Word) : (c.setX r v).tenure = c.tenure := by unfold Ctx.setX; split <;> rfl
@[simp] theorem Ctx.setX_wcb (c : Ctx) (r : BitVec 5) (v : Word) : (c.setX r v).wcb = c.wcb := by unfold Ctx.setX; split <;> rfl
@[simp] theorem Ctx.setX_stores (c : Ctx) (r : BitVec 5) (v : Word) : (c.setX r v).stores = c.stores := by unfold Ctx.setX; split <;> rfl
@[simp] theorem Ctx.setX_path (c : Ctx) (r : BitVec 5) (v : Word) : (c.setX r v).path = c.path := by unfold Ctx.setX; split <;> rfl
@[simp] theorem Ctx.setX_bars (c : Ctx) (r : BitVec 5) (v : Word) : (c.setX r v).bars = c.bars := by unfold Ctx.setX; split <;> rfl
@[simp] theorem Ctx.setX_frameBars (c : Ctx) (r : BitVec 5) (v : Word) : (c.setX r v).frameBars = c.frameBars := by unfold Ctx.setX; split <;> rfl
@[simp] theorem Ctx.setX_late (c : Ctx) (r : BitVec 5) (v : Word) : (c.setX r v).late = c.late := by unfold Ctx.setX; split <;> rfl
@[simp] theorem Ctx.setX_located (c : Ctx) (r : BitVec 5) (v : Word) : (c.setX r v).located = c.located := by unfold Ctx.setX; split <;> rfl
@[simp] theorem Ctx.setX_claspWord (c : Ctx) (r : BitVec 5) (v : Word) : (c.setX r v).claspWord = c.claspWord := by unfold Ctx.setX; split <;> rfl
@[simp] theorem Ctx.setX_rejoin (c : Ctx) (r : BitVec 5) (v : Word) : (c.setX r v).rejoin = c.rejoin := by unfold Ctx.setX; split <;> rfl
@[simp] theorem Ctx.setX_stall (c : Ctx) (r : BitVec 5) (v : Word) : (c.setX r v).stall = c.stall := by unfold Ctx.setX; split <;> rfl

@[simp] theorem Ctx.putV_x (c : Ctx) (r : BitVec 6) (w : VWord) : (c.putV r w).x = c.x := rfl
@[simp] theorem Ctx.putV_pc (c : Ctx) (r : BitVec 6) (w : VWord) : (c.putV r w).pc = c.pc := rfl
@[simp] theorem Ctx.putV_facets (c : Ctx) (r : BitVec 6) (w : VWord) : (c.putV r w).facets = c.facets := rfl
@[simp] theorem Ctx.putV_tiles (c : Ctx) (r : BitVec 6) (w : VWord) : (c.putV r w).tiles = c.tiles := rfl
@[simp] theorem Ctx.putV_cb (c : Ctx) (r : BitVec 6) (w : VWord) : (c.putV r w).cb = c.cb := rfl
@[simp] theorem Ctx.putV_hl (c : Ctx) (r : BitVec 6) (w : VWord) : (c.putV r w).hl = c.hl := rfl
@[simp] theorem Ctx.putV_cl (c : Ctx) (r : BitVec 6) (w : VWord) : (c.putV r w).cl = c.cl := rfl
@[simp] theorem Ctx.putV_latch (c : Ctx) (r : BitVec 6) (w : VWord) : (c.putV r w).latch = c.latch := rfl
@[simp] theorem Ctx.putV_heldLatch (c : Ctx) (r : BitVec 6) (w : VWord) : (c.putV r w).heldLatch = c.heldLatch := rfl
@[simp] theorem Ctx.putV_q (c : Ctx) (r : BitVec 6) (w : VWord) : (c.putV r w).q = c.q := rfl
@[simp] theorem Ctx.putV_ch (c : Ctx) (r : BitVec 6) (w : VWord) : (c.putV r w).ch = c.ch := rfl
@[simp] theorem Ctx.putV_rh (c : Ctx) (r : BitVec 6) (w : VWord) : (c.putV r w).rh = c.rh := rfl
@[simp] theorem Ctx.putV_rhsel (c : Ctx) (r : BitVec 6) (w : VWord) : (c.putV r w).rhsel = c.rhsel := rfl
@[simp] theorem Ctx.putV_vl (c : Ctx) (r : BitVec 6) (w : VWord) : (c.putV r w).vl = c.vl := rfl
@[simp] theorem Ctx.putV_vtype (c : Ctx) (r : BitVec 6) (w : VWord) : (c.putV r w).vtype = c.vtype := rfl
@[simp] theorem Ctx.putV_vmt (c : Ctx) (r : BitVec 6) (w : VWord) : (c.putV r w).vmt = c.vmt := rfl
@[simp] theorem Ctx.putV_vrm (c : Ctx) (r : BitVec 6) (w : VWord) : (c.putV r w).vrm = c.vrm := rfl
@[simp] theorem Ctx.putV_vsat (c : Ctx) (r : BitVec 6) (w : VWord) : (c.putV r w).vsat = c.vsat := rfl
@[simp] theorem Ctx.putV_vfs (c : Ctx) (r : BitVec 6) (w : VWord) : (c.putV r w).vfs = c.vfs := rfl
@[simp] theorem Ctx.putV_vnotify (c : Ctx) (r : BitVec 6) (w : VWord) : (c.putV r w).vnotify = c.vnotify := rfl
@[simp] theorem Ctx.putV_vthr (c : Ctx) (r : BitVec 6) (w : VWord) : (c.putV r w).vthr = c.vthr := rfl
@[simp] theorem Ctx.putV_frm (c : Ctx) (r : BitVec 6) (w : VWord) : (c.putV r w).frm = c.frm := rfl
@[simp] theorem Ctx.putV_frmSct (c : Ctx) (r : BitVec 6) (w : VWord) : (c.putV r w).frmSct = c.frmSct := rfl
@[simp] theorem Ctx.putV_fflags (c : Ctx) (r : BitVec 6) (w : VWord) : (c.putV r w).fflags = c.fflags := rfl
@[simp] theorem Ctx.putV_hwmReg (c : Ctx) (r : BitVec 6) (w : VWord) : (c.putV r w).hwmReg = c.hwmReg := rfl
@[simp] theorem Ctx.putV_hwmBytes (c : Ctx) (r : BitVec 6) (w : VWord) : (c.putV r w).hwmBytes = c.hwmBytes := rfl
@[simp] theorem Ctx.putV_wfmt (c : Ctx) (r : BitVec 6) (w : VWord) : (c.putV r w).wfmt = c.wfmt := rfl
@[simp] theorem Ctx.putV_priv (c : Ctx) (r : BitVec 6) (w : VWord) : (c.putV r w).priv = c.priv := rfl
@[simp] theorem Ctx.putV_ppriv (c : Ctx) (r : BitVec 6) (w : VWord) : (c.putV r w).ppriv = c.ppriv := rfl
@[simp] theorem Ctx.putV_tfv (c : Ctx) (r : BitVec 6) (w : VWord) : (c.putV r w).tfv = c.tfv := rfl
@[simp] theorem Ctx.putV_skip (c : Ctx) (r : BitVec 6) (w : VWord) : (c.putV r w).skip = c.skip := rfl
@[simp] theorem Ctx.putV_detm (c : Ctx) (r : BitVec 6) (w : VWord) : (c.putV r w).detm = c.detm := rfl
@[simp] theorem Ctx.putV_cw (c : Ctx) (r : BitVec 6) (w : VWord) : (c.putV r w).cw = c.cw := rfl
@[simp] theorem Ctx.putV_cause (c : Ctx) (r : BitVec 6) (w : VWord) : (c.putV r w).cause = c.cause := rfl
@[simp] theorem Ctx.putV_epc (c : Ctx) (r : BitVec 6) (w : VWord) : (c.putV r w).epc = c.epc := rfl
@[simp] theorem Ctx.putV_epcv (c : Ctx) (r : BitVec 6) (w : VWord) : (c.putV r w).epcv = c.epcv := rfl
@[simp] theorem Ctx.putV_tval (c : Ctx) (r : BitVec 6) (w : VWord) : (c.putV r w).tval = c.tval := rfl
@[simp] theorem Ctx.putV_tvec (c : Ctx) (r : BitVec 6) (w : VWord) : (c.putV r w).tvec = c.tvec := rfl
@[simp] theorem Ctx.putV_htvec (c : Ctx) (r : BitVec 6) (w : VWord) : (c.putV r w).htvec = c.htvec := rfl
@[simp] theorem Ctx.putV_asid (c : Ctx) (r : BitVec 6) (w : VWord) : (c.putV r w).asid = c.asid := rfl
@[simp] theorem Ctx.putV_lgb (c : Ctx) (r : BitVec 6) (w : VWord) : (c.putV r w).lgb = c.lgb := rfl
@[simp] theorem Ctx.putV_lgn (c : Ctx) (r : BitVec 6) (w : VWord) : (c.putV r w).lgn = c.lgn := rfl
@[simp] theorem Ctx.putV_trb (c : Ctx) (r : BitVec 6) (w : VWord) : (c.putV r w).trb = c.trb := rfl
@[simp] theorem Ctx.putV_trn (c : Ctx) (r : BitVec 6) (w : VWord) : (c.putV r w).trn = c.trn := rfl
@[simp] theorem Ctx.putV_standLgn (c : Ctx) (r : BitVec 6) (w : VWord) : (c.putV r w).standLgn = c.standLgn := rfl
@[simp] theorem Ctx.putV_standTrn (c : Ctx) (r : BitVec 6) (w : VWord) : (c.putV r w).standTrn = c.standTrn := rfl
@[simp] theorem Ctx.putV_reclaimAt (c : Ctx) (r : BitVec 6) (w : VWord) : (c.putV r w).reclaimAt = c.reclaimAt := rfl
@[simp] theorem Ctx.putV_budget (c : Ctx) (r : BitVec 6) (w : VWord) : (c.putV r w).budget = c.budget := rfl
@[simp] theorem Ctx.putV_bused (c : Ctx) (r : BitVec 6) (w : VWord) : (c.putV r w).bused = c.bused := rfl
@[simp] theorem Ctx.putV_armed (c : Ctx) (r : BitVec 6) (w : VWord) : (c.putV r w).armed = c.armed := rfl
@[simp] theorem Ctx.putV_tmr (c : Ctx) (r : BitVec 6) (w : VWord) : (c.putV r w).tmr = c.tmr := rfl
@[simp] theorem Ctx.putV_viq (c : Ctx) (r : BitVec 6) (w : VWord) : (c.putV r w).viq = c.viq := rfl
@[simp] theorem Ctx.putV_frame (c : Ctx) (r : BitVec 6) (w : VWord) : (c.putV r w).frame = c.frame := rfl
@[simp] theorem Ctx.putV_frameVf (c : Ctx) (r : BitVec 6) (w : VWord) : (c.putV r w).frameVf = c.frameVf := rfl
@[simp] theorem Ctx.putV_lag (c : Ctx) (r : BitVec 6) (w : VWord) : (c.putV r w).lag = c.lag := rfl
@[simp] theorem Ctx.putV_loop (c : Ctx) (r : BitVec 6) (w : VWord) : (c.putV r w).loop = c.loop := rfl
@[simp] theorem Ctx.putV_resume (c : Ctx) (r : BitVec 6) (w : VWord) : (c.putV r w).resume = c.resume := rfl
@[simp] theorem Ctx.putV_pMcheck (c : Ctx) (r : BitVec 6) (w : VWord) : (c.putV r w).pMcheck = c.pMcheck := rfl
@[simp] theorem Ctx.putV_pCancelled (c : Ctx) (r : BitVec 6) (w : VWord) : (c.putV r w).pCancelled = c.pCancelled := rfl
@[simp] theorem Ctx.putV_pReclaim (c : Ctx) (r : BitVec 6) (w : VWord) : (c.putV r w).pReclaim = c.pReclaim := rfl
@[simp] theorem Ctx.putV_pBudget (c : Ctx) (r : BitVec 6) (w : VWord) : (c.putV r w).pBudget = c.pBudget := rfl
@[simp] theorem Ctx.putV_pPreempt (c : Ctx) (r : BitVec 6) (w : VWord) : (c.putV r w).pPreempt = c.pPreempt := rfl
@[simp] theorem Ctx.putV_unit (c : Ctx) (r : BitVec 6) (w : VWord) : (c.putV r w).unit = c.unit := rfl
@[simp] theorem Ctx.putV_preload (c : Ctx) (r : BitVec 6) (w : VWord) : (c.putV r w).preload = c.preload := rfl
@[simp] theorem Ctx.putV_run (c : Ctx) (r : BitVec 6) (w : VWord) : (c.putV r w).run = c.run := rfl
@[simp] theorem Ctx.putV_tenure (c : Ctx) (r : BitVec 6) (w : VWord) : (c.putV r w).tenure = c.tenure := rfl
@[simp] theorem Ctx.putV_wcb (c : Ctx) (r : BitVec 6) (w : VWord) : (c.putV r w).wcb = c.wcb := rfl
@[simp] theorem Ctx.putV_stores (c : Ctx) (r : BitVec 6) (w : VWord) : (c.putV r w).stores = c.stores := rfl
@[simp] theorem Ctx.putV_path (c : Ctx) (r : BitVec 6) (w : VWord) : (c.putV r w).path = c.path := rfl
@[simp] theorem Ctx.putV_bars (c : Ctx) (r : BitVec 6) (w : VWord) : (c.putV r w).bars = c.bars := rfl
@[simp] theorem Ctx.putV_frameBars (c : Ctx) (r : BitVec 6) (w : VWord) : (c.putV r w).frameBars = c.frameBars := rfl
@[simp] theorem Ctx.putV_late (c : Ctx) (r : BitVec 6) (w : VWord) : (c.putV r w).late = c.late := rfl
@[simp] theorem Ctx.putV_located (c : Ctx) (r : BitVec 6) (w : VWord) : (c.putV r w).located = c.located := rfl
@[simp] theorem Ctx.putV_claspWord (c : Ctx) (r : BitVec 6) (w : VWord) : (c.putV r w).claspWord = c.claspWord := rfl
@[simp] theorem Ctx.putV_rejoin (c : Ctx) (r : BitVec 6) (w : VWord) : (c.putV r w).rejoin = c.rejoin := rfl
@[simp] theorem Ctx.putV_stall (c : Ctx) (r : BitVec 6) (w : VWord) : (c.putV r w).stall = c.stall := rfl
@[simp] theorem Ctx.putV_v (c : Ctx) (r : BitVec 6) (w : VWord) : (c.putV r w).v = c.v.set r.toNat w := rfl

@[simp] theorem Ctx.putFacet_x (c : Ctx) (r : BitVec 6) (w : BitVec 16) : (c.putFacet r w).x = c.x := rfl
@[simp] theorem Ctx.putFacet_pc (c : Ctx) (r : BitVec 6) (w : BitVec 16) : (c.putFacet r w).pc = c.pc := rfl
@[simp] theorem Ctx.putFacet_v (c : Ctx) (r : BitVec 6) (w : BitVec 16) : (c.putFacet r w).v = c.v := rfl
@[simp] theorem Ctx.putFacet_tiles (c : Ctx) (r : BitVec 6) (w : BitVec 16) : (c.putFacet r w).tiles = c.tiles := rfl
@[simp] theorem Ctx.putFacet_cb (c : Ctx) (r : BitVec 6) (w : BitVec 16) : (c.putFacet r w).cb = c.cb := rfl
@[simp] theorem Ctx.putFacet_hl (c : Ctx) (r : BitVec 6) (w : BitVec 16) : (c.putFacet r w).hl = c.hl := rfl
@[simp] theorem Ctx.putFacet_cl (c : Ctx) (r : BitVec 6) (w : BitVec 16) : (c.putFacet r w).cl = c.cl := rfl
@[simp] theorem Ctx.putFacet_latch (c : Ctx) (r : BitVec 6) (w : BitVec 16) : (c.putFacet r w).latch = c.latch := rfl
@[simp] theorem Ctx.putFacet_heldLatch (c : Ctx) (r : BitVec 6) (w : BitVec 16) : (c.putFacet r w).heldLatch = c.heldLatch := rfl
@[simp] theorem Ctx.putFacet_q (c : Ctx) (r : BitVec 6) (w : BitVec 16) : (c.putFacet r w).q = c.q := rfl
@[simp] theorem Ctx.putFacet_ch (c : Ctx) (r : BitVec 6) (w : BitVec 16) : (c.putFacet r w).ch = c.ch := rfl
@[simp] theorem Ctx.putFacet_rh (c : Ctx) (r : BitVec 6) (w : BitVec 16) : (c.putFacet r w).rh = c.rh := rfl
@[simp] theorem Ctx.putFacet_rhsel (c : Ctx) (r : BitVec 6) (w : BitVec 16) : (c.putFacet r w).rhsel = c.rhsel := rfl
@[simp] theorem Ctx.putFacet_vl (c : Ctx) (r : BitVec 6) (w : BitVec 16) : (c.putFacet r w).vl = c.vl := rfl
@[simp] theorem Ctx.putFacet_vtype (c : Ctx) (r : BitVec 6) (w : BitVec 16) : (c.putFacet r w).vtype = c.vtype := rfl
@[simp] theorem Ctx.putFacet_vmt (c : Ctx) (r : BitVec 6) (w : BitVec 16) : (c.putFacet r w).vmt = c.vmt := rfl
@[simp] theorem Ctx.putFacet_vrm (c : Ctx) (r : BitVec 6) (w : BitVec 16) : (c.putFacet r w).vrm = c.vrm := rfl
@[simp] theorem Ctx.putFacet_vsat (c : Ctx) (r : BitVec 6) (w : BitVec 16) : (c.putFacet r w).vsat = c.vsat := rfl
@[simp] theorem Ctx.putFacet_vfs (c : Ctx) (r : BitVec 6) (w : BitVec 16) : (c.putFacet r w).vfs = c.vfs := rfl
@[simp] theorem Ctx.putFacet_vnotify (c : Ctx) (r : BitVec 6) (w : BitVec 16) : (c.putFacet r w).vnotify = c.vnotify := rfl
@[simp] theorem Ctx.putFacet_vthr (c : Ctx) (r : BitVec 6) (w : BitVec 16) : (c.putFacet r w).vthr = c.vthr := rfl
@[simp] theorem Ctx.putFacet_frm (c : Ctx) (r : BitVec 6) (w : BitVec 16) : (c.putFacet r w).frm = c.frm := rfl
@[simp] theorem Ctx.putFacet_frmSct (c : Ctx) (r : BitVec 6) (w : BitVec 16) : (c.putFacet r w).frmSct = c.frmSct := rfl
@[simp] theorem Ctx.putFacet_fflags (c : Ctx) (r : BitVec 6) (w : BitVec 16) : (c.putFacet r w).fflags = c.fflags := rfl
@[simp] theorem Ctx.putFacet_hwmReg (c : Ctx) (r : BitVec 6) (w : BitVec 16) : (c.putFacet r w).hwmReg = c.hwmReg := rfl
@[simp] theorem Ctx.putFacet_hwmBytes (c : Ctx) (r : BitVec 6) (w : BitVec 16) : (c.putFacet r w).hwmBytes = c.hwmBytes := rfl
@[simp] theorem Ctx.putFacet_wfmt (c : Ctx) (r : BitVec 6) (w : BitVec 16) : (c.putFacet r w).wfmt = c.wfmt := rfl
@[simp] theorem Ctx.putFacet_priv (c : Ctx) (r : BitVec 6) (w : BitVec 16) : (c.putFacet r w).priv = c.priv := rfl
@[simp] theorem Ctx.putFacet_ppriv (c : Ctx) (r : BitVec 6) (w : BitVec 16) : (c.putFacet r w).ppriv = c.ppriv := rfl
@[simp] theorem Ctx.putFacet_tfv (c : Ctx) (r : BitVec 6) (w : BitVec 16) : (c.putFacet r w).tfv = c.tfv := rfl
@[simp] theorem Ctx.putFacet_skip (c : Ctx) (r : BitVec 6) (w : BitVec 16) : (c.putFacet r w).skip = c.skip := rfl
@[simp] theorem Ctx.putFacet_detm (c : Ctx) (r : BitVec 6) (w : BitVec 16) : (c.putFacet r w).detm = c.detm := rfl
@[simp] theorem Ctx.putFacet_cw (c : Ctx) (r : BitVec 6) (w : BitVec 16) : (c.putFacet r w).cw = c.cw := rfl
@[simp] theorem Ctx.putFacet_cause (c : Ctx) (r : BitVec 6) (w : BitVec 16) : (c.putFacet r w).cause = c.cause := rfl
@[simp] theorem Ctx.putFacet_epc (c : Ctx) (r : BitVec 6) (w : BitVec 16) : (c.putFacet r w).epc = c.epc := rfl
@[simp] theorem Ctx.putFacet_epcv (c : Ctx) (r : BitVec 6) (w : BitVec 16) : (c.putFacet r w).epcv = c.epcv := rfl
@[simp] theorem Ctx.putFacet_tval (c : Ctx) (r : BitVec 6) (w : BitVec 16) : (c.putFacet r w).tval = c.tval := rfl
@[simp] theorem Ctx.putFacet_tvec (c : Ctx) (r : BitVec 6) (w : BitVec 16) : (c.putFacet r w).tvec = c.tvec := rfl
@[simp] theorem Ctx.putFacet_htvec (c : Ctx) (r : BitVec 6) (w : BitVec 16) : (c.putFacet r w).htvec = c.htvec := rfl
@[simp] theorem Ctx.putFacet_asid (c : Ctx) (r : BitVec 6) (w : BitVec 16) : (c.putFacet r w).asid = c.asid := rfl
@[simp] theorem Ctx.putFacet_lgb (c : Ctx) (r : BitVec 6) (w : BitVec 16) : (c.putFacet r w).lgb = c.lgb := rfl
@[simp] theorem Ctx.putFacet_lgn (c : Ctx) (r : BitVec 6) (w : BitVec 16) : (c.putFacet r w).lgn = c.lgn := rfl
@[simp] theorem Ctx.putFacet_trb (c : Ctx) (r : BitVec 6) (w : BitVec 16) : (c.putFacet r w).trb = c.trb := rfl
@[simp] theorem Ctx.putFacet_trn (c : Ctx) (r : BitVec 6) (w : BitVec 16) : (c.putFacet r w).trn = c.trn := rfl
@[simp] theorem Ctx.putFacet_standLgn (c : Ctx) (r : BitVec 6) (w : BitVec 16) : (c.putFacet r w).standLgn = c.standLgn := rfl
@[simp] theorem Ctx.putFacet_standTrn (c : Ctx) (r : BitVec 6) (w : BitVec 16) : (c.putFacet r w).standTrn = c.standTrn := rfl
@[simp] theorem Ctx.putFacet_reclaimAt (c : Ctx) (r : BitVec 6) (w : BitVec 16) : (c.putFacet r w).reclaimAt = c.reclaimAt := rfl
@[simp] theorem Ctx.putFacet_budget (c : Ctx) (r : BitVec 6) (w : BitVec 16) : (c.putFacet r w).budget = c.budget := rfl
@[simp] theorem Ctx.putFacet_bused (c : Ctx) (r : BitVec 6) (w : BitVec 16) : (c.putFacet r w).bused = c.bused := rfl
@[simp] theorem Ctx.putFacet_armed (c : Ctx) (r : BitVec 6) (w : BitVec 16) : (c.putFacet r w).armed = c.armed := rfl
@[simp] theorem Ctx.putFacet_tmr (c : Ctx) (r : BitVec 6) (w : BitVec 16) : (c.putFacet r w).tmr = c.tmr := rfl
@[simp] theorem Ctx.putFacet_viq (c : Ctx) (r : BitVec 6) (w : BitVec 16) : (c.putFacet r w).viq = c.viq := rfl
@[simp] theorem Ctx.putFacet_frame (c : Ctx) (r : BitVec 6) (w : BitVec 16) : (c.putFacet r w).frame = c.frame := rfl
@[simp] theorem Ctx.putFacet_frameVf (c : Ctx) (r : BitVec 6) (w : BitVec 16) : (c.putFacet r w).frameVf = c.frameVf := rfl
@[simp] theorem Ctx.putFacet_lag (c : Ctx) (r : BitVec 6) (w : BitVec 16) : (c.putFacet r w).lag = c.lag := rfl
@[simp] theorem Ctx.putFacet_loop (c : Ctx) (r : BitVec 6) (w : BitVec 16) : (c.putFacet r w).loop = c.loop := rfl
@[simp] theorem Ctx.putFacet_resume (c : Ctx) (r : BitVec 6) (w : BitVec 16) : (c.putFacet r w).resume = c.resume := rfl
@[simp] theorem Ctx.putFacet_pMcheck (c : Ctx) (r : BitVec 6) (w : BitVec 16) : (c.putFacet r w).pMcheck = c.pMcheck := rfl
@[simp] theorem Ctx.putFacet_pCancelled (c : Ctx) (r : BitVec 6) (w : BitVec 16) : (c.putFacet r w).pCancelled = c.pCancelled := rfl
@[simp] theorem Ctx.putFacet_pReclaim (c : Ctx) (r : BitVec 6) (w : BitVec 16) : (c.putFacet r w).pReclaim = c.pReclaim := rfl
@[simp] theorem Ctx.putFacet_pBudget (c : Ctx) (r : BitVec 6) (w : BitVec 16) : (c.putFacet r w).pBudget = c.pBudget := rfl
@[simp] theorem Ctx.putFacet_pPreempt (c : Ctx) (r : BitVec 6) (w : BitVec 16) : (c.putFacet r w).pPreempt = c.pPreempt := rfl
@[simp] theorem Ctx.putFacet_unit (c : Ctx) (r : BitVec 6) (w : BitVec 16) : (c.putFacet r w).unit = c.unit := rfl
@[simp] theorem Ctx.putFacet_preload (c : Ctx) (r : BitVec 6) (w : BitVec 16) : (c.putFacet r w).preload = c.preload := rfl
@[simp] theorem Ctx.putFacet_run (c : Ctx) (r : BitVec 6) (w : BitVec 16) : (c.putFacet r w).run = c.run := rfl
@[simp] theorem Ctx.putFacet_tenure (c : Ctx) (r : BitVec 6) (w : BitVec 16) : (c.putFacet r w).tenure = c.tenure := rfl
@[simp] theorem Ctx.putFacet_wcb (c : Ctx) (r : BitVec 6) (w : BitVec 16) : (c.putFacet r w).wcb = c.wcb := rfl
@[simp] theorem Ctx.putFacet_stores (c : Ctx) (r : BitVec 6) (w : BitVec 16) : (c.putFacet r w).stores = c.stores := rfl
@[simp] theorem Ctx.putFacet_path (c : Ctx) (r : BitVec 6) (w : BitVec 16) : (c.putFacet r w).path = c.path := rfl
@[simp] theorem Ctx.putFacet_bars (c : Ctx) (r : BitVec 6) (w : BitVec 16) : (c.putFacet r w).bars = c.bars := rfl
@[simp] theorem Ctx.putFacet_frameBars (c : Ctx) (r : BitVec 6) (w : BitVec 16) : (c.putFacet r w).frameBars = c.frameBars := rfl
@[simp] theorem Ctx.putFacet_late (c : Ctx) (r : BitVec 6) (w : BitVec 16) : (c.putFacet r w).late = c.late := rfl
@[simp] theorem Ctx.putFacet_located (c : Ctx) (r : BitVec 6) (w : BitVec 16) : (c.putFacet r w).located = c.located := rfl
@[simp] theorem Ctx.putFacet_claspWord (c : Ctx) (r : BitVec 6) (w : BitVec 16) : (c.putFacet r w).claspWord = c.claspWord := rfl
@[simp] theorem Ctx.putFacet_rejoin (c : Ctx) (r : BitVec 6) (w : BitVec 16) : (c.putFacet r w).rejoin = c.rejoin := rfl
@[simp] theorem Ctx.putFacet_stall (c : Ctx) (r : BitVec 6) (w : BitVec 16) : (c.putFacet r w).stall = c.stall := rfl
@[simp] theorem Ctx.putFacet_facets (c : Ctx) (r : BitVec 6) (w : BitVec 16) : (c.putFacet r w).facets = c.facets.set r.toNat w := rfl

@[simp] theorem Ctx.raiseHwm_x (c : Ctx) (r n : Nat) : (c.raiseHwm r n).x = c.x := rfl
@[simp] theorem Ctx.raiseHwm_pc (c : Ctx) (r n : Nat) : (c.raiseHwm r n).pc = c.pc := rfl
@[simp] theorem Ctx.raiseHwm_v (c : Ctx) (r n : Nat) : (c.raiseHwm r n).v = c.v := rfl
@[simp] theorem Ctx.raiseHwm_facets (c : Ctx) (r n : Nat) : (c.raiseHwm r n).facets = c.facets := rfl
@[simp] theorem Ctx.raiseHwm_tiles (c : Ctx) (r n : Nat) : (c.raiseHwm r n).tiles = c.tiles := rfl
@[simp] theorem Ctx.raiseHwm_cb (c : Ctx) (r n : Nat) : (c.raiseHwm r n).cb = c.cb := rfl
@[simp] theorem Ctx.raiseHwm_hl (c : Ctx) (r n : Nat) : (c.raiseHwm r n).hl = c.hl := rfl
@[simp] theorem Ctx.raiseHwm_cl (c : Ctx) (r n : Nat) : (c.raiseHwm r n).cl = c.cl := rfl
@[simp] theorem Ctx.raiseHwm_latch (c : Ctx) (r n : Nat) : (c.raiseHwm r n).latch = c.latch := rfl
@[simp] theorem Ctx.raiseHwm_heldLatch (c : Ctx) (r n : Nat) : (c.raiseHwm r n).heldLatch = c.heldLatch := rfl
@[simp] theorem Ctx.raiseHwm_q (c : Ctx) (r n : Nat) : (c.raiseHwm r n).q = c.q := rfl
@[simp] theorem Ctx.raiseHwm_ch (c : Ctx) (r n : Nat) : (c.raiseHwm r n).ch = c.ch := rfl
@[simp] theorem Ctx.raiseHwm_rh (c : Ctx) (r n : Nat) : (c.raiseHwm r n).rh = c.rh := rfl
@[simp] theorem Ctx.raiseHwm_rhsel (c : Ctx) (r n : Nat) : (c.raiseHwm r n).rhsel = c.rhsel := rfl
@[simp] theorem Ctx.raiseHwm_vl (c : Ctx) (r n : Nat) : (c.raiseHwm r n).vl = c.vl := rfl
@[simp] theorem Ctx.raiseHwm_vtype (c : Ctx) (r n : Nat) : (c.raiseHwm r n).vtype = c.vtype := rfl
@[simp] theorem Ctx.raiseHwm_vmt (c : Ctx) (r n : Nat) : (c.raiseHwm r n).vmt = c.vmt := rfl
@[simp] theorem Ctx.raiseHwm_vrm (c : Ctx) (r n : Nat) : (c.raiseHwm r n).vrm = c.vrm := rfl
@[simp] theorem Ctx.raiseHwm_vsat (c : Ctx) (r n : Nat) : (c.raiseHwm r n).vsat = c.vsat := rfl
@[simp] theorem Ctx.raiseHwm_vfs (c : Ctx) (r n : Nat) : (c.raiseHwm r n).vfs = c.vfs := rfl
@[simp] theorem Ctx.raiseHwm_vnotify (c : Ctx) (r n : Nat) : (c.raiseHwm r n).vnotify = c.vnotify := rfl
@[simp] theorem Ctx.raiseHwm_vthr (c : Ctx) (r n : Nat) : (c.raiseHwm r n).vthr = c.vthr := rfl
@[simp] theorem Ctx.raiseHwm_frm (c : Ctx) (r n : Nat) : (c.raiseHwm r n).frm = c.frm := rfl
@[simp] theorem Ctx.raiseHwm_frmSct (c : Ctx) (r n : Nat) : (c.raiseHwm r n).frmSct = c.frmSct := rfl
@[simp] theorem Ctx.raiseHwm_fflags (c : Ctx) (r n : Nat) : (c.raiseHwm r n).fflags = c.fflags := rfl
@[simp] theorem Ctx.raiseHwm_wfmt (c : Ctx) (r n : Nat) : (c.raiseHwm r n).wfmt = c.wfmt := rfl
@[simp] theorem Ctx.raiseHwm_priv (c : Ctx) (r n : Nat) : (c.raiseHwm r n).priv = c.priv := rfl
@[simp] theorem Ctx.raiseHwm_ppriv (c : Ctx) (r n : Nat) : (c.raiseHwm r n).ppriv = c.ppriv := rfl
@[simp] theorem Ctx.raiseHwm_tfv (c : Ctx) (r n : Nat) : (c.raiseHwm r n).tfv = c.tfv := rfl
@[simp] theorem Ctx.raiseHwm_skip (c : Ctx) (r n : Nat) : (c.raiseHwm r n).skip = c.skip := rfl
@[simp] theorem Ctx.raiseHwm_detm (c : Ctx) (r n : Nat) : (c.raiseHwm r n).detm = c.detm := rfl
@[simp] theorem Ctx.raiseHwm_cw (c : Ctx) (r n : Nat) : (c.raiseHwm r n).cw = c.cw := rfl
@[simp] theorem Ctx.raiseHwm_cause (c : Ctx) (r n : Nat) : (c.raiseHwm r n).cause = c.cause := rfl
@[simp] theorem Ctx.raiseHwm_epc (c : Ctx) (r n : Nat) : (c.raiseHwm r n).epc = c.epc := rfl
@[simp] theorem Ctx.raiseHwm_epcv (c : Ctx) (r n : Nat) : (c.raiseHwm r n).epcv = c.epcv := rfl
@[simp] theorem Ctx.raiseHwm_tval (c : Ctx) (r n : Nat) : (c.raiseHwm r n).tval = c.tval := rfl
@[simp] theorem Ctx.raiseHwm_tvec (c : Ctx) (r n : Nat) : (c.raiseHwm r n).tvec = c.tvec := rfl
@[simp] theorem Ctx.raiseHwm_htvec (c : Ctx) (r n : Nat) : (c.raiseHwm r n).htvec = c.htvec := rfl
@[simp] theorem Ctx.raiseHwm_asid (c : Ctx) (r n : Nat) : (c.raiseHwm r n).asid = c.asid := rfl
@[simp] theorem Ctx.raiseHwm_lgb (c : Ctx) (r n : Nat) : (c.raiseHwm r n).lgb = c.lgb := rfl
@[simp] theorem Ctx.raiseHwm_lgn (c : Ctx) (r n : Nat) : (c.raiseHwm r n).lgn = c.lgn := rfl
@[simp] theorem Ctx.raiseHwm_trb (c : Ctx) (r n : Nat) : (c.raiseHwm r n).trb = c.trb := rfl
@[simp] theorem Ctx.raiseHwm_trn (c : Ctx) (r n : Nat) : (c.raiseHwm r n).trn = c.trn := rfl
@[simp] theorem Ctx.raiseHwm_standLgn (c : Ctx) (r n : Nat) : (c.raiseHwm r n).standLgn = c.standLgn := rfl
@[simp] theorem Ctx.raiseHwm_standTrn (c : Ctx) (r n : Nat) : (c.raiseHwm r n).standTrn = c.standTrn := rfl
@[simp] theorem Ctx.raiseHwm_reclaimAt (c : Ctx) (r n : Nat) : (c.raiseHwm r n).reclaimAt = c.reclaimAt := rfl
@[simp] theorem Ctx.raiseHwm_budget (c : Ctx) (r n : Nat) : (c.raiseHwm r n).budget = c.budget := rfl
@[simp] theorem Ctx.raiseHwm_bused (c : Ctx) (r n : Nat) : (c.raiseHwm r n).bused = c.bused := rfl
@[simp] theorem Ctx.raiseHwm_armed (c : Ctx) (r n : Nat) : (c.raiseHwm r n).armed = c.armed := rfl
@[simp] theorem Ctx.raiseHwm_tmr (c : Ctx) (r n : Nat) : (c.raiseHwm r n).tmr = c.tmr := rfl
@[simp] theorem Ctx.raiseHwm_viq (c : Ctx) (r n : Nat) : (c.raiseHwm r n).viq = c.viq := rfl
@[simp] theorem Ctx.raiseHwm_frame (c : Ctx) (r n : Nat) : (c.raiseHwm r n).frame = c.frame := rfl
@[simp] theorem Ctx.raiseHwm_frameVf (c : Ctx) (r n : Nat) : (c.raiseHwm r n).frameVf = c.frameVf := rfl
@[simp] theorem Ctx.raiseHwm_lag (c : Ctx) (r n : Nat) : (c.raiseHwm r n).lag = c.lag := rfl
@[simp] theorem Ctx.raiseHwm_loop (c : Ctx) (r n : Nat) : (c.raiseHwm r n).loop = c.loop := rfl
@[simp] theorem Ctx.raiseHwm_resume (c : Ctx) (r n : Nat) : (c.raiseHwm r n).resume = c.resume := rfl
@[simp] theorem Ctx.raiseHwm_pMcheck (c : Ctx) (r n : Nat) : (c.raiseHwm r n).pMcheck = c.pMcheck := rfl
@[simp] theorem Ctx.raiseHwm_pCancelled (c : Ctx) (r n : Nat) : (c.raiseHwm r n).pCancelled = c.pCancelled := rfl
@[simp] theorem Ctx.raiseHwm_pReclaim (c : Ctx) (r n : Nat) : (c.raiseHwm r n).pReclaim = c.pReclaim := rfl
@[simp] theorem Ctx.raiseHwm_pBudget (c : Ctx) (r n : Nat) : (c.raiseHwm r n).pBudget = c.pBudget := rfl
@[simp] theorem Ctx.raiseHwm_pPreempt (c : Ctx) (r n : Nat) : (c.raiseHwm r n).pPreempt = c.pPreempt := rfl
@[simp] theorem Ctx.raiseHwm_unit (c : Ctx) (r n : Nat) : (c.raiseHwm r n).unit = c.unit := rfl
@[simp] theorem Ctx.raiseHwm_preload (c : Ctx) (r n : Nat) : (c.raiseHwm r n).preload = c.preload := rfl
@[simp] theorem Ctx.raiseHwm_run (c : Ctx) (r n : Nat) : (c.raiseHwm r n).run = c.run := rfl
@[simp] theorem Ctx.raiseHwm_tenure (c : Ctx) (r n : Nat) : (c.raiseHwm r n).tenure = c.tenure := rfl
@[simp] theorem Ctx.raiseHwm_wcb (c : Ctx) (r n : Nat) : (c.raiseHwm r n).wcb = c.wcb := rfl
@[simp] theorem Ctx.raiseHwm_stores (c : Ctx) (r n : Nat) : (c.raiseHwm r n).stores = c.stores := rfl
@[simp] theorem Ctx.raiseHwm_path (c : Ctx) (r n : Nat) : (c.raiseHwm r n).path = c.path := rfl
@[simp] theorem Ctx.raiseHwm_bars (c : Ctx) (r n : Nat) : (c.raiseHwm r n).bars = c.bars := rfl
@[simp] theorem Ctx.raiseHwm_frameBars (c : Ctx) (r n : Nat) : (c.raiseHwm r n).frameBars = c.frameBars := rfl
@[simp] theorem Ctx.raiseHwm_late (c : Ctx) (r n : Nat) : (c.raiseHwm r n).late = c.late := rfl
@[simp] theorem Ctx.raiseHwm_located (c : Ctx) (r n : Nat) : (c.raiseHwm r n).located = c.located := rfl
@[simp] theorem Ctx.raiseHwm_claspWord (c : Ctx) (r n : Nat) : (c.raiseHwm r n).claspWord = c.claspWord := rfl
@[simp] theorem Ctx.raiseHwm_rejoin (c : Ctx) (r n : Nat) : (c.raiseHwm r n).rejoin = c.rejoin := rfl
@[simp] theorem Ctx.raiseHwm_stall (c : Ctx) (r n : Nat) : (c.raiseHwm r n).stall = c.stall := rfl
@[simp] theorem Ctx.raiseHwm_hwmReg (c : Ctx) (r n : Nat) : (c.raiseHwm r n).hwmReg = Nat.max c.hwmReg r := rfl
@[simp] theorem Ctx.raiseHwm_hwmBytes (c : Ctx) (r n : Nat) : (c.raiseHwm r n).hwmBytes = Nat.max c.hwmBytes n := rfl

/-- Nothing put behind the oldest entry, nothing enters. -/
theorem Ctx.landLate_none {c : Ctx} (h : c.late = none) : c.landLate = c := by
  unfold Ctx.landLate
  rw [h]

/-- Without a store or fence put behind the oldest entry and without a fence that still follows queue entries, nothing takes its place at a
trap. -/
theorem Ctx.landBars_nil {c : Ctx} (h : c.bars = []) (hl : c.late = none) : c.landBars = c := by
  unfold Ctx.landBars
  rw [h, Ctx.landLate_none hl]
  rfl

/-- The fences a trap sets aside are those that still follow entries, where nothing is put behind the oldest entry. -/
theorem Ctx.fences_none {c : Ctx} (hl : c.late = none) : c.fences = c.bars := by
  unfold Ctx.fences
  rw [hl]
  rfl

@[simp] theorem Ctx.enterTrap_late (c : Ctx) (hyp int vec : Bool) (code : Nat) (tval : Word) : (c.enterTrap hyp int vec code tval).late = none := rfl
@[simp] theorem Ctx.enterTrap_located (c : Ctx) (hyp int vec : Bool) (code : Nat) (tval : Word) : (c.enterTrap hyp int vec code tval).located = c.located := rfl
@[simp] theorem Ctx.enterTrap_rejoin (c : Ctx) (hyp int vec : Bool) (code : Nat) (tval : Word) : (c.enterTrap hyp int vec code tval).rejoin = none := rfl

@[simp] theorem Ctx.enterTrap_x (c : Ctx) (hyp int vec : Bool) (code : Nat) (tval : Word) : (c.enterTrap hyp int vec code tval).x = c.x := rfl
@[simp] theorem Ctx.enterTrap_v (c : Ctx) (hyp int vec : Bool) (code : Nat) (tval : Word) : (c.enterTrap hyp int vec code tval).v = c.v := rfl
@[simp] theorem Ctx.enterTrap_facets (c : Ctx) (hyp int vec : Bool) (code : Nat) (tval : Word) : (c.enterTrap hyp int vec code tval).facets = c.facets := rfl
@[simp] theorem Ctx.enterTrap_tiles (c : Ctx) (hyp int vec : Bool) (code : Nat) (tval : Word) : (c.enterTrap hyp int vec code tval).tiles = c.tiles := rfl
@[simp] theorem Ctx.enterTrap_cb (c : Ctx) (hyp int vec : Bool) (code : Nat) (tval : Word) : (c.enterTrap hyp int vec code tval).cb = c.cb := rfl
@[simp] theorem Ctx.enterTrap_hl (c : Ctx) (hyp int vec : Bool) (code : Nat) (tval : Word) : (c.enterTrap hyp int vec code tval).hl = c.hl := rfl
@[simp] theorem Ctx.enterTrap_cl (c : Ctx) (hyp int vec : Bool) (code : Nat) (tval : Word) : (c.enterTrap hyp int vec code tval).cl = c.cl := rfl
@[simp] theorem Ctx.enterTrap_q (c : Ctx) (hyp int vec : Bool) (code : Nat) (tval : Word) : (c.enterTrap hyp int vec code tval).q = c.q := rfl
@[simp] theorem Ctx.enterTrap_ch (c : Ctx) (hyp int vec : Bool) (code : Nat) (tval : Word) : (c.enterTrap hyp int vec code tval).ch = c.ch := rfl
@[simp] theorem Ctx.enterTrap_rh (c : Ctx) (hyp int vec : Bool) (code : Nat) (tval : Word) : (c.enterTrap hyp int vec code tval).rh = c.rh := rfl
@[simp] theorem Ctx.enterTrap_rhsel (c : Ctx) (hyp int vec : Bool) (code : Nat) (tval : Word) : (c.enterTrap hyp int vec code tval).rhsel = c.rhsel := rfl
@[simp] theorem Ctx.enterTrap_vl (c : Ctx) (hyp int vec : Bool) (code : Nat) (tval : Word) : (c.enterTrap hyp int vec code tval).vl = c.vl := rfl
@[simp] theorem Ctx.enterTrap_vtype (c : Ctx) (hyp int vec : Bool) (code : Nat) (tval : Word) : (c.enterTrap hyp int vec code tval).vtype = c.vtype := rfl
@[simp] theorem Ctx.enterTrap_vmt (c : Ctx) (hyp int vec : Bool) (code : Nat) (tval : Word) : (c.enterTrap hyp int vec code tval).vmt = c.vmt := rfl
@[simp] theorem Ctx.enterTrap_vrm (c : Ctx) (hyp int vec : Bool) (code : Nat) (tval : Word) : (c.enterTrap hyp int vec code tval).vrm = c.vrm := rfl
@[simp] theorem Ctx.enterTrap_vsat (c : Ctx) (hyp int vec : Bool) (code : Nat) (tval : Word) : (c.enterTrap hyp int vec code tval).vsat = c.vsat := rfl
@[simp] theorem Ctx.enterTrap_vnotify (c : Ctx) (hyp int vec : Bool) (code : Nat) (tval : Word) : (c.enterTrap hyp int vec code tval).vnotify = c.vnotify := rfl
@[simp] theorem Ctx.enterTrap_vthr (c : Ctx) (hyp int vec : Bool) (code : Nat) (tval : Word) : (c.enterTrap hyp int vec code tval).vthr = c.vthr := rfl
@[simp] theorem Ctx.enterTrap_frm (c : Ctx) (hyp int vec : Bool) (code : Nat) (tval : Word) : (c.enterTrap hyp int vec code tval).frm = c.frm := rfl
@[simp] theorem Ctx.enterTrap_frmSct (c : Ctx) (hyp int vec : Bool) (code : Nat) (tval : Word) : (c.enterTrap hyp int vec code tval).frmSct = c.frmSct := rfl
@[simp] theorem Ctx.enterTrap_fflags (c : Ctx) (hyp int vec : Bool) (code : Nat) (tval : Word) : (c.enterTrap hyp int vec code tval).fflags = c.fflags := rfl
@[simp] theorem Ctx.enterTrap_hwmReg (c : Ctx) (hyp int vec : Bool) (code : Nat) (tval : Word) : (c.enterTrap hyp int vec code tval).hwmReg = c.hwmReg := rfl
@[simp] theorem Ctx.enterTrap_hwmBytes (c : Ctx) (hyp int vec : Bool) (code : Nat) (tval : Word) : (c.enterTrap hyp int vec code tval).hwmBytes = c.hwmBytes := rfl
@[simp] theorem Ctx.enterTrap_wfmt (c : Ctx) (hyp int vec : Bool) (code : Nat) (tval : Word) : (c.enterTrap hyp int vec code tval).wfmt = c.wfmt := rfl
@[simp] theorem Ctx.enterTrap_skip (c : Ctx) (hyp int vec : Bool) (code : Nat) (tval : Word) : (c.enterTrap hyp int vec code tval).skip = c.skip := rfl
@[simp] theorem Ctx.enterTrap_detm (c : Ctx) (hyp int vec : Bool) (code : Nat) (tval : Word) : (c.enterTrap hyp int vec code tval).detm = c.detm := rfl
@[simp] theorem Ctx.enterTrap_tvec (c : Ctx) (hyp int vec : Bool) (code : Nat) (tval : Word) : (c.enterTrap hyp int vec code tval).tvec = c.tvec := rfl
@[simp] theorem Ctx.enterTrap_htvec (c : Ctx) (hyp int vec : Bool) (code : Nat) (tval : Word) : (c.enterTrap hyp int vec code tval).htvec = c.htvec := rfl
@[simp] theorem Ctx.enterTrap_asid (c : Ctx) (hyp int vec : Bool) (code : Nat) (tval : Word) : (c.enterTrap hyp int vec code tval).asid = c.asid := rfl
@[simp] theorem Ctx.enterTrap_lgb (c : Ctx) (hyp int vec : Bool) (code : Nat) (tval : Word) : (c.enterTrap hyp int vec code tval).lgb = c.lgb := rfl
@[simp] theorem Ctx.enterTrap_lgn (c : Ctx) (hyp int vec : Bool) (code : Nat) (tval : Word) : (c.enterTrap hyp int vec code tval).lgn = c.lgn := rfl
@[simp] theorem Ctx.enterTrap_trb (c : Ctx) (hyp int vec : Bool) (code : Nat) (tval : Word) : (c.enterTrap hyp int vec code tval).trb = c.trb := rfl
@[simp] theorem Ctx.enterTrap_trn (c : Ctx) (hyp int vec : Bool) (code : Nat) (tval : Word) : (c.enterTrap hyp int vec code tval).trn = c.trn := rfl
@[simp] theorem Ctx.enterTrap_standLgn (c : Ctx) (hyp int vec : Bool) (code : Nat) (tval : Word) : (c.enterTrap hyp int vec code tval).standLgn = c.standLgn := rfl
@[simp] theorem Ctx.enterTrap_standTrn (c : Ctx) (hyp int vec : Bool) (code : Nat) (tval : Word) : (c.enterTrap hyp int vec code tval).standTrn = c.standTrn := rfl
@[simp] theorem Ctx.enterTrap_reclaimAt (c : Ctx) (hyp int vec : Bool) (code : Nat) (tval : Word) : (c.enterTrap hyp int vec code tval).reclaimAt = c.reclaimAt := rfl
@[simp] theorem Ctx.enterTrap_budget (c : Ctx) (hyp int vec : Bool) (code : Nat) (tval : Word) : (c.enterTrap hyp int vec code tval).budget = c.budget := rfl
@[simp] theorem Ctx.enterTrap_bused (c : Ctx) (hyp int vec : Bool) (code : Nat) (tval : Word) : (c.enterTrap hyp int vec code tval).bused = c.bused := rfl
@[simp] theorem Ctx.enterTrap_armed (c : Ctx) (hyp int vec : Bool) (code : Nat) (tval : Word) : (c.enterTrap hyp int vec code tval).armed = c.armed := rfl
@[simp] theorem Ctx.enterTrap_tmr (c : Ctx) (hyp int vec : Bool) (code : Nat) (tval : Word) : (c.enterTrap hyp int vec code tval).tmr = c.tmr := rfl
@[simp] theorem Ctx.enterTrap_pMcheck (c : Ctx) (hyp int vec : Bool) (code : Nat) (tval : Word) : (c.enterTrap hyp int vec code tval).pMcheck = c.pMcheck := rfl
@[simp] theorem Ctx.enterTrap_pCancelled (c : Ctx) (hyp int vec : Bool) (code : Nat) (tval : Word) : (c.enterTrap hyp int vec code tval).pCancelled = c.pCancelled := rfl
@[simp] theorem Ctx.enterTrap_pReclaim (c : Ctx) (hyp int vec : Bool) (code : Nat) (tval : Word) : (c.enterTrap hyp int vec code tval).pReclaim = c.pReclaim := rfl
@[simp] theorem Ctx.enterTrap_pBudget (c : Ctx) (hyp int vec : Bool) (code : Nat) (tval : Word) : (c.enterTrap hyp int vec code tval).pBudget = c.pBudget := rfl
@[simp] theorem Ctx.enterTrap_pPreempt (c : Ctx) (hyp int vec : Bool) (code : Nat) (tval : Word) : (c.enterTrap hyp int vec code tval).pPreempt = c.pPreempt := rfl
@[simp] theorem Ctx.enterTrap_unit (c : Ctx) (hyp int vec : Bool) (code : Nat) (tval : Word) : (c.enterTrap hyp int vec code tval).unit = c.unit := rfl
@[simp] theorem Ctx.enterTrap_preload (c : Ctx) (hyp int vec : Bool) (code : Nat) (tval : Word) : (c.enterTrap hyp int vec code tval).preload = c.preload := rfl
@[simp] theorem Ctx.enterTrap_run (c : Ctx) (hyp int vec : Bool) (code : Nat) (tval : Word) : (c.enterTrap hyp int vec code tval).run = c.run := rfl
@[simp] theorem Ctx.enterTrap_tenure (c : Ctx) (hyp int vec : Bool) (code : Nat) (tval : Word) : (c.enterTrap hyp int vec code tval).tenure = c.tenure := rfl
@[simp] theorem Ctx.enterTrap_wcb (c : Ctx) (hyp int vec : Bool) (code : Nat) (tval : Word) : (c.enterTrap hyp int vec code tval).wcb = c.landBars.wcb := rfl
@[simp] theorem Ctx.enterTrap_stores (c : Ctx) (hyp int vec : Bool) (code : Nat) (tval : Word) : (c.enterTrap hyp int vec code tval).stores = c.landBars.stores := rfl
@[simp] theorem Ctx.enterTrap_path (c : Ctx) (hyp int vec : Bool) (code : Nat) (tval : Word) : (c.enterTrap hyp int vec code tval).path = c.landBars.path := rfl

@[simp] theorem Ctx.eret_x (c : Ctx) : (c.eret).x = c.x := rfl
@[simp] theorem Ctx.eret_v (c : Ctx) : (c.eret).v = c.v := rfl
@[simp] theorem Ctx.eret_facets (c : Ctx) : (c.eret).facets = c.facets := rfl
@[simp] theorem Ctx.eret_tiles (c : Ctx) : (c.eret).tiles = c.tiles := rfl
@[simp] theorem Ctx.eret_cb (c : Ctx) : (c.eret).cb = c.cb := rfl
@[simp] theorem Ctx.eret_hl (c : Ctx) : (c.eret).hl = c.hl := rfl
@[simp] theorem Ctx.eret_cl (c : Ctx) : (c.eret).cl = c.cl := rfl
@[simp] theorem Ctx.eret_q (c : Ctx) : (c.eret).q = c.q := rfl
@[simp] theorem Ctx.eret_rh (c : Ctx) : (c.eret).rh = c.rh := rfl
@[simp] theorem Ctx.eret_rhsel (c : Ctx) : (c.eret).rhsel = c.rhsel := rfl
@[simp] theorem Ctx.eret_vl (c : Ctx) : (c.eret).vl = c.vl := rfl
@[simp] theorem Ctx.eret_vtype (c : Ctx) : (c.eret).vtype = c.vtype := rfl
@[simp] theorem Ctx.eret_vmt (c : Ctx) : (c.eret).vmt = c.vmt := rfl
@[simp] theorem Ctx.eret_vrm (c : Ctx) : (c.eret).vrm = c.vrm := rfl
@[simp] theorem Ctx.eret_vsat (c : Ctx) : (c.eret).vsat = c.vsat := rfl
@[simp] theorem Ctx.eret_vfs (c : Ctx) : (c.eret).vfs = c.vfs := rfl
@[simp] theorem Ctx.eret_vnotify (c : Ctx) : (c.eret).vnotify = c.vnotify := rfl
@[simp] theorem Ctx.eret_vthr (c : Ctx) : (c.eret).vthr = c.vthr := rfl
@[simp] theorem Ctx.eret_frm (c : Ctx) : (c.eret).frm = c.frm := rfl
@[simp] theorem Ctx.eret_fflags (c : Ctx) : (c.eret).fflags = c.fflags := rfl
@[simp] theorem Ctx.eret_hwmReg (c : Ctx) : (c.eret).hwmReg = c.hwmReg := rfl
@[simp] theorem Ctx.eret_hwmBytes (c : Ctx) : (c.eret).hwmBytes = c.hwmBytes := rfl
@[simp] theorem Ctx.eret_wfmt (c : Ctx) : (c.eret).wfmt = c.wfmt := rfl
@[simp] theorem Ctx.eret_detm (c : Ctx) : (c.eret).detm = c.detm := rfl
@[simp] theorem Ctx.eret_cw (c : Ctx) : (c.eret).cw = c.cw := rfl
@[simp] theorem Ctx.eret_located (c : Ctx) : (c.eret).located = c.located := rfl
@[simp] theorem Ctx.eret_claspWord (c : Ctx) : (c.eret).claspWord = c.claspWord := rfl
@[simp] theorem Ctx.eret_rejoin (c : Ctx) : (c.eret).rejoin = if c.cw then some c.eretTo else none := rfl
@[simp] theorem Ctx.eret_cause (c : Ctx) : (c.eret).cause = c.cause := rfl
@[simp] theorem Ctx.eret_epc (c : Ctx) : (c.eret).epc = c.epc := rfl
@[simp] theorem Ctx.eret_epcv (c : Ctx) : (c.eret).epcv = c.epcv := rfl
@[simp] theorem Ctx.eret_tval (c : Ctx) : (c.eret).tval = c.tval := rfl
@[simp] theorem Ctx.eret_tvec (c : Ctx) : (c.eret).tvec = c.tvec := rfl
@[simp] theorem Ctx.eret_htvec (c : Ctx) : (c.eret).htvec = c.htvec := rfl
@[simp] theorem Ctx.eret_asid (c : Ctx) : (c.eret).asid = c.asid := rfl
@[simp] theorem Ctx.eret_lgb (c : Ctx) : (c.eret).lgb = c.lgb := rfl
@[simp] theorem Ctx.eret_lgn (c : Ctx) : (c.eret).lgn = c.lgn := rfl
@[simp] theorem Ctx.eret_trb (c : Ctx) : (c.eret).trb = c.trb := rfl
@[simp] theorem Ctx.eret_trn (c : Ctx) : (c.eret).trn = c.trn := rfl
@[simp] theorem Ctx.eret_standLgn (c : Ctx) : (c.eret).standLgn = c.standLgn := rfl
@[simp] theorem Ctx.eret_standTrn (c : Ctx) : (c.eret).standTrn = c.standTrn := rfl
@[simp] theorem Ctx.eret_reclaimAt (c : Ctx) : (c.eret).reclaimAt = c.reclaimAt := rfl
@[simp] theorem Ctx.eret_budget (c : Ctx) : (c.eret).budget = c.budget := rfl
@[simp] theorem Ctx.eret_bused (c : Ctx) : (c.eret).bused = c.bused := rfl
@[simp] theorem Ctx.eret_armed (c : Ctx) : (c.eret).armed = c.armed := rfl
@[simp] theorem Ctx.eret_tmr (c : Ctx) : (c.eret).tmr = c.tmr := rfl
@[simp] theorem Ctx.eret_lag (c : Ctx) : (c.eret).lag = c.lag := rfl
@[simp] theorem Ctx.eret_pMcheck (c : Ctx) : (c.eret).pMcheck = c.pMcheck := rfl
@[simp] theorem Ctx.eret_pCancelled (c : Ctx) : (c.eret).pCancelled = c.pCancelled := rfl
@[simp] theorem Ctx.eret_pReclaim (c : Ctx) : (c.eret).pReclaim = c.pReclaim := rfl
@[simp] theorem Ctx.eret_pBudget (c : Ctx) : (c.eret).pBudget = c.pBudget := rfl
@[simp] theorem Ctx.eret_pPreempt (c : Ctx) : (c.eret).pPreempt = c.pPreempt := rfl
@[simp] theorem Ctx.eret_unit (c : Ctx) : (c.eret).unit = c.unit := rfl
@[simp] theorem Ctx.eret_preload (c : Ctx) : (c.eret).preload = c.preload := rfl
@[simp] theorem Ctx.eret_run (c : Ctx) : (c.eret).run = c.run := rfl
@[simp] theorem Ctx.eret_tenure (c : Ctx) : (c.eret).tenure = c.tenure := rfl
@[simp] theorem Ctx.eret_wcb (c : Ctx) : (c.eret).wcb = c.wcb := rfl
@[simp] theorem Ctx.eret_stores (c : Ctx) : (c.eret).stores = c.stores := rfl
@[simp] theorem Ctx.eret_path (c : Ctx) : (c.eret).path = c.path := rfl

end Sys2Proof.Machine
end

