-- ==== Sys2Proof/Laws/Registers.lean ====
section
/-! SUPPORT. What the register operations and the completion of an SCT word do. -/

namespace Sys2Proof.Machine

theorem Ctx.getX_setX (c : Ctx) (d r : BitVec 5) (v : Word) :
    (c.setX d v).getX r = if r = 0 then 0 else if r = d then v else c.getX r := by
  by_cases hr : r = 0
  · subst hr; rfl
  · unfold Ctx.getX
    rw [if_neg hr, if_neg hr, if_neg hr]
    by_cases hd : d = 0
    · subst hd; rw [if_neg hr]; rfl
    · unfold Ctx.setX
      rw [if_neg hd]
      show (c.x.set d.toNat v)[r.toNat] = _
      rw [Vector.getElem_set]
      by_cases e : r = d
      · subst e; simp
      · rw [if_neg e, if_neg fun h => e (BitVec.eq_of_toNat_eq h.symm)]

@[simp] theorem Ctx.getX_zero (c : Ctx) : c.getX 0 = 0 := by simp [Ctx.getX]

@[simp] theorem State.setX_getX (s : State) (d r : BitVec 5) (v : Word) :
    (s.setX d v).getX r = if r = 0 then 0 else if r = d then v else s.getX r := by
  simp [State.getX, Ctx.getX_setX]

/-- A register write changes the x registers alone. -/
theorem Ctx.setX_only (c : Ctx) (d : BitVec 5) (v : Word) : c.setX d v = { c with x := (c.setX d v).x } := by
  unfold Ctx.setX; split <;> rfl

theorem State.setX_only (s : State) (d : BitVec 5) (v : Word) :
    s.setX d v = { s with ctx := { s.ctx with x := (s.setX d v).ctx.x } } := by
  rw [State.setX_ctx, ← Ctx.setX_only]; rfl

/-- The six index registers and nothing else are written by a tuple. -/
theorem Ctx.setTuple_only (c : Ctx) (j : List Nat) : c.setTuple j = { c with x := (c.setTuple j).x } := by
  have h : ∀ (ks : List Nat) (c : Ctx),
      ks.foldl (fun c k => c.setX (BitVec.ofNat 5 (19 + k)) (BitVec.ofNat 64 (j.getD k 0))) c =
        { c with x := (ks.foldl (fun c k => c.setX (BitVec.ofNat 5 (19 + k)) (BitVec.ofNat 64 (j.getD k 0))) c).x } := by
    intro ks
    induction ks with
    | nil => intro c; rfl
    | cons k ks ih => intro c; simp only [List.foldl_cons]; rw [ih, Ctx.setX_only c]
  exact h _ c

theorem Ctx.setTuple_getX (c : Ctx) (j : List Nat) (r : BitVec 5) (h : r.toNat < 19 ∨ 24 < r.toNat) :
    (c.setTuple j).getX r = c.getX r := by
  have g : ∀ (ks : List Nat), (∀ k ∈ ks, k < 6) → ∀ c : Ctx,
      (ks.foldl (fun c k => c.setX (BitVec.ofNat 5 (19 + k)) (BitVec.ofNat 64 (j.getD k 0))) c).getX r = c.getX r := by
    intro ks
    induction ks with
    | nil => intro _ c; rfl
    | cons k ks ih =>
      intro hk c
      have h1 := hk k (by simp)
      have hne : r ≠ BitVec.ofNat 5 (19 + k) := by
        intro e
        rw [e, BitVec.toNat_ofNat, Nat.mod_eq_of_lt (by omega)] at h
        omega
      simp only [List.foldl_cons]
      rw [ih (fun k' h' => hk k' (by simp [h'])), Ctx.getX_setX]
      by_cases hr : r = 0
      · subst hr; rfl
      · rw [if_neg hr, if_neg hne]
  exact g _ (by simp) c

/-- The end of a pass changes the x registers, the pc and the active body alone. -/
theorem Ctx.nextPass_only (c : Ctx) (l : LoopSt) :
    c.nextPass l = { c with x := (c.nextPass l).x, pc := (c.nextPass l).pc, loop := (c.nextPass l).loop } := by
  unfold Ctx.nextPass
  split
  · dsimp only
    split <;> rw [Ctx.setX_only]
  · split
    · rfl
    · split
      · rw [Ctx.setTuple_only]
      · rfl

/-- The completion of a word changes the x registers, the pc, the active body, the latch and the wait alone. -/
theorem Ctx.retire_only (c : Ctx) :
    c.retire = { c with x := c.retire.x, pc := c.retire.pc, loop := c.retire.loop, latch := none, stall := none } := by
  unfold Ctx.retire
  dsimp only
  split
  · rfl
  · split
    · rfl
    · rw [Ctx.nextPass_only]

theorem State.retire_only (s : State) :
    s.retire = { s with ctx := { s.ctx with
      x := s.retire.ctx.x, pc := s.retire.ctx.pc, loop := s.retire.ctx.loop, latch := none, stall := none } } := by
  show ({ s with ctx := s.ctx.retire } : State) = { s with ctx := { s.ctx with x := s.ctx.retire.x, pc := s.ctx.retire.pc, loop := s.ctx.retire.loop, latch := none, stall := none } }
  rw [← Ctx.retire_only]

/-- The registers that the completion of a word leaves as they are. -/
theorem Ctx.retire_getX (c : Ctx) (r : BitVec 5)
    (h : ∀ l, c.loop = some l → l.idx + 1 < l.body.length ∨ (l.nest = none ∧ r ≠ l.xa) ∨
      (l.nest ≠ none ∧ (r.toNat < 19 ∨ 24 < r.toNat))) : c.retire.getX r = c.getX r := by
  unfold Ctx.retire
  dsimp only
  split
  · rfl
  · rename_i l hl
    rcases h l hl with h | ⟨h, hr⟩ | ⟨h, hr⟩
    · rw [if_pos h]; rfl
    · split
      · rfl
      · unfold Ctx.nextPass
        rw [h]
        dsimp only
        have : ∀ c : Ctx, (c.setX l.xa (c.getX l.xa - 1)).getX r = c.getX r := by
          intro c
          rw [Ctx.getX_setX, if_neg hr]
          by_cases e : r = 0
          · subst e; rfl
          · rw [if_neg e]
        split <;> exact this _
    · split
      · rfl
      · unfold Ctx.nextPass
        obtain ⟨bs, hbs⟩ := Option.ne_none_iff_exists'.mp h
        rw [hbs]
        dsimp only
        split
        · rfl
        · split
          · exact Ctx.setTuple_getX _ _ _ hr
          · rfl

@[simp] theorem Ctx.retire_latch (c : Ctx) : c.retire.latch = none := by rw [Ctx.retire_only]
@[simp] theorem Ctx.retire_stall (c : Ctx) : c.retire.stall = none := by rw [Ctx.retire_only]
@[simp] theorem Ctx.retire_v (c : Ctx) : c.retire.v = c.v := by rw [Ctx.retire_only]
@[simp] theorem Ctx.retire_facets (c : Ctx) : c.retire.facets = c.facets := by rw [Ctx.retire_only]
@[simp] theorem Ctx.retire_tiles (c : Ctx) : c.retire.tiles = c.tiles := by rw [Ctx.retire_only]
@[simp] theorem Ctx.retire_cb (c : Ctx) : c.retire.cb = c.cb := by rw [Ctx.retire_only]
@[simp] theorem Ctx.retire_hl (c : Ctx) : c.retire.hl = c.hl := by rw [Ctx.retire_only]
@[simp] theorem Ctx.retire_cl (c : Ctx) : c.retire.cl = c.cl := by rw [Ctx.retire_only]
@[simp] theorem Ctx.retire_heldLatch (c : Ctx) : c.retire.heldLatch = c.heldLatch := by rw [Ctx.retire_only]
@[simp] theorem Ctx.retire_q (c : Ctx) : c.retire.q = c.q := by rw [Ctx.retire_only]
@[simp] theorem Ctx.retire_ch (c : Ctx) : c.retire.ch = c.ch := by rw [Ctx.retire_only]
@[simp] theorem Ctx.retire_rh (c : Ctx) : c.retire.rh = c.rh := by rw [Ctx.retire_only]
@[simp] theorem Ctx.retire_rhsel (c : Ctx) : c.retire.rhsel = c.rhsel := by rw [Ctx.retire_only]
@[simp] theorem Ctx.retire_vl (c : Ctx) : c.retire.vl = c.vl := by rw [Ctx.retire_only]
@[simp] theorem Ctx.retire_vtype (c : Ctx) : c.retire.vtype = c.vtype := by rw [Ctx.retire_only]
@[simp] theorem Ctx.retire_vmt (c : Ctx) : c.retire.vmt = c.vmt := by rw [Ctx.retire_only]
@[simp] theorem Ctx.retire_vrm (c : Ctx) : c.retire.vrm = c.vrm := by rw [Ctx.retire_only]
@[simp] theorem Ctx.retire_vsat (c : Ctx) : c.retire.vsat = c.vsat := by rw [Ctx.retire_only]
@[simp] theorem Ctx.retire_vfs (c : Ctx) : c.retire.vfs = c.vfs := by rw [Ctx.retire_only]
@[simp] theorem Ctx.retire_vnotify (c : Ctx) : c.retire.vnotify = c.vnotify := by rw [Ctx.retire_only]
@[simp] theorem Ctx.retire_vthr (c : Ctx) : c.retire.vthr = c.vthr := by rw [Ctx.retire_only]
@[simp] theorem Ctx.retire_frm (c : Ctx) : c.retire.frm = c.frm := by rw [Ctx.retire_only]
@[simp] theorem Ctx.retire_frmSct (c : Ctx) : c.retire.frmSct = c.frmSct := by rw [Ctx.retire_only]
@[simp] theorem Ctx.retire_fflags (c : Ctx) : c.retire.fflags = c.fflags := by rw [Ctx.retire_only]
@[simp] theorem Ctx.retire_hwmReg (c : Ctx) : c.retire.hwmReg = c.hwmReg := by rw [Ctx.retire_only]
@[simp] theorem Ctx.retire_hwmBytes (c : Ctx) : c.retire.hwmBytes = c.hwmBytes := by rw [Ctx.retire_only]
@[simp] theorem Ctx.retire_wfmt (c : Ctx) : c.retire.wfmt = c.wfmt := by rw [Ctx.retire_only]
@[simp] theorem Ctx.retire_priv (c : Ctx) : c.retire.priv = c.priv := by rw [Ctx.retire_only]
@[simp] theorem Ctx.retire_ppriv (c : Ctx) : c.retire.ppriv = c.ppriv := by rw [Ctx.retire_only]
@[simp] theorem Ctx.retire_tfv (c : Ctx) : c.retire.tfv = c.tfv := by rw [Ctx.retire_only]
@[simp] theorem Ctx.retire_skip (c : Ctx) : c.retire.skip = c.skip := by rw [Ctx.retire_only]
@[simp] theorem Ctx.retire_detm (c : Ctx) : c.retire.detm = c.detm := by rw [Ctx.retire_only]
@[simp] theorem Ctx.retire_cw (c : Ctx) : c.retire.cw = c.cw := by rw [Ctx.retire_only]
@[simp] theorem Ctx.retire_cause (c : Ctx) : c.retire.cause = c.cause := by rw [Ctx.retire_only]
@[simp] theorem Ctx.retire_epc (c : Ctx) : c.retire.epc = c.epc := by rw [Ctx.retire_only]
@[simp] theorem Ctx.retire_epcv (c : Ctx) : c.retire.epcv = c.epcv := by rw [Ctx.retire_only]
@[simp] theorem Ctx.retire_tval (c : Ctx) : c.retire.tval = c.tval := by rw [Ctx.retire_only]
@[simp] theorem Ctx.retire_tvec (c : Ctx) : c.retire.tvec = c.tvec := by rw [Ctx.retire_only]
@[simp] theorem Ctx.retire_htvec (c : Ctx) : c.retire.htvec = c.htvec := by rw [Ctx.retire_only]
@[simp] theorem Ctx.retire_asid (c : Ctx) : c.retire.asid = c.asid := by rw [Ctx.retire_only]
@[simp] theorem Ctx.retire_lgb (c : Ctx) : c.retire.lgb = c.lgb := by rw [Ctx.retire_only]
@[simp] theorem Ctx.retire_lgn (c : Ctx) : c.retire.lgn = c.lgn := by rw [Ctx.retire_only]
@[simp] theorem Ctx.retire_trb (c : Ctx) : c.retire.trb = c.trb := by rw [Ctx.retire_only]
@[simp] theorem Ctx.retire_trn (c : Ctx) : c.retire.trn = c.trn := by rw [Ctx.retire_only]
@[simp] theorem Ctx.retire_standLgn (c : Ctx) : c.retire.standLgn = c.standLgn := by rw [Ctx.retire_only]
@[simp] theorem Ctx.retire_standTrn (c : Ctx) : c.retire.standTrn = c.standTrn := by rw [Ctx.retire_only]
@[simp] theorem Ctx.retire_reclaimAt (c : Ctx) : c.retire.reclaimAt = c.reclaimAt := by rw [Ctx.retire_only]
@[simp] theorem Ctx.retire_budget (c : Ctx) : c.retire.budget = c.budget := by rw [Ctx.retire_only]
@[simp] theorem Ctx.retire_bused (c : Ctx) : c.retire.bused = c.bused := by rw [Ctx.retire_only]
@[simp] theorem Ctx.retire_armed (c : Ctx) : c.retire.armed = c.armed := by rw [Ctx.retire_only]
@[simp] theorem Ctx.retire_tmr (c : Ctx) : c.retire.tmr = c.tmr := by rw [Ctx.retire_only]
@[simp] theorem Ctx.retire_viq (c : Ctx) : c.retire.viq = c.viq := by rw [Ctx.retire_only]
@[simp] theorem Ctx.retire_frame (c : Ctx) : c.retire.frame = c.frame := by rw [Ctx.retire_only]
@[simp] theorem Ctx.retire_onlyVf (c : Ctx) : c.retire.frameVf = c.frameVf := by rw [Ctx.retire_only]
@[simp] theorem Ctx.retire_lag (c : Ctx) : c.retire.lag = c.lag := by rw [Ctx.retire_only]
@[simp] theorem Ctx.retire_resume (c : Ctx) : c.retire.resume = c.resume := by rw [Ctx.retire_only]
@[simp] theorem Ctx.retire_pMcheck (c : Ctx) : c.retire.pMcheck = c.pMcheck := by rw [Ctx.retire_only]
@[simp] theorem Ctx.retire_pCancelled (c : Ctx) : c.retire.pCancelled = c.pCancelled := by rw [Ctx.retire_only]
@[simp] theorem Ctx.retire_pReclaim (c : Ctx) : c.retire.pReclaim = c.pReclaim := by rw [Ctx.retire_only]
@[simp] theorem Ctx.retire_pBudget (c : Ctx) : c.retire.pBudget = c.pBudget := by rw [Ctx.retire_only]
@[simp] theorem Ctx.retire_pPreempt (c : Ctx) : c.retire.pPreempt = c.pPreempt := by rw [Ctx.retire_only]
@[simp] theorem Ctx.retire_unit (c : Ctx) : c.retire.unit = c.unit := by rw [Ctx.retire_only]
@[simp] theorem Ctx.retire_preload (c : Ctx) : c.retire.preload = c.preload := by rw [Ctx.retire_only]
@[simp] theorem Ctx.retire_run (c : Ctx) : c.retire.run = c.run := by rw [Ctx.retire_only]
@[simp] theorem Ctx.retire_tenure (c : Ctx) : c.retire.tenure = c.tenure := by rw [Ctx.retire_only]
@[simp] theorem Ctx.retire_wcb (c : Ctx) : c.retire.wcb = c.wcb := by rw [Ctx.retire_only]
@[simp] theorem Ctx.retire_stores (c : Ctx) : c.retire.stores = c.stores := by rw [Ctx.retire_only]
@[simp] theorem Ctx.retire_bars (c : Ctx) : c.retire.bars = c.bars := by rw [Ctx.retire_only]
@[simp] theorem Ctx.retire_onlyBars (c : Ctx) : c.retire.frameBars = c.frameBars := by rw [Ctx.retire_only]
@[simp] theorem Ctx.retire_late (c : Ctx) : c.retire.late = c.late := by rw [Ctx.retire_only]
@[simp] theorem Ctx.retire_located (c : Ctx) : c.retire.located = c.located := by rw [Ctx.retire_only]
@[simp] theorem Ctx.retire_claspWord (c : Ctx) : c.retire.claspWord = c.claspWord := by rw [Ctx.retire_only]
@[simp] theorem Ctx.retire_rejoin (c : Ctx) : c.retire.rejoin = c.rejoin := by rw [Ctx.retire_only]

end Sys2Proof.Machine
end

