-- ==== Sys2Proof/Laws/Formed.lean ====
section
/-! SUPPORT. The two canonical forms of a machine, of its memory and of its tiles' cells, and that the shared operations keep them: of
the translation, the machine-check records, the access path, the queue, and taking an exception. -/

namespace Sys2Proof.Machine

/-- The cells of a tile are listed by ascending number. -/
def Tile.Ordered (x : Tile) : Prop := x.cells.Pairwise fun p q => p.1 < q.1

/-- A context whose tiles all list their cells in order. -/
def Ctx.Formed (c : Ctx) : Prop := ∀ x ∈ c.tiles.toList, Tile.Ordered x

/-- A machine in its canonical form. -/
structure State.Formed (s : State) : Prop where
  mem : s.mem.wf = true
  ctx : s.ctx.Formed
  others : ∀ p ∈ s.others, p.2.Formed

theorem Tile.empty_ordered : Tile.Ordered Tile.empty := List.Pairwise.nil

theorem Ctx.reset_formed (b : Bool) : (Ctx.reset b).Formed := by
  intro x hx
  have : x = Tile.empty := by
    simpa [Ctx.reset] using hx
  exact this ▸ Tile.empty_ordered

/-! ## Changes of parts -/

theorem State.Formed.onCtx {s : State} (h : s.Formed) {f : Ctx → Ctx} (hf : s.ctx.Formed → (f s.ctx).Formed) : (s.onCtx f).Formed :=
  ⟨h.mem, hf h.ctx, h.others⟩

theorem State.Formed.onDev {s : State} (h : s.Formed) (f : Dev → Dev) : (s.onDev f).Formed := ⟨h.mem, h.ctx, h.others⟩

theorem State.Formed.setX {s : State} (h : s.Formed) (r : BitVec 5) (v : Word) : (s.setX r v).Formed :=
  ⟨h.mem, by unfold State.setX Ctx.setX; dsimp only; split <;> exact h.ctx, h.others⟩

theorem State.Formed.store {s : State} (h : s.Formed) (ws : List (Nat × Byte)) : (s.store ws).Formed :=
  ⟨State.store_wf h.mem ws, by rw [State.store_ctx]; exact h.ctx, by rw [State.store_others]; exact h.others⟩

/-- A fold whose steps keep the canonical form keeps it. -/
theorem State.Formed.foldl {α : Type} {f : State → α → State} (hf : ∀ (s : State) (a : α), s.Formed → (f s a).Formed) (l : List α)
    {s : State} (h : s.Formed) : (l.foldl f s).Formed :=
  List.foldlRecOn (motive := State.Formed) l f h fun t ht a _ => hf t a ht

theorem assign_forall {α : Type} {P : α → Prop} {k : Nat} {v : α} {l : List (Nat × α)} (hl : ∀ p ∈ l, P p.2) (hv : P v) :
    ∀ p ∈ assign k v l, P p.2 := by
  induction l with
  | nil => simpa [assign] using hv
  | cons q l ih =>
    obtain ⟨a, b⟩ := q
    simp only [List.mem_cons, forall_eq_or_imp] at hl
    simp only [assign]
    split <;> simp only [List.mem_cons, forall_eq_or_imp]
    · exact ⟨hv, hl.2⟩
    · exact ⟨hl.1, ih hl.2⟩

theorem lookup_mem {α : Type} {k : Nat} {v : α} {l : List (Nat × α)} (h : lookup k l = some v) : (k, v) ∈ l := by
  induction l with
  | nil => simp [lookup] at h
  | cons p l ih =>
    obtain ⟨a, b⟩ := p
    simp only [lookup] at h
    split at h
    · rename_i e
      cases h
      simp [e]
    · exact List.mem_cons_of_mem _ (ih h)

theorem State.Formed.ctxOf {s : State} (h : s.Formed) (c : Nat) : (s.ctxOf c).Formed := by
  unfold State.ctxOf
  split
  · exact h.ctx
  · split
    · rename_i x hx
      exact h.others _ (lookup_mem hx)
    · exact Ctx.reset_formed _

theorem State.Formed.setCtx {s : State} (h : s.Formed) (c : Nat) {x : Ctx} (hx : x.Formed) : (s.setCtx c x).Formed := by
  unfold State.setCtx
  split
  · exact ⟨h.mem, hx, h.others⟩
  · exact ⟨h.mem, h.ctx, assign_forall h.others hx⟩

theorem unassign_forall {α : Type} {P : α → Prop} {k : Nat} {l : List (Nat × α)} (hl : ∀ p ∈ l, P p.2) : ∀ p ∈ unassign k l, P p.2 :=
  fun p hp => hl p (List.mem_of_mem_filter hp)

theorem State.Formed.turnTo {s : State} (h : s.Formed) (c : Nat) : (s.turnTo c).Formed := by
  have hc := h.ctxOf c
  unfold State.turnTo
  split
  · exact h
  · exact ⟨h.mem, hc, unassign_forall (assign_forall h.others h.ctx)⟩

/-! ## Translation and records -/

theorem State.Formed.touch {s : State} (h : s.Formed) (key e : Nat) (k : AccKind) : (s.touch key e k).Formed := by
  unfold State.touch
  split
  · exact h
  · dsimp only
    refine ⟨Memory.wf_setAll (State.copyFirst_wf h.mem _) _, ?_, ?_⟩ <;> dsimp only
    · rw [State.copyFirst_ctx]; exact h.ctx
    · rw [State.copyFirst_others]; exact h.others

theorem State.Formed.leafFor {s : State} (h : s.Formed) (asid : BitVec 13) (va : Nat) (k : AccKind) : (s.leafFor asid va k).2.2.Formed := by
  unfold State.leafFor
  split
  · exact h
  · split
    · exact h
    · exact h
    · exact h.touch _ _ _

theorem State.Formed.keepLeaf {s : State} (h : s.Formed) (asid : BitVec 13) (va : Word) (l : Leaf) : (s.keepLeaf asid va l).Formed := by
  unfold State.keepLeaf
  split
  · exact ⟨h.mem, h.ctx, h.others⟩
  · exact h

theorem State.Formed.translate {s : State} (h : s.Formed) (asid : BitVec 13) (priv : Priv) (k : AccKind) (va : Word) :
    (s.translate asid priv k va).2.Formed := by
  have hl := h.leafFor asid va.toNat k
  unfold State.translate
  split
  · exact h
  · split
    · rename_i e; rw [e] at hl; exact hl
    · rename_i e; rw [e] at hl; exact hl
    · rename_i e
      rw [e] at hl
      split
      · split
        · exact State.Formed.keepLeaf hl _ _ _
        · exact hl
      · exact hl

theorem State.Formed.appendRecord {s : State} (h : s.Formed) (asid : BitVec 13) (bytes : Nat → List Byte) :
    (s.appendRecord asid bytes).1.Formed := by
  unfold State.appendRecord
  dsimp only
  split
  · exact h
  · rename_i ring seq _
    have ht := h.translate asid .hyp .store (ring + BitVec.ofNat 64 (64 * (seq % 4096)))
    split
    · rename_i e
      rw [e] at ht
      dsimp only
      refine State.Formed.onDev (State.Formed.store ?_ _) _
      exact ht
    · rename_i e
      rw [e] at ht
      exact ht

theorem State.Formed.record {s : State} (h : s.Formed) (asid : BitVec 13) (r : Record) : (s.record asid r).1.Formed := h.appendRecord _ _

theorem State.Formed.pendMcheck {s : State} (h : s.Formed) (c : Nat) (p : Pending) : (s.pendMcheck c p).Formed :=
  h.setCtx c (h.ctxOf c)

theorem State.Formed.report {s : State} (h : s.Formed) (c kind : Nat) (p : Spot) : (s.report c kind p).Formed := by
  unfold State.report
  exact (h.record _ _).pendMcheck _ _

theorem State.Formed.noteRefused {s : State} (h : s.Formed) (c key : Nat) (p : Spot) : (s.noteRefused c key p).Formed := by
  unfold State.noteRefused
  split
  · exact h.report _ _ _
  · exact h

theorem State.Formed.trigOf {s : State} (h : s.Formed) (addr : Word) : (s.trigOf addr).2.Formed := by
  unfold State.trigOf
  have ht := h.translate 0 .hyp .load addr
  split
  · rename_i e
    rw [e] at ht
    split <;> exact ht
  · rename_i e
    rw [e] at ht
    exact ht

theorem State.Formed.countTriggers {s : State} (h : s.Formed) (parts : List (Nat × Nat)) : (s.countTriggers parts).Formed := by
  unfold State.countTriggers
  refine State.Formed.foldl (fun s r h => ?_) _ h
  have ht := h.trigOf r.addr
  split
  · rename_i e; rw [e] at ht; exact State.Formed.onDev ht _
  · rename_i e; rw [e] at ht; exact ht

theorem State.Formed.noteStores {s : State} (h : s.Formed) (parts : List (Nat × Nat)) : (s.noteStores parts).Formed := by
  unfold State.noteStores
  split
  · exact h
  · exact h.countTriggers parts

theorem State.Formed.settleWrites {s : State} (h : s.Formed) (parts : List (Nat × Nat)) (ws : List (Nat × Byte)) :
    (s.settleWrites parts ws).Formed := (h.store ws).noteStores parts

theorem State.Formed.perform {s : State} (h : s.Formed) (c : Nat) (spot : Nat → Spot) (parts : List (Nat × Nat)) (ws : List (Nat × Byte)) :
    (s.perform c spot parts ws).Formed := by
  unfold State.perform
  dsimp only
  exact (State.Formed.foldl (fun _ k h => State.Formed.report h c 4 (spot k)) _
    (State.Formed.foldl (fun _ k h => State.Formed.report h c 2 (spot k)) _ h)).settleWrites parts ws

/-! ## Taking an exception -/

theorem Ctx.Formed.enterTrap {c : Ctx} (h : c.Formed) (hyp int vec : Bool) (code : Nat) (tval : Word) :
    (c.enterTrap hyp int vec code tval).Formed := h

theorem State.Formed.doubleTrap {s : State} (h : s.Formed) (vec : Bool) : (s.doubleTrap vec).Formed := by
  unfold State.doubleTrap
  dsimp only
  have h1 : (s.onCtx fun c => { c with run := .stopped, stall := none }).Formed := h.onCtx id
  have h2 := h1.record 0 { s.recordOf s.cur 7 15 0 with pc := if vec then s.ctx.headPc else s.ctx.pc }
  split
  · exact h2.pendMcheck _ _
  · exact h2

theorem Ctx.enqueue_tiles (c : Ctx) (p : Pend) : (c.enqueue p).tiles = c.tiles := rfl

theorem Ctx.leaveOne_tiles (c : Ctx) : c.leaveOne.tiles = c.tiles := by
  unfold Ctx.leaveOne
  split <;> rfl

theorem State.Formed.leaveOldest {s : State} (h : s.Formed) (core n : Nat) : (s.leaveOldest core n).Formed := by
  induction n generalizing s with
  | zero => exact h
  | succ n ih =>
    unfold State.leaveOldest
    split
    · exact h
    · refine ih (h.setCtx _ ?_)
      unfold Ctx.Formed
      rw [Ctx.leaveOne_tiles]
      exact h.ctxOf _

theorem State.Formed.spill {s : State} (h : s.Formed) : s.spill.Formed := by
  unfold State.spill
  dsimp only
  split
  · exact h
  · exact h.leaveOldest _ _

theorem State.Formed.intoHandler {s : State} (h : s.Formed) {c : Ctx} (hc : c.Formed) : (s.intoHandler c).Formed := by
  have ht : ({ s with ctx := c } : State).Formed := ⟨h.mem, hc, h.others⟩
  unfold State.intoHandler
  dsimp only
  split
  · exact ht.spill
  · exact ht

theorem State.Formed.takeTrap {s : State} (h : s.Formed) (int vec : Bool) (code : Nat) (tval : Word) : (s.takeTrap int vec code tval).Formed := by
  unfold State.takeTrap
  split
  · exact h.doubleTrap vec
  · exact h.intoHandler (Ctx.Formed.enterTrap h.ctx _ _ _ _ _)

theorem State.Formed.trap {s : State} (h : s.Formed) (code : Nat) (tval : Word) : (s.trap code tval).Formed := h.takeTrap _ _ _ _

theorem State.Formed.refuse {s : State} (h : s.Formed) (r : Refused) : (s.refuse r).Formed := by
  unfold State.refuse
  split
  · exact h.trap _ _
  · exact (h.record _ _).trap _ _

/-! ## The completion of a word -/

theorem State.Formed.retire {s : State} (h : s.Formed) : s.retire.Formed := by
  refine ⟨h.mem, ?_, h.others⟩
  show s.ctx.retire.Formed
  unfold Ctx.Formed
  rw [Ctx.retire_tiles]
  exact h.ctx

theorem State.Formed.retireTo {s : State} (h : s.Formed) (t : Word) : (s.retireTo t).Formed := ⟨h.mem, h.ctx, h.others⟩

theorem State.Formed.stallFor {s : State} (h : s.Formed) (k : Stall) : (s.stallFor k).Formed := ⟨h.mem, h.ctx, h.others⟩

theorem State.Formed.fetchAt {s : State} (h : s.Formed) (va : Word) : (s.fetchAt va).2.Formed := by
  unfold State.fetchAt
  have ht := h.translate s.ctx.asid s.ctx.priv .fetch va
  split
  · rename_i e; rw [e] at ht; exact ht
  · rename_i e
    rw [e] at ht
    split
    · exact ht
    · exact ht.noteRefused _ _ _

/-! ## The access path -/

theorem State.Formed.placeOf {s : State} (h : s.Formed) (sp : Nat) (k : AccKind) (lane : Option Nat) (va : Word) :
    (s.placeOf sp k lane va).2.Formed := by
  unfold State.placeOf
  have ht := h.translate s.ctx.asid s.ctx.priv k va
  dsimp only
  split
  · split
    · rename_i e; rw [e] at ht; exact ht
    · rename_i e; rw [e] at ht; exact ht
  · split
    · split <;> exact h
    · exact h
  · split
    · split <;> exact h
    · exact h
  · split <;> exact h

theorem State.Formed.aligned {s : State} (h : s.Formed) (sp : Nat) (k : AccKind) (lane : Option Nat) (w : Nat) (va : Word) :
    (s.aligned sp k lane w va).2.Formed := by
  unfold State.aligned
  split
  · exact h
  · exact h.placeOf _ _ _ _

theorem State.Formed.performPend {s : State} (h : s.Formed) (p : Pend) : (s.performPend p).Formed := by
  unfold State.performPend
  generalize (if p.drain then s.ctx.launchKey else none) = key
  cases key with
  | none => exact h.perform _ _ _ _
  | some k => exact (h.onDev _).perform _ _ _ _

theorem State.Formed.performAll {s : State} (h : s.Formed) (ps : List Pend) : (s.performAll ps).Formed := by
  unfold State.performAll
  exact State.Formed.foldl (fun _ p h => State.Formed.performPend h p) _ h

theorem State.Formed.performReady {s : State} (h : s.Formed) : s.performReady.Formed := by
  unfold State.performReady
  exact (h.onCtx id).performAll _

theorem State.Formed.settle {s : State} (h : s.Formed) : s.settle.Formed := by
  unfold State.settle
  split
  · exact h
  · exact h.performReady

theorem State.Formed.force {s t : State} (h : s.Formed) {lvl : Nat} {need : Pend → Bool} (e : s.force lvl need = some t) : t.Formed := by
  unfold State.force at e
  split at e
  · cases e; exact h
  · dsimp only at e
    split at e
    · cases e
    · cases e
      exact (h.onCtx id).performAll _

theorem State.Formed.settleOf {s : State} (h : s.Formed) (c : Nat) : (s.settleOf c).Formed := by
  unfold State.settleOf
  split
  · exact h
  · exact (h.turnTo c).settle.turnTo _

theorem State.Formed.behindBarriers {s t : State} (h : s.Formed) (e : s.behindBarriers = some t) : t.Formed := h.force e

theorem Ctx.leave_tiles (c : Ctx) (f : WLine → Bool) : (c.leave f).tiles = c.tiles :=
  List.foldlRecOn (motive := fun x : Ctx => x.tiles = c.tiles) _ _ rfl fun _ hx _ _ => hx

theorem Ctx.Formed.leave {c : Ctx} (h : c.Formed) (f : WLine → Bool) : (c.leave f).Formed := by
  unfold Ctx.Formed
  rw [Ctx.leave_tiles]
  exact h

theorem Ctx.buffer_tiles (c : Ctx) (age : Nat) (p : Pend) : (c.buffer age p).tiles = c.tiles := by
  unfold Ctx.buffer
  dsimp only
  split <;> rfl

theorem State.Formed.drainOut {s : State} (h : s.Formed) : s.drainOut.Formed := by
  unfold State.drainOut
  split
  · exact h
  · exact h.onCtx fun hc => hc.leave _

theorem State.Formed.drainOldest {s : State} (h : s.Formed) (core n : Nat) : (s.drainOldest core n).Formed := by
  induction n generalizing s with
  | zero => exact h
  | succ n ih =>
    unfold State.drainOldest
    split
    · exact h
    · refine ih (State.Formed.settleOf (h.setCtx _ ?_) _)
      unfold Ctx.Formed
      rw [Ctx.leaveOne_tiles]
      exact h.ctxOf _

theorem State.Formed.bufferStore {s : State} (h : s.Formed) (p : Pend) : (s.bufferStore p).Formed := by
  unfold State.bufferStore
  extract_lets s1 s2
  have h1 : s1.Formed := by
    dsimp only [s1]
    split
    · exact (h.onCtx fun hc => hc.leave _).settle
    · exact h
  have h2 : s2.Formed := by
    dsimp only [s2]
    split
    · exact h1.drainOldest _ _
    · exact h1
  refine h2.onCtx fun hc => ?_
  unfold Ctx.Formed
  rw [Ctx.buffer_tiles]
  exact hc

theorem Ctx.bypass_tiles (c : Ctx) (p : Pend) : (c.bypass p).tiles = c.tiles := by
  show (if c.wcb.isEmpty then c else c.leave _).tiles = c.tiles
  split
  · rfl
  · exact c.leave_tiles _

theorem Ctx.placeBar_tiles (c : Ctx) (kind : Nat) : (c.placeBar kind).tiles = c.tiles := by
  have h : (if kind = 3 then c.leave fun _ => true else c).tiles = c.tiles := by
    split
    · exact c.leave_tiles _
    · rfl
  unfold Ctx.placeBar
  dsimp only
  generalize (if kind = 3 then c.leave fun _ => true else c) = d at h ⊢
  split <;> exact h

theorem Ctx.land_tiles (c : Ctx) (p : Pend) : (c.land p).tiles = c.tiles := by
  unfold Ctx.land
  split
  · exact c.placeBar_tiles _
  · split
    · rw [Ctx.buffer_tiles]
      split
      · exact c.leave_tiles _
      · rfl
    · exact c.bypass_tiles _

theorem Ctx.landLate_tiles (c : Ctx) : c.landLate.tiles = c.tiles := by
  unfold Ctx.landLate
  split
  · rfl
  · exact List.foldlRecOn (motive := fun x : Ctx => x.tiles = c.tiles) _ _ rfl fun x hx p _ => (x.land_tiles p).trans hx

theorem State.Formed.enter {s : State} (h : s.Formed) (p : Pend) : (s.enter p).Formed := by
  unfold State.enter
  split
  · exact h.bufferStore _
  · refine h.onCtx fun hc => ?_
    unfold Ctx.Formed
    rw [Ctx.bypass_tiles]
    exact hc

theorem State.Formed.putStore {s : State} (h : s.Formed) (p : Pend) : (s.putStore p).Formed := by
  unfold State.putStore
  split
  · exact h.onCtx id
  · exact h.enter p

theorem State.Formed.landLate {s : State} (h : s.Formed) : s.landLate.Formed := by
  unfold State.landLate
  split
  · have ht : (s.onCtx Ctx.landLate).Formed := h.onCtx fun hc => by
      unfold Ctx.Formed
      rw [Ctx.landLate_tiles]
      exact hc
    dsimp only
    split
    · exact ht.settle
    · exact (ht.spill.settleOf _).settleOf _
  · exact h

theorem State.Formed.placeBar {s : State} (h : s.Formed) (kind : Nat) : (s.placeBar kind).Formed := by
  have h1 : (s.onCtx fun c => c.placeBar kind).Formed := h.onCtx fun hc => by
    unfold Ctx.Formed
    rw [Ctx.placeBar_tiles]
    exact hc
  unfold State.placeBar
  dsimp only
  split
  · exact h1
  · exact h1.settle

theorem State.Formed.barrier {s : State} (h : s.Formed) (kind : Nat) : (s.barrier kind).Formed := by
  unfold State.barrier
  split
  · exact h.placeBar kind
  · split <;> exact h.onCtx id

theorem State.Formed.settleBars {s : State} (h : s.Formed) : s.settleBars.Formed := by
  unfold State.settleBars
  dsimp only
  split
  · exact h
  · exact State.Formed.foldl (fun _ b h => State.Formed.placeBar h b.2) _ (h.onCtx id)

theorem State.Formed.advanceBars {s : State} (h : s.Formed) : s.advanceBars.Formed := by
  unfold State.advanceBars
  split
  · exact h
  · exact (h.onCtx id).settleBars

theorem State.Formed.readAt {s t : State} (h : s.Formed) {p : Place} {pc : Word} {n v : Nat} (e : s.readAt p pc n = .value v t) :
    t.Formed := by
  unfold State.readAt at e
  split at e
  · cases e
  · split at e
    · cases e
    · rename_i hf
      split at e
      · cases e
      · cases e
        exact (h.force hf).noteRefused _ _ _

theorem State.Formed.writeAs {s : State} (h : s.Formed) (word sp : Nat) (p : Place) (pc : Word) (bs : List Byte) :
    (s.writeAs word sp p pc bs).Formed := by
  unfold State.writeAs
  dsimp only
  split
  · exact h.perform _ _ _ _
  · exact h.enter _

theorem State.Formed.writeAt {s : State} (h : s.Formed) (sp : Nat) (p : Place) (pc : Word) (bs : List Byte) :
    (s.writeAt sp p pc bs).Formed := h.writeAs _ _ _ _ _

theorem State.Formed.release {s t : State} (h : s.Formed) (e : s.release = some t) : t.Formed := h.drainOut.force e

theorem State.Formed.rmw {s : State} (h : s.Formed) (p : Place) (pc : Word) (n : Nat) (f : Nat → Nat) : (s.rmw p pc n f).2.Formed := by
  unfold State.rmw
  split
  · exact h.report _ _ _
  · exact h.perform _ _ _ _

theorem State.Formed.pieces {s : State} (h : s.Formed) (sp : Nat) (k : AccKind) (fuel : Nat) (va : Word) (n : Nat) :
    (s.pieces sp k fuel va n).2.Formed := by
  induction fuel generalizing s va n with
  | zero => exact h
  | succ fuel ih =>
    unfold State.pieces
    have hp := h.placeOf sp k none va
    split
    · exact h
    · extract_lets room
      clear_value room
      dsimp only
      split
      · exact hp
      · split
        · exact ih hp _ _
        · exact hp

theorem State.Formed.span {s : State} (h : s.Formed) (sp : Nat) (k : AccKind) (fuel : Nat) (va : Word) (n : Nat) :
    (s.span sp k fuel va n).2.Formed := h.pieces sp k fuel va n

theorem State.Formed.noteSpan {s : State} (h : s.Formed) (ps : List (Place × Nat)) : (s.noteSpan ps).Formed :=
  State.Formed.foldl (fun _ _ h => State.Formed.noteRefused h _ _ _) ps h

theorem State.Formed.readSpan {s t : State} (h : s.Formed) {ps : List (Place × Nat)} {bs : List Byte} (e : s.readSpan ps = .bytes bs t) :
    t.Formed := by
  unfold State.readSpan at e
  split at e
  · cases e
  · split at e
    · cases e
    · rename_i hf
      split at e
      · cases e
      · cases e
        exact (h.force hf).noteSpan _

theorem State.Formed.writePieces {s : State} (h : s.Formed) (sp : Nat) (p : Place) (fuel o : Nat) (bs : List Byte) :
    (s.writePieces sp p fuel o bs).Formed := by
  induction fuel generalizing s o bs with
  | zero => exact h
  | succ fuel ih =>
    unfold State.writePieces
    split
    · exact h
    · exact ih (h.writeAt _ _ _ _) _ _

theorem State.Formed.writeSpan {s : State} (h : s.Formed) (sp : Nat) (ps : List (Place × Nat)) (bs : List Byte) :
    (s.writeSpan sp ps bs).Formed := by
  induction ps generalizing s bs with
  | nil => exact h
  | cons p ps ih => exact ih (h.writePieces _ _ _ _ _) _

theorem State.Formed.readBlock {s : State} (h : s.Formed) (c : Nat) (pc : Word) (asid : BitVec 13) (priv : Priv) (fuel : Nat) (va : Word)
    (n : Nat) : (s.readBlock c pc asid priv fuel va n).2.Formed := by
  induction fuel generalizing s va n with
  | zero => exact h
  | succ fuel ih =>
    unfold State.readBlock
    have ht := h.translate asid priv .load va
    split
    · exact h
    · dsimp only
      split
      · rename_i e; rw [e] at ht; exact ht
      · rename_i l s' e
        rw [e] at ht
        split
        · exact ht
        · have hi := ih (State.Formed.noteRefused ht c l.key ⟨0, va, pc⟩) (va + BitVec.ofNat 64 (Nat.min n (65536 - va.toNat % 65536)))
            (n - Nat.min n (65536 - va.toNat % 65536))
          split
          · rename_i e2; rw [e2] at hi; exact hi
          · rename_i e2; rw [e2] at hi; exact hi

/-! ## The queue -/

/-- What a commit leaves is in canonical form. -/
def Commit.Formed : Commit → Prop
  | .done s => s.Formed
  | .wait => True
  | .held s _ => s.Formed
  | .trap _ _ s => s.Formed

theorem Ctx.copyBytes_tiles (c src : Ctx) (d a : BitVec 6) : (c.copyBytes src d a).tiles = c.tiles := by
  unfold Ctx.copyBytes
  dsimp only
  split <;> rfl

theorem Ctx.moveReg_tiles (c src : Ctx) (d a : BitVec 6) : (c.moveReg src d a).tiles = c.tiles := by
  unfold Ctx.moveReg
  dsimp only
  split
  · split
    · exact (Ctx.copyBytes_tiles ((c.copyBytes src d a).putFacet d (src.getFacet a)) src (vreg d 32) (vreg a 32)).trans
        (Ctx.copyBytes_tiles c src d a)
    · exact Ctx.copyBytes_tiles c src d a
  · exact Ctx.copyBytes_tiles c src d a

theorem Ctx.moveGroup_tiles (c : Ctx) (d a : BitVec 6) (k : Nat) : (c.moveGroup d a k).tiles = c.tiles := by
  have h : ∀ (ks : List Nat) (x : Ctx), (ks.foldl (fun x j => x.moveReg c (vreg d j) (vreg a j)) x).tiles = x.tiles := by
    intro ks
    induction ks with
    | nil => exact fun _ => rfl
    | cons k ks ih => intro x; rw [List.foldl_cons, ih, Ctx.moveReg_tiles]
  exact h _ c

theorem State.Formed.guarded {s : State} (h : s.Formed) (e : VEntry) {go : State → Commit} (hg : ∀ s : State, s.Formed → (go s).Formed) :
    (s.guarded e go).Formed := by
  unfold State.guarded
  split
  · exact hg _ h
  · split
    · exact hg _ h
    · split
      · split
        · refine State.Formed.onCtx h fun hc => ?_
          unfold Ctx.Formed
          rw [Ctx.moveGroup_tiles]
          exact hc
        · exact h
      · exact h

theorem State.Formed.popHead {s : State} (h : s.Formed) : s.popHead.Formed :=
  State.Formed.advanceBars (State.Formed.landLate (State.Formed.onCtx h id))

theorem State.Formed.enterHead {s : State} (h : s.Formed) (ps : Located) : (s.enterHead ps).Formed := by
  unfold State.enterHead
  split
  · exact h
  · exact h.onCtx id

theorem State.Formed.commitWith {s : State} (h : s.Formed) (e : VEntry) {go : State → Commit} (hg : ∀ s : State, s.Formed → (go s).Formed) :
    (s.commitWith e go).Formed := by
  have := h.guarded e hg
  unfold State.commitWith
  split
  · rename_i eq; rw [eq] at this; exact State.Formed.popHead this
  · exact h
  · rename_i eq; rw [eq] at this; exact State.Formed.enterHead this _
  · rename_i eq; rw [eq] at this; exact State.Formed.takeTrap this _ _ _ _

/-- A word of the vector unit leaves the canonical form, where its commit does. -/
theorem State.Formed.issue {s t : State} (h : s.Formed) {i : Instr} {op1 op2 : Word} {go : State → Commit}
    (hg : ∀ s : State, s.Formed → (go s).Formed) (e : s.issue i op1 op2 go = .next t) : t.Formed := by
  unfold State.issue at e
  split at e
  · cases e; exact h.stallFor _
  · dsimp only at e
    cases e
    have h1 : (s.onCtx fun c => { c with
        viq := c.viq ++ [⟨i, s.ctx.pc, op1, op2, s.ctx.latch.map fun l => { l with begun := false }⟩] }).retire.Formed :=
      (h.onCtx id).retire
    split
    · exact h1.commitWith _ hg
    · exact h1

end Sys2Proof.Machine
end

