-- ==== Sys2Proof/Laws/Moves.lean ====
section
/-! SUPPORT. The moves that are no rows of the opcode table (log 64) keep the canonical form of the machine. -/

namespace Sys2Proof.Machine

theorem State.Formed.setChan {s : State} (h : s.Formed) (c : Nat) (k : BitVec 3) (ch : Chan) : (s.setChan c k ch).Formed :=
  h.setCtx c (h.ctxOf c)

/-- A chunk of a started command lands (R208, R259). -/
theorem State.Formed.landChunk {s : State} (h : s.Formed) (c : Nat) (k : BitVec 3) (n : Nat) : (s.landChunk c k n).Formed := by
  unfold State.landChunk
  dsimp only
  split
  · exact h
  · exact (h.setChan c k _).perform _ _ _ _

/-- The host or another device writes (R412, R416). -/
theorem State.Formed.outside {s : State} (h : s.Formed) (key : Nat) (bs : List Byte) : (s.outside key bs).Formed := by
  unfold State.outside
  dsimp only
  split
  · split
    · exact h.settleWrites _ _
    · exact h
  · split
    · have hw : ({ s with mem := s.mem.setAll (writesAt key bs) } : State).Formed := ⟨Memory.wf_setAll h.mem _, h.ctx, h.others⟩
      exact hw.noteStores _
    · exact h

/-- A parity error changes no cell of the tile (R389). -/
theorem State.Formed.spoilTile {s : State} (h : s.Formed) (c t : Nat) : (s.spoilTile c t).Formed := by
  unfold State.spoilTile
  refine State.Formed.onDev (h.setCtx c fun x hx => ?_) _
  obtain ⟨i, hi, rfl⟩ := List.getElem_of_mem hx
  have hc := h.ctxOf c
  simp only [Vector.getElem_toList, Fin.getElem_fin, Vector.getElem_set]
  split
  · exact hc ((s.ctxOf c).tiles[(Fin.ofNat 4 t).val]) (by simp)
  · exact hc _ (by simp)

theorem State.Formed.sendTheft {s : State} (h : s.Formed) (walker victim die ctr ver lg tr n : Nat) :
    (s.sendTheft walker victim die ctr ver lg tr n).Formed := by
  unfold State.sendTheft
  dsimp only
  split
  · exact h.onDev _
  · exact h

theorem State.Formed.serveTheft {s : State} (h : s.Formed) (die ctr n thief : Nat) : (s.serveTheft die ctr n thief).Formed := by
  unfold State.serveTheft
  dsimp only
  split
  · exact (h.onDev _).onDev _
  · split <;> exact (h.onDev _).onDev _

theorem State.Formed.takeStolen {s : State} (h : s.Formed) (victim die ctr lo hi : Nat) (blob : List Byte) :
    (s.takeStolen victim die ctr lo hi blob).Formed := by
  unfold State.takeStolen
  dsimp only
  split
  · exact h.onDev _
  · exact (h.onDev _).onDev _

end Sys2Proof.Machine
end

