-- ==== Sys2Proof/Laws/Operations.lean ====
section
/-! SUPPORT. The shared operations in the cases that the meanings use: which level runs a word, a drained queue, a trap, an issued
word; a decoded word and its meaning; elements of vector registers read back. -/

namespace Sys2Proof.Machine

/-! ## Decoded words -/

theorem runLate_eq_exec (l : LateInstr) (s : State) : runLate l s = exec l.toInstr s := by cases l <;> rfl

/-- A decoded word runs as its instruction. -/
theorem runDecoded_eq_exec (d : Decoded) (s : State) : runDecoded d s = exec d.toInstr s := by
  cases d with
  | instr i => rfl
  | late l => exact runLate_eq_exec l s

/-! ## Levels, queues and traps -/

theorem State.needs_below {s : State} {p : Priv} (h : s.ctx.priv.rank < p.rank) (w : Word32) (k : State → Res) :
    s.needs p w k = .next (s.trap 0x03 (w.setWidth 64)) := if_pos h

theorem State.needs_allowed {s : State} {p : Priv} (h : p.rank ≤ s.ctx.priv.rank) (w : Word32) (k : State → Res) : s.needs p w k = k s :=
  if_neg (by omega)

theorem State.whenDrained_empty {s : State} (h : s.ctx.viq = []) (k : State → Res) : s.whenDrained k = k s := by
  unfold State.whenDrained
  rw [h]
  rfl

theorem State.whenDrained_waits {s : State} (h : s.ctx.viq ≠ []) (k : State → Res) : s.whenDrained k = .next (s.stallFor .viq) := by
  unfold State.whenDrained
  rw [if_neg (by simpa using h)]

/-- A trap outside a handler enters the handler. -/
theorem State.trap_of_tfv_clear {s : State} (h : s.ctx.tfv = false) (code : Nat) (tval : Word) :
    s.trap code tval = s.intoHandler (s.ctx.enterTrap false false false code tval) := by
  unfold State.trap State.takeTrap
  rw [h]
  rfl

/-- Where no entry waits in the access path, entering a handler changes nothing outside the context. -/
theorem State.intoHandler_only {s : State} (h : s.ctx.late = none) (c : Ctx) : s.intoHandler c = { s with ctx := c } := by
  simp [State.intoHandler, h]

/-- A core whose buffer keeps to its size drains nothing (R222). -/
theorem State.spill_none {s : State} (h : s.wcbLines (coreOf s.cur) ≤ 4096) : s.spill = s := by
  unfold State.spill
  rw [if_pos h]

theorem State.trap_of_tfv_set {s : State} (h : s.ctx.tfv = true) (code : Nat) (tval : Word) : s.trap code tval = s.doubleTrap false := by
  unfold State.trap State.takeTrap
  rw [h]
  rfl

/-! ## Stores performed -/

/-- With no uncorrectable word, stores are performed one by one (R217). -/
theorem State.performAll_sound {s : State} (h : s.dev.eccBad = []) (ps : List Pend) : s.performAll ps = ps.foldl State.performPend s := by
  unfold State.performAll
  rw [h]
  rfl

theorem Pend.joined_nil (p : Pend) : p.joined [] = p := by simp [Pend.joined]

/-- A store of a word that is not uncorrectable is performed alone (R389). -/
theorem Pend.mates_sound {p : Pend} {bad : List Nat} (h : bad.contains (p.key / 8) = false) (ps : List Pend) : p.mates bad ps = [] := by
  unfold Pend.mates
  simp only [h, Bool.and_false, Bool.false_and, Bool.false_eq_true, if_false]

/-! ## Issue -/

/-- The queue entry of a word with the values it captures. -/
def State.entry (s : State) (i : Instr) (op1 op2 : Word) : VEntry := ⟨i, s.ctx.pc, op1, op2, s.ctx.latch.map fun l => { l with begun := false }⟩

/-- The machine with the word's entry at the tail of the queue, and the SCT past the word. -/
def State.enqueued (s : State) (i : Instr) (op1 op2 : Word) : State := (s.onCtx fun c => { c with viq := c.viq ++ [s.entry i op1 op2] }).retire

theorem State.issue_full {s : State} (h : 64 ≤ s.ctx.viq.length) (i : Instr) (op1 op2 : Word) (go : State → Commit) :
    s.issue i op1 op2 go = .next (s.stallFor .viq) := if_pos h

theorem State.issue_behind {s : State} (h : s.ctx.viq.length < 64) (hb : s.ctx.viq ≠ [] ∨ s.ctx.lag ≠ 0) (i : Instr) (op1 op2 : Word)
    (go : State → Commit) : s.issue i op1 op2 go = .next (s.enqueued i op1 op2) := by
  unfold State.issue
  rw [if_neg (by omega)]
  have : (s.ctx.viq.isEmpty && s.ctx.lag == 0) = false := by
    rcases hb with hb | hb
    · cases hv : s.ctx.viq with
      | nil => exact absurd hv hb
      | cons a r => rfl
    · simp [hb]
  simp only [this]
  rfl

theorem State.issue_idle {s : State} (hv : s.ctx.viq = []) (hl : s.ctx.lag = 0) (i : Instr) (op1 op2 : Word) (go : State → Commit) :
    s.issue i op1 op2 go = .next ((s.enqueued i op1 op2).commitWith (s.entry i op1 op2) go) := by
  unfold State.issue
  rw [if_neg (by simp [hv])]
  have : (s.ctx.viq.isEmpty && s.ctx.lag == 0) = true := by simp [hv, hl]
  simp only [this]
  rfl

/-! ## Elements of vector registers -/

theorem vbits_testBit (v : VWord) (lo n i : Nat) : (vbits v lo n).testBit i = (decide (i < n) && v.getLsbD (lo + i)) := by
  unfold vbits
  rw [Nat.testBit_mod_two_pow, Nat.testBit_div_two_pow, Nat.add_comm]
  rfl

theorem setVbits_getLsbD (v : VWord) (lo n val i : Nat) (h : lo + n ≤ 2048) :
    (setVbits v lo n val).getLsbD i = if lo ≤ i ∧ i < lo + n then val.testBit (i - lo) else v.getLsbD i := by
  have e : v.toNat / 2 ^ (lo + n) * 2 ^ (lo + n) + val % 2 ^ n * 2 ^ lo + v.toNat % 2 ^ lo =
      2 ^ (lo + n) * (v.toNat / 2 ^ (lo + n)) + (2 ^ lo * (val % 2 ^ n) + v.toNat % 2 ^ lo) := by
    rw [Nat.mul_comm, Nat.mul_comm (val % 2 ^ n), Nat.add_assoc]
  have h1 : v.toNat % 2 ^ lo < 2 ^ lo := Nat.mod_lt _ (Nat.two_pow_pos _)
  have h2 : 2 ^ lo * (val % 2 ^ n) + v.toNat % 2 ^ lo < 2 ^ (lo + n) := by
    have : val % 2 ^ n + 1 ≤ 2 ^ n := Nat.mod_lt _ (Nat.two_pow_pos _)
    calc 2 ^ lo * (val % 2 ^ n) + v.toNat % 2 ^ lo < 2 ^ lo * (val % 2 ^ n) + 2 ^ lo := by omega
      _ = 2 ^ lo * (val % 2 ^ n + 1) := by ring
      _ ≤ 2 ^ lo * 2 ^ n := Nat.mul_le_mul_left _ this
      _ = 2 ^ (lo + n) := (pow_add 2 lo n).symm
  unfold setVbits
  rw [e, BitVec.getLsbD_ofNat, Nat.testBit_two_pow_mul_add _ h2, Nat.testBit_two_pow_mul_add _ h1]
  by_cases hi : i < 2048
  · simp only [hi, decide_true, Bool.true_and]
    by_cases a : i < lo + n
    · rw [if_pos a]
      by_cases b : i < lo
      · rw [if_pos b, if_neg (by omega), Nat.testBit_mod_two_pow]
        simp [b, BitVec.getLsbD]
      · rw [if_neg b, if_pos (by omega), Nat.testBit_mod_two_pow]
        have : i - lo < n := by omega
        simp [this]
    · rw [if_neg a, if_neg (by omega), Nat.testBit_div_two_pow]
      have : i - (lo + n) + (lo + n) = i := by omega
      rw [this]
      rfl
  · rw [if_neg (show ¬(lo ≤ i ∧ i < lo + n) by omega), BitVec.getLsbD_of_ge _ _ (by omega)]
    simp only [hi, decide_false, Bool.false_and]

/-- An element that is written is read back. -/
theorem vbits_setVbits_same (v : VWord) (lo n val : Nat) (h : lo + n ≤ 2048) : vbits (setVbits v lo n val) lo n = val % 2 ^ n := by
  apply Nat.eq_of_testBit_eq
  intro i
  rw [vbits_testBit, setVbits_getLsbD _ _ _ _ _ h, Nat.testBit_mod_two_pow]
  by_cases hi : i < n
  · rw [if_pos (by omega)]
    simp
  · simp [hi]

/-- Bits that no write touches stay. -/
theorem vbits_setVbits_other (v : VWord) (lo n lo' n' val : Nat) (h : lo + n ≤ 2048) (hd : lo' + n' ≤ lo ∨ lo + n ≤ lo') :
    vbits (setVbits v lo n val) lo' n' = vbits v lo' n' := by
  apply Nat.eq_of_testBit_eq
  intro i
  rw [vbits_testBit, vbits_testBit, setVbits_getLsbD _ _ _ _ _ h]
  by_cases hi : i < n'
  · rw [if_neg (by omega)]
  · simp [hi]

/-! ## The size of the write-combining buffer -/

/-- The oldest line of a core's buffer is one of a context that has lines. -/
theorem State.leaveOne_lines {s : State} {core c : Nat} (h : s.oldestIn core = some c) :
    (s.setCtx c (s.ctxOf c).leaveOne).wcbLines core + 1 = s.wcbLines core := by
  unfold State.oldestIn at h
  unfold State.wcbLines
  simp only [State.ctxOf_setCtx]
  cases ha : (s.ctxOf (core * 2)).wcb <;> cases hb : (s.ctxOf (core * 2 + 1)).wcb <;> simp only [ha, hb] at h
  · cases h
  · cases h; simp [Ctx.leaveOne, Ctx.enqueue, ha, hb]
  · cases h; simp [Ctx.leaveOne, Ctx.enqueue, ha, hb]
  · split at h <;> cases h <;> simp [Ctx.leaveOne, Ctx.enqueue, ha, hb] <;> omega

/-- A core's buffer gives up as many lines as are asked of it (R222). -/
theorem State.leaveOldest_lines (s : State) (core n : Nat) : (s.leaveOldest core n).wcbLines core ≤ s.wcbLines core - n := by
  induction n generalizing s with
  | zero => exact le_refl _
  | succ n ih =>
    unfold State.leaveOldest
    split
    · rename_i e
      unfold State.oldestIn at e
      unfold State.wcbLines
      cases ha : (s.ctxOf (core * 2)).wcb <;> cases hb : (s.ctxOf (core * 2 + 1)).wcb <;> simp [ha, hb] at e ⊢
    · rename_i c e
      have h1 := State.leaveOne_lines e
      have h2 := ih (s.setCtx c (s.ctxOf c).leaveOne)
      omega

/-- Lines that leave a buffer change contexts alone. -/
theorem State.leaveOldest_only (s : State) (core n : Nat) :
    s.leaveOldest core n = { s with ctx := (s.leaveOldest core n).ctx, others := (s.leaveOldest core n).others } := by
  induction n generalizing s with
  | zero => rfl
  | succ n ih =>
    unfold State.leaveOldest
    split
    · rfl
    · rename_i c e
      rw [ih]
      unfold State.setCtx
      split <;> rfl

theorem State.spill_only (s : State) : s.spill = { s with ctx := s.spill.ctx, others := s.spill.others } := by
  unfold State.spill
  dsimp only
  split
  · rfl
  · exact s.leaveOldest_only _ _

/-- A core's buffer holds its 4,096 lines at most once what is above them has left it (R222). -/
theorem State.spill_lines (s : State) : s.spill.wcbLines (coreOf s.cur) ≤ 4096 := by
  unfold State.spill
  dsimp only
  split
  · assumption
  · have := s.leaveOldest_lines (coreOf s.cur) (s.wcbLines (coreOf s.cur) - 4096)
    omega

/-! ## Behind an entry in the access path -/

/-- An entry that comes to wait in the access path changes what stands behind it alone. -/
theorem State.enterHead_only (s : State) (ps : Located) :
    s.enterHead ps = { s with ctx := { s.ctx with
      late := (s.enterHead ps).ctx.late, bars := (s.enterHead ps).ctx.bars, located := (s.enterHead ps).ctx.located } } := by
  unfold State.enterHead
  split <;> rfl

/-- Without such an entry a store enters the access path. -/
theorem State.putStore_enters {s : State} (h : s.ctx.late = none) (p : Pend) : s.putStore p = s.enter p := by
  simp [State.putStore, Ctx.entered, h]

/-- Without such an entry the accesses of the oldest one are located as it commits. -/
theorem Ctx.headPlaces_none {c : Ctx} (h : c.late = none) : c.headPlaces = [] := by
  simp [Ctx.headPlaces, h]

/-- A word of the SCT that no scoreboard range has held is located as it executes. -/
theorem State.alignedOnce_first {s : State} (h : ∀ p n, s.ctx.stall ≠ some (.board (some p) n)) (k : AccKind) (w : Nat) (va : Word) :
    s.alignedOnce k w va = s.aligned 0 k none w va := by
  unfold State.alignedOnce State.aligned
  split
  · rfl
  · split
    · rename_i e; exact absurd e (h _ _)
    · rfl

/-- Without such an entry nothing lands when the oldest one leaves the queue. -/
theorem State.landLate_none {s : State} (h : s.ctx.late = none) : s.landLate = s := by
  simp [State.landLate, h]

/-- Ahead of a fetch nothing but the barriers decides, where nothing stands behind an entry in the access path. -/
theorem State.beforeFetch_none {s : State} (h : s.ctx.late = none) (hb : s.ctx.bars = []) : s.beforeFetch = s.behindBarriers := by
  simp [State.beforeFetch, State.behindBarriers, Ctx.fences_none h, hb, h, lateHolds]

end Sys2Proof.Machine
end

