-- ==== Sys2Proof/Laws/TileOrder.lean ====
section
/-! SUPPORT. Every operation on a tile keeps its cells in ascending order. -/

namespace Sys2Proof.Machine

/-- A list of numbered things in ascending order. -/
def Ascending {α : Type} (l : List (Nat × α)) : Prop := l.Pairwise fun p q => p.1 < q.1

theorem Ascending.map_snd {α β : Type} {l : List (Nat × α)} (h : Ascending l) (f : Nat × α → β) : Ascending (l.map fun p => (p.1, f p)) :=
  List.pairwise_map.2 h

theorem Ascending.filter {α : Type} {l : List (Nat × α)} (h : Ascending l) (p : Nat × α → Bool) : Ascending (l.filter p) :=
  List.Pairwise.filter p h

theorem ascending_zip {α : Type} (l : List α) : Ascending ((List.range l.length).zip l) := by
  have : ∀ (l : List α) (n : Nat), Ascending ((List.range' n l.length).zip l) ∧ ∀ p ∈ (List.range' n l.length).zip l, n ≤ p.1 := by
    intro l
    induction l with
    | nil => intro n; simp [Ascending]
    | cons a l ih =>
      intro n
      have h := ih (n + 1)
      simp only [List.length_cons, List.range'_succ, List.zip_cons_cons]
      refine ⟨List.pairwise_cons.2 ⟨fun p hp => ?_, h.1⟩, ?_⟩
      · have := h.2 p hp
        simp only
        omega
      · intro p hp
        rcases List.mem_cons.1 hp with hp | hp
        · subst hp; exact Nat.le_refl _
        · have := h.2 p hp
          omega
  rw [List.range_eq_range']
  exact (this l 0).1

/-- Merging ascending changes into ascending cells: a number of the result is one of the cells or of the changes. -/
theorem mergeCells_mem {f : TCell → List (Option FVal) → TCell} (n : Nat) (cs : List (Nat × TCell)) (ps : List (Nat × List (Option FVal)))
    {q : Nat × TCell} (h : q ∈ mergeCells f n cs ps) : (∃ c ∈ cs, c.1 = q.1) ∨ ∃ p ∈ ps, p.1 = q.1 := by
  induction n generalizing cs ps with
  | zero => exact .inl ⟨q, by simpa [mergeCells] using h, rfl⟩
  | succ n ih =>
    match cs, ps with
    | [], [] => exact .inl ⟨q, h, rfl⟩
    | c :: cs, [] => exact .inl ⟨q, h, rfl⟩
    | [], (k, v) :: r =>
      simp only [mergeCells] at h
      split at h
      · rcases ih _ _ h with ⟨c, hc, _⟩ | ⟨p, hp, e⟩
        · simp at hc
        · exact .inr ⟨p, List.mem_cons_of_mem _ hp, e⟩
      · rcases List.mem_cons.1 h with h | h
        · exact .inr ⟨_, List.mem_cons_self, by rw [h]⟩
        · rcases ih _ _ h with ⟨c, hc, _⟩ | ⟨p, hp, e⟩
          · simp at hc
          · exact .inr ⟨p, List.mem_cons_of_mem _ hp, e⟩
    | (k', c') :: cs, (k, v) :: r =>
      simp only [mergeCells] at h
      split at h
      · rcases List.mem_cons.1 h with h | h
        · exact .inl ⟨_, List.mem_cons_self, by rw [h]⟩
        · rcases ih _ _ h with ⟨c, hc, e⟩ | h
          · exact .inl ⟨c, List.mem_cons_of_mem _ hc, e⟩
          · exact .inr h
      · split at h
        · split at h
          · rcases ih _ _ h with ⟨c, hc, e⟩ | ⟨p, hp, e⟩
            · exact .inl ⟨c, List.mem_cons_of_mem _ hc, e⟩
            · exact .inr ⟨p, List.mem_cons_of_mem _ hp, e⟩
          · rcases List.mem_cons.1 h with h | h
            · exact .inr ⟨_, List.mem_cons_self, by rw [h]⟩
            · rcases ih _ _ h with ⟨c, hc, e⟩ | ⟨p, hp, e⟩
              · exact .inl ⟨c, List.mem_cons_of_mem _ hc, e⟩
              · exact .inr ⟨p, List.mem_cons_of_mem _ hp, e⟩
        · split at h
          · rcases ih _ _ h with h | ⟨p, hp, e⟩
            · exact .inl h
            · exact .inr ⟨p, List.mem_cons_of_mem _ hp, e⟩
          · rcases List.mem_cons.1 h with h | h
            · exact .inr ⟨_, List.mem_cons_self, by rw [h]⟩
            · rcases ih _ _ h with h | ⟨p, hp, e⟩
              · exact .inl h
              · exact .inr ⟨p, List.mem_cons_of_mem _ hp, e⟩

/-- Merging keeps the order. -/
theorem mergeCells_ascending (f : TCell → List (Option FVal) → TCell) (n : Nat) (cs : List (Nat × TCell))
    (ps : List (Nat × List (Option FVal))) (hc : Ascending cs) (hp : Ascending ps) : Ascending (mergeCells f n cs ps) := by
  induction n generalizing cs ps with
  | zero => simpa [mergeCells] using hc
  | succ n ih =>
    match cs, ps with
    | cs, [] => cases cs <;> simpa [mergeCells] using hc
    | [], (k, v) :: r =>
      have hr := List.pairwise_cons.1 hp
      simp only [mergeCells]
      split
      · exact ih _ _ hc hr.2
      · refine List.pairwise_cons.2 ⟨fun q hq => ?_, ih _ _ hc hr.2⟩
        rcases mergeCells_mem _ _ _ hq with ⟨c, hc, _⟩ | ⟨p, hp, e⟩
        · simp at hc
        · rw [← e]; exact hr.1 p hp
    | (k', c') :: cs, (k, v) :: r =>
      have hr := List.pairwise_cons.1 hp
      have hs := List.pairwise_cons.1 hc
      simp only [mergeCells]
      split
      · rename_i hlt
        refine List.pairwise_cons.2 ⟨fun q hq => ?_, ih _ _ hs.2 hp⟩
        rcases mergeCells_mem _ _ _ hq with ⟨c, hc, e⟩ | ⟨p, hp, e⟩
        · rw [← e]; exact hs.1 c hc
        · rw [← e]
          rcases List.mem_cons.1 hp with hp | hp
          · subst hp; exact hlt
          · exact Nat.lt_trans hlt (hr.1 p hp)
      · split
        · rename_i heq
          have g : ∀ q ∈ mergeCells f n cs r, k < q.1 := fun q hq => by
            rcases mergeCells_mem _ _ _ hq with ⟨c, hc, e⟩ | ⟨p, hp, e⟩
            · rw [← e, ← heq]; exact hs.1 c hc
            · rw [← e]; exact hr.1 p hp
          split
          · exact ih _ _ hs.2 hr.2
          · exact List.pairwise_cons.2 ⟨g, ih _ _ hs.2 hr.2⟩
        · rename_i h1 h2
          have hk : k < k' := by omega
          have g : ∀ q ∈ mergeCells f n ((k', c') :: cs) r, k < q.1 := fun q hq => by
            rcases mergeCells_mem _ _ _ hq with ⟨c, hc, e⟩ | ⟨p, hp, e⟩
            · rw [← e]
              rcases List.mem_cons.1 hc with hc | hc
              · subst hc; exact hk
              · exact Nat.lt_trans hk (hs.1 c hc)
            · rw [← e]; exact hr.1 p hp
          split
          · exact ih _ _ hc hr.2
          · exact List.pairwise_cons.2 ⟨g, ih _ _ hc hr.2⟩

theorem Tile.Ordered.change {t : Tile} (h : t.Ordered) (f : TCell → List (Option FVal) → TCell) {ps : List (Nat × List (Option FVal))}
    (hp : Ascending ps) : (t.change f ps).Ordered := mergeCells_ascending _ _ _ _ h hp

theorem Tile.Ordered.back {t : Tile} (h : t.Ordered) : t.back.Ordered := by
  unfold Tile.back
  split
  · exact (Ascending.map_snd h fun p => t.backCell p.2).filter _
  · exact h

theorem Tile.Ordered.resolve {t : Tile} (h : t.Ordered) (f : Nat) (rm : RMode) : (t.resolve f rm).1.Ordered := by
  unfold Tile.resolve
  split
  · exact h
  · refine Ascending.filter ?_ _
    exact Ascending.map_snd (Ascending.map_snd h fun p => t.read f rm p.2) fun p => ({ TCell.zero with held := p.2.1 } : TCell)

theorem Tile.Ordered.anchored {t : Tile} (h : t.Ordered) (vs : List (Option FVal)) : (t.anchored vs).Ordered := by
  unfold Tile.anchored
  split
  · split
    · exact h
    · exact h
  · exact h

theorem parseHeader_cells {h : List Byte} {t : Tile} (e : parseHeader h = some t) : t.cells = [] := by
  unfold parseHeader at e
  dsimp only at e
  split at e
  · rw [Option.ite_none_right_eq_some] at e
    exact (congrArg Tile.cells (Option.some.inj e.2)).symm
  · cases e

/-- The tile of a raw image lists its cells in order. -/
theorem tileFrom_ordered {rows : TClass → Nat} {img : List Byte} {t : Tile} (e : tileFrom rows img = some t) : t.Ordered := by
  unfold tileFrom at e
  split at e
  · cases e
  · rename_i x hx
    split at e
    · cases e
      unfold Tile.Ordered
      rw [parseHeader_cells hx]
      exact List.Pairwise.nil
    · cases e
      exact (ascending_zip _).filter _

/-- A context whose tile is replaced by an ordered one. -/
theorem Ctx.Formed.putTile {c : Ctx} (h : c.Formed) (t : BitVec 2) {x : Tile} (hx : x.Ordered) : (c.putTile t x).Formed := by
  intro y hy
  have : y ∈ c.tiles.set t.toNat x := by simpa [Ctx.putTile] using hy
  rcases Vector.mem_or_eq_of_mem_set this with h' | h'
  · exact h y (by simpa using h')
  · exact h' ▸ hx

theorem Ctx.Formed.tile {c : Ctx} (h : c.Formed) (t : BitVec 2) : (c.tile t).Ordered := h _ (by simp [Ctx.tile])

end Sys2Proof.Machine
end

