-- ==== Sys2Proof/Safety.lean ====
section
/-! DEFINITION. What counts as a safe run. The one fault of the model is a move that hands the turn to a context number that the package
does not have (log 5); a word never faults. -/

namespace Sys2Proof.Machine

/-- `t` is what `s` has become after `k` steps, none of which stopped. -/
def State.reaches (s : State) (k : Nat) (t : State) : Prop := Sys2Proof.core.run k s = .next t

/-- No number of steps from `s` stops with a fault or a refusal. -/
def State.Safe (s : State) : Prop := ∀ k, ∃ t, s.reaches k t

/-- The moves to come name contexts that the package has. -/
def State.movesExist (s : State) : Bool :=
  s.moves.all fun m => match m with
    | .turn c => decide (c < numContexts)
    | _ => true

end Sys2Proof.Machine
end

