-- ==== Sys2Proof/Tests/Setup.lean ====
section
/-! SUPPORT. Small machines for the tests: the machine of `State.reset.readyToFetch` (a running hyp context with an identity
translation) with some registers, elements and bytes set. -/

namespace Sys2Proof.Tests

open Sys2Proof.Machine

/-- A running hyp context, nothing pending. -/
def base : State := State.reset.readyToFetch

/-- `s` with x registers. -/
def withX (l : List (BitVec 5 × Word)) (s : State) : State := l.foldl (fun s p => s.setX p.1 p.2) s

/-- `s` at another level. -/
def withPriv (p : Priv) (s : State) : State := { s with ctx := { s.ctx with priv := p } }

/-- `s` with a vector length and an element width of 8 × 2^e bits. -/
def withVl (n e : Nat) (s : State) : State := { s with ctx := { s.ctx with vl := n, vtype := BitVec.ofNat 5 e } }

/-- The number whose digits of `w` bits are `l`, least first. -/
def digits (w : Nat) (l : List Nat) : Nat := l.foldr (fun x a => x + a * 2 ^ w) 0

/-- `s` with a vector register of the elements `l` of `w` bits. -/
def withV (r : BitVec 6) (w : Nat) (l : List Nat) (s : State) : State :=
  { s with ctx := { s.ctx with v := s.ctx.v.set r.toNat (BitVec.ofNat 2048 (digits w l)) } }

/-- `s` with a facet. -/
def withFacet (r : BitVec 6) (f : BitVec 16) (s : State) : State :=
  { s with ctx := { s.ctx with facets := s.ctx.facets.set r.toNat f } }

/-- Bytes from fields (offset, width, value), in a block of `n` bytes. -/
def block (n : Nat) (fs : List (Nat × Nat × Nat)) : List Byte :=
  leBytes n (fs.foldl (fun a f => a + f.2.2 % 2 ^ (8 * f.2.1) * 2 ^ (8 * f.1)) 0)

/-- `s` with bytes at the place of an address of its context. -/
def withBytes (a : Word) (bs : List Byte) (s : State) : State :=
  match (s.translate s.ctx.asid s.ctx.priv .store a).1 with
  | .ok l => { s with mem := s.mem.setAll (writesAt l.key bs) }
  | .error _ => s

/-- `e` of the next state, where there is one. -/
def after (o : Host.Outcome State Fault Refusal) (e : State → Bool) : Bool :=
  match o with
  | .next t => e t
  | _ => false

/-- The result is a value, and it meets `P` with the state beside it. -/
def okWith {ε α σ : Type} (x : Except ε α × σ) (P : α → σ → Bool) : Bool :=
  match x with
  | (.ok p, s) => P p s
  | _ => false

theorem metB {ε α σ : Type} {x : Except ε α × σ} {P : α → σ → Bool} (h : okWith x P = true) : ∃ p s, x = (.ok p, s) ∧ P p s = true := by
  obtain ⟨_ | p, s⟩ := x
  · exact absurd h Bool.false_ne_true
  · exact ⟨p, s, rfl, h⟩

end Sys2Proof.Tests
end

