-- ==== Sys2Proof/Tests/Examples.lean ====
section
/-! SUPPORT. The worked examples of the spec, one step or one operation each; the numbers are the spec's. -/

namespace Sys2Proof.Tests

set_option Elab.async false

open Sys2Proof.Machine

/-! ## Numbers -/

/-- "Worked narrow roundings": e2m1 under rne, with nx = 01, uf = 02, of = 04. -/
theorem test_narrow_roundings : ∀ p ∈ ([
    (.fin false 1 (-2), 0b0000, 3), (.fin false 3 (-2), 0b0010, 3), (.fin false 5 (-2), 0b0010, 1), (.fin false 7 (-2), 0b0100, 1),
    (.fin false 5 (-1), 0b0100, 1), (.fin false 7 (-1), 0b0110, 1), (.fin false 5 0, 0b0110, 1), (.fin false 13 (-1), 0b0111, 1),
    (.fin false 7 0, 0b0111, 5), (.fin true 5 (-1), 0b1100, 1)] : List (FVal × Nat × BitVec 5)),
    p.1.into .e2m1 .rne = (p.2.1, p.2.2) := by decide +kernel

/-- e4m3 under rne: 464 gives 448 with nx, 470 gives 448 with of and nx. -/
theorem test_e4m3_overflow :
    (FVal.fin false 464 0).into .e4m3 .rne = (0x7E, 1) ∧ (FVal.fin false 470 0).into .e4m3 .rne = (0x7E, 5) := by decide +kernel

/-- "Worked anchor and truncation": with A = 52 the products 1.5, −0.03125, 0.03125 and −2.75 leave X = −21, read as −1.3125. -/
theorem test_anchor_and_truncation :
    let t : Tile := { Tile.empty with mode := .float, cls := .f32, state := .redundant, anchor := some 52 }
    let ps : List (Option FVal) := [some (.fin false 3 (-1)), some (.fin true 1 (-5)), some (.fin false 1 (-5)), some (.fin true 11 (-2))]
    let c := ps.foldl t.addTo TCell.zero
    c.x = -21 ∧ ps.reverse.foldl t.addTo TCell.zero = c ∧ t.read 5 .rne c = (0xBFA80000, 0) := by decide +kernel

/-- "Worked Hadamard and e2m1 packing": [15, 5, 0, …] at d = 1 gives [20, 10, 0, …]; [20, 10, 20, …] at scale 0.25 packs to 0x46 bytes, nx set. -/
theorem test_hadamard_and_packing :
    after (exec (.vhad 3 2 0 0) (withV 2 32 [0x41700000, 0x40A00000, 0, 0, 0, 0, 0, 0] (withVl 8 2 base))) (fun t =>
      (List.range 8).map (t.ctx.elem 3) == [0x41A00000, 0x41200000, 0, 0, 0, 0, 0, 0] && t.ctx.fflags == 0) = true ∧
      after (exec (.vqnt 3 2 0 0 2) (withV 1 16 (List.replicate 8 0x3E80) (withV 2 32
        [0x41A00000, 0x41200000, 0x41A00000, 0x41200000, 0x41A00000, 0x41200000, 0x41A00000, 0x41200000] (withVl 8 2 base))))
        (fun t => (t.ctx.getV 3).toNat % 2 ^ 32 == 0x46464646 && t.ctx.fflags == 1) = true := by decide +kernel

/-! ## Scalar words -/

/-- R117: 0x0002_FFD3 is lui x5, 0x5F then ori x5, x5, 0x7D3; R115: sltiu xd, xa, 1 asks for 0. -/
theorem test_constant :
    after (exec (.lui 5 0x5F) base) (fun t => t.getX 5 == 0x2F800) = true ∧
      after (exec (.ori 5 5 0x7D3) (withX [(5, 0x2F800)] base)) (fun t => t.getX 5 == 0x2FFD3) = true ∧
      after (exec (.sltiu 5 6 1) base) (fun t => t.getX 5 == 1) = true := by decide +kernel

/-- "Worked nest": the tuples of a 3 by 2 block, row-major and snake. -/
theorem test_nest_orders :
    let row : NestBlock := ⟨2, 0, [3, 2], [0, 0]⟩
    let snake : NestBlock := ⟨2, 2, [3, 2], [0, 0]⟩
    parseNest (block 64 [(0, 4, 0x01220000), (8, 4, 3), (16, 4, 2)]) = some ⟨2, 2, [3, 2, 0, 0, 0, 0], [0, 0, 0, 0, 0, 0]⟩ ∧
      row.tuples.map (·.take 2) = [[0, 0], [1, 0], [2, 0], [0, 1], [1, 1], [2, 1]] ∧
      snake.tuples.map (·.take 2) = [[0, 0], [1, 0], [2, 0], [2, 1], [1, 1], [0, 1]] := by decide +kernel

/-- "Worked lend": add x5, x6, x7 under lend x9, x12 with x9 = 5 and with 0, and under lend.n with 0. -/
theorem test_lend :
    let s := withX [(6, 2), (7, 3), (12, 40)] base
    let run := fun (neg pv : Bool) => s.successor ⟨neg, false, 9, pv, true, 12, false, s.ctx.pc⟩ 0x04A63800 (.instr (.add 5 6 7))
    after (run false true) (fun t => t.getX 5 == 5) = true ∧ after (run false false) (fun t => t.getX 5 == 40) = true ∧
      after (run true false) (fun t => t.getX 5 == 5) = true := by decide +kernel

/-! ## Vector words -/

/-- "Worked compression": 0x38, 0xB8 and 0x40 at 4, 7 and 12 of v20. -/
theorem test_compression :
    let s := withV 20 8 [0, 0, 0, 0, 0x38, 0, 0, 0xB8, 0, 0, 0, 0, 0x40, 0, 0, 0] (withVl 16 0 base)
    after (exec (.vsneVx 0 20 0 0) s) (fun t => (t.ctx.getV 0).toNat == 2 ^ 4 + 2 ^ 7 + 2 ^ 12) = true ∧
      after (exec (.vcmprs 4 20 1) (withV 0 1 [0, 0, 0, 0, 1, 0, 0, 1, 0, 0, 0, 0, 1] s)) (fun t =>
        (t.ctx.getV 4).toNat == 0x40B838 && (t.ctx.getV 36).toNat == 0x0C0704 && t.ctx.vl == 3) = true := by decide +kernel

/-- "Worked recurrence across strips": the second strip from cl = 10, the masked first strip, and vrec.lin with a = 2 and b = 1. -/
theorem test_recurrences :
    after (exec (.vrecAdd 9 8 0) ((withV 8 32 [5, 6, 7, 8] (withVl 4 2 base)).onCtx fun c => { c with cl := 10 })) (fun t =>
      (List.range 4).map (t.ctx.elem 9) == [15, 21, 28, 36] && t.ctx.cl == 36) = true ∧
      after (exec (.vrecAdd 9 8 1) (withV 0 1 [1, 0, 1, 1] (withV 9 32 [0, 77] (withV 8 32 [1, 2, 3, 4] (withVl 4 2 base))))) (fun t =>
        (List.range 4).map (t.ctx.elem 9) == [1, 77, 4, 8] && t.ctx.cl == 8) = true ∧
      after (exec (.vrecLin 9 8 10 0) (withV 8 32 [2, 2, 2, 2] (withV 10 32 [1, 1, 1, 1] (withVl 4 2 base)))) (fun t =>
        (List.range 4).map (t.ctx.elem 9) == [1, 3, 7, 15]) = true := by decide +kernel

/-- The runs of "Worked merge with payloads". -/
def mergeS (fb : BitVec 16) : State :=
  withFacet 4 0x9004 (withFacet 5 fb (withV 4 32 [2, 5, 5, 9] (withV 36 32 [10, 11, 12, 13] (withV 5 32 [1, 5, 7, 0]
    (withV 37 32 [20, 21, 22, 0] (withVl 4 2 base))))))

/-- vmrg.s32 v6, v4, v5, vmrgc.s32 q2, v4, v5, and the merge where v5 is descending. -/
theorem test_merge_with_payloads :
    after (exec (.vmrg 6 4 5 0) (mergeS 0xB003)) (fun t => ([6, 38, 7, 39] : List (BitVec 6)).map (fun r => (List.range 4).map (t.ctx.elem r)) ==
      [[1, 2, 5, 5], [20, 10, 11, 12], [5, 7, 9, 0], [21, 22, 13, 0]] && t.ctx.getFacet 6 == 0x9004 && t.ctx.getFacet 7 == 0xB003) = true ∧
      after (exec (.vmrgc 2 4 5 0) (mergeS 0xB003)) (fun t => t.ctx.q[2] == [3]) = true ∧
      after (exec (.vmrg 6 4 5 0) (mergeS 0xF003)) (fun t => t.ctx.cause == 0x10A && t.ctx.tval == 0xF0039004 && t.ctx.elem 6 0 == 0) = true := by
  decide +kernel

/-- "Worked total order": vsort.p.f32.a v2, v3, and vcmpt.f32 v8, v2 with a threshold of +0. -/
theorem test_total_order :
    after (exec (.vsort 2 3 1 0 2) (withV 35 32 [0, 1, 2, 3, 4, 5] (withV 3 32 [0x7FC00000, 0x80000000, 0x3F800000, 0xFF800000, 0, 0xFFC00000]
      (withVl 6 2 base)))) (fun t =>
        (List.range 6).map (t.ctx.elem 2) == [0xFFC00000, 0xFF800000, 0x80000000, 0, 0x3F800000, 0x7FC00000] &&
        (List.range 6).map (t.ctx.elem 34) == [5, 3, 1, 4, 2, 0] && t.ctx.getFacet 2 == 0xB406) = true ∧
      after (exec (.vcmpt 8 2 2) (withFacet 2 0xB406 (withV 34 32 [5, 3, 1, 4, 2, 0]
        (withV 2 32 [0xFFC00000, 0xFF800000, 0x80000000, 0, 0x3F800000, 0x7FC00000] (withVl 6 2 base))))) (fun t =>
          (List.range 2).map (t.ctx.elem 8) == [0, 0x3F800000] && (List.range 2).map (t.ctx.elem 40) == [4, 2] && t.ctx.vl == 2) = true := by
  decide +kernel

/-! ## Tiles, engines, traps -/

/-- "Worked scaled product and image offsets": mopa.s.e4m3 t1, v2, v3 leaves A = 12 and four exact cells. -/
theorem test_scaled_product :
    let s := withV 1 16 [0x3F00, 0x4080] (withV 2 8 [0x44, 0xA8] (withV 3 8 [0x3C, 0, 0, 0, 0, 0, 0, 0, 0, 0x40] (withVl 0 6 base)))
    after (exec (.mopaS 1 2 3 0 0) { s with ctx := { s.ctx with trn := 1 } }) (fun t =>
      let x := t.ctx.tile 1
      x.anchor == some 12 && x.mode == .float && x.cls == .narrow &&
        [0, 9, 192, 201].map (fun n => (x.cell n).x) == [9 * 2 ^ 42, 24 * 2 ^ 44, -3 * 2 ^ 40, -2 ^ 45] &&
        [0, 9, 192, 201].map (fun n => (x.read 3 .rne (x.cell n)).1) == [0x4010, 0x41C0, 0xBE40, 0xC000]) = true := by decide +kernel

/-- "Worked gather": byte 0 of slot s lands at 256 s + 32 (s and 7). -/
theorem test_gather_slots :
    (List.range 8).map (fun s => swizzle 256 (256 * s)) = [0, 0x120, 0x240, 0x360, 0x480, 0x5A0, 0x6C0, 0x7E0] := by decide +kernel

/-- "Worked frame": three entries behind a load that failed at 0x0001_0000. -/
theorem test_frame :
    let c := { base.ctx with
      frame := [⟨.vld 8 7 0 2, 0x10000, 0x2000000, 0, none⟩, ⟨.vaddVx 9 8 5 0, 0x10004, 3, 0, none⟩, ⟨.vst 9 7 0 2, 0x1000C, 0x2000100, 0, none⟩]
      frameVf := true, epcv := 0x10000 }
    let b := c.frameBytes
    b.length = 64 + 48 ∧ field b 0 4 = 0x01030301 ∧ field b 64 4 = 0xB8838002 ∧ field b 68 8 = 0x2000000 ∧ field b 76 4 = 0 ∧
      field b 80 4 = 0x94920A00 ∧ field b 84 8 = 3 ∧ field b 92 4 = 1 ∧ field b 96 4 = 0xBC938002 ∧ field b 100 8 = 0x2000100 ∧
      field b 108 4 = 2 := by decide +kernel

/-- R404: ecall leaves cause 0x0E and epc past it; R372: the handler of sup is at tvec. -/
theorem test_ecall :
    let s := withPriv .app base
    after (exec .ecall { s with ctx := { s.ctx with tvec := 0x4000 } }) (fun t =>
      t.ctx.cause == 0x0E && t.ctx.tval == 0 && t.ctx.epc == s.ctx.pc + 4 && t.ctx.pc == 0x4000 && t.ctx.priv == .sup && t.ctx.tfv) = true := by
  decide +kernel

/-- The first step after `withFetchWord` runs the word placed: addi x5, x0, 7. -/
theorem test_first_step : after (step (State.reset.withFetchWord 32 0x08A00007)) (fun t => t.getX 5 == 7) = true := by decide +kernel

/-- The machine behind the host's interface steps as `step` does. -/
theorem test_core : core.step = step ∧ core.reset = State.reset := ⟨rfl, rfl⟩

end Sys2Proof.Tests
end

