-- ==== Sys2Proof/Tests/Words.lean ====
section
/-! SUPPORT. Every form decodes as the spec's encoding says: each word is written out field by field, from its major to bit 0, with the
match, mask and field places that spec/opcode_table.json gives the row (R38, R39, R51 to R69). -/

namespace Sys2Proof.Tests

set_option Elab.async false

/-- The ALU, immediate, branch and jump words (R51, R52, R113 to R120). -/
theorem test_words_alu : ∀ p ∈ ([

    (0x01#6 ++ 21#5 ++ 19#5 ++ 13#5 ++ 0#11, .add 21 19 13),
    (0x01#6 ++ 21#5 ++ 19#5 ++ 13#5 ++ 1#11, .sub 21 19 13),
    (0x01#6 ++ 21#5 ++ 19#5 ++ 13#5 ++ 2#11, .and 21 19 13),
    (0x01#6 ++ 21#5 ++ 19#5 ++ 13#5 ++ 3#11, .or 21 19 13),
    (0x01#6 ++ 21#5 ++ 19#5 ++ 13#5 ++ 4#11, .xor 21 19 13),
    (0x01#6 ++ 21#5 ++ 19#5 ++ 13#5 ++ 5#11, .sll 21 19 13),
    (0x01#6 ++ 21#5 ++ 19#5 ++ 13#5 ++ 6#11, .srl 21 19 13),
    (0x01#6 ++ 21#5 ++ 19#5 ++ 13#5 ++ 7#11, .sra 21 19 13),
    (0x01#6 ++ 21#5 ++ 19#5 ++ 13#5 ++ 8#11, .slt 21 19 13),
    (0x01#6 ++ 21#5 ++ 19#5 ++ 13#5 ++ 9#11, .sltu 21 19 13),
    (0x01#6 ++ 21#5 ++ 19#5 ++ 13#5 ++ 10#11, .mul 21 19 13),
    (0x01#6 ++ 21#5 ++ 19#5 ++ 13#5 ++ 11#11, .mulh 21 19 13),
    (0x01#6 ++ 21#5 ++ 19#5 ++ 13#5 ++ 12#11, .mulhu 21 19 13),
    (0x01#6 ++ 21#5 ++ 19#5 ++ 13#5 ++ 13#11, .div 21 19 13),
    (0x01#6 ++ 21#5 ++ 19#5 ++ 13#5 ++ 14#11, .divu 21 19 13),
    (0x01#6 ++ 21#5 ++ 19#5 ++ 13#5 ++ 15#11, .rem 21 19 13),
    (0x01#6 ++ 21#5 ++ 19#5 ++ 13#5 ++ 16#11, .remu 21 19 13),
    (0x01#6 ++ 21#5 ++ 19#5 ++ 13#5 ++ 17#11, .min 21 19 13),
    (0x01#6 ++ 21#5 ++ 19#5 ++ 13#5 ++ 18#11, .max 21 19 13),
    (0x01#6 ++ 21#5 ++ 19#5 ++ 13#5 ++ 19#11, .minu 21 19 13),
    (0x01#6 ++ 21#5 ++ 19#5 ++ 13#5 ++ 20#11, .maxu 21 19 13),
    (0x01#6 ++ 21#5 ++ 19#5 ++ 21#16, .clz 21 19),
    (0x01#6 ++ 21#5 ++ 19#5 ++ 22#16, .ctz 21 19),
    (0x01#6 ++ 21#5 ++ 19#5 ++ 23#16, .popc 21 19),
    (0x01#6 ++ 21#5 ++ 19#5 ++ 24#16, .rev8 21 19),
    (0x01#6 ++ 21#5 ++ 19#5 ++ 25#16, .sextB 21 19),
    (0x01#6 ++ 21#5 ++ 19#5 ++ 26#16, .sextH 21 19),
    (0x01#6 ++ 21#5 ++ 19#5 ++ 27#16, .sextW 21 19),
    (0x02#6 ++ 21#5 ++ 19#5 ++ 42435#16, .addi 21 19 42435),
    (0x03#6 ++ 21#5 ++ 19#5 ++ 42435#16, .andi 21 19 42435),
    (0x04#6 ++ 21#5 ++ 19#5 ++ 42435#16, .ori 21 19 42435),
    (0x05#6 ++ 21#5 ++ 19#5 ++ 42435#16, .xori 21 19 42435),
    (0x06#6 ++ 21#5 ++ 19#5 ++ 42435#16, .slti 21 19 42435),
    (0x07#6 ++ 21#5 ++ 19#5 ++ 42435#16, .sltiu 21 19 42435),
    (0x08#6 ++ 21#5 ++ 19#5 ++ 0#10 ++ 45#6, .slli 21 19 45),
    (0x08#6 ++ 21#5 ++ 19#5 ++ 1#10 ++ 45#6, .srli 21 19 45),
    (0x08#6 ++ 21#5 ++ 19#5 ++ 2#10 ++ 45#6, .srai 21 19 45),
    (0x09#6 ++ 21#5 ++ 1727549#21, .lui 21 1727549),
    (0x0A#6 ++ 21#5 ++ 1727549#21, .auipc 21 1727549)] : List (Word32 × Instr)), decode p.1 = .ok p.2 := by decide +kernel

/-- Scalar loads, stores and amos (R52, R53, R230, R233). -/
theorem test_words_memory : ∀ p ∈ ([

    (0x0B#6 ++ 21#5 ++ 19#5 ++ 42435#16, .lb 21 19 42435),
    (0x0C#6 ++ 21#5 ++ 19#5 ++ 42435#16, .lbu 21 19 42435),
    (0x0D#6 ++ 21#5 ++ 19#5 ++ 42435#16, .lh 21 19 42435),
    (0x0E#6 ++ 21#5 ++ 19#5 ++ 42435#16, .lhu 21 19 42435),
    (0x0F#6 ++ 21#5 ++ 19#5 ++ 42435#16, .lw 21 19 42435),
    (0x10#6 ++ 21#5 ++ 19#5 ++ 42435#16, .lwu 21 19 42435),
    (0x11#6 ++ 21#5 ++ 19#5 ++ 42435#16, .ld 21 19 42435),
    (0x12#6 ++ 7#5 ++ 19#5 ++ 42435#16, .sb 7 19 42435),
    (0x13#6 ++ 7#5 ++ 19#5 ++ 42435#16, .sh 7 19 42435),
    (0x14#6 ++ 7#5 ++ 19#5 ++ 42435#16, .sw 7 19 42435),
    (0x15#6 ++ 7#5 ++ 19#5 ++ 42435#16, .sd 7 19 42435),
    (0x16#6 ++ 21#5 ++ 19#5 ++ 13#5 ++ 0#4 ++ 2#2 ++ 3#3 ++ 0#1 ++ 1#1, .amoAdd 21 19 13 2 3 1),
    (0x16#6 ++ 21#5 ++ 19#5 ++ 13#5 ++ 1#4 ++ 2#2 ++ 3#3 ++ 0#1 ++ 1#1, .amoAnd 21 19 13 2 3 1),
    (0x16#6 ++ 21#5 ++ 19#5 ++ 13#5 ++ 2#4 ++ 2#2 ++ 3#3 ++ 0#1 ++ 1#1, .amoOr 21 19 13 2 3 1),
    (0x16#6 ++ 21#5 ++ 19#5 ++ 13#5 ++ 3#4 ++ 2#2 ++ 3#3 ++ 0#1 ++ 1#1, .amoXor 21 19 13 2 3 1),
    (0x16#6 ++ 21#5 ++ 19#5 ++ 13#5 ++ 4#4 ++ 2#2 ++ 3#3 ++ 0#1 ++ 1#1, .amoMin 21 19 13 2 3 1),
    (0x16#6 ++ 21#5 ++ 19#5 ++ 13#5 ++ 5#4 ++ 2#2 ++ 3#3 ++ 0#1 ++ 1#1, .amoMax 21 19 13 2 3 1),
    (0x16#6 ++ 21#5 ++ 19#5 ++ 13#5 ++ 6#4 ++ 2#2 ++ 3#3 ++ 0#1 ++ 1#1, .amoMinu 21 19 13 2 3 1),
    (0x16#6 ++ 21#5 ++ 19#5 ++ 13#5 ++ 7#4 ++ 2#2 ++ 3#3 ++ 0#1 ++ 1#1, .amoMaxu 21 19 13 2 3 1),
    (0x16#6 ++ 21#5 ++ 19#5 ++ 13#5 ++ 8#4 ++ 2#2 ++ 3#3 ++ 0#1 ++ 1#1, .amoSwap 21 19 13 2 3 1),
    (0x16#6 ++ 21#5 ++ 19#5 ++ 13#5 ++ 9#4 ++ 2#2 ++ 3#3 ++ 0#1 ++ 1#1, .amoCas 21 19 13 2 3 1)] : List (Word32 × Instr)), decode p.1 = .ok p.2 := by decide +kernel

/-- Branches, jumps, loop, nest and lend (R54, R118 to R123, R135). -/
theorem test_words_control : ∀ p ∈ ([

    (0x17#6 ++ 19#5 ++ 13#5 ++ 42435#16, .beq 19 13 42435),
    (0x18#6 ++ 19#5 ++ 13#5 ++ 42435#16, .bne 19 13 42435),
    (0x19#6 ++ 19#5 ++ 13#5 ++ 42435#16, .blt 19 13 42435),
    (0x1A#6 ++ 19#5 ++ 13#5 ++ 42435#16, .bge 19 13 42435),
    (0x1B#6 ++ 19#5 ++ 13#5 ++ 42435#16, .bltu 19 13 42435),
    (0x1C#6 ++ 19#5 ++ 13#5 ++ 42435#16, .bgeu 19 13 42435),
    (0x1D#6 ++ 21#5 ++ 1727549#21, .jal 21 1727549),
    (0x1E#6 ++ 21#5 ++ 19#5 ++ 42435#16, .jalr 21 19 42435),
    (0x1F#6 ++ 19#5 ++ 22#5 ++ 0#16, .loop 19 22),
    (0x20#6 ++ 19#5 ++ 22#5 ++ 0#16, .nest 19 22)] : List (Word32 × Instr)), decode p.1 = .ok p.2 := by decide +kernel

/-- Scalar float words, lend and the vector length (R133, R135, R147, R148). -/
theorem test_words_float : ∀ p ∈ ([

    (0x21#6 ++ 21#5 ++ 19#5 ++ 13#5 ++ 0#6 ++ 1#1 ++ 0#4, .fadd 21 19 13 1),
    (0x21#6 ++ 21#5 ++ 19#5 ++ 13#5 ++ 2#6 ++ 1#1 ++ 0#4, .fsub 21 19 13 1),
    (0x21#6 ++ 21#5 ++ 19#5 ++ 13#5 ++ 4#6 ++ 1#1 ++ 0#4, .fmul 21 19 13 1),
    (0x21#6 ++ 21#5 ++ 19#5 ++ 13#5 ++ 6#6 ++ 1#1 ++ 0#4, .fdiv 21 19 13 1),
    (0x21#6 ++ 21#5 ++ 19#5 ++ 8#11 ++ 1#1 ++ 0#4, .fsqrt 21 19 1),
    (0x21#6 ++ 21#5 ++ 19#5 ++ 13#5 ++ 10#6 ++ 1#1 ++ 0#4, .fmin 21 19 13 1),
    (0x21#6 ++ 21#5 ++ 19#5 ++ 13#5 ++ 12#6 ++ 1#1 ++ 0#4, .fmax 21 19 13 1),
    (0x21#6 ++ 21#5 ++ 19#5 ++ 13#5 ++ 14#6 ++ 1#1 ++ 0#4, .feq 21 19 13 1),
    (0x21#6 ++ 21#5 ++ 19#5 ++ 13#5 ++ 16#6 ++ 1#1 ++ 0#4, .flt 21 19 13 1),
    (0x21#6 ++ 21#5 ++ 19#5 ++ 13#5 ++ 18#6 ++ 1#1 ++ 0#4, .fle 21 19 13 1),
    (0x21#6 ++ 21#5 ++ 19#5 ++ 20#11 ++ 1#1 ++ 8#4, .fcvt 21 19 1 8),
    (0x21#6 ++ 21#5 ++ 19#5 ++ 22#11 ++ 1#1 ++ 0#4, .fclass 21 19 1),
    (0x21#6 ++ 21#5 ++ 19#5 ++ 13#5 ++ 24#6 ++ 1#1 ++ 0#4, .fsgnj 21 19 13 1),
    (0x21#6 ++ 21#5 ++ 19#5 ++ 13#5 ++ 24#6 ++ 1#1 ++ 1#4, .fsgnjn 21 19 13 1),
    (0x21#6 ++ 21#5 ++ 19#5 ++ 13#5 ++ 24#6 ++ 1#1 ++ 2#4, .fsgnjx 21 19 13 1),
    (0x22#6 ++ 1#1 ++ 0#1 ++ 17#5 ++ 35#6 ++ 1#1 ++ 0#12, .lend 1 0 17 35 1),
    (0x23#6 ++ 21#5 ++ 19#5 ++ 0#7 ++ 4#3 ++ 2#2 ++ 0#4, .vsetvl 21 19 4 2),
    (0x23#6 ++ 0#2 ++ 5#3 ++ 1#21, .vgetvl 5)] : List (Word32 × Instr)), decode p.1 = .ok p.2 := by decide +kernel

/-- Vector integer words (R149, R150, R158). -/
theorem test_words_integer : ∀ p ∈ ([

    (0x24#6 ++ 22#6 ++ 26#6 ++ 12#6 ++ 1#1 ++ 0#7, .vadd 22 26 12 1),
    (0x24#6 ++ 22#6 ++ 26#6 ++ 12#6 ++ 1#1 ++ 1#7, .vsub 22 26 12 1),
    (0x24#6 ++ 22#6 ++ 26#6 ++ 12#6 ++ 1#1 ++ 2#7, .vmul 22 26 12 1),
    (0x24#6 ++ 22#6 ++ 26#6 ++ 12#6 ++ 1#1 ++ 1#1 ++ 3#6, .vmulh 22 26 12 1 1),
    (0x24#6 ++ 22#6 ++ 26#6 ++ 12#6 ++ 1#1 ++ 1#1 ++ 4#6, .vdiv 22 26 12 1 1),
    (0x24#6 ++ 22#6 ++ 26#6 ++ 12#6 ++ 1#1 ++ 1#1 ++ 5#6, .vrem 22 26 12 1 1),
    (0x24#6 ++ 22#6 ++ 26#6 ++ 12#6 ++ 1#1 ++ 1#1 ++ 6#6, .vmin 22 26 12 1 1),
    (0x24#6 ++ 22#6 ++ 26#6 ++ 12#6 ++ 1#1 ++ 1#1 ++ 7#6, .vmax 22 26 12 1 1),
    (0x24#6 ++ 22#6 ++ 26#6 ++ 12#6 ++ 1#1 ++ 8#7, .vand 22 26 12 1),
    (0x24#6 ++ 22#6 ++ 26#6 ++ 12#6 ++ 1#1 ++ 9#7, .vor 22 26 12 1),
    (0x24#6 ++ 22#6 ++ 26#6 ++ 12#6 ++ 1#1 ++ 10#7, .vxor 22 26 12 1),
    (0x24#6 ++ 22#6 ++ 26#6 ++ 12#6 ++ 1#1 ++ 11#7, .vsll 22 26 12 1),
    (0x24#6 ++ 22#6 ++ 26#6 ++ 12#6 ++ 1#1 ++ 12#7, .vsrl 22 26 12 1),
    (0x24#6 ++ 22#6 ++ 26#6 ++ 12#6 ++ 1#1 ++ 13#7, .vsra 22 26 12 1),
    (0x24#6 ++ 22#6 ++ 26#6 ++ 12#6 ++ 1#1 ++ 14#7, .vseq 22 26 12 1),
    (0x24#6 ++ 22#6 ++ 26#6 ++ 12#6 ++ 1#1 ++ 15#7, .vsne 22 26 12 1),
    (0x24#6 ++ 22#6 ++ 26#6 ++ 12#6 ++ 1#1 ++ 1#1 ++ 16#6, .vslt 22 26 12 1 1),
    (0x24#6 ++ 22#6 ++ 26#6 ++ 12#6 ++ 1#1 ++ 1#1 ++ 17#6, .vsle 22 26 12 1 1),
    (0x24#6 ++ 22#6 ++ 26#6 ++ 12#6 ++ 18#8, .vsel 22 26 12),
    (0x24#6 ++ 22#6 ++ 26#6 ++ 0#6 ++ 1#1 ++ 19#7, .vmv 22 26 1),
    (0x24#6 ++ 22#6 ++ 26#6 ++ 0#6 ++ 1#1 ++ 20#7, .vpopc 22 26 1),
    (0x24#6 ++ 22#6 ++ 26#6 ++ 12#6 ++ 1#1 ++ 21#7, .vxorpop 22 26 12 1),
    (0x24#6 ++ 22#6 ++ 26#6 ++ 0#6 ++ 1#1 ++ 22#7, .vclz 22 26 1),
    (0x24#6 ++ 22#6 ++ 26#6 ++ 0#6 ++ 1#1 ++ 24#7, .vrecAdd 22 26 1),
    (0x24#6 ++ 22#6 ++ 26#6 ++ 0#6 ++ 1#1 ++ 1#1 ++ 25#6, .vrecMax 22 26 1 1),
    (0x24#6 ++ 22#6 ++ 26#6 ++ 12#6 ++ 1#1 ++ 26#7, .vrecLin 22 26 12 1)] : List (Word32 × Instr)), decode p.1 = .ok p.2 := by decide +kernel

/-- Vector integer words with a scalar (R149, R159, R161). -/
theorem test_words_scalar_operand : ∀ p ∈ ([

    (0x25#6 ++ 22#6 ++ 26#6 ++ 13#5 ++ 1#1 ++ 0#8, .vaddVx 22 26 13 1),
    (0x25#6 ++ 22#6 ++ 26#6 ++ 13#5 ++ 1#1 ++ 1#8, .vsubVx 22 26 13 1),
    (0x25#6 ++ 22#6 ++ 26#6 ++ 13#5 ++ 1#1 ++ 2#8, .vmulVx 22 26 13 1),
    (0x25#6 ++ 22#6 ++ 26#6 ++ 13#5 ++ 1#1 ++ 0#1 ++ 1#1 ++ 3#6, .vmulhVx 22 26 13 1 1),
    (0x25#6 ++ 22#6 ++ 26#6 ++ 13#5 ++ 1#1 ++ 0#1 ++ 1#1 ++ 4#6, .vdivVx 22 26 13 1 1),
    (0x25#6 ++ 22#6 ++ 26#6 ++ 13#5 ++ 1#1 ++ 0#1 ++ 1#1 ++ 5#6, .vremVx 22 26 13 1 1),
    (0x25#6 ++ 22#6 ++ 26#6 ++ 13#5 ++ 1#1 ++ 0#1 ++ 1#1 ++ 6#6, .vminVx 22 26 13 1 1),
    (0x25#6 ++ 22#6 ++ 26#6 ++ 13#5 ++ 1#1 ++ 0#1 ++ 1#1 ++ 7#6, .vmaxVx 22 26 13 1 1),
    (0x25#6 ++ 22#6 ++ 26#6 ++ 13#5 ++ 1#1 ++ 8#8, .vandVx 22 26 13 1),
    (0x25#6 ++ 22#6 ++ 26#6 ++ 13#5 ++ 1#1 ++ 9#8, .vorVx 22 26 13 1),
    (0x25#6 ++ 22#6 ++ 26#6 ++ 13#5 ++ 1#1 ++ 10#8, .vxorVx 22 26 13 1),
    (0x25#6 ++ 22#6 ++ 26#6 ++ 13#5 ++ 1#1 ++ 11#8, .vsllVx 22 26 13 1),
    (0x25#6 ++ 22#6 ++ 26#6 ++ 13#5 ++ 1#1 ++ 12#8, .vsrlVx 22 26 13 1),
    (0x25#6 ++ 22#6 ++ 26#6 ++ 13#5 ++ 1#1 ++ 13#8, .vsraVx 22 26 13 1),
    (0x25#6 ++ 22#6 ++ 26#6 ++ 13#5 ++ 1#1 ++ 14#8, .vseqVx 22 26 13 1),
    (0x25#6 ++ 22#6 ++ 26#6 ++ 13#5 ++ 1#1 ++ 15#8, .vsneVx 22 26 13 1),
    (0x25#6 ++ 22#6 ++ 26#6 ++ 13#5 ++ 1#1 ++ 0#1 ++ 1#1 ++ 16#6, .vsltVx 22 26 13 1 1),
    (0x25#6 ++ 22#6 ++ 26#6 ++ 13#5 ++ 1#1 ++ 0#1 ++ 1#1 ++ 17#6, .vsleVx 22 26 13 1 1),
    (0x25#6 ++ 22#6 ++ 0#6 ++ 13#5 ++ 1#1 ++ 19#8, .vbcast 22 13 1),
    (0x25#6 ++ 0#12 ++ 13#5 ++ 27#9, .vclset 13),
    (0x25#6 ++ 22#6 ++ 0#6 ++ 13#5 ++ 1#1 ++ 28#8, .vidxs 22 13 1)] : List (Word32 × Instr)), decode p.1 = .ok p.2 := by decide +kernel

/-- Vector float words (R151, R152). -/
theorem test_words_vector_float : ∀ p ∈ ([

    (0x26#6 ++ 22#6 ++ 26#6 ++ 12#6 ++ 1#1 ++ 1#1 ++ 0#6, .vfadd 22 26 12 1 1),
    (0x26#6 ++ 22#6 ++ 26#6 ++ 12#6 ++ 1#1 ++ 1#1 ++ 1#6, .vfsub 22 26 12 1 1),
    (0x26#6 ++ 22#6 ++ 26#6 ++ 12#6 ++ 1#1 ++ 1#1 ++ 2#6, .vfmul 22 26 12 1 1),
    (0x26#6 ++ 22#6 ++ 26#6 ++ 12#6 ++ 1#1 ++ 1#1 ++ 3#6, .vfdiv 22 26 12 1 1),
    (0x26#6 ++ 22#6 ++ 26#6 ++ 0#6 ++ 1#1 ++ 1#1 ++ 4#6, .vfsqrt 22 26 1 1),
    (0x26#6 ++ 22#6 ++ 26#6 ++ 12#6 ++ 1#1 ++ 1#1 ++ 5#6, .vfmadd 22 26 12 1 1),
    (0x26#6 ++ 22#6 ++ 26#6 ++ 12#6 ++ 1#1 ++ 1#1 ++ 6#6, .vfmin 22 26 12 1 1),
    (0x26#6 ++ 22#6 ++ 26#6 ++ 12#6 ++ 1#1 ++ 1#1 ++ 7#6, .vfmax 22 26 12 1 1),
    (0x26#6 ++ 22#6 ++ 26#6 ++ 12#6 ++ 1#1 ++ 1#1 ++ 8#6, .vfeq 22 26 12 1 1),
    (0x26#6 ++ 22#6 ++ 26#6 ++ 12#6 ++ 1#1 ++ 1#1 ++ 9#6, .vflt 22 26 12 1 1),
    (0x26#6 ++ 22#6 ++ 26#6 ++ 12#6 ++ 1#1 ++ 1#1 ++ 10#6, .vfle 22 26 12 1 1),
    (0x26#6 ++ 22#6 ++ 26#6 ++ 0#6 ++ 1#1 ++ 1#1 ++ 11#6, .vfexp2 22 26 1 1),
    (0x26#6 ++ 22#6 ++ 26#6 ++ 5#6 ++ 1#1 ++ 12#7, .vfcvt 22 26 5 1),
    (0x26#6 ++ 22#6 ++ 26#6 ++ 0#6 ++ 1#1 ++ 1#1 ++ 13#6, .vfclass 22 26 1 1),
    (0x27#6 ++ 22#6 ++ 26#6 ++ 13#5 ++ 1#1 ++ 0#1 ++ 1#1 ++ 0#6, .vfaddVf 22 26 13 1 1),
    (0x27#6 ++ 22#6 ++ 26#6 ++ 13#5 ++ 1#1 ++ 0#1 ++ 1#1 ++ 1#6, .vfsubVf 22 26 13 1 1),
    (0x27#6 ++ 22#6 ++ 26#6 ++ 13#5 ++ 1#1 ++ 0#1 ++ 1#1 ++ 2#6, .vfmulVf 22 26 13 1 1),
    (0x27#6 ++ 22#6 ++ 26#6 ++ 13#5 ++ 1#1 ++ 0#1 ++ 1#1 ++ 3#6, .vfdivVf 22 26 13 1 1),
    (0x27#6 ++ 22#6 ++ 26#6 ++ 13#5 ++ 1#1 ++ 0#1 ++ 1#1 ++ 5#6, .vfmaddVf 22 26 13 1 1),
    (0x27#6 ++ 22#6 ++ 26#6 ++ 13#5 ++ 1#1 ++ 0#1 ++ 1#1 ++ 6#6, .vfminVf 22 26 13 1 1),
    (0x27#6 ++ 22#6 ++ 26#6 ++ 13#5 ++ 1#1 ++ 0#1 ++ 1#1 ++ 7#6, .vfmaxVf 22 26 13 1 1),
    (0x27#6 ++ 22#6 ++ 26#6 ++ 13#5 ++ 1#1 ++ 0#1 ++ 1#1 ++ 8#6, .vfeqVf 22 26 13 1 1),
    (0x27#6 ++ 22#6 ++ 26#6 ++ 13#5 ++ 1#1 ++ 0#1 ++ 1#1 ++ 9#6, .vfltVf 22 26 13 1 1),
    (0x27#6 ++ 22#6 ++ 26#6 ++ 13#5 ++ 1#1 ++ 0#1 ++ 1#1 ++ 10#6, .vfleVf 22 26 13 1 1)] : List (Word32 × Instr)), decode p.1 = .ok p.2 := by decide +kernel

/-- Fixed-point, transform, permutation, reduction and mask words (R153 to R165). -/
theorem test_words_fixed : ∀ p ∈ ([

    (0x28#6 ++ 22#6 ++ 26#6 ++ 12#6 ++ 1#1 ++ 1#1 ++ 0#6, .vwmul 22 26 12 1 1),
    (0x28#6 ++ 22#6 ++ 26#6 ++ 12#6 ++ 1#1 ++ 1#1 ++ 1#6, .vwmacc 22 26 12 1 1),
    (0x28#6 ++ 22#6 ++ 26#6 ++ 12#6 ++ 1#1 ++ 1#1 ++ 2#6, .vwadd 22 26 12 1 1),
    (0x28#6 ++ 22#6 ++ 26#6 ++ 12#6 ++ 1#1 ++ 1#1 ++ 3#6, .vnclip 22 26 12 1 1),
    (0x28#6 ++ 22#6 ++ 26#6 ++ 12#6 ++ 1#1 ++ 1#1 ++ 4#6, .vsadd 22 26 12 1 1),
    (0x28#6 ++ 22#6 ++ 26#6 ++ 12#6 ++ 1#1 ++ 1#1 ++ 5#6, .vssub 22 26 12 1 1),
    (0x28#6 ++ 22#6 ++ 26#6 ++ 12#6 ++ 1#1 ++ 1#1 ++ 6#6, .vaadd 22 26 12 1 1),
    (0x29#6 ++ 22#6 ++ 26#6 ++ 5#6 ++ 1#1 ++ 0#7, .vhad 22 26 5 1),
    (0x29#6 ++ 0#6 ++ 26#6 ++ 5#6 ++ 1#1 ++ 1#7, .vhadC 26 5 1),
    (0x29#6 ++ 22#6 ++ 26#6 ++ 0#4 ++ 2#2 ++ 1#1 ++ 1#4 ++ 3#3, .vqnt 22 26 2 1 3),
    (0x29#6 ++ 22#6 ++ 26#6 ++ 0#4 ++ 2#2 ++ 1#1 ++ 2#4 ++ 3#3, .vdqnt 22 26 2 1 3),
    (0x29#6 ++ 22#6 ++ 0#10 ++ 2#2 ++ 1#1 ++ 3#4 ++ 3#3, .vqntC 22 2 1 3),
    (0x29#6 ++ 22#6 ++ 0#1 ++ 17#5 ++ 0#1 ++ 9#5 ++ 1#1 ++ 32#7, .vrand 22 17 9 1),
    (0x2A#6 ++ 22#6 ++ 26#6 ++ 0#1 ++ 13#5 ++ 1#1 ++ 0#7, .vslideup 22 26 13 1),
    (0x2A#6 ++ 22#6 ++ 26#6 ++ 0#1 ++ 13#5 ++ 1#1 ++ 1#7, .vslidedn 22 26 13 1),
    (0x2A#6 ++ 22#6 ++ 26#6 ++ 12#6 ++ 1#1 ++ 2#7, .vperm 22 26 12 1),
    (0x2A#6 ++ 22#6 ++ 26#6 ++ 12#6 ++ 1#1 ++ 3#7, .vzip 22 26 12 1),
    (0x2A#6 ++ 22#6 ++ 26#6 ++ 0#6 ++ 1#1 ++ 4#7, .vunzip 22 26 1),
    (0x2A#6 ++ 22#6 ++ 26#6 ++ 0#6 ++ 1#1 ++ 5#7, .vcmprs 22 26 1),
    (0x2A#6 ++ 22#6 ++ 26#6 ++ 0#6 ++ 1#1 ++ 6#7, .vexpand 22 26 1),
    (0x2B#6 ++ 0#3 ++ 5#3 ++ 26#6 ++ 0#6 ++ 1#1 ++ 1#1 ++ 0#6, .vredsum 5 26 1 1),
    (0x2B#6 ++ 0#3 ++ 5#3 ++ 26#6 ++ 0#6 ++ 1#1 ++ 1#1 ++ 1#6, .vredmax 5 26 1 1),
    (0x2B#6 ++ 0#3 ++ 5#3 ++ 26#6 ++ 0#6 ++ 1#1 ++ 1#1 ++ 2#6, .vredmin 5 26 1 1),
    (0x2B#6 ++ 0#3 ++ 5#3 ++ 26#6 ++ 0#6 ++ 1#1 ++ 3#7, .vredand 5 26 1),
    (0x2B#6 ++ 0#3 ++ 5#3 ++ 26#6 ++ 0#6 ++ 1#1 ++ 4#7, .vredor 5 26 1),
    (0x2B#6 ++ 0#3 ++ 5#3 ++ 26#6 ++ 0#6 ++ 1#1 ++ 1#1 ++ 5#6, .vfredsum 5 26 1 1),
    (0x2C#6 ++ 22#6 ++ 26#6 ++ 12#6 ++ 1#1 ++ 0#7, .vmand 22 26 12 1),
    (0x2C#6 ++ 22#6 ++ 26#6 ++ 12#6 ++ 1#1 ++ 1#7, .vmor 22 26 12 1),
    (0x2C#6 ++ 22#6 ++ 26#6 ++ 12#6 ++ 1#1 ++ 2#7, .vmxor 22 26 12 1),
    (0x2C#6 ++ 22#6 ++ 26#6 ++ 0#6 ++ 1#1 ++ 3#7, .vmnot 22 26 1),
    (0x2C#6 ++ 0#3 ++ 5#3 ++ 26#6 ++ 0#6 ++ 1#1 ++ 4#7, .vfirst 5 26 1),
    (0x2C#6 ++ 0#3 ++ 5#3 ++ 26#6 ++ 0#6 ++ 1#1 ++ 5#7, .vcount 5 26 1),
    (0x2D#6 ++ 22#6 ++ 677#10 ++ 316#10, .vidx 22 677 316)] : List (Word32 × Instr)), decode p.1 = .ok p.2 := by decide +kernel

/-- Vector loads and stores (R236 to R243). -/
theorem test_words_vector_memory : ∀ p ∈ ([

    (0x2E#6 ++ 22#6 ++ 19#5 ++ 0#6 ++ 1#1 ++ 0#6 ++ 2#2, .vld 22 19 1 2),
    (0x2E#6 ++ 22#6 ++ 19#5 ++ 0#1 ++ 13#5 ++ 1#1 ++ 8#6 ++ 2#2, .vldStrided 22 19 13 1 2),
    (0x2E#6 ++ 22#6 ++ 19#5 ++ 51#6 ++ 1#1 ++ 16#6 ++ 2#2, .vldIndexed 22 19 51 1 2),
    (0x2E#6 ++ 22#6 ++ 19#5 ++ 0#6 ++ 1#1 ++ 3#3 ++ 5#3 ++ 2#2, .vldSeg 22 19 1 5 2),
    (0x2E#6 ++ 22#6 ++ 19#5 ++ 0#6 ++ 1#1 ++ 32#6 ++ 2#2, .vldF 22 19 1 2),
    (0x2E#6 ++ 22#6 ++ 19#5 ++ 0#6 ++ 1#1 ++ 5#3 ++ 5#3 ++ 2#2, .vldFSeg 22 19 1 5 2),
    (0x2E#6 ++ 22#6 ++ 19#5 ++ 51#6 ++ 1#1 ++ 6#3 ++ 5#3 ++ 2#2, .vldSegIndexed 22 19 51 1 5 2),
    (0x2F#6 ++ 40#6 ++ 19#5 ++ 0#6 ++ 1#1 ++ 0#6 ++ 2#2, .vst 40 19 1 2),
    (0x2F#6 ++ 40#6 ++ 19#5 ++ 0#1 ++ 13#5 ++ 1#1 ++ 8#6 ++ 2#2, .vstStrided 40 19 13 1 2),
    (0x2F#6 ++ 40#6 ++ 19#5 ++ 51#6 ++ 1#1 ++ 16#6 ++ 2#2, .vstIndexed 40 19 51 1 2),
    (0x2F#6 ++ 40#6 ++ 19#5 ++ 0#6 ++ 1#1 ++ 3#3 ++ 5#3 ++ 2#2, .vstSeg 40 19 1 5 2),
    (0x2F#6 ++ 40#6 ++ 19#5 ++ 0#6 ++ 1#1 ++ 32#6 ++ 2#2, .vstN 40 19 1 2),
    (0x2F#6 ++ 40#6 ++ 19#5 ++ 0#6 ++ 1#1 ++ 5#3 ++ 5#3 ++ 2#2, .vstNSeg 40 19 1 5 2),
    (0x2F#6 ++ 40#6 ++ 19#5 ++ 51#6 ++ 1#1 ++ 48#6 ++ 2#2, .vstNIndexed 40 19 51 1 2)] : List (Word32 × Instr)), decode p.1 = .ok p.2 := by decide +kernel

/-- Sorted words (R172 to R187). -/
theorem test_words_sorted : ∀ p ∈ ([

    (0x30#6 ++ 22#6 ++ 26#6 ++ 0#4 ++ 1#1 ++ 1#1 ++ 0#5 ++ 5#3, .vsort 22 26 1 1 5),
    (0x30#6 ++ 22#6 ++ 26#6 ++ 12#6 ++ 1#5 ++ 5#3, .vmrg 22 26 12 5),
    (0x30#6 ++ 0#3 ++ 5#3 ++ 26#6 ++ 12#6 ++ 2#5 ++ 5#3, .vmrgc 5 26 12 5),
    (0x30#6 ++ 22#6 ++ 26#6 ++ 12#6 ++ 3#5 ++ 5#3, .visec 22 26 12 5),
    (0x30#6 ++ 22#6 ++ 26#6 ++ 4#11 ++ 5#3, .vuniq 22 26 5),
    (0x30#6 ++ 22#6 ++ 26#6 ++ 12#6 ++ 5#5 ++ 5#3, .vrank 22 26 12 5),
    (0x30#6 ++ 22#6 ++ 26#6 ++ 12#6 ++ 6#5 ++ 5#3, .vrankLe 22 26 12 5),
    (0x30#6 ++ 22#6 ++ 26#6 ++ 0#1 ++ 13#5 ++ 7#5 ++ 5#3, .vpart 22 26 13 5),
    (0x30#6 ++ 22#6 ++ 26#6 ++ 0#1 ++ 13#5 ++ 8#5 ++ 5#3, .vtopk 22 26 13 5),
    (0x30#6 ++ 22#6 ++ 26#6 ++ 9#11 ++ 5#3, .vcmpt 22 26 5),
    (0x30#6 ++ 0#6 ++ 26#6 ++ 0#5 ++ 1#1 ++ 10#5 ++ 5#3, .vchks 26 1 5),
    (0x30#6 ++ 0#3 ++ 5#3 ++ 26#6 ++ 88#14, .vfacet 5 26)] : List (Word32 × Instr)), decode p.1 = .ok p.2 := by decide +kernel

/-- Tile words (R192 to R210). -/
theorem test_words_tile : ∀ p ∈ ([

    (0x31#6 ++ 2#2 ++ 26#6 ++ 12#6 ++ 1#1 ++ 6#4 ++ 0#7, .mopa 2 26 12 1 6),
    (0x31#6 ++ 2#2 ++ 26#6 ++ 12#6 ++ 1#1 ++ 6#4 ++ 1#7, .mopaS 2 26 12 1 6),
    (0x31#6 ++ 2#2 ++ 26#6 ++ 0#1 ++ 11#5 ++ 1#1 ++ 4#4 ++ 2#7, .mopaW 2 26 11 1 4),
    (0x31#6 ++ 2#2 ++ 26#6 ++ 0#1 ++ 7#5 ++ 0#1 ++ 4#4 ++ 4#7, .mopaGr 2 26 7 4),
    (0x32#6 ++ 2#2 ++ 0#24, .tzero 2),
    (0x32#6 ++ 2#2 ++ 0#7 ++ 19#5 ++ 1#12, .tanchor 2 19),
    (0x32#6 ++ 2#2 ++ 0#13 ++ 7#4 ++ 2#7, .tres 2 7),
    (0x32#6 ++ 2#2 ++ 22#6 ++ 0#1 ++ 11#5 ++ 0#1 ++ 7#4 ++ 3#7, .tmovr 2 22 11 7),
    (0x32#6 ++ 2#2 ++ 26#6 ++ 0#1 ++ 11#5 ++ 0#1 ++ 7#4 ++ 4#7, .tmovw 2 26 11 7),
    (0x32#6 ++ 2#2 ++ 0#7 ++ 19#5 ++ 5#12, .tldRaw 2 19),
    (0x32#6 ++ 2#2 ++ 0#7 ++ 19#5 ++ 0#1 ++ 6#4 ++ 6#7, .tldCan 2 19 6),
    (0x32#6 ++ 2#2 ++ 0#7 ++ 19#5 ++ 7#12, .tstRaw 2 19),
    (0x32#6 ++ 2#2 ++ 0#7 ++ 19#5 ++ 0#1 ++ 6#4 ++ 8#7, .tstCan 2 19 6),
    (0x32#6 ++ 2#2 ++ 0#7 ++ 19#5 ++ 9#12, .cbld 2 19)] : List (Word32 × Instr)), decode p.1 = .ok p.2 := by decide +kernel

/-- QUE and SYNC words (R244 to R253). -/
theorem test_words_queue : ∀ p ∈ ([

    (0x33#6 ++ 9#4 ++ 0#1 ++ 7#5 ++ 0#16, .qpush 9 7),
    (0x33#6 ++ 9#4 ++ 0#1 ++ 21#5 ++ 32#16, .qpop 9 21),
    (0x33#6 ++ 9#4 ++ 0#6 ++ 6#4 ++ 64#12, .qstat 9 6),
    (0x33#6 ++ 0#10 ++ 6#4 ++ 3#7 ++ 19#5, .copy 6 19),
    (0x33#6 ++ 1#5 ++ 17#5 ++ 6#4 ++ 4#7 ++ 19#5, .vgthr 17 6 19),
    (0x33#6 ++ 0#10 ++ 6#4 ++ 160#12, .drain 6),
    (0x34#6 ++ 0#21 ++ 4#3 ++ 2#2, .fence 4 2),
    (0x34#6 ++ 1048576#26, .vlsync),
    (0x34#6 ++ 2097152#26, .vfenceD),
    (0x34#6 ++ 3#6 ++ 19#5 ++ 13#5 ++ 0#9 ++ 1#1, .waitge 19 13 1),
    (0x34#6 ++ 4#6 ++ 19#5 ++ 13#5 ++ 0#9 ++ 1#1, .waiteq 19 13 1)] : List (Word32 × Instr)), decode p.1 = .ok p.2 := by decide +kernel

/-- SCHED words (R329). -/
theorem test_words_sched : ∀ p ∈ ([

    (0x35#6 ++ 0#6 ++ 19#5 ++ 0#5 ++ 21#5 ++ 0#5, .launch 19 21),
    (0x35#6 ++ 0#6 ++ 19#5 ++ 13#5 ++ 21#5 ++ 1#5, .launchNode 19 13 21),
    (0x35#6 ++ 1#6 ++ 19#5 ++ 0#5 ++ 21#5 ++ 0#5, .cancel 19 21),
    (0x35#6 ++ 2#6 ++ 19#5 ++ 0#5 ++ 21#5 ++ 0#5, .cread 19 21),
    (0x35#6 ++ 2#6 ++ 19#5 ++ 0#5 ++ 21#5 ++ 1#5, .creadT 19 21),
    (0x35#6 ++ 3145728#26, .uend),
    (0x35#6 ++ 4194304#26, .yield),
    (0x35#6 ++ 5#6 ++ 19#5 ++ 0#5 ++ 21#5 ++ 0#5, .clasp 19 21),
    (0x35#6 ++ 5#6 ++ 19#5 ++ 13#5 ++ 21#5 ++ 1#5, .claspCfg 19 13 21),
    (0x35#6 ++ 6#6 ++ 19#5 ++ 0#7 ++ 5#3 ++ 0#5, .clarr 19 5),
    (0x35#6 ++ 7#6 ++ 19#5 ++ 13#5 ++ 0#10, .clwait 19 13),
    (0x35#6 ++ 8#6 ++ 19#5 ++ 13#5 ++ 21#5 ++ 0#5, .grant 19 13 21)] : List (Word32 × Instr)), decode p.1 = .ok p.2 := by decide +kernel

/-- SYS words and hint (R70, R396, R404 to R411). -/
theorem test_words_system : ∀ p ∈ ([

    (0x36#6 ++ 21#5 ++ 0#5 ++ 257#12 ++ 0#4, .csrr 21 257),
    (0x36#6 ++ 0#5 ++ 19#5 ++ 257#12 ++ 1#4, .csrw 19 257),
    (0x36#6 ++ 0#5 ++ 19#5 ++ 257#12 ++ 2#4, .csrs 19 257),
    (0x36#6 ++ 0#5 ++ 19#5 ++ 257#12 ++ 3#4, .csrc 19 257),
    (0x36#6 ++ 4#26, .ecall),
    (0x36#6 ++ 5#26, .ebrk),
    (0x36#6 ++ 6#26, .eret),
    (0x36#6 ++ 0#5 ++ 19#5 ++ 7#16, .ctxsave 19),
    (0x36#6 ++ 0#5 ++ 19#5 ++ 8#16, .ctxrst 19),
    (0x36#6 ++ 21#5 ++ 19#5 ++ 9#16, .tlbinv 21 19),
    (0x36#6 ++ 21#5 ++ 19#5 ++ 10#16, .placew 21 19),
    (0x36#6 ++ 0#5 ++ 19#5 ++ 0#6 ++ 51#6 ++ 11#4, .vfset 19 51),
    (0x36#6 ++ 12#26, .snap),
    (0x36#6 ++ 13#26, .wfi),
    (0x3F#6 ++ 44418001#26, .hint 44418001)] : List (Word32 × Instr)), decode p.1 = .ok p.2 := by decide +kernel

end Sys2Proof.Tests
end

