-- ==== Sys2Proof/Tests/Slice0.lean ====
section
/-! SUPPORT. Tests: ill-formed instructions that the checks refuse, and reserved words (R42 to R44). -/

namespace Sys2Proof.Tests

set_option Elab.async false

/-! ## Ill-formed instructions, one for each check -/

/-- R44: a mask needs a destination other than v0. -/
theorem test_bad_masked_v0 : ∀ i ∈ ([.vadd 0 1 2 1, .vfcvt 0 1 0 1, .vhad 0 1 2 1, .vqnt 0 1 0 1 0, .vldSeg 0 3 1 1 0,
    .vwmul 0 2 4 1 0, .vunzip 0 2 1, .vnclip 0 2 4 1 0] : List Instr), i.wellFormed = false := by decide

/-- R44: a register pair starts at an even number. -/
theorem test_bad_odd_pair : ∀ i ∈ ([.vwmul 5 2 4 0 0, .vzip 7 1 2 0, .vnclip 4 3 2 0 1, .vunzip 3 2 0, .vunzip 2 3 0, .vmrg 5 2 4 0,
    .vmrg 62 2 4 0, .vpart 9 2 4 0, .mopa 0 2 3 0 5, .mopaS 0 2 3 0 6] : List Instr), i.wellFormed = false := by decide

/-- R34, R172: a register with a payload partner is one of v2 to v31. -/
theorem test_bad_partner : ∀ i ∈ ([.vsort 32 2 1 0 0, .vsort 2 1 1 0 0, .vtopk 40 2 3 0, .vcmpt 0 2 0, .mopaGr 0 33 3 0] : List Instr),
    i.wellFormed = false := by decide

/-- R53, R147, R233: a scale or scope above 4. -/
theorem test_bad_scope : ∀ i ∈ ([.amoAdd 1 2 3 0 5 0, .amoCas 1 2 3 0 7 1, .vsetvl 1 2 5 0, .fence 5 0] : List Instr),
    i.wellFormed = false := by decide

/-- R122, R135, R133, R152, R162, R163, R245: codes and registers that one form reserves. -/
theorem test_bad_codes : ∀ i ∈ ([.loop 0 3, .nest 0 3, .lend 0 1 4 0 0, .lend 0 0 4 7 0, .fcvt 1 2 0 9, .vfcvt 2 4 6 0, .vhad 2 4 6 0,
    .vhadC 4 6 0, .vqnt 2 4 0 0 5, .vqnt 2 4 1 0 2, .vqntC 2 3 0 4, .fence 0 3, .clasp 3 0] : List Instr), i.wellFormed = false := by decide

/-- R236, R237: a segment form has 2 to 8 fields, in registers that exist. -/
theorem test_bad_segments : ∀ i ∈ ([.vldSeg 2 3 0 0 0, .vldFSeg 62 3 0 2 0, .vldSegIndexed 60 3 4 0 7 1, .vstSeg 2 3 0 0 0,
    .vstNSeg 63 3 0 1 0] : List Instr), i.wellFormed = false := by decide

/-- R167, R172: key type 7 is reserved. -/
theorem test_bad_key_type : ∀ i ∈ ([.vsort 2 3 0 0 7, .vmrg 2 4 6 7, .vmrgc 1 4 6 7, .visec 2 4 6 7, .vuniq 2 4 7, .vrank 2 4 6 7,
    .vrankLe 2 4 6 7, .vpart 2 4 6 7, .vtopk 2 4 6 7, .vcmpt 2 4 7, .vchks 4 0 7] : List Instr), i.wellFormed = false := by decide

/-- R193: the formats that each tile word takes. -/
theorem test_bad_formats : ∀ i ∈ ([.mopa 0 2 4 0 7, .mopaS 0 2 4 0 2, .mopaW 0 2 4 0 2, .mopaGr 0 2 4 2, .mopaGr 0 2 4 5, .tres 0 2,
    .tmovr 0 2 3 8, .tmovw 0 2 3 0, .tldCan 0 3 7, .tstCan 0 3 9] : List Instr), i.wellFormed = false := by decide

/-- R250, R66: a queue in the place of a channel, and the reverse. -/
theorem test_bad_channel : ∀ i ∈ ([.qstat 1 8, .copy 9 3, .vgthr 2 8 3, .drain 15] : List Instr), i.wellFormed = false := by decide

/-- R397, R398: a CSR that is not listed, or that no word writes. -/
theorem test_bad_csr : ∀ i ∈ ([.csrr 1 0x00D, .csrw 1 0x000, .csrs 1 0x010, .csrc 1 0x7FF] : List Instr), i.wellFormed = false := by decide

/-- An event is no word. -/
theorem test_event_is_no_word : ∀ i ∈ ([.waitSatisfied 0, .illegalWord 0 .op, .reset 0, .snapshotComplete] : List Instr),
    i.wellFormed = false := by decide

/-- R38, R43: unassigned majors and functions, a fixed zero that is not zero, and field and register constraints, are refused by kind;
snap and its like report PRIV below their level. -/
theorem test_refused_words :
    decode 0x00000000 = .error .op ∧ decode 0x04000020 = .error .op ∧ decode (0x01#6 ++ 3#5 ++ 4#5 ++ 5#5 ++ 0x400#11) = .error .op ∧
      decode (0x1F#6 ++ 0#5 ++ 3#5 ++ 0#16) = .error (.field .app) ∧ decode (0x24#6 ++ 0#6 ++ 1#6 ++ 2#6 ++ 1#1 ++ 0#7) = .error (.field .app) ∧
      decode (0x36#6 ++ 0#5 ++ 3#5 ++ 0x7FF#12 ++ 1#4) = .error (.field .app) := by decide +kernel
end Sys2Proof.Tests
end

