-- ==== Sys2Proof/Tests/Witness1.lean ====
section
/-! SUPPORT. For each statement about the SCT's own words, concrete states and operands that meet its hypotheses together, clause by
clause, with what the word then does where that is one closed fact. -/

namespace Sys2Proof.Tests

set_option Elab.async false

open Sys2Proof.Machine Sys2Proof.Claims

/-! ## Registers, ALU, control flow -/

/-- A context at body word `idx` of a loop of two words that counts x5. -/
def inLoop (idx : Nat) (n : Word) : Ctx :=
  ({ base.ctx with loop := some ⟨0x1000, 5, [0x04A63800, 0x08A5FFFC], idx, none⟩ } : Ctx).setX 5 n

/-- A nest block of one dimension with the given bound (R125). -/
def nest1 (bound : Nat) : List Byte := block 64 [(0, 4, 0x01100000), (8, 4, bound), (12, 4, 8)]

theorem test_witness_WordCompletion :
    base.ctx.loop = none ∧ (∃ l, (inLoop 0 3).loop = some l ∧ l.idx + 1 < l.body.length) ∧
      (∃ l, (inLoop 1 3).loop = some l ∧ l.body.length ≤ l.idx + 1 ∧ l.nest = none ∧ (inLoop 1 3).getX l.xa ≠ 1) ∧
      (∃ l, (inLoop 1 1).loop = some l ∧ l.body.length ≤ l.idx + 1 ∧ l.nest = none ∧ (inLoop 1 1).getX l.xa = 1) ∧
      (∃ b, parseNest (nest1 2) = some b ∧ b.next [0] = some [1] ∧ b.next [1] = none) :=
  ⟨by decide +kernel, ⟨_, rfl, by decide +kernel⟩, ⟨_, rfl, by decide +kernel⟩, ⟨_, rfl, by decide +kernel⟩,
    ⟨⟨1, 0, [2, 0, 0, 0, 0, 0], [8, 0, 0, 0, 0, 0]⟩, by decide +kernel⟩⟩

theorem test_witness_AluResults :
    let s := withX [(1, -7), (2, 2), (3, 0)] base
    aluResult (.div 3 1 2) s = some (3, -3) ∧ aluResult (.rem 3 1 2) s = some (3, -1) ∧ aluResult (.div 4 1 3) s = some (4, -1) ∧
      aluResult (.mulhu 0 1 2) s = some (0, 1) ∧ aluResult (.sra 5 1 2) s = some (5, -2) ∧
      after (exec (.div 3 1 2) s) (fun t => t.getX 3 == -3 && t.ctx.pc == s.ctx.pc + 4) = true ∧
      bodyWrites s.ctx 4 = false := by decide +kernel

theorem test_witness_BranchesAndJumps :
    let s := withX [(1, -1), (2, 1)] base
    branchTaken (.blt 1 2 8) s = some (true, 8) ∧ branchTaken (.bltu 1 2 8) s = some (false, 8) ∧
      branchTaken (.bge 2 2 (-2)) s = some (true, -2) ∧
      after (exec (.blt 1 2 8) s) (fun t => t.ctx.pc == s.ctx.pc + 32) = true := by decide +kernel

/-- R120: an aligned target at the upper bound, a misaligned one, one outside 55 bits. -/
theorem test_witness_JumpRegister :
    let s := withX [(1, 2 ^ 55 - 4), (2, 2), (3, 2 ^ 55)] base
    ((s.getX 1 + (0 : BitVec 16).signExtend 64).toNat % 4 = 0 ∧ (s.getX 1 + (0 : BitVec 16).signExtend 64).toNat < 2 ^ 55) ∧
      (s.getX 2 + (0 : BitVec 16).signExtend 64).toNat % 4 ≠ 0 ∧
      ((s.getX 3 + (0 : BitVec 16).signExtend 64).toNat % 4 = 0 ∧ 2 ^ 55 ≤ (s.getX 3 + (0 : BitVec 16).signExtend 64).toNat) := by
  decide +kernel

/-! ## Scalar memory -/

/-- A machine with an address in x1, a value in x2 and bytes in memory. -/
def memS : State := withBytes 0x1000 (leBytes 8 0x80FF7F0180000001) (withX [(1, 0x1000), (2, 5), (3, 0x1001), (4, 2 ^ 55)] base)

theorem test_witness_Loads :
    loadForm (.lb 5 1 3) = some (5, 1, 3, 1, true) ∧ PathClear memS ∧
      ∃ p s1, memS.aligned 0 .load none 1 (memS.getX 1 + (3 : BitVec 16).signExtend 64) = (.ok p, s1) ∧
        (decide (Plain s1 p.loc.key 1) && after (exec (.lb 5 1 3) memS) fun t => t.getX 5 == -128) = true :=
  ⟨by decide +kernel, by decide +kernel, metB (by decide +kernel)⟩

theorem test_witness_Stores :
    storeForm (.sd 2 1 8) = some (2, 1, 8, 8) ∧ PathClear memS ∧ memS.ctx.detm = false ∧
      ∃ p s1, memS.aligned 0 .store none 8 (memS.getX 1 + (8 : BitVec 16).signExtend 64) = (.ok p, s1) ∧
        (decide (Plain s1 p.loc.key 8) && s1.mem.wf && !s1.dev.holdStores && s1.dev.regens.isEmpty && s1.dev.snap.isNone && s1.dev.eccBad.isEmpty &&
          after (exec (.sd 2 1 8) memS) fun t => t.natAt p.loc.key 8 == 5) = true :=
  ⟨by decide +kernel, by decide +kernel, by decide +kernel, metB (by decide +kernel)⟩

theorem test_witness_Amos :
    (amoForm (.amoMaxu 6 1 2 0 4 1)).map (fun f => (f.1, f.2.1, f.2.2.2.2.1)) = some (6, 1, 8) ∧ PathClear memS ∧
      ∃ p s1, memS.aligned 0 .rmw none 8 (memS.getX 1) = (.ok p, s1) ∧
        (decide (Plain s1 p.loc.key 8) && s1.mem.wf && s1.dev.regens.isEmpty && s1.dev.snap.isNone && s1.dev.eccBad.isEmpty &&
          after (exec (.amoAdd 6 1 2 0 4 0) memS) fun t => t.natAt p.loc.key 4 == 0x80000006 && t.getX 6 == 0xFFFFFFFF80000001) = true :=
  ⟨by decide +kernel, by decide +kernel, metB (by decide +kernel)⟩

/-- A misaligned address, and one that the translation refuses. -/
theorem test_witness_ScalarMemoryTraps :
    memS.ctx.vmWaits = false ∧ memS.behindBarriers = some memS ∧ (∀ p ∈ memS.ctx.stores, p.barrier < 2) ∧
      (memS.getX 3 + (0 : BitVec 16).signExtend 64).toNat % 8 ≠ 0 ∧ (memS.getX 3).toNat % 8 ≠ 0 ∧
      (memS.aligned 0 .load none 8 (memS.getX 4 + (0 : BitVec 16).signExtend 64)).1 = .error (.cause 0x05 (2 ^ 55)) ∧
      (memS.aligned 0 .store none 8 (memS.getX 4 + (0 : BitVec 16).signExtend 64)).1 = .error (.cause 0x06 (2 ^ 55)) ∧
      (memS.aligned 0 .rmw none 8 (memS.getX 4)).1 = .error (.cause 0x06 (2 ^ 55)) := by decide +kernel

theorem test_witness_Translation :
    2 ^ 55 ≤ (memS.getX 4).toNat ∧ memS.dev.tlbOn = false ∧ memS.mem.wf = true ∧
      ∃ l s1, memS.translate memS.ctx.asid memS.ctx.priv .load 0x1000 = (.ok l, s1) ∧ (areaOf l.key == 4) = true :=
  ⟨by decide +kernel, by decide +kernel, by decide +kernel, metB (by decide +kernel)⟩

/-! ## Scalar float words, loops, lends, barriers -/

/-- f32 1.0 in x1, 3.0 in x2, and the same under a reserved frm. -/
def floatS : State := withX [(1, 0x3F800000), (2, 0x40400000)] base
def floatR : State := { floatS with ctx := { floatS.ctx with frm := 7, frmSct := 7 } }

/-- Exact results that are not 0 and that are 0, an integer power, a NaN, and pairs with no product. -/
theorem test_witness_FloatExact :
    ratOf false 1 0 + ratOf false 1 (-2) ≠ 0 ∧ ratOf false 1 0 - ratOf true 1 0 ≠ 0 ∧ ratOf false 3 0 * ratOf true 1 1 ≠ 0 ∧
      (0 : ℚ) < ratOf false 2 0 ∧ ratOf true 2 0 = ((-2 : Int) : ℚ) ∧ ratOf false 1 0 + ratOf true 1 0 = 0 ∧
      (FVal.nan true).isNan = true ∧ ((FVal.inf false).mul (.fin true 0 0)).isNone = true ∧
      ((FVal.inf false).mul (.fin true 1 0)).isSome = true ∧
      fAdd .f32 .rne (.fin false 1 0) (.fin false 1 (-2)) = (0x3FA00000, 0) ∧ fDiv .f32 .rne (.fin false 1 0) (.fin false 3 0) = (0x3EAAAAAB, 1) := by
  refine ⟨?_, ?_, ?_, ?_, ?_, ?_, ?_, ?_, ?_, ?_, ?_⟩ <;> first | (norm_num [ratOf]; done) | decide +kernel

/-- R133, R87: 1/3 rounds to the nearest, which is inexact (flag bit 0). -/
theorem test_witness_FloatRounds :
    frmReserved floatS.ctx.frmSct = false ∧ roundForm (.fdiv 3 1 2 0) floatS (rmOf floatS.ctx.frmSct) = some (3, 0x3EAAAAAB, 1) ∧
      frmReserved floatR.ctx.frmSct = true ∧ (roundForm (.fdiv 3 1 2 0) floatR (rmOf floatR.ctx.frmSct)).isSome = true ∧
      quietForm (.flt 3 1 2 0) floatS = some (3, 1, 0) ∧
      after (exec (.fdiv 3 1 2 0) floatS) (fun t => t.getX 3 == 0x3EAAAAAB && t.ctx.fflags == 1) = true := by decide +kernel

/-- A loop of two words at the pc, its counter in x5; a loop word within its body. -/
def loopS (n : Word) (w : Nat) : State :=
  withBytes (base.ctx.pc + 4) (leBytes 4 0x05063800 ++ leBytes 4 w) (withX [(5, n), (7, 0x2000)] (withBytes 0x2000 (nest1 2) base))

theorem test_witness_LoopStarts :
    (∃ body s1, (loopS 3 0x08C6FFFC).fetchBody (1 + 1) (pcPlus (loopS 3 0x08C6FFFC).ctx.pc 4) = (.ok body, s1) ∧
      (body.length == 2 && decide (s1.ctx = (loopS 3 0x08C6FFFC).ctx) && decide (firstBad (badBodyWord 5) body 0 = none)) = true) ∧
    (∃ body s1, (loopS 3 0x7CA00000).fetchBody (1 + 1) (pcPlus (loopS 3 0x7CA00000).ctx.pc 4) = (.ok body, s1) ∧
      decide (firstBad (badBodyWord 5) body 0 = some 1) = true) ∧
    (loopS 3 0x08C6FFFC).ctx.loop = none ∧ (loopS 0 0x08C6FFFC).getX 5 = 0 ∧ (loopS 3 0x08C6FFFC).getX 5 ≠ 0 ∧
    (base.fetchBody 2 (2 ^ 55 - 4)).1.toOption = none :=
  ⟨metB (by decide +kernel), metB (by decide +kernel), by decide +kernel⟩

theorem test_witness_NestStarts :
    (loopS 3 0x08C6FFFC).ctx.vmWaits = false ∧
      decide ((loopS 3 0x08C6FFFC).behindBarriers = some (loopS 3 0x08C6FFFC)) = true ∧ parseNest (nest1 2) = some ⟨1, 0, [2, 0, 0, 0, 0, 0], [8, 0, 0, 0, 0, 0]⟩ ∧
      (match (loopS 3 0x08C6FFFC).readNest 0x2000 with
        | .bytes bs s2 => bs == nest1 2 && decide (s2.ctx = (loopS 3 0x08C6FFFC).ctx)
        | _ => false) = true ∧
      firstBad (fun _ => writesIndex 1) [0x04A63800, 0x08C6FFFC] 0 = none ∧
      firstBad (fun _ => writesIndex 1) [0x04A63800, 0x0A66FFFC] 0 = some 1 ∧
      (parseNest (nest1 0)).map NestBlock.count = some 0 := by decide +kernel

/-- R135 to R137: a level below a word's, a word that may not follow, one that runs, one that is skipped with a destination. -/
theorem test_witness_LendSuccessor :
    let l : Latch := ⟨false, false, 4, true, true, 6, false, 0x1004⟩
    (withPriv .app base).ctx.priv.rank < (decodedLevel (.instr .eret)).rank ∧ l.eligible (.instr (.lend 0 0 1 0 0)) = false ∧
      (l.eligible (.instr (.add 1 2 3)) = true ∧ decodedEnters (.instr (.add 1 2 3)) = false ∧ l.pv ≠ l.neg) ∧
      (decodedEnters (.instr (.add 1 2 3)) = false ∧ decodedDest (.instr (.add 1 2 3)) = some 1 ∧ l.dcEn = true ∧
        ({ l with pv := false } : Latch).pv = l.neg) := by decide +kernel

/-- A machine with a store that waits, and one with a vector store in its queue. -/
def pendS : State :=
  { base with
    ctx := { base.ctx with stores := [⟨[], 0, false, 0, 0, 0, 0, 0, 0, 0, 0, false, [], 0⟩] }
    dev := { base.dev with holdStores := true } }
def queuedS : State := { base with ctx := { base.ctx with viq := [⟨.vst 1 2 0 0, 0, 0, 0, none⟩, ⟨.vadd 1 2 3 0, 0, 0, 0, none⟩] } }

/-- A deterministic context with a line in the write-combining buffer. -/
def wcbS : State :=
  { base with
    ctx := { base.ctx with detm := true, wcb := [⟨64, 0, [(4096, 1)], [(4096, 1)], 0, 0, 0x1000, 0, 0⟩] }
    dev := { base.dev with holdStores := true } }

theorem test_witness_Barriers :
    PathClear base ∧ queuedS.ctx.vmWaits = true ∧ pendS.ctx.vmWaits = false ∧ pendS.ctx.stores ≠ [] ∧ pendS.dev.holdStores = true ∧
      after (exec (.fence 2 0) pendS) (fun t => t.ctx.stores.length == 2) = true ∧
      (∃ e, queuedS.ctx.viq[0]? = some e ∧ isVm e.instr = true) ∧ (∀ m f, 0 < m → queuedS.ctx.viq[m]? = some f → isVm f.instr = false) ∧
      after (exec .vlsync queuedS) (fun t => t.ctx.bars == [(1, 2)]) = true ∧
      (wcbS.ctx.vmWaits = false ∧ wcbS.ctx.detm = true ∧ wcbS.ctx.wcb ≠ [] ∧ wcbS.dev.holdStores = true) ∧
      after (exec .vfenceD wcbS) (fun t => t.ctx.wcb.isEmpty && t.ctx.stores.map (·.barrier) == [0, 2]) = true := by
  refine ⟨by decide +kernel, by decide +kernel, by decide +kernel, by decide +kernel, by decide +kernel, by decide +kernel,
    ⟨_, rfl, by decide +kernel⟩, ?_, by decide +kernel, by decide +kernel, by decide +kernel⟩
  intro m f hm hf
  match m, hm with
  | 1, _ => cases hf; decide +kernel
  | n + 2, _ => simp [queuedS] at hf

theorem test_witness_MemoryWaits :
    PathClear memS ∧ ∃ p s1, memS.aligned 0 .load none 4 (memS.getX 1) = (.ok p, s1) ∧
      (decide (Plain s1 p.loc.key 4) && after (exec (.waitge 1 2 0) memS) (fun t => t.ctx.stall.isNone) &&
        after (exec (.waiteq 1 2 0) memS) fun t => t.ctx.stall == some .word) = true :=
  ⟨by decide +kernel, metB (by decide +kernel)⟩

end Sys2Proof.Tests
end

