-- ==== Sys2Proof/Tests/Witness2.lean ====
section
/-! SUPPORT. For each statement about traps, CSRs and the words of supervisor and queues, concrete states and operands that meet its
hypotheses together, clause by clause. -/

namespace Sys2Proof.Tests

set_option Elab.async false

open Sys2Proof.Machine Sys2Proof.Claims

/-! ## Traps and returns -/

/-- A trapped sup context with one entry in its frame. -/
def trapped (cause : Word) (skip : Bool) : State :=
  { base with ctx := { base.ctx with priv := .sup, ppriv := .app, tfv := true, skip, cause, frame := [⟨.vmv 2 3 0, 0, 0, 0, none⟩] } }

theorem test_witness_Traps :
    base.ctx.tfv = false ∧ base.ctx.priv = .hyp ∧ (withPriv .app base).ctx.priv ≠ .hyp ∧ (trapped 0x0E false).ctx.tfv = true ∧
      base.ctx.resume = false ∧ base.ctx.loop = none ∧ base.ctx.pc.toNat < 2 ^ 55 ∧
      (∃ l : LoopSt, ({ base.ctx with loop := some ⟨0, 5, [0, 0], 1, none⟩ } : Ctx).loop = some l ∧ l.idx < 32) ∧
      ((trapped 0 false).takeTrap false false 1 0).ctx.run = .stopped :=
  ⟨by decide +kernel, by decide +kernel, by decide +kernel, by decide +kernel, by decide +kernel, by decide +kernel, by decide +kernel,
    ⟨_, rfl, by decide +kernel⟩, by decide +kernel⟩

theorem test_witness_SystemCalls :
    let s := withPriv .app base
    let b := { base with ctx := { base.ctx with viq := [⟨.vmv 2 3 0, 0, 0, 0, none⟩] } }
    (s.ctx.viq = [] ∧ s.ctx.tfv = false ∧ s.ctx.resume = false ∧ s.ctx.loop = none ∧ s.ctx.priv ≠ .hyp) ∧ b.ctx.viq ≠ [] ∧
      after (exec .ecall s) (fun t => t.ctx.cause == 0x0E && t.ctx.epc == s.ctx.pc + 4 && t.ctx.priv == .sup) = true := by
  decide +kernel

theorem test_witness_TrapReturn :
    (withPriv .app base).ctx.priv = .app ∧
      Drained (trapped 0x10A true) .sup ∧ ¬((trapped 0x10A true).ctx.priv = .sup ∧ (trapped 0x10A true).ctx.ppriv = .hyp) ∧
      ((trapped 0x10A true).ctx.cause.getLsbD 8 ∧ (trapped 0x10A true).ctx.skip = true) ∧ (trapped 0x0E false).ctx.tfv = true ∧
      (Drained base .sup ∧ base.ctx.tfv = false) ∧
      (let s := { base with ctx := { base.ctx with priv := .sup, ppriv := .hyp } }
       Drained s .sup ∧ s.ctx.priv = .sup ∧ s.ctx.ppriv = .hyp) ∧
      after (exec .eret (trapped 0x10A true)) (fun t => t.ctx.viq.isEmpty && t.ctx.priv == .app) = true ∧
      after (exec .eret (trapped 0x0E false)) (fun t => t.ctx.viq.length == 1) = true := by decide +kernel

theorem test_witness_PrivilegeTraps :
    privileged (.placew 1 2) = some .hyp ∧ (withPriv .sup base).ctx.priv.rank < Priv.hyp.rank ∧ privileged (.launch 1 2) = some .sup ∧
      (withPriv .app base).ctx.priv.rank < Priv.sup.rank ∧
      (csrWrite (.csrs 1 0x101) base 0 = some (0x101, 0) ∧ csrRights 0x101 = some ⟨.sup, some .sup, .drain⟩) ∧
      csrWrite (.csrw 1 0x010) base 0 = some (0x010, 0) ∧ (csrRights 0x010).map (·.write) = some none := by decide +kernel

/-! ## CSRs -/

/-- A unit that has run for 256 cycles of a budget. -/
def budgetS (s : State) : State :=
  { s with ctx := { s.ctx with bused := 256, unit := some ⟨0, 5, false, 1, 0, [0], none, 0, false, true, false, true, none⟩ } }

theorem test_witness_CsrReads :
    csrRights 0x101 = some ⟨.sup, some .sup, .drain⟩ ∧ csrRights 0x205 = some ⟨.hyp, some .hyp, .drain⟩ ∧
      csrRights 0x008 = some ⟨.app, some .app, .inOrder⟩ ∧ (withPriv .app base).ctx.priv.rank < Priv.sup.rank ∧
      (Priv.sup.rank ≤ (withPriv .sup base).ctx.priv.rank ∧ (withPriv .sup base).ctx.viq = []) ∧
      ((csrRights 0x010).map (·.kind)) = some .free := by decide +kernel

theorem test_witness_CsrWriting :
    let s := withX [(1, -1)] base
    csrWrite (.csrw 1 0x101) s (s.readCsr 0x101) = some (0x101, -1) ∧ csrMask 0x101 = some 0x80000000000001FF ∧
      Drained s (csrWriteLevel 0x101) ∧ csrWrite (.csrs 1 0x008) s (s.readCsr 0x008) = some (0x008, -1) ∧ inOrderMask 0x008 = some 7 ∧
      VectorIdle s ∧ s.ctx.frm = s.ctx.frmSct ∧ csrWrite (.csrc 1 0x001) s (s.readCsr 0x001) = some (0x001, 0) ∧
      after (exec (.csrw 1 0x101) s) (fun t => t.readCsr 0x101 == 0x80000000000001FF) = true := by decide +kernel

/-- hwm at 256 and 257 bytes, a live and a dead ASID, budgets of 0, above the count and at it, rhsel with and without bit 4, and the
levels of status, with LP and without. -/
theorem test_witness_CsrWritesWithEffect :
    let s := withX [(1, 256), (2, 257), (3, 0x10), (4, 0x20), (5, 0x30), (6, 1)] base
    Drained s .sup ∧ (s.getX 1).toNat % 2 ^ 9 ≤ 256 ∧ 256 < (s.getX 2).toNat % 2 ^ 9 ∧ s.mayTakeAsid ((s.getX 0).setWidth 13) = true ∧
      s.mayTakeAsid ((s.getX 6).setWidth 13) = false ∧ (s.getX 3).getLsbD 4 = true ∧ (s.getX 6).getLsbD 4 = false ∧
      privOf ((s.getX 3).toNat / 2 ^ 4) = some .sup ∧ privOf ((s.getX 4).toNat / 2 ^ 4) = some .hyp ∧ s.ctx.priv = .hyp ∧
      privOf ((s.getX 5).toNat / 2 ^ 4) = none ∧ (withPriv .sup s).ctx.priv ≠ .hyp ∧ s.ctx.unit = none ∧
      (let u := budgetS s
       Drained u .sup ∧ u.ctx.unit ≠ none ∧ u.getX 0 = 0 ∧ u.ctx.bused < (u.getX 2).toNat ∧ (u.getX 1).toNat ≤ u.ctx.bused ∧
        after (exec (.csrw 1 0x108) u) (fun t => t.ctx.pBudget && !t.ctx.armed) = true) ∧
      after (exec (.csrw 1 0x00A) (withV 0 8 [7] (withX [(1, 0)] s))) (fun t => t.ctx.getV 0 == 0) = true := by decide +kernel

/-! ## placew, vfset, tlbinv, snap, ctxsave, ctxrst -/

theorem test_witness_PlaceAndFacet :
    let s := withX [(1, 0), (2, 2 ^ 63), (3, 3 * 2 ^ 14), (4, 0x8003), (5, 1)] base
    Drained s .hyp ∧ Drained s .sup ∧ (badSelector (s.getX 1).toNat = false ∧
      badPlace ((s.getX 1).toNat / 2 ^ 14 % 4) (s.getX 2).toNat = false) ∧ badSelector (s.getX 3).toNat = true ∧
      ¬ RefusedFacet ((s.getX 4).setWidth 16) 2 ∧ RefusedFacet ((s.getX 5).setWidth 16) 2 ∧
      RefusedFacet 0x9003 1 ∧ ¬ RefusedFacet 0x8100 5 ∧ RefusedFacet 0x8101 5 := by decide +kernel

theorem test_witness_TlbInvalidation :
    let s := withX [(1, 0), (2, 2 ^ 24), (3, 3 * 2 ^ 14), (4, 2 * 2 ^ 14 + 5 * 2 ^ 16), (5, 0x10000), (6, 2 ^ 13)] base
    let r : Reach := ⟨0, 0, 0, 0x10000⟩
    Drained s .sup ∧ (s.getX 2).toNat / 2 ^ 24 ≠ 0 ∧ ((s.getX 3).toNat / 2 ^ 14 % 4 = 3 ∧ Drained (withPriv .sup s) .sup) ∧
      ((s.getX 4).toNat / 2 ^ 14 % 4 = 2 ∧ (s.getX 4).toNat / 2 ^ 16 % 2 ^ 8 ≠ s.jobOf s.ctx.asid) ∧
      (s.getX 6).toNat / 2 ^ 13 % 2 ≠ 0 ∧
      (asidLive (s.asidEntry 0) = true ∧ s.jobOf 0 = s.jobOf s.ctx.asid) ∧ asidLive (s.asidEntry 7) = false ∧
      ((s.getX 1).toNat / 2 ^ 24 = 0 ∧ s.ctx.priv = .hyp ∧ s.ctx.stores = [] ∧ s.others = [] ∧ s.ctx.wcb = [] ∧
        (Ctx.reset false).wcb = [] ∧ (Ctx.reset true).wcb = [] ∧ s.invalidating r = false ∧
        r = ⟨(s.getX 1).toNat / 2 ^ 14 % 4, (s.getX 1).setWidth 13, (s.getX 1).toNat / 2 ^ 16 % 2 ^ 8,
          (s.getX 5).toNat / 2 ^ 16 * 2 ^ 16⟩) := by decide +kernel

theorem test_witness_SnapshotAndWait :
    let s := base.onWin fun w => { w with snapSz := 0x1000 }
    let p := s.onDev fun d => { d with snap := some ⟨[], [], [], 0, 0, 0, false⟩ }
    Drained base .sup ∧ base.dev.win.snapSz = 0 ∧
      (Drained s .sup ∧ s.dev.win.snapSz ≠ 0 ∧ s.dev.snap = none ∧ s.ctx.stores = [] ∧ s.ctx.wcb = []) ∧
      (Drained p .sup ∧ p.dev.win.snapSz ≠ 0 ∧ p.dev.snap.isSome = true) ∧
      after (exec .snap s) (fun t => t.dev.snap.isSome) = true := by decide +kernel

/-- A trapped unit, and a context without one, with the address of an image in x1. -/
def saveS (u : Bool) : State :=
  let s := withX [(1, 0x4000), (2, 0x4001)] base
  if u then { s with ctx := { s.ctx with tfv := true, unit := some ⟨0, 5, false, 1, 0, [0], none, 0, false, true, false, true, none⟩ } } else s

theorem test_witness_ContextSave :
    Drained (saveS true) .sup ∧ (saveS true).ctx.stores = [] ∧ (saveS true).ctx.wcb = [] ∧
      ((saveS true).ctx.ch.any fun h => h.started.isSome) = false ∧ ((saveS true).getX 2).toNat % 64 ≠ 0 ∧
      ((saveS true).getX 1).toNat % 64 = 0 ∧
      ∃ ps s1, (saveS true).span 0 .store (((saveS true).imageParts 1).2 / 65536 + 2) ((saveS true).getX 1) ((saveS true).imageParts 1).2
          = (.ok ps, s1) ∧
        (decide (s1.ctx = (saveS true).ctx) && !s1.writesOnBoard (partWrites ps ((saveS true).imageParts 1).1) &&
          after (exec (.ctxsave 1) (saveS true)) (fun t => t.ctx.unit.isNone && t.ctx.run == .off &&
            (lookup ((ps.head?.map fun p => p.1.loc.key).getD 0) t.dev.images).isSome) &&
          after (exec (.ctxsave 1) (saveS false)) fun t => t.ctx.run == .running) = true :=
  ⟨by decide +kernel, by decide +kernel, by decide +kernel, by decide +kernel, by decide +kernel, by decide +kernel,
    metB (by decide +kernel)⟩

/-- A machine with the image of an app context that has 7 in x9, all else 0, at x1 (R379). -/
def savedS : State :=
  withBytes 0x4000 (block 16 [(0, 1, 1), (1, 1, 8), (2, 1, 8), (4, 4, 128), (12, 4, 0x6C0)])
    (withBytes 0x4088 (leBytes 8 7) (withX [(1, 0x4000)] base))

theorem test_witness_ContextRestore :
    Drained savedS .sup ∧ savedS.ctx.stores = [] ∧ savedS.ctx.wcb = [] ∧
      (match savedS.aligned 0 .load none 64 (savedS.getX 1) with
        | (.ok p, s1) => match s1.readOwn 2 (savedS.getX 1) 64 with
          | (.ok h, s2) => s2.ctx.fitsImage h &&
            (match s2.span 0 .load (Nat.max 0x640 (field h 12 4) / 65536 + 2) (savedS.getX 1) (Nat.max 0x640 (field h 12 4)) with
              | (.ok _, s3) => decide (s3.ctx = savedS.ctx) &&
                (match s3.readOwn (Nat.max 0x640 (field h 12 4) / 65536 + 2) (savedS.getX 1) (Nat.max 0x640 (field h 12 4)) with
                  | (.ok img, s4) => decide (s4.ctx = savedS.ctx) && decide ((csrSlot img 11).toNat / 2 ^ 4 % 4 ≠ 3) &&
                    decide ((csrSlot img 11).toNat / 2 ^ 4 % 4 = 2 → s4.ctx.priv = .hyp) &&
                    s4.mayTakeAsid ((csrSlot img 16).setWidth 13) &&
                    (s4.imageCtx img (lookup p.loc.key s4.dev.images)).any fun c => !c.skip
                  | _ => false)
              | _ => false)
          | _ => false
        | _ => false) = true ∧
      base.ctx.fitsImage (List.replicate 64 0) = false ∧
      after (exec (.ctxrst 1) savedS) (fun t => t.getX 9 == 7) = true := by decide +kernel

end Sys2Proof.Tests
end

