-- ==== Sys2Proof/Tests/Witness3.lean ====
section
/-! SUPPORT. For each statement about the words of launches, counters, clasps, grants, queues and channels, concrete states and operands
that meet its hypotheses together, clause by clause. -/

namespace Sys2Proof.Tests

set_option Elab.async false

open Sys2Proof.Machine Sys2Proof.Claims

/-! ## Launches and counters -/

/-- A machine whose counter 1 is a graph (level 1, target 4), 2 a done one, 3 a job counter, with job 0's numbers in x registers. -/
def ctrS : State :=
  (withX [(1, 1), (2, 2), (3, 3), (7, 7), (8, 2 ^ 13)] base).onDev fun d =>
    let d := d.arm false (ctrKey base.die 1) 1 4 none 0
    let d := d.arm false (ctrKey base.die 3) 2 5 none 0
    { d with counters := (ctrKey base.die 2, ⟨true, true, false, 1, 3, 3, none, 0, 0, 9, []⟩) :: d.counters }

/-- A launch record at 0x6000 with its nest block at 0x6100: one lane group, one tile row, counter `ctr`, parent 1 (R302). -/
def launchS (ctr : Nat) (ctl : Nat) : State :=
  withBytes 0x6000 (block 64 [(0, 8, ctl), (8, 8, 0x8000), (32, 8, 0x6100), (56, 2, ctr), (58, 2, 0x8001)])
    (withBytes 0x6100 (block 64 [(0, 4, 0x01100000), (8, 4, 3)]) (withX [(4, 0x6000), (5, 0x6001), (6, 2 ^ 55)] ctrS))

/-- Version 1, LG = 1, TR = 1 (R302), and the same with a reserved bit. -/
def goodCtl : Nat := 2 ^ 56 + 2 ^ 36 + 2 ^ 32
def badCtl : Nat := goodCtl + 1

/-- The launch block's address, 0x6000, leads to the own polder, where a command's destination lies (R221). -/
def heldLaunchS : State :=
  let s := launchS 7 goodCtl
  { s with
    ctx := { s.ctx with ch := s.ctx.ch.set 2 { s.ctx.ch[2] with cmds := [⟨.push 0, 0, .app, some (0, 0x8000), 0, 0⟩] } }
    dev := { s.dev with tlbOn := true, tlb := [⟨0, 0, 0, 16, 0x70D, false⟩] } }

theorem test_witness_LaunchStatus :
    Drained (launchS 7 goodCtl) .sup ∧ (launchS 7 goodCtl).ctx.stores = [] ∧ (launchS 7 goodCtl).ctx.wcb = [] ∧
      ((launchS 7 goodCtl).getX 5).toNat % 64 ≠ 0 ∧ ((launchS 7 goodCtl).getX 4).toNat % 64 = 0 ∧
      (∃ b s1, (launchS 7 goodCtl).readLaunch ((launchS 7 goodCtl).getX 4) = (.ok b, s1) ∧
        ((s1.launchFails b).isEmpty && s1.launchCode b.record == 0) = true) ∧
      (∃ b s1, (launchS 7 badCtl).readLaunch ((launchS 7 badCtl).getX 4) = (.ok b, s1) ∧ (s1.launchFails b == [0]) = true) ∧
      (∃ b s1, (launchS 3 goodCtl).readLaunch ((launchS 3 goodCtl).getX 4) = (.ok b, s1) ∧
        ((s1.launchFails b).isEmpty && s1.launchCode b.record == 2) = true) ∧
      ((launchS 7 goodCtl).readLaunch ((launchS 7 goodCtl).getX 6)).1.toOption = none ∧
      (match (heldLaunchS.readLaunch (heldLaunchS.getX 4)).1 with | .error none => true | _ => false) = true ∧
      after (exec (.launch 4 9) (launchS 7 goodCtl)) (fun t => t.getX 9 == 0 && t.dev.launches.length == 1) = true ∧
      after (exec (.launch 4 9) (launchS 3 goodCtl)) (fun t => t.getX 9 == 0x8000000000000002) = true :=
  ⟨by decide +kernel, by decide +kernel, by decide +kernel, by decide +kernel, by decide +kernel, metB (by decide +kernel),
    metB (by decide +kernel), metB (by decide +kernel), by decide +kernel, by decide +kernel, by decide +kernel, by decide +kernel⟩

/-- R334: a word that arms counter 7 at level 1, one that idles a done counter, one that meets an armed counter, target 0 and not 0. -/
theorem test_witness_LaunchNodeStatus :
    Drained ctrS .sup ∧ ctrS.nodeCode (7 + 2 ^ 16) 4 = 0 ∧ (7 + 2 ^ 16) / 2 ^ 16 % 4 ≠ 0 ∧ ctrS.dev.launches = [] ∧
      ctrS.nodeCode (7 + 2 ^ 16) 0 = 0 ∧ (ctrS.nodeCode 2 0 = 0 ∧ 2 / 2 ^ 16 % 4 = 0) ∧ ctrS.nodeCode (1 + 2 ^ 16) 4 = 2 := by
  decide +kernel

/-- The same machine under ASID 5 of job 3. -/
def otherS : State :=
  { ctrS with
    ctx := { ctrS.ctx with asid := 5 }
    mem := ctrS.mem.setAll (writesAt (reservedKey (8 * 5)) (leBytes 8 (2 ^ 63 + 3 * 2 ^ 40))) }

theorem test_witness_CancelAndCounters :
    Drained ctrS .sup ∧ 2 ^ 13 ≤ (ctrS.getX 8).toNat ∧
      ((ctrS.getX 7).toNat < 2 ^ 13 ∧ ctrS.dev.counter false (ctrKey ctrS.die 7) = none) ∧
      ((ctrS.dev.counter false (ctrKey ctrS.die 2)).map (·.done) = some true ∧ ctrS.ctx.priv = .hyp) ∧
      (ctrS.dev.counter false (ctrKey ctrS.die 1)).map (fun k => (k.done, k.asid)) = some (false, ctrS.ctx.asid) ∧
      (withPriv .app ctrS).ctx.priv = .app ∧ (2 : Word).toNat < 2 ^ 13 ∧
      (let u := { ctrS with ctx := { ctrS.ctx with asid := 5 } }
       (u.dev.counter false (ctrKey u.die 1)).map (fun k => decide (k.asid ≠ u.ctx.asid)) = some true) ∧
      (otherS.dev.counter false (ctrKey otherS.die 1)).map (fun k => decide (otherS.jobOf k.asid ≠ otherS.jobOf otherS.ctx.asid)) = some true ∧
      ((withPriv .sup otherS).ctx.priv = .sup ∧ (withPriv .sup otherS).foreign (ctrKey ctrS.die 1) = true) := by decide +kernel

/-- A context that runs unit 0 of an armed launch, and the same with a halted and a busy channel. -/
def unitS : State := { ctrS with ctx := { ctrS.ctx with unit := some ⟨0, 1, false, 0, 0, [0], none, 0, true, false, false, true, none⟩ } }
def haltedS : State := unitS.onCtx fun c => { c with ch := c.ch.set 2 { c.ch[2] with halted := true, ecause := 5, eaddr := 8 } }
def busyS : State := unitS.onCtx fun c => { c with ch := c.ch.set 2 { c.ch[2] with cmds := [⟨.push 0, 0, .app, none, 0, 0⟩] } }

theorem test_witness_UnitEnds :
    ctrS.ctx.viq = [] ∧ ctrS.ctx.unit = none ∧
      (unitS.ctx.unit.isSome ∧ unitS.ctx.haltedChan = none ∧ unitS.ctx.channelsEmpty = true ∧ unitS.ctx.stores = [] ∧ unitS.ctx.wcb = []) ∧
      (busyS.ctx.haltedChan = none ∧ busyS.ctx.channelsEmpty = false) ∧ haltedS.ctx.haltedChan = some 2 ∧
      (∃ (k : BitVec 3) (h : Chan), h = haltedS.ctx.ch[k.toNat] ∧ h.halted = true ∧
        ∀ j : BitVec 3, j < k → haltedS.ctx.ch[j.toNat].halted = false) ∧
      (∀ j : BitVec 3, busyS.ctx.ch[j.toNat].halted = false) ∧ (∀ j : BitVec 3, unitS.ctx.ch[j.toNat].halted = false) ∧
      after (exec .uend unitS) (fun t => t.ctx.unit.isNone && t.dev.incs.length == 1) = true ∧
      after (exec .uend haltedS) (fun t => t.ctx.cause == 5 && t.ctx.ch[2].reported == some haltedS.ctx.pc) = true := by
  refine ⟨by decide +kernel, by decide +kernel, by decide +kernel, by decide +kernel, by decide +kernel, ⟨2, _, rfl, ?_⟩, ?_, ?_, ?_, ?_⟩ <;>
    decide +kernel

/-! ## Clasps and grants -/

/-- A unit clasp 4 of two members whose member 0 has arrived `n` times, with episode `epoch` in progress. -/
def claspS (arrivals : List (Nat × Nat × Word)) (epoch : Nat) : State :=
  (withX [(1, 4), (2, 0), (10, 2 ^ 23)] unitS).onDev fun d =>
    { d with clasps := [(4, ⟨false, 2, 1, 0, 0, none, epoch, arrivals, [], [], []⟩)] }

theorem test_witness_ClaspWords :
    let s := claspS [] 0
    (s.ctx.viq = [] ∧ s.ctx.stores = [] ∧ s.ctx.stall = none ∧ s.ctx.cw = false) ∧ s.claspRef (s.getX 10) = .refused ∧
      (s.claspRef (s.getX 1) ≠ .refused ∧ s.nextEpisode (s.claspRef (s.getX 1)) < 2 ∧ s.ctx.q[(3 : BitVec 3).toNat].length < 8) ∧
      (let u := claspS [(0, 0, 0), (0, 1, 0)] 0
       u.nextEpisode (u.claspRef (u.getX 1)) = 2 ∧ u.episodeDone (u.getX 1) (BitVec.ofNat 64 (2 - 2)) = false) ∧
      (let u := claspS [(0, 0, 0), (0, 1, 0)] 1
       u.nextEpisode (u.claspRef (u.getX 1)) = 2 ∧ u.episodeDone (u.getX 1) (BitVec.ofNat 64 (2 - 2)) = true) ∧
      after (exec (.clarr 1 3) s) (fun t => t.ctx.q[3] == [0]) = true ∧
      after (exec (.clasp 1 9) s) (fun t => t.ctx.stall == some (.clasp 4 0)) = true := by decide +kernel

/-- A clasp of devices on a device that has not its domain's gts. -/
def untimedS : State :=
  (claspS [] 0).onDev fun d =>
    { d with clasps := [(4, ⟨true, 2, 1, 0, 0, none, 0, [], [], [], []⟩)], links := ⟨true, 1, 8, 1⟩ :: d.links }

theorem test_witness_ClaspWords_more :
    ((untimedS.claspRef (untimedS.getX 1)).ofDevices = true ∧ untimedS.claspRef (untimedS.getX 1) ≠ .refused ∧ untimedS.dev.inTime = false) ∧
      (((claspS [] 0).getX 1).toNat < 2 ^ 8 ∧ lookup 5 (claspS [] 0).dev.clasps = none ∧
        lookup 4 (claspS [] 0).dev.clasps = some ⟨false, 2, 1, 0, 0, none, 0, [], [], [], []⟩ ∧ (claspS [] 0).ctx.asid = 0) ∧
      ((claspS [] 0).ctx.unit.map fun u => (u.gang, u.ord)) = some (true, 0) ∧
      (((claspS [] 0).onCtx fun c => { c with cw := true }).ctx.cw = true ∧ (claspS [] 0).ctx.tfv = false) := by decide +kernel

/-- Operands at the ends of their ranges: NMEM 64 and 65, K 0, 16 and 17, a removal, a busy clasp; grants that fit and that do not, with
one of LGN and TRN alone 0, and of a logical core that the job does not map. -/
theorem test_witness_ClaspConfigAndGrant :
    let s := withX [(1, 255), (2, 2 ^ 8), (3, 64 * 2 ^ 56 + 16 * 2 ^ 51), (4, 65 * 2 ^ 56)] (claspS [(0, 0, 0)] 0)
    Drained s .sup ∧ 2 ^ 8 ≤ (s.getX 2).toNat ∧ 64 < (s.getX 4).toNat / 2 ^ 56 % 2 ^ 7 ∧
      ((s.getX 1).toNat < 2 ^ 8 ∧ (s.getX 3).toNat / 2 ^ 32 % 2 ^ 19 = 0 ∧ (s.getX 3).toNat / 2 ^ 56 % 2 ^ 7 ≤ 64 ∧
        1 ≤ (s.getX 3).toNat / 2 ^ 51 % 2 ^ 5 ∧ (s.getX 3).toNat / 2 ^ 51 % 2 ^ 5 ≤ 16 ∧ s.claspBusy (s.getX 1).toNat = false) ∧
      s.claspBusy 4 = true ∧
      (∃ core, s.dev.physCore (s.jobOf s.ctx.asid) 0 = some core ∧
        4 + (s.ctxOf (otherOf (core * 2))).standLgn ≤ 8 ∧ 4 + (s.ctxOf (otherOf (core * 2))).standTrn ≤ 8) ∧
      (8 * 2 ^ 12 + 8 * 2 ^ 4) / 2 ^ 12 % 16 ≤ 8 ∧ s.dev.physCore (s.jobOf s.ctx.asid) 511 = none ∧
      (s.getX 4).toNat / 2 ^ 56 % 2 ^ 7 ≠ 0 ∧ (s.getX 4).toNat / 2 ^ 51 % 2 ^ 5 = 0 := by
  refine ⟨by decide +kernel, by decide +kernel, by decide +kernel, by decide +kernel, by decide +kernel, ⟨0, ?_⟩, by decide,
    by decide +kernel, by decide +kernel, by decide +kernel⟩
  decide +kernel

/-- Operands that clasp.cfg and grant refuse with CODE 1. -/
def refusedOperands (i : Instr) (a v : Word) : Bool :=
  after (exec i (withX [(1, a), (5, v)] unitS)) fun t => t.getX 6 == 0x8000000000000001

theorem test_witness_ClaspConfigAndGrant_refused :
    refusedOperands (.claspCfg 1 5 6) 4 0x0100000000000000 = true ∧ refusedOperands (.claspCfg 1 5 6) 4 0x0188000000000000 = true ∧
      refusedOperands (.grant 1 5 6) 0 0x4000 = true ∧ refusedOperands (.grant 1 5 6) 0 0x40 = true ∧
      refusedOperands (.grant 1 5 6) 511 0x4040 = true := by decide +kernel

/-! ## Queues and channels -/

/-- A queue with one entry and a full one, and a channel with a command. -/
def queueS : State := withX [(1, 0x5000)] base |>.onCtx fun c =>
  { c with q := (c.q.set 1 [7]).set 2 (List.replicate 8 9), ch := c.ch.set 3 { c.ch[3] with halted := true, ecause := 5, eaddr := 8 } }

theorem test_witness_Queues :
    VectorIdle queueS ∧ queueS.ctx.stores = [] ∧ (8 ≤ (15 : BitVec 4).toNat ∧ queueS.ctx.ch[((15 : BitVec 4).setWidth 3).toNat].used < 16) ∧
      (7 : BitVec 4).toNat < 8 ∧ queueS.ctx.q[((7 : BitVec 4).setWidth 3).toNat].length < 8 ∧
      (queueS.ctx.ch[((0 : BitVec 4).setWidth 3).toNat].cmds = [] ∧ queueS.ctx.ch[((0 : BitVec 4).setWidth 3).toNat].started = none ∧
        queueS.ctx.ch[((0 : BitVec 4).setWidth 3).toNat].halted = false) ∧
      queueS.ctx.ch[((3 : BitVec 4).setWidth 3).toNat].halted = true ∧
      queueS.ctx.q[((1 : BitVec 4).setWidth 3).toNat] = [7] ∧ queueS.ctx.q[((0 : BitVec 4).setWidth 3).toNat] = [] ∧
      after (exec (.qpush 15 1) queueS) (fun t => t.ctx.ch[7].cmds.length == 1) = true ∧
      after (exec (.qpop 1 5) queueS) (fun t => t.getX 5 == 7 && t.ctx.q[1].isEmpty) = true ∧
      after (exec (.drain 3) queueS) (fun t => t.ctx.cause == 0x105) = true := by decide +kernel

/-- What reading a 64-byte block at a commit finds. -/
def readBlk (s : State) (va : Word) : Option (List Byte × State) :=
  match s.force 2 fun _ => true with
  | none => none
  | some s =>
    match s.aligned 0 .load none 64 va with
    | (.ok p, s) =>
      match s.readAt p s.ctx.headPc 64 with
      | .value _ s => some (s.ownBytes p.loc.key 64, s)
      | _ => none
    | _ => none

theorem commitBlock_of_readBlk {s s1 : State} {va : Word} {bs : List Byte} (h : readBlk s va = some (bs, s1)) :
    ∀ go, s.commitBlock va go = go bs s1 := by
  intro go
  unfold readBlk at h
  unfold State.commitBlock
  rcases hb : s.force 2 (fun _ => true) with _ | t
  · simp [hb] at h
  · simp only [hb] at h ⊢
    rcases he : t.aligned 0 .load none 64 va with ⟨_ | p, u⟩
    · simp [he] at h
    · simp only [he] at h ⊢
      rcases hr : u.readAt p u.ctx.headPc 64 with ⟨v, w⟩ | _ | _
      · simp only [hr, Option.some.injEq, Prod.mk.injEq] at h ⊢
        obtain ⟨rfl, rfl⟩ := h
        rfl
      · simp [hr] at h
      · simp [hr] at h

/-- A copy of two elements from 0x7000 to 0x7800, both in GLOBAL, with its blocks at 0x5000 and 0x5040 (R254). -/
def copyS : State :=
  withBytes 0x5000 (block 64 [(0, 8, 2 ^ 56 + 3 * 2 ^ 46), (8, 8, 0x7000), (16, 8, 0x7800), (24, 8, 0x5040)] ++ nest2) queueS
where nest2 : List Byte := block 64 [(0, 4, 0x01100000), (8, 4, 2), (12, 4, 8)]

/-- A gather of one row of 32 bytes for each of two elements of v4 (R261, R262). -/
def gatherS : State :=
  withBytes 0x5000 (block 64 [(0, 8, 2 ^ 56), (8, 8, 0x7000), (16, 8, 0x7800), (24, 4, 32), (28, 4, 100), (32, 4, 32)])
    (withV 4 32 [3, 1] (withVl 2 2 queueS))

/-- A command was pushed to channel 1. -/
def pushedOne (t : State) : Bool := t.ctx.ch[1].cmds.length == 1

theorem test_witness_Copy :
    VectorIdle copyS ∧ copyS.ctx.stores = [] ∧ copyS.ctx.ch[((1 : BitVec 4).setWidth 3).toNat].used < 16 ∧
      ∃ bs ns n c s1 s2, copyBlockOk bs = true ∧ parseNest ns = some n ∧ joinBlocks bs n = some c ∧ c.work.elems ≠ [] ∧
        s2.boardRange c.work = none ∧ s1.ctx = (issued (.copy 1 1) (copyS.getX 1) 0 copyS).ctx ∧
        s2.ctx = (issued (.copy 1 1) (copyS.getX 1) 0 copyS).ctx ∧
        (∀ go, (issued (.copy 1 1) (copyS.getX 1) 0 copyS).commitBlock (copyS.getX 1) go = go bs s1) ∧
        (∀ go, s1.commitBlock (blockNest bs) go = go ns s2) := by
  refine ⟨by decide +kernel, by decide +kernel, by decide +kernel, ?_⟩
  have h : (match readBlk (issued (.copy 1 1) (copyS.getX 1) 0 copyS) (copyS.getX 1) with
      | some (bs, s1) => match readBlk s1 (blockNest bs) with
        | some (ns, s2) => match parseNest ns with
          | some n => match joinBlocks bs n with
            | some c => copyBlockOk bs && !c.work.elems.isEmpty && decide (s2.boardRange c.work = none) &&
              decide (s1.ctx = (issued (.copy 1 1) (copyS.getX 1) 0 copyS).ctx) &&
              decide (s2.ctx = (issued (.copy 1 1) (copyS.getX 1) 0 copyS).ctx)
            | none => false
          | none => false
        | none => false
      | none => false) = true := by decide +kernel
  split at h <;> rename_i h1
  · split at h <;> rename_i h2
    · split at h <;> rename_i h3
      · split at h <;> rename_i h4
        · simp only [Bool.and_eq_true, decide_eq_true_eq, Bool.not_eq_true', List.isEmpty_eq_false_iff] at h
          exact ⟨_, _, _, _, _, _, h.1.1.1.1, h3, h4, h.1.1.1.2, h.1.1.2, h.1.2, h.2, commitBlock_of_readBlk h1, commitBlock_of_readBlk h2⟩
        · exact absurd h Bool.false_ne_true
      · exact absurd h Bool.false_ne_true
    · exact absurd h Bool.false_ne_true
  · exact absurd h Bool.false_ne_true

theorem test_witness_Gather :
    VectorIdle gatherS ∧ gatherS.ctx.stores = [] ∧ gatherS.ctx.ch[((1 : BitVec 4).setWidth 3).toNat].used < 16 ∧
      ∃ bs s1, descOk bs gatherS.ctx.sew = true ∧ (gatherWork bs [3, 1] []).elems ≠ [] ∧ field bs 0 8 / 2 ^ 40 % 2 ≠ 1 ∧
        s1.boardRange (gatherWork bs [3, 1] []) = none ∧ s1.ctx = (issued (.vgthr 4 1 1) (gatherS.getX 1) 0 gatherS).ctx ∧
        (∀ go, (issued (.vgthr 4 1 1) (gatherS.getX 1) 0 gatherS).commitBlock (gatherS.getX 1) go = go bs s1) := by
  refine ⟨by decide +kernel, by decide +kernel, by decide +kernel, ?_⟩
  have h : (match readBlk (issued (.vgthr 4 1 1) (gatherS.getX 1) 0 gatherS) (gatherS.getX 1) with
      | some (bs, s1) => descOk bs gatherS.ctx.sew && !(gatherWork bs [3, 1] []).elems.isEmpty && decide (field bs 0 8 / 2 ^ 40 % 2 ≠ 1) &&
        decide (s1.boardRange (gatherWork bs [3, 1] []) = none) &&
        decide (s1.ctx = (issued (.vgthr 4 1 1) (gatherS.getX 1) 0 gatherS).ctx)
      | none => false) = true := by decide +kernel
  split at h <;> rename_i h1
  · simp only [Bool.and_eq_true, decide_eq_true_eq, Bool.not_eq_true', List.isEmpty_eq_false_iff] at h
    exact ⟨_, _, h.1.1.1.1, h.1.1.1.2, h.1.1.2, h.1.2, h.2, commitBlock_of_readBlk h1⟩
  · exact absurd h Bool.false_ne_true

/-- The words push their commands, with the row numbers that the elements of the register give. -/
theorem test_copy_and_gather :
    after (exec (.copy 1 1) copyS) pushedOne = true ∧
      after (exec (.vgthr 4 1 1) gatherS) (fun t => pushedOne t && match t.ctx.ch[1].cmds with
        | [⟨.gather _ k _, _, _, _, _, _⟩] => k == [3, 1]
        | _ => false) = true := by decide +kernel

end Sys2Proof.Tests
end

