-- ==== Sys2Proof/Tests/Witness4.lean ====
section
/-! SUPPORT. For each statement about vector words, concrete states and operands that meet its hypotheses together, clause by clause. -/

namespace Sys2Proof.Tests

set_option Elab.async false

open Sys2Proof.Machine Sys2Proof.Claims

/-! ## Elementwise words -/

/-- Two 32-bit elements: v2 = 5, −1; v3 = 7, 2; v0 masks element 1; x1 = 3. -/
def vecS : State := withX [(1, 3)] (withV 0 1 [0, 1] (withV 3 32 [7, 2] (withV 2 32 [5, 0xFFFFFFFF] (withVl 2 2 base))))

/-- Every element of the full grant active. -/
def fullS : State := withVl 64 2 vecS

/-- A vector unit that is busy, with n entries. -/
def viqS (n : Nat) : State := { vecS with ctx := { vecS.ctx with viq := List.replicate n ⟨.vmv 2 3 0, 0, 0, 0, none⟩ } }

theorem test_witness_VectorIssue :
    entersViq (.vadd 1 2 3 0) = true ∧ xDest (.vadd 1 2 3 0) = none ∧ VectorIdle vecS ∧ 64 ≤ (viqS 64).ctx.viq.length ∧
      ((viqS 63).ctx.viq.length < 64 ∧ (viqS 63).ctx.viq ≠ []) := by decide +kernel

theorem test_witness_SetVectorLength :
    VectorIdle vecS ∧ vecS.issueLgn = vecS.ctx.lgn ∧ vecS.ctx.lgn ≤ 8 ∧ Nat.min (vecS.getX 1).toNat (vecS.ctx.lgn * 256 / (8 * 2 ^ 2)) = 3 ∧
      after (exec (.vsetvl 5 1 0 2) vecS) (fun t => t.getX 5 == 3 && t.ctx.vl == 3) = true := by decide +kernel

/-- An active element, the last one inside the grant, and one that the mask leaves. -/
theorem test_witness_IntegerElements :
    VectorIdle vecS ∧ (∃ f, arithForm (.vadd 1 2 3 1) = some (1, 2, .inl 3, 1, true, f)) ∧
      (∃ f, compareForm (.vsltVx 1 2 1 0 1) = some (1, 2, .inr 1, 0, true, f)) ∧
      (∃ f, soloForm (.vbcast 1 1 0) vecS = some (1, 0, f)) ∧ (vecS.ctx.active 1 1 = true ∧ vecS.ctx.active 1 0 = false) ∧
      (fullS.ctx.active 0 63 = true ∧ (63 + 1) * fullS.ctx.sew ≤ fullS.ctx.lgn * 256 ∧ (63 + 1) * fullS.ctx.sew ≤ 2048) ∧
      after (exec (.vadd 1 2 3 1) vecS) (fun t => t.ctx.elem 1 0 == 0 && t.ctx.elem 1 1 == 1) = true ∧
      after (exec (.vsltVx 1 2 1 0 0) vecS) (fun t => (t.ctx.getV 1).toNat == 2) = true :=
  ⟨by decide +kernel, ⟨_, rfl⟩, ⟨_, rfl⟩, ⟨_, rfl⟩, by decide +kernel, by decide +kernel, by decide +kernel, by decide +kernel⟩

/-- A facet with the pairing bit, without, and destinations with a partner and without. -/
theorem test_witness_RegisterMove :
    VectorIdle (withFacet 2 0x9001 vecS) ∧ facetP ((withFacet 2 0x9001 vecS).ctx.getFacet 2) = true ∧ facetP (vecS.ctx.getFacet 2) = false ∧
      hasPartner 31 = true ∧ hasPartner 32 = false ∧ hasPartner 1 = false := by decide +kernel

theorem test_witness_FloatVectors :
    VectorIdle vecS ∧ (∃ f, floatForm (.vfadd 1 2 3 0 0) vecS = some (1, 0, 0, true, f)) ∧
      (∃ f, floatForm (.vfmin 1 2 3 0 0) vecS = some (1, 0, 0, false, f)) ∧ (∃ f, floatCompare (.vflt 1 2 3 0 0) vecS = some (1, 0, 0, f)) ∧
      floatKind false vecS.ctx.sew = some .f32 ∧ frmReserved vecS.ctx.frm = false ∧
      floatKind false (withVl 2 0 vecS).ctx.sew = none ∧ frmReserved ({ vecS.ctx with frm := 5 } : Ctx).frm = true ∧
      floatKind true (withVl 2 1 vecS).ctx.sew = some .bf16 :=
  ⟨by decide +kernel, ⟨_, rfl⟩, ⟨_, rfl⟩, ⟨_, rfl⟩, by decide +kernel, by decide +kernel, by decide +kernel, by decide +kernel,
    by decide +kernel⟩

theorem test_witness_Recurrences :
    VectorIdle vecS ∧ (∃ g, recurForm (.vrecAdd 1 2 0) vecS = some (1, 0, false, g)) ∧ vecS.ctx.vl ≠ 0 ∧ (withVl 0 2 vecS).ctx.vl = 0 ∧
      after (exec (.vrecAdd 1 2 0) vecS) (fun t => t.ctx.elem 1 0 == 5 && t.ctx.elem 1 1 == 4 && t.ctx.cl == 4) = true :=
  ⟨by decide +kernel, ⟨_, rfl⟩, by decide +kernel, by decide +kernel, by decide +kernel⟩

/-! ## Fixed point, moves, masks, queues -/

theorem test_witness_WideAndSaturating :
    VectorIdle vecS ∧ (∃ f, wideForm (.vwmul 4 2 3 0 0) vecS = some (4, 0, f)) ∧ (vecS.ctx.sew ≠ 64 ∧ vecS.ctx.lgn ≤ 8) ∧
      (withVl 2 3 vecS).ctx.sew = 64 ∧ (∃ f, satForm (.vssub 4 2 3 0 1) vecS = some (4, 0, true, f)) ∧
      (∀ d a b m u, (.vssub 4 2 3 0 1 : Instr) ≠ .vnclip d a b m u) ∧ (∃ f, satForm (.vnclip 4 2 3 0 1) vecS = some (4, 0, true, f)) ∧
      after (exec (.vssub 4 2 3 0 1) vecS) (fun t => t.ctx.elem 4 0 == 0 && t.ctx.elem 4 1 == 0xFFFFFFFD && t.ctx.vsat) = true :=
  ⟨by decide +kernel, ⟨_, rfl⟩, by decide +kernel, by decide +kernel, ⟨_, rfl⟩, fun _ _ _ _ _ => nofun, ⟨_, rfl⟩, by decide +kernel⟩

theorem test_witness_MovesAndMasks :
    VectorIdle vecS ∧ (∃ f, moveForm (.vslidedn 4 2 1 0) vecS = some (4, 0, f)) ∧ (∃ f, maskForm (.vmxor 4 2 3 0) vecS = some (4, 0, f)) ∧
      vecS.ctx.lgn ≤ 8 ∧ ((List.range vecS.ctx.vl).filter (vecS.ctx.active 1)).length = 1 ∧
      vecS.ctx.vl * vecS.ctx.sew ≤ vecS.ctx.lgn * 256 ∧
      after (exec (.vcmprs 4 2 1) vecS) (fun t => t.ctx.elem 4 0 == 0xFFFFFFFF && t.ctx.elem 36 0 == 1 && t.ctx.vl == 1) = true :=
  ⟨by decide +kernel, ⟨_, rfl⟩, ⟨_, rfl⟩, by decide +kernel, by decide +kernel, by decide +kernel, by decide +kernel⟩

/-- Sums of finite elements that are 0 and that are not, of a NaN, and of infinities of both signs and of one. -/
theorem test_witness_FloatSum :
    (let l := [0x3F800000, 0xBF800000].map FType.f32.decode
     (∀ v ∈ l, v.isFin = true) ∧ exactSum .f32 .rdn l = (0x80000000, 0)) ∧
      (let l := [0x3F800000, 0x40000000].map FType.f32.decode
       (∀ v ∈ l, v.isFin = true) ∧ exactSum .f32 .rne l = (0x40400000, 0)) ∧
      (let l := [0x7F800001, 0x40000000].map FType.f32.decode
       (∃ v ∈ l, v.isNan = true) ∧ exactSum .f32 .rne l = (0x7FC00000, 16)) ∧
      (let l := [0x7F800000, 0xFF800000].map FType.f32.decode
       (∀ v ∈ l, v.isNan = false) ∧ .inf false ∈ l ∧ .inf true ∈ l) ∧
      (let l := [0x7F800000, 0x40000000].map FType.f32.decode
       (∀ v ∈ l, v.isNan = false) ∧ .inf false ∈ l ∧ .inf (!false) ∉ l) := by decide +kernel

theorem test_witness_FloatSum_not_zero :
    ((([0x3F800000, 0x40000000].map FType.f32.decode).map ratVal).sum ≠ 0) ∧ (([0x3F800000, 0xBF800000].map FType.f32.decode).map ratVal).sum = 0 := by
  have h : [0x3F800000, 0x40000000].map FType.f32.decode = [.fin false 0x800000 (-23), .fin false 0x800000 (-22)] := by decide +kernel
  have g : [0x3F800000, 0xBF800000].map FType.f32.decode = [.fin false 0x800000 (-23), .fin true 0x800000 (-23)] := by decide +kernel
  rw [h, g]
  constructor <;> norm_num [ratVal, ratOf]

theorem test_witness_QueuePushes :
    let s := vecS.onCtx fun c => { c with q := c.q.set 1 (List.replicate 8 0) }
    queueForm (.vredsum 0 2 0 1) s = some (0, 4) ∧ VectorIdle s ∧ s.ctx.q[(0 : BitVec 3).toNat].length < 8 ∧
      8 ≤ s.ctx.q[(1 : BitVec 3).toNat].length ∧ floatKind false s.ctx.sew = some .f32 ∧ frmReserved s.ctx.frm = false ∧
      after (exec (.vredsum 0 2 0 1) s) (fun t => t.ctx.q[0] == [4]) = true := by decide +kernel

/-- Every width has a scale block, and a wide type or none. -/
theorem test_witness_TransformsAndConversions :
    let b := withVl 2 0 vecS
    VectorIdle vecS ∧ wideKind b.ctx.sew = none ∧ frmReserved vecS.ctx.frm = false ∧
      (wideKind vecS.ctx.sew).isSome = true ∧ vecS.ctx.scaleBlock.isSome = true ∧ (4 : BitVec 3).toNat ≤ 4 ∧
      floatKind false vecS.ctx.sew = some .f32 ∧ (5 : BitVec 6).toNat ≤ 5 ∧ (withVl 2 1 vecS).ctx.sew = 16 ∧
      floatKind false (withVl 2 1 vecS).ctx.sew = some .f16 ∧
      (let s := vecS.onCtx fun c => { c with rh := c.rh.set 3 ⟨true, 1, 2⟩ }
       VectorIdle s ∧ s.ctx.rh.toList[(s.getX 1).toNat]? = some ⟨true, 1, 2⟩) ∧
      (let s := withX [(1, 16)] vecS
       s.ctx.rh.toList[(s.getX 1).toNat]? = none) := by decide +kernel

/-! ## Sorted runs -/

/-- v2 = 1, 3 and v4 = 2, 2, ascending runs of signed 32-bit keys with payloads (facet S, P, L = 2); v6 = 9, 9 unsorted; x1 = 2. -/
def sortS : State :=
  withX [(1, 2)] (withFacet 2 0x9002 (withFacet 4 0x9002 (withV 2 32 [1, 3] (withV 4 32 [2, 2] (withV 6 32 [9, 9] (withVl 2 2 base))))))

theorem test_witness_SortedRuns :
    VectorIdle sortS ∧ keyWidth (0 : BitVec 3).toNat = sortS.ctx.sew ∧ hasPartner 10 = true ∧ hasPartner (10 + 1) = true ∧
      SortedTwo sortS 2 4 0 ∧ facetD (sortS.ctx.getFacet 2) = false ∧ facetP (sortS.ctx.getFacet 2) = true ∧
      facetP (sortS.ctx.getFacet 4) = true ∧ InOrder 0 false (sortS.ctx.sortedRun 2) ∧ InOrder 0 false (sortS.ctx.sortedRun 4) ∧
      sortS.ctx.q[(5 : BitVec 3).toNat].length < 8 ∧
      8 ≤ (sortS.onCtx fun c => { c with q := c.q.set 5 (List.replicate 8 0) }).ctx.q[(5 : BitVec 3).toNat].length ∧
      after (exec (.vmrg 10 2 4 0) sortS) (fun t => t.ctx.elem 10 0 == 1 && t.ctx.elem 10 1 == 2 && t.ctx.elem 11 0 == 2 &&
        t.ctx.elem 11 1 == 3) = true ∧
      after (exec (.vpart 10 2 1 0) sortS) (fun t => t.ctx.elem 10 0 == 1 && t.ctx.elem 11 0 == 3) = true := by decide +kernel

/-- Each check of R173 in its order: K against SEW, S, D, K and P, and a destination without a partner. -/
theorem test_witness_SelectedRuns :
    SortedOne sortS 2 0 ∧ hasPartner 10 = true ∧ facetP (sortS.ctx.getFacet 2) = true ∧
      keyWidth (0 : BitVec 3).toNat ≠ (withVl 2 1 sortS).ctx.sew ∧ facetS (sortS.ctx.getFacet 6) = false ∧
      (let s := withFacet 4 0xD002 (withFacet 2 0x9602 sortS)
       facetK (s.ctx.getFacet 2) ≠ (0 : BitVec 3).toNat ∧ facetD (s.ctx.getFacet 2) ≠ facetD (s.ctx.getFacet 4)) ∧
      (let s := withFacet 4 0x8002 sortS
       facetK (s.ctx.getFacet 2) = (0 : BitVec 3).toNat ∧ facetP (s.ctx.getFacet 2) ≠ facetP (s.ctx.getFacet 4)) ∧
      (∃ d ∈ ([32, 33] : List (BitVec 6)), hasPartner d = false) ∧
      sortOne (.vtopk 10 2 1 0) = some (2, 0, true, []) ∧ sortTwo (.vmrg 32 2 4 0) = some (2, 4, 0, true, [32, 33]) ∧
      after (exec (.vchks 6 0 0) sortS) (fun t => facetS (t.ctx.getFacet 6)) = true := by decide +kernel

/-! ## Vector loads and stores -/

/-- Two 32-bit elements in GLOBAL at x1 = 0x3000, a notify word at 0x3100, and x2 past the address range. -/
def vmemS : State :=
  let s := withX [(1, 0x3000), (2, 2 ^ 55), (3, 2 ^ 55 - 4 - 0x3000)] (withBytes 0x3000 (leBytes 8 0x0000000700000005) vecS)
  { s with ctx := { s.ctx with vnotify := 0x3108 } }

theorem test_witness_VectorLoads :
    VectorPath vmemS ∧ (vecLoad (.vld 8 1 0 2) vmemS).isSome = true ∧
      (match vecLoad (.vld 8 1 0 2) vmemS with
        | some v => decide (v.fits vmemS) && match v.places (.vld 8 1 0 2) .load vmemS with
          | (ps, s1) => ps.length == 2 && !ps.any isRefused && ps.all fun p => match p.2 with
            | .ok l => decide (Plain s1 l.loc.key v.width)
            | .error _ => false
        | none => false) = true ∧
      after (exec (.vld 8 1 0 2) vmemS) (fun t => t.ctx.elem 8 0 == 5 && t.ctx.elem 8 1 == 7) = true := by decide +kernel

/-- A fof form whose element 1 is the first that fails (the table of `base` ends at 2^29), and a load whose element 0 is; a reserved space, another width. -/
theorem test_witness_VectorMemoryTraps :
    (match vecLoad (.vldF 8 2 0 2) (withX [(2, 2 ^ 29 - 4)] vmemS) with
      | some v => v.special && match (v.places (.vldF 8 2 0 2) .load (withX [(2, 2 ^ 29 - 4)] vmemS)).1.find? isRefused with
        | some (a, .error (.cause _ va)) => a.i == 1 && va == 2 ^ 29
        | _ => false
      | none => false) = true ∧
      (match vecLoad (.vld 8 2 0 2) vmemS with
        | some v => match (v.places (.vld 8 2 0 2) .load vmemS).1.find? isRefused with
          | some (a, .error (.cause c va)) => a.i == 0 && c == 0x05 && va == 2 ^ 55
          | _ => false
        | none => false) = true ∧
      (∃ v, vecLoad (.vld 8 1 0 1) vmemS = some v ∧ ¬ v.fits vmemS) ∧
      (∃ v, vecStore (.vstN 8 1 0 2) vmemS = some v ∧ v.special = true ∧ v.fits vmemS) ∧
      (8 ≤ vmemS.ctx.vnotify.toNat % 2 ^ 55 ∧ vmemS.ctx.vnotify.toNat % 8 ≤ 4) ∧
      (4 < ({ vmemS.ctx with vnotify := 0x310D } : Ctx).vnotify.toNat % 8) :=
  ⟨by decide +kernel, by decide +kernel, ⟨_, rfl, by decide +kernel⟩, ⟨_, rfl, by decide +kernel, by decide +kernel⟩, by decide +kernel,
    by decide +kernel⟩

theorem test_witness_VectorStores :
    VectorPath vmemS ∧ vmemS.ctx.detm = false ∧ vmemS.dev.holdStores = false ∧ vmemS.dev.regens = [] ∧ vmemS.dev.snap = none ∧ vmemS.dev.eccBad = [] ∧
      (match vecStore (.vstN 2 1 0 2) vmemS with
        | some v => decide (v.fits vmemS) && v.special && match v.places (.vstN 2 1 0 2) .store vmemS with
          | (ps, s1) => ps.length == 2 && s1.mem.wf && !ps.any isRefused && (ps.all fun p => match p.2 with
            | .ok l => decide (Plain s1 l.loc.key v.width)
            | .error _ => false) && match s1.aligned 0 .rmw none 8 (BitVec.ofNat 64 (vmemS.ctx.vnotify.toNat % 2 ^ 55 / 8 * 8)) with
              | (.ok p, s2) => s2.mem.wf && decide (Plain s2 p.loc.key 8)
              | _ => false
        | none => false) = true ∧
      after (exec (.vstN 2 1 0 2) vmemS) (fun t =>
        after (exec (.ld 5 1 0) t) (fun u => u.getX 5 == 0xFFFFFFFF00000005) && after (exec (.ld 5 1 0x108) t) fun u => u.getX 5 == 2) = true := by
  decide +kernel

end Sys2Proof.Tests
end

