-- ==== Sys2Proof/Tests/Witness6.lean ====
section
/-! SUPPORT. For each statement about the events of contexts, engines, counters, the dispatcher and the walker, concrete states that meet
its hypotheses together, clause by clause. -/

namespace Sys2Proof.Tests

set_option Elab.async false

open Sys2Proof.Machine Sys2Proof.Claims

/-! ## Contexts -/

/-- `base` with another context record. -/
def withCtx (f : Ctx → Ctx) : State := base.onCtx f

/-- Context 0, whose turn it is, waits at word `w` for `st`. -/
def stalled (w : Word32) (st : Stall) : State := (base.placeWord w).onCtx fun c => { c with stall := some st }

theorem test_witness_AsyncCauses :
    let a := withCtx fun c => { c with pCancelled := [⟨5, false, none⟩] }
    let b := { withCtx fun c => { c with reclaimAt := some 0 } with cyc := 2048 }
    let d := withCtx fun c => { c with armed := true, budget := 10, bused := 10 }
    let e := { withCtx fun c => { c with tmr := 7 } with cyc := 7 }
    0 < numContexts ∧ base.turnTo 0 = base ∧ (a.ctx.safePoint = true ∧ a.ctx.pMcheck = [] ∧ a.ctx.pCancelled = [⟨5, false, none⟩]) ∧
      (b.ctx.safePoint = true ∧ b.ctx.pMcheck = [] ∧ b.ctx.pCancelled = [] ∧ b.ctx.reclaimAt = some 0 ∧ 0 + 2048 ≤ b.cyc) ∧
      (d.ctx.safePoint = true ∧ d.ctx.pMcheck = [] ∧ d.ctx.pCancelled = [] ∧ d.ctx.pReclaim = none ∧ d.ctx.armed = true ∧
        d.ctx.budget ≠ 0 ∧ d.ctx.budget.toNat ≤ d.ctx.bused) ∧
      (e.ctx.safePoint = true ∧ e.ctx.pMcheck = [] ∧ e.ctx.pCancelled = [] ∧ e.ctx.pReclaim = none ∧ e.ctx.pBudget = false ∧
        e.ctx.pPreempt = false ∧ e.ctx.tmr ≠ 0 ∧ e.ctx.tmr.toNat ≤ e.cyc) ∧
      after (exec (.cancelled 0) a) (fun t => t.ctx.cause == 0x8000000000000013 && t.ctx.tval == 5) = true ∧
      after (exec (.timer 0) e) (fun t => t.ctx.cause == 0x8000000000000021 && t.ctx.tmr == 0) = true := by decide +kernel

/-- A machine check that is taken at the level of the context, and one that is taken at hyp. -/
theorem test_witness_MachineChecks : ∀ hyp ∈ [false, true],
    let c := { (withPriv .app base).ctx with pMcheck := [⟨9, hyp, none⟩] }
    c.safePoint = true ∧ ((c.takeAsync 0).map fun t => (t.priv, t.tval)) = some (if hyp then .hyp else .sup, 9) := by decide +kernel

/-- The words waitge, waiteq, tlbinv, clwait, clarr and clasp of R245 to R248, R329 and R407, at the pc of a context that waits there. -/
theorem test_witness_WaitEvents : ∀ p ∈ ([
    (0xD0308800, .word, .waitge 1 2 0), (0xD0408800, .word, .waiteq 1 2 0), (0xD8220009, .tlb, .tlbinv 1 2),
    (0xD4708800, .clwait 0 0, .clwait 1 2), (0xD4608060, .arrive 0 0, .clarr 1 3), (0xD4508120, .clasp 0 0, .clasp 1 9),
    (0xD4508120, .arrive 0 0, .clasp 1 9)] : List (Word32 × Stall × LateInstr)),
    (stalled p.1 p.2.1).ctx.stall = some p.2.1 ∧ decodeWord p.1 = .ok (.late p.2.2) ∧ ((stalled p.1 p.2.1).turnTo 0).fetchWaits = false ∧
      ((stalled p.1 p.2.1).turnTo 0).sctWord.1.toOption = some p.1 := by decide +kernel

/-- A store of one byte at key 5, a drained line of it, and a line of the write-combining buffer. -/
def pendAt (drain : Bool) : Pend := ⟨[(5, 7)], 0, false, 0, 0, 0, 5, 5, 0, 0, 0, drain, [(5, 1)], 0⟩
def lineAt (age : Nat) : WLine := ⟨0, age, [(5, 7)], [(5, 1)], 0, 0, 0, 0, 0⟩

/-- A unit of logical core 3 with a drained line, whose byte core 1 has written. -/
def drainS : State :=
  (withCtx fun c => { c with stores := [pendAt true], unit := some ⟨0, 1, false, 0, 0, [0], some 3, 0, false, false, true, true, none⟩ }).onDev
    fun d => { d with writers := [(0, [(5, 1)])] }

/-- A deterministic context with a line of its own, and a GLOBAL place. -/
def detS : State := withCtx fun c => { c with detm := true, wcb := [lineAt 1] }

/-- A place in HBM. -/
def b8 : Place := ⟨⟨8, false, false, false⟩, 0, 8⟩

/-- A store that waits, in a slice queue of the context whose turn it is; its write-combining buffer full; a context held by a range; a
store of a deterministic context. -/
theorem test_witness_AccessEvents :
    let s := withCtx fun c => { c with stores := [pendAt false] }
    let f := withCtx fun c => { c with wcb := List.replicate 4096 (lineAt 1) }
    let b := withCtx fun c => { c with stall := some (.board (some b8) 8) }
    (∃ p, s.ctx.stores[0]? = some p ∧ p.barrier = 0 ∧ p.waits (s.ctx.stores.take 0) = false ∧ s.holds p = false ∧
        Takes s p.writes ∧ p.drain = false) ∧
      (drainS.ctx.stores[0]? = some (pendAt true) ∧ (pendAt true).drain = true ∧
        drainS.ctx.unit.map (·.arm) = some 0 ∧ drainS.drainRank = 3 ∧ Takes drainS (pendAt true).writes) ∧
      (4096 ≤ f.wcbLines (coreOf 0) ∧ (f.ctxOf 0).wcb.head? = some (lineAt 1) ∧ (f.ctxOf 1).wcb.head? = none ∧
        (f.ctxOf 0).stores = [] ∧ (f.ctxOf 0).unit = none ∧ f.dev.holdStores = false ∧ BoardClear f 0 ∧ Takes f (lineAt 1).writes) ∧
      (b.ctx.stall = some (.board (some b8) 8) ∧ b.onBoard b8.loc.key 8 = false ∧ b.fetchWaits = false ∧ b.ctx.stores.any b.holds = false) ∧
      (detS.ctx.detm = true ∧ detS.wcbLines (coreOf detS.cur) < 4096 ∧ (∀ l ∈ detS.ctx.wcb, l.line = 0 → l.asid = detS.ctx.asid) ∧
        (56 : Nat) % 64 + (leBytes 8 1).length ≤ 64) ∧
      after (exec (.accessPerform 0 0) s) (fun t => t.byteAt 5 == 7 && t.ctx.stores.isEmpty) = true ∧
      after (exec (.accessPerform 0 0) drainS) (fun t => t.byteAt 5 == 7 && t.dev.writers == [(0, [(5, 3)])]) = true :=
  ⟨⟨_, rfl, by decide +kernel⟩, by decide +kernel, by decide +kernel, by decide +kernel, by decide +kernel, by decide +kernel,
    by decide +kernel⟩

/-! ## Engine and counters -/

/-- A copy command of two 8-byte elements in GLOBAL, from `src` to 0x7800 (R254, R255). -/
def copyCmd (src : Nat) : Cmd :=
  ⟨.copy (block 64 [(0, 8, 2 ^ 56 + 3 * 2 ^ 46), (8, 8, src), (16, 8, 0x7800)])
    (block 64 [(0, 4, 0x01100000), (8, 4, 2), (12, 4, 8)]), 0, .hyp, none, 0, 0⟩

/-- Context 0 with a command in channel 2, and with one that the engine has started. -/
def engineS (c : Cmd) : State := withCtx fun x => { x with ch := x.ch.set 2 { x.ch[2] with cmds := [c] } }
def startedS : State := withCtx fun x => { x with ch := x.ch.set 2 { x.ch[2] with started := some ⟨copyCmd 0x7000, 0, [(5, 7)], [(5, 1, 5)], false, [[(5, 1, 5)]]⟩ } }

/-- A command behind a store that another command's range holds (R221, R252). -/
def heldCmdS : State := withCtx fun x => { x with
  stores := [{ pendAt false with writes := [(polderKey (coreOf base.cur) 5, 7)] }]
  ch := (x.ch.set 3 { x.ch[3] with cmds := [{ copyCmd 0x7000 with board := some (0, 64) }] }).set 2
    { x.ch[2] with cmds := [{ copyCmd 0x7000 with after := 1 }] } }

/-- What R259 checks of the first command of channel 2. -/
def checked (s : State) (c : Cmd) : Option (Except Refused (List (Option Nat × Nat × Nat)) × Bool) :=
  match s.cmdWork 0 c with
  | (.ok w, s1) => match s1.checkElems 0 c.asid c.priv w w.elems with
    | (r, s2) => some (r, !w.elems.isEmpty && match r with
      | .ok ks => ks.all fun q => match q.1 with
        | some a => !s2.refuses a
        | none => true
      | .error _ => false)
  | _ => none

theorem test_witness_EngineEvents :
    (((engineS (copyCmd 0x7000)).ctxOf 0).ch[2].cmds = [copyCmd 0x7000] ∧ ((engineS (copyCmd 0x7000)).ctxOf 0).ch[2].halted = false ∧
        ((engineS (copyCmd 0x7000)).ctxOf 0).ch[2].started = none) ∧
      ((checked (engineS (copyCmd 0x7000)) (copyCmd 0x7000)).map (·.2)) = some true ∧
      ((engineS (copyCmd 0x7000)).storesBefore 0 (copyCmd 0x7000) = some (engineS (copyCmd 0x7000)) ∧
        (engineS (copyCmd (2 ^ 55))).storesBefore 0 (copyCmd (2 ^ 55)) = some (engineS (copyCmd (2 ^ 55)))) ∧
      heldCmdS.storesBefore 0 { copyCmd 0x7000 with after := 1 } = none ∧
      (match (engineS (copyCmd (2 ^ 55))).cmdWork 0 (copyCmd (2 ^ 55)) with
        | (.ok w, s1) => match (s1.checkElems 0 0 .hyp w w.elems).1 with
          | .error (.cause c va) => c == 0x05 && va == 2 ^ 55
          | _ => false
        | _ => false) = true ∧
      (match (base.cmdWork 0 ⟨.push (2 ^ 55), 0, .hyp, none, 0, 0⟩).1 with
        | .error (.cause c va) => c == 0x05 && va == 2 ^ 55
        | _ => false) = true ∧
      okWith (base.cmdWork 0 ⟨.gather [] [] [], 0, .hyp, none, 0, 0⟩) (fun w _ => w.elems.isEmpty) = true ∧
      (∃ st, (startedS.ctxOf 0).ch[2].started = some st ∧ Takes startedS st.writes ∧ st.cmd.board = none) ∧
      after (exec (.copyCommandStart 0 2) (engineS (copyCmd 0x7000))) (fun t => t.ctx.ch[2].started.isSome && t.ctx.ch[2].cmds.isEmpty) = true ∧
      after (exec (.copyCommandRetire 0 2) startedS) (fun t => t.byteAt 5 == 7 && t.ctx.ch[2].done == 1 && t.ctx.ch[2].oob == 1) = true :=
  ⟨by decide +kernel, by decide +kernel, by decide +kernel, by decide +kernel, by decide +kernel, by decide +kernel, by decide +kernel,
    ⟨_, rfl, by decide +kernel⟩, by decide +kernel, by decide +kernel⟩

/-- Counter 1 (target 2, parent 2) with count `n`, its parent of target `m`, and an increment of ordinal 0. -/
def countS (n m : Nat) (counted : List Nat) : State :=
  base.onDev fun d => { d with
    counters := [(ctrKey base.die 1, ⟨true, false, false, 0, n, 2, some (ctrKey base.die 2), 8, 0, 7, counted⟩),
      (ctrKey base.die 2, ⟨true, false, false, 1, 0, m, none, 0, 0, 8, []⟩)]
    incs := [⟨ctrKey base.die 1, false, 0, 7⟩] }

/-- Below its target, at it with a parent below its own, and an ordinal that has been counted. -/
theorem test_witness_CounterEvents :
    NoneWaits (countS 0 2 []) ∧ (countS 0 2 []).dev.incs[0]? = some ⟨ctrKey base.die 1, false, 0, 7⟩ ∧
      (((countS 0 2 []).dev.counter false (ctrKey base.die 1)).map fun k => (k.done, k.arm, decide (k.count + 1 < k.target))) =
        some (false, 7, true) ∧
      (((countS 1 2 [1]).dev.counter false (ctrKey base.die 1)).map fun k => decide (k.target ≤ k.count + 1 ∧ 0 ∉ k.counted)) = some true ∧
      (((countS 1 2 [1]).dev.counter false (ctrKey base.die 2)).map fun q =>
        decide (q.done = false ∧ q.arm = 8 ∧ ctrKey base.die 1 % 8192 ∉ q.counted ∧ q.count + 1 < q.target)) = some true ∧
      (((countS 1 2 [0]).dev.counter false (ctrKey base.die 1)).map fun k => decide (0 ∈ k.counted)) = some true ∧
      after (exec (.counterIncrement 0) (countS 1 2 [1])) (fun t => t.dev.incs.isEmpty &&
        ((t.dev.counter false (ctrKey base.die 2)).map (·.count)) == some 1) = true := by decide +kernel

/-- A clasp of two devices, with and without the arrival of member 0. -/
theorem test_witness_ClaspEvents :
    let k : Clasp := ⟨true, 2, 1, 0, 0, none, 0, [(0, 0, 0)], [], [], []⟩
    let s := base.onDev fun d => { d with clasps := [(4, k)] }
    lookup 4 s.dev.clasps = some k ∧ k.devices = true ∧ 1 < k.nmem ∧
      after (exec (.deviceMemberArrival 4 1 9) s) (fun t => (lookup 4 t.dev.clasps).map (·.epoch) == some 1) = true := by decide +kernel

/-! ## Launches -/

/-- A launch of three units on die 0: version 1, LG = 1, TR = 1, entry 0x8000, x3 to x10 from 0x64 on (R302). -/
def launch (ctl : Nat) (ph : Phase) : Launch :=
  { die := 0, ctr := 7, shadow := false, arm := 20, by_ := 0, byTenure := 0, asid := 0, phase := ph, readySeq := 4, bank := 3, passes := 0
    record := block 256 [(0, 8, 2 ^ 56 + 2 ^ 36 + 2 ^ 32 + ctl), (8, 8, 0x8000), (16, 8, 0x9000), (64, 8, 100), (132, 4, 0x1000)]
    space := block 64 [(0, 4, 0x01100000), (8, 4, 3)], pro := [], proNest := [], cba := [], strict := false, takenSeq := 0
    head := 0, stop := 3, cores := [], curR := 0, curC := 0, band := 0, back := [], stolen := [], lost := [], failed := none
    reserved := [], owner := none }

/-- A device with that launch. -/
def launched (l : Launch) : State := base.onDev fun d => { d with launches := [l], seq := 30 }

/-- A context that is free, and the same with a unit to start. -/
def freeS (l : Launch) : State := (launched l).onCtx fun c => { c with run := .off }
def handedS (l : Launch) (ready : Bool) : State :=
  (freeS l).onCtx fun c => { c with unit := some { l.nestUnit 1 with ready } }

/-- A gang of three on contexts 0, 2 and 4, reserved. -/
def gang : Launch := { launch (2 ^ 54) .active with reserved := [0, 2, 4] }

theorem test_witness_DispatcherEvents :
    let s := launched (launch 0 .ready)
    (s.dev.inPhase 0 .active).length < 8 ∧ popChoice (s.dev.inPhase 0 .ready) 3 5 = some (launch 0 .ready) ∧
      (launch 0 .ready).isGang = false ∧ (freeS gang).dev.reserving 0 = some gang ∧
      (gang.isPlc = false ∧ gang.proAddr = 0 ∧ gang.back = [] ∧ gang.reserved.length = gang.units ∧ gang.reserved.Nodup ∧
        ∀ c ∈ gang.reserved, ((freeS gang).ctxOf c).run = .off) ∧
      after (exec (.dispatcherPop 0 3 5) s) (fun t => t.dev.launches.map (·.phase) == [.active]) = true ∧
      after (exec (.gangAdmit 0) (freeS gang)) (fun t => (t.ctxOf 4).run == .running && (t.ctxOf 4).pc == 0x8000) = true := by
  decide +kernel

/-- A prologue that copies 16 bytes of the polder to the staging area (R310). -/
def proLaunch : Launch :=
  { launch 0 .active with
    pro := block 64 [(0, 8, 2 ^ 56 + 2 ^ 52 + 2 ^ 48 + 3 * 2 ^ 46), (8, 8, 0x100)], proNest := block 64 [(0, 4, 0x01100000), (8, 4, 2), (12, 4, 8)]
    record := block 256 [(0, 8, 2 ^ 56 + 2 ^ 36 + 2 ^ 32), (8, 8, 0x8000), (40, 8, 0x5000), (132, 4, 0x1000)] }

theorem test_witness_WalkerEvents :
    let l := launch 0 .active
    (l.isPlc = false ∧ l.isPanel = false ∧ l.isGang = false ∧ l.back = [] ∧ (freeS l).isFree 0 = true ∧
        sortBy (·.takenSeq) ((freeS l).dev.handing (dieOfCtx 0)) = [l] ∧ (freeS l).fits l 0 = true ∧ l.head < l.stop) ∧
      (let s := (handedS l true).onCtx fun c => { c with run := .running }
       (s.ctxOf 0).unit = some { l.nestUnit 1 with ready := true } ∧ (s.ctxOf 0).preload = none ∧ (s.ctxOf 0).run = .running ∧
         (l.nestUnit 1).arm = l.arm ∧ l.stgsz ≠ 0 ∧ sortBy (·.takenSeq) (s.dev.handing (dieOfCtx 0)) = [l] ∧
         s.fits l 0 = true ∧ l.head < l.stop ∧ l.head % 2 ≠ (l.nestUnit 1).ord % 2) ∧
      (((handedS l true).ctxOf 0).run = .off ∧ ((handedS l true).ctxOf 0).unit = some { l.nestUnit 1 with ready := true }) ∧
      after (exec (.unitStart 0) (handedS l true)) (fun t => t.ctx.run == .running && t.ctx.getX 3 == 100 && t.ctx.getX 25 == 1) = true ∧
      after (exec (.unitHandOut 0) (freeS l)) (fun t => (t.ctx.unit.map (·.ord)) == some 0) = true := by decide +kernel

/-- The prologue of a unit: its work is given, its elements pass, and memory takes its writes. -/
theorem test_witness_Prologue :
    ((handedS proLaunch false).ctxOf 0).unit = some { proLaunch.nestUnit 1 with ready := false } ∧
      ((handedS proLaunch false).ctxOf 0).run = .off ∧ (handedS proLaunch false).dev.launchOf 20 = some proLaunch ∧
      (match proLaunch.prologue { proLaunch.nestUnit 1 with ready := false } with
        | some w => okWith ((handedS proLaunch false).checkElems (coreOf 0) proLaunch.asid .app w w.elems) fun ks s1 =>
            !w.elems.isEmpty && decide (Takes s1 (s1.moveBytes ks)) && ks.all fun q => q.1.all fun a => !s1.refuses a
        | none => false) = true := by decide +kernel

theorem test_witness_TheftEvents :
    let l := launch (2 ^ 53 + 2 ^ 51) .active
    let s := (launched l).onDev fun d => { d with peers := [(5, 0)], peerAsids := [(5, 0)], asked := [(5, 1, 2)] }
    let u := { freeS l with moves := [.steal 0 5 1 2 1 1 1 3] }.onDev fun d => { d with flagged := 0x20, links := [⟨true, 5, 8, 1⟩] }
    (s.dev.launches.find? fun l => l.die == 0 && l.ctr == 7 && !l.shadow && l.owner.isNone) = some l ∧ l.isSteal = true ∧
      (5, s.jobOf l.asid) ∈ s.dev.peers ∧ (5, l.asid.toNat) ∈ s.dev.peerAsids ∧ (s.dev.thefts.filter fun t => t.1 == 0).length + 1 < 4 ∧ l.phase = .active ∧
      (5, 1, 2) ∈ s.dev.asked ∧ Nat.min 9 ((l.stop - l.head) / 2) = 1 ∧
      field (block 586 [(7, 1, 1)]) 7 1 = 1 ∧
      (u.dev.flagged.getLsbD 5 = true ∧ (∃ c ∈ ctxsOf 0, u.isFree c = true ∧ 1 ≤ (u.avail c).1 ∧ 1 ≤ (u.avail c).2) ∧ (∀ c ∈ ctxsOf 0, (u.ctxOf c).unit = none ∨ (u.ctxOf c).run ≠ .off) ∧
        (∃ l ∈ u.dev.links, l.up = true ∧ l.peer = 5) ∧ ∀ a ∈ u.dev.asked, a.1 ≠ 5) ∧
      after (exec (.theftRequest 0 7 9 5) s) (fun t => t.dev.outbox.map (·.args) == [[0, 7, 2, 3]]) = true ∧
      after (exec (.theftReply 5 1 2 3 4 (block 586 [(7, 1, 1)])) s) (fun t => t.dev.launches.length == 2 && t.dev.asked.isEmpty) = true ∧
      after (step u) (fun t => t.dev.outbox.map (·.args) == [[1, 2, 3, 0]]) = true := by decide +kernel

end Sys2Proof.Tests
end

