-- ==== Sys2Proof/Tests/Witness5.lean ====
section
/-! SUPPORT. For each statement about tile words, concrete states and operands that meet its hypotheses together, clause by clause. -/

namespace Sys2Proof.Tests

set_option Elab.async false

open Sys2Proof.Machine Sys2Proof.Claims

/-! ## Accumulation and tile words -/

/-- One row of tiles, two f32 elements in v2 (1.0, 2.0) and in the pair v4 (1.0, −1.0), and operands in x1 to x4. -/
def tileS : State :=
  let s := withX [(1, 0), (2, 2047), (3, 2 ^ 32), (4, 8)] (withV 2 32 [0x3F800000, 0x40000000] (withV 4 32 [0x3F800000, 0xBF800000] (withVl 2 2 base)))
  { s with ctx := { s.ctx with trn := 1 } }

/-- The same machine with tile 1 of another class and mode, tile 2 with one resolved cell, tile 3 with a parity error. -/
def tilesS : State :=
  tileS.onCtx fun c => { c with tiles :=
    ((c.tiles.set 1 { Tile.empty with mode := .integer, cls := .narrow, state := .redundant }).set 2
      { Tile.empty with mode := .float, cls := .f32, state := .resolved, anchor := some 0, rfmt := 5,
                        cells := [(0, { TCell.zero with held := 0x3F800000 })] }).set 3 { Tile.empty with bad := true } }

theorem test_witness_MopaResults :
    TileReady tileS 0 ∧ TileOrdered (tileS.ctx.tile 0) ∧ (tileS.ctx.tile 0).conflicts (fmtMode 5) (fmtClass 5) = false ∧
      tileS.ctx.scaleBlock = some 1 ∧ (tileS.ctx.tile 0).conflicts .float .half = false ∧ tileS.ctx.rowBytes = some 48 ∧
      RowReadable tileS (tileS.getX 1).toNat 48 ∧
      (let s := withVl 2 0 tileS
       s.ctx.sew = fmtWidth (0 : BitVec 4).toNat ∧ (s.getX 1).toNat < 2 ^ 39 ∧ (s.getX 1).toNat / 2 ^ 20 % 2 ^ 12 = 0 ∧
         (s.getX 1).toNat / 2 ^ 32 < s.ctx.tileRows .half ∧
         ∀ i, i < s.ctx.vl → RowReadable s ((s.getX 1).toNat % 2 ^ 20 + s.ctx.elem (2 + 32) i * 48) 48) ∧
      after (exec (.mopa 0 2 4 0 5) tileS) (fun t => (t.ctx.tile 0).state == .redundant && (t.ctx.tile 0).cls == .f32) = true := by
  decide +kernel

theorem test_witness_TileWords :
    TileReady tileS 0 ∧ (-2048 ≤ (tileS.getX 2).toInt ∧ (tileS.getX 2).toInt ≤ 2047 ∧ (tileS.ctx.tile 0).state = .empty ∧
        (tileS.ctx.tile 0).anchor = none ∧ (tileS.ctx.tile 0).mode ≠ .integer) ∧ frmReserved tileS.ctx.frm = false ∧
      (TileReady tilesS 2 ∧ (tilesS.ctx.tile 2).state ≠ .empty ∧ TileOrdered (tilesS.ctx.tile 2)) ∧
      ((tilesS.getX 1).toNat < 2 ^ 32 ∧ tilesS.ctx.sew = fmtWidth 5 ∧
        (tilesS.getX 1).toNat % 2 ^ 16 < tilesS.ctx.tileRows (tilesS.ctx.tile 2).cls ∧
        ¬((tilesS.ctx.tile 2).mode = .float ∧ 5 = 7) ∧ (tilesS.ctx.tile 2).mode ≠ .integer) ∧
      after (exec (.tmovr 2 8 1 5) tilesS) (fun t => t.ctx.elem 8 0 == 0x3F800000 && t.ctx.elem 8 1 == 0) = true ∧
      after (exec (.tzero 2) tilesS) (fun t => t.ctx.tile 2 == Tile.empty) = true := by decide +kernel

/-- Each clause of the traps, with row 8 as the first outside a grant of one row group, and 2^32 as the first bad operand. -/
theorem test_witness_TileTraps :
    VectorIdle tilesS ∧ ((tilesS.ctx.tile 1).bad = false ∧ (tilesS.ctx.tile 1).conflicts (fmtMode 5) (fmtClass 5) = true) ∧
      ((tilesS.ctx.tile 1).conflicts .float .half = true ∧ tilesS.ctx.rowBytes ≠ none) ∧ (tilesS.ctx.tile 1).state ≠ .empty ∧
      2 ^ 32 ≤ (tilesS.getX 3).toNat ∧
      ((tilesS.getX 4).toNat < 2 ^ 32 ∧ tilesS.ctx.tileRows (tilesS.ctx.tile 2).cls ≤ (tilesS.getX 4).toNat % 2 ^ 16) ∧
      (tilesS.ctx.tile 0).state = .empty ∧ (tilesS.ctx.tile 3).bad = true ∧
      after (exec (.mopa 1 2 4 0 5) tilesS) (fun t => t.ctx.cause == 0x10D && t.ctx.tval == 0x0100000000000001) = true := by
  decide +kernel

/-! ## Images -/

/-- Bytes are plain where no range, no error and no refusal is recorded. -/
theorem plain_of_quiet {s : State} {key n : Nat}
    (h : (!s.onBoard key n && !s.isBad key n && s.dev.refusing.isEmpty && s.dev.cutOff.isEmpty && decide (key + n ≤ 7 * 2 ^ 64)) = true) :
    Plain s key n := by
  simp only [Bool.and_eq_true, Bool.not_eq_true', List.isEmpty_iff, decide_eq_true_eq] at h
  obtain ⟨⟨⟨⟨hb, hd⟩, hr⟩, hc⟩, hk⟩ := h
  refine ⟨hb, hd, fun k hn => ⟨?_, ?_⟩⟩
  · unfold areaOf
    omega
  · simp [State.refuses, hr, hc]

/-- The own polder as the space of vector memory words, the image of an empty tile at its start, a canonical value and a codebook. -/
def imageS : State :=
  let s := tileS.onCtx fun c => { c with vmt := 1 }
  { s with mem := s.mem.setAll [(polderKey (coreOf s.cur) 0, 1)] }

/-- The places of an image of `n` bytes at x1. -/
def imageAt (i : Instr) (k : AccKind) (n : Nat) : Except (Refused × Nat) (List (Place × Nat)) × State :=
  (issued i (imageS.getX 1) 0 imageS).span imageS.ctx.vmt.toNat k 8 (imageS.getX 1) n

/-- No range, no error and no refusal meets the parts of an image. -/
def quietParts (ps : List (Place × Nat)) (s : State) : Bool :=
  ps.all fun p => !s.onBoard p.1.loc.key p.2 && !s.isBad p.1.loc.key p.2 && s.dev.refusing.isEmpty && s.dev.cutOff.isEmpty &&
    decide (p.1.loc.key + p.2 ≤ 7 * 2 ^ 64)

theorem image_at {i : Instr} {k : AccKind} {al n : Nat} {P : List (Place × Nat) → State → Bool} (ha : (imageS.getX 1).toNat % al = 0)
    (h : okWith (imageAt i k n) (fun ps s1 => quietParts ps s1 && P ps s1) = true) :
    ∃ ps s1, ImageAt i imageS s1 1 k al n ps ∧ P ps s1 = true := by
  obtain ⟨ps, s1, he, hp⟩ := metB h
  rw [Bool.and_eq_true, quietParts, List.all_eq_true] at hp
  refine ⟨ps, s1, ⟨?_, ?_, ?_, ?_, ha, he, fun p hm => plain_of_quiet (hp.1 p hm)⟩, hp.2⟩ <;> decide +kernel

theorem test_witness_TileLoads :
    VectorIdle imageS ∧ TileReady imageS 0 ∧
      (∃ ps s1, ImageAt (.tldRaw 0 1) imageS s1 1 .load 64 rawBytes ps ∧ (tileFrom imageS.ctx.tileRows (imageBytes s1 ps)).isSome = true) ∧
      (imageS.ctx.tile 0).conflicts (fmtMode 6) (fmtClass 6) = false ∧
      (∃ ps s1, ImageAt (.tldCan 0 1 6) imageS s1 1 .load 64 (imageS.ctx.tileRows (fmtClass 6) * (fmtClass 6).cols * (fmtWidth (valueFmt 6) / 8))
        ps ∧ true = true) ∧
      (∃ ps s1, ImageAt (.cbld 0 1) imageS s1 1 .load 32 32 ps ∧ true = true) :=
  ⟨by decide +kernel, by decide +kernel, image_at (by decide +kernel) (by decide +kernel), by decide +kernel,
    image_at (P := fun _ _ => true) (by decide +kernel) (by decide +kernel),
    image_at (P := fun _ _ => true) (by decide +kernel) (by decide +kernel)⟩

/-- Bytes that describe no tile: version 0. -/
theorem test_witness_TileLoads_refused : tileFrom imageS.ctx.tileRows (List.replicate 64 0) = none := by decide +kernel

theorem test_witness_TileStores :
    imageS.ctx.detm = false ∧ imageS.dev.holdStores = false ∧ imageS.dev.regens = [] ∧ imageS.dev.snap = none ∧ imageS.dev.eccBad = [] ∧
      TileOrdered (imageS.ctx.tile 0) ∧ frmReserved imageS.ctx.frm = false ∧
      (∃ ps s1, ImageAt (.tstRaw 0 1) imageS s1 1 .store 64 rawBytes ps ∧ true = true) ∧
      (∃ ps s1, ImageAt (.tstCan 0 1 6) imageS s1 1 .store 64
        (imageS.ctx.tileRows (fmtClass 6) * (fmtClass 6).cols * (fmtWidth (valueFmt 6) / 8)) ps ∧ true = true) :=
  ⟨by decide +kernel, by decide +kernel, by decide +kernel, by decide +kernel, by decide +kernel, by decide +kernel, by decide +kernel,
    image_at (P := fun _ _ => true) (by decide +kernel) (by decide +kernel),
    image_at (P := fun _ _ => true) (by decide +kernel) (by decide +kernel)⟩

/-- The image's base register and space replaced. -/
def imageAtS (vmt : BitVec 4) (a : Word) : State := (withX [(1, a)] imageS).onCtx fun c => { c with vmt := vmt }

/-- A trap of the vector unit with a cause and a tval. -/
def vectorTrap (i : Instr) (s : State) (code : Word) (tval : Word) : Bool :=
  after (exec i s) fun t => t.ctx.cause == 0x100 + code && t.ctx.tval == tval

/-- A reserved space, a misaligned address, LANE, and a page that does not translate, each with the trap that it raises. -/
theorem test_witness_TileImageTraps :
    VectorIdle imageS ∧ imageS.ctx.stores = [] ∧ (imageS.ctx.tile 0).bad = false ∧
      vectorTrap (.tldRaw 0 1) (imageAtS 4 0) 0x02 ((encode (.tldRaw 0 1)).setWidth 64) = true ∧
      vectorTrap (.tstRaw 0 1) (imageAtS 0 32) 0x04 32 = true ∧ vectorTrap (.cbld 0 1) (imageAtS 0 16) 0x04 16 = true ∧
      vectorTrap (.tldRaw 0 1) (imageAtS 2 64) 0x08 64 = true ∧
      vectorTrap (.tstRaw 0 1) (imageAtS 0 0x0080000000000000) 0x06 0x0080000000000000 = true ∧
      vectorTrap (.tldRaw 0 1) (imageAtS 0 0x0080000000000000) 0x05 0x0080000000000000 = true := by decide +kernel

end Sys2Proof.Tests
end

