-- ==== Sys2Proof/Tests/Witness9.lean ====
section
/-! SUPPORT. Concrete states that meet the hypotheses of the statements about block checks, the elements of commands, cancels, tile operands
and their traps, regeneration runs, lost parts and a fetch that waits, with what then happens. -/

namespace Sys2Proof.Tests

set_option Elab.async false

open Sys2Proof.Machine Sys2Proof.Claims

/-- The word ends in a trap of cause `c` with `v` in tval. -/
def traps (o : Host.Outcome State Fault Refusal) (c v : Word) : Bool := after o fun t => t.ctx.cause == c && t.ctx.tval == v

/-! ## Copies and gathers -/

/-- A copy block of two 8-byte elements from 0x7000 to 0x7800 in GLOBAL (R254), with more bits in its first word and its nest block at `nest`. -/
def copyBlk (more nest : Nat) : List Byte := block 64 [(0, 8, 2 ^ 56 + 3 * 2 ^ 46 + more), (8, 8, 0x7000), (16, 8, 0x7800), (24, 8, nest)]
def pairNest (bound : Nat) : List Byte := block 64 [(0, 4, 0x01100000), (8, 4, bound), (12, 4, 8)]

/-- The blocks at 0x5000 and 0x5040, and an address in x1. -/
def blocksS (va : Word) (blk nest : List Byte) : State := withX [(1, va)] (withBytes 0x5040 nest (withBytes 0x5000 blk base))

/-- `n` commands in channel 1, which is halted or not. -/
def fullChan (n : Nat) (halted : Bool) : State := (blocksS 0x5000 (copyBlk 0 0x5040) (pairNest 2)).onCtx fun c =>
  { c with ch := c.ch.set 1 { c.ch[1] with cmds := List.replicate n ⟨.push 0, 0, .app, none, 0, 0⟩, halted, ecause := 5, eaddr := 8 } }

theorem test_witness_CopyChecks :
    (okWith ((issued (.copy 1 1) 0x5000 0 (blocksS 0x5000 (copyBlk 0 0x5040) (pairNest 2))).aligned 0 .load none 64 0x5000) fun p s1 =>
        decide (Plain s1 p.loc.key 64) && s1.bytesAt p.loc.key 64 == copyBlk 0 0x5040) = true ∧
      VectorIdle (fullChan 17 true) ∧ 16 ≤ (fullChan 17 true).ctx.ch[((1 : BitVec 4).setWidth 3).toNat].used ∧
      after (exec (.copy 1 1) (fullChan 16 false)) (fun t => t.ctx.viq.length == 1) = true ∧ traps (exec (.copy 1 1) (fullChan 17 true)) 0x105 8 = true ∧
      traps (exec (.copy 1 1) (blocksS 0x5001 (copyBlk 0 0x5040) (pairNest 2))) 0x104 0x5001 = true ∧
      traps (exec (.copy 1 1) (blocksS (2 ^ 55) (copyBlk 0 0x5040) (pairNest 2))) 0x105 (2 ^ 55) = true ∧
      traps (exec (.copy 1 1) (blocksS (2 ^ 29) (copyBlk 0 0x5040) (pairNest 2))) 0x105 (2 ^ 29) = true ∧
      traps (exec (.copy 1 1) (blocksS 0x5000 (copyBlk 1 0x5040) (pairNest 2))) 0x102 0x5000 = true ∧
      traps (exec (.copy 1 1) (blocksS 0x5000 (copyBlk 0 0x5041) (pairNest 2))) 0x104 0x5041 = true ∧
      traps (exec (.copy 1 1) (blocksS 0x5000 (copyBlk 0 (2 ^ 29)) (pairNest 2))) 0x105 (2 ^ 29) = true ∧
      traps (exec (.copy 1 1) (blocksS 0x5000 (copyBlk 0 0x5040) (block 64 []))) 0x102 0x5040 = true ∧
      traps (exec (.copy 1 1) (blocksS 0x5000 (copyBlk (2 ^ 45) 0x5040) (pairNest 2))) 0x102 0x5000 = true ∧
      after (exec (.copy 1 1) (fullChan 15 false)) (fun t => t.ctx.ch[1].cmds.length == 16) = true := by decide +kernel

/-- The checks of R258 on those blocks, each way. -/
theorem test_witness_CopyFields : CopyBlockRight (copyBlk 0 0x5040) ∧ ¬ CopyBlockRight (copyBlk 1 0x5040) ∧
    CopyJoins (copyBlk 0 0x5040) ⟨1, 0, [2], [8]⟩ ∧ ¬ CopyJoins (copyBlk (2 ^ 45) 0x5040) ⟨1, 0, [2], [8]⟩ := by
  unfold CopyBlockRight CopyJoins SpaceCode; dsimp only; decide +kernel

/-- A gather descriptor for rows of 32 bytes (R261), or one whose rows are 16. -/
def gatherBlk (rowb : Nat) : List Byte := block 64 [(0, 8, 2 ^ 56), (8, 8, 0x7000), (16, 8, 0x7800), (24, 4, rowb), (28, 4, 100), (32, 4, 32)]

theorem test_witness_GatherChecks :
    traps (exec (.vgthr 4 1 1) (withVl 2 2 (blocksS 0x5020 (gatherBlk 32) []))) 0x104 0x5020 = true ∧
      traps (exec (.vgthr 4 1 1) (withVl 2 2 (blocksS 0x5000 (gatherBlk 16) []))) 0x102 0x5000 = true ∧
      traps (exec (.vgthr 4 1 1) (withVl 2 2 (fullChan 17 true))) 0x105 8 = true := by
  decide +kernel

theorem test_witness_GatherFields : GatherRight (gatherBlk 32) 32 ∧ ¬ GatherRight (gatherBlk 16) 32 := by
  unfold GatherRight SpaceCode
  refine ⟨⟨?_, ?_, ?_, ?_, ?_, ?_, ?_, ?_, ?_, ?_, ?_, ?_, ?_, ?_, ?_, ?_, ?_⟩, fun h => absurd h.2.2.2.2.2.2.2.2.2.1 ?_⟩ <;> decide +kernel

/-- The causes of a command's blocks, as the engine takes it (R259). -/
def workCause (s : State) (k : CmdKind) : Option (Nat × Word) :=
  match (s.cmdWork 0 ⟨k, 0, .hyp, none, 0, 0⟩).1 with
  | .error (.cause c va) => some (c, va)
  | _ => none

/-- R255, R262, R263: the second element of the copy; of the gather of rows 99 and 100 of 32 bytes each, the second out of bounds; the checks
of a pushed command; and places in a polder and in WBUF. -/
theorem test_witness_EngineElements :
    (match (blocksS 0x5000 (copyBlk 0 0x5040) (pairNest 2)).cmdWork 0 ⟨.push 0x5000, 0, .hyp, none, 0, 0⟩ with
        | (.ok w, _) => w.elems.length == 2 && w.elems[1]? == some ⟨some 0x7008, 0x7808, 8⟩
        | _ => false) = true ∧
      workCause base (.push 0x5001) = some (4, 0x5001) ∧ workCause (blocksS 0 (copyBlk 1 0) []) (.push 0x5000) = some (2, 0x5000) ∧
      workCause (blocksS 0 (copyBlk 0 0x5041) []) (.push 0x5000) = some (4, 0x5041) ∧
      workCause (blocksS 0 (copyBlk 0 0x5040) (block 64 [])) (.push 0x5000) = some (2, 0x5040) ∧
      workCause (blocksS 0 (copyBlk (2 ^ 45) 0x5040) (pairNest 2)) (.push 0x5000) = some (2, 0x5000) ∧
      (match (base.cmdWork 0 ⟨.gather (gatherBlk 32) [99, 100] [], 0, .hyp, none, 0, 0⟩).1 with
        | .ok w => w.oob == 1 && w.elems == [⟨some (BitVec.ofNat 64 (0x7000 + 99 * 32)), 0x7800, 32⟩, ⟨none, 0x7820, 32⟩]
        | _ => false) = true ∧
      okWith (base.engineLoc 0 0 .hyp 1 .load 8 (2 ^ 21 * 1 + 8)) (fun l _ => l.key == polderKey 1 8) = true ∧
      okWith (base.engineLoc 0 0 .hyp 3 .load 8 0xBFFF8) (fun l _ => l.key == wbufKey 0 0xBFFF8) = true := by decide +kernel

/-! ## Enumerations -/

/-- A block of two dimensions in each order: valid, a tuple of its space, its second tuple and its last. -/
theorem test_witness_NestTuples :
    (∀ o, o < 4 → ∃ b, parseNest (block 64 [(0, 4, 0x01200000 + o * 2 ^ 16), (8, 4, 3), (16, 4, 2)]) = some b ∧ b.count = 6 ∧
      InSpace b [2, 1, 0, 0, 0, 0] ∧ b.nth 1 = (if o = 1 then [0, 1, 0, 0, 0, 0] else [1, 0, 0, 0, 0, 0]) ∧
      b.next (if o = 2 then [0, 1, 0, 0, 0, 0] else [2, 1, 0, 0, 0, 0]) = none) := by
  intro o h
  have : o = 0 ∨ o = 1 ∨ o = 2 ∨ o = 3 := by omega
  rcases this with rfl | rfl | rfl | rfl <;> refine ⟨_, rfl, ?_⟩ <;> unfold InSpace <;> decide +kernel

/-! ## Cancel -/

/-- Counter 7 of a launch under graph counter 2, itself under job counter 3; the context runs a unit of the launch, has another preloaded,
and a command in channel 2. -/
def treeS : State :=
  ((launched (launch 0 .active)).onDev fun d => { d with counters := [
    (ctrKey 0 2, ⟨true, false, false, 1, 0, 2, some (ctrKey 0 3), 9, 0, 8, []⟩), (ctrKey 0 3, ⟨true, false, false, 2, 0, 2, none, 0, 0, 9, []⟩),
    (ctrKey 0 7, ⟨true, false, false, 0, 0, 3, some (ctrKey 0 2), 8, 0, 20, []⟩)] }).onCtx fun c => { c with
      unit := some ((launch 0 .active).nestUnit 1), preload := some ((launch 0 .active).nestUnit 2)
      ch := c.ch.set 2 { c.ch[2] with cmds := [copyCmd 0x7000] } }

theorem test_witness_CancelReaches :
    (∃ k, treeS.dev.counter false (ctrKey 0 2) = some k ∧ k.done = false ∧ k.parent = some (ctrKey 0 3)) ∧
      Beneath treeS.dev (ctrKey 0 2) 4 (ctrKey 0 7) ∧ LaunchBeneath treeS.dev (ctrKey 0 2) 20 ∧
      (let t := treeS.cancelNode (ctrKey 0 2)
       ((t.dev.counter false (ctrKey 0 7)).map fun k => (k.done, k.canc)) = some (true, true) ∧
       ((t.dev.counter false (ctrKey 0 3)).map fun k => (k.count, k.counted)) = some (1, [2]) ∧ t.dev.launches = [] ∧
       t.ctx.preload = none ∧ t.ctx.unit.isSome ∧ t.ctx.pCancelled = [⟨2, false, none⟩] ∧ t.ctx.ch[2].cmds = []) :=
  have b : Beneath treeS.dev (ctrKey 0 2) 4 (ctrKey 0 7) :=
    .inr ⟨⟨true, false, false, 0, 0, 3, some (ctrKey 0 2), 8, 0, 20, []⟩, ctrKey 0 2,
      ⟨true, false, false, 1, 0, 2, some (ctrKey 0 3), 9, 0, 8, []⟩, by decide +kernel, rfl, by decide +kernel, rfl, .inl rfl⟩
  ⟨⟨_, rfl, rfl, rfl⟩, b, ⟨(ctrKey 0 7, _), .tail _ (.tail _ (.head _)), b, rfl, rfl⟩, by decide +kernel⟩

/-! ## Tiles -/

/-- R107: 1.0 of an f32 tile with anchor 0 is 2^56 units. R104: ±inf × 0 is no product. R94: the codes of a weight row, low one first. -/
theorem test_witness_TileBack :
    (tilesS.ctx.tile 2).state = .resolved ∧ TileOrdered (tilesS.ctx.tile 2) ∧ ((tilesS.ctx.tile 2).back.cell 0).x = 2 ^ 56 ∧
      product (.inf true) (.fin false 0 3) none = none ∧ product (.inf true) (.fin true 1 3) none = some (.inf false) ∧
      (let s := tileS.onCtx fun c => { c with cb := c.cb.set 0 (BitVec.ofNat 256 (0x3F80 + 0x4000 * 2 ^ 16)) }
       s.ctx.wfmt.toNat / 4 = 0 ∧ (s.ctx.weightRow (leBytes 48 1))[0]? = some (FType.bf16.decode 0x4000) ∧
         (s.ctx.weightRow (leBytes 48 1))[1]? = some (FType.bf16.decode 0x3F80)) := by decide +kernel

/-- An image of the size, and rows that fit it. -/
theorem test_witness_RawLayout : (List.replicate 245824 (0 : Byte)).length = 245824 ∧
    ∀ c : TClass, (fun _ => 128 : TClass → Nat) .f32 = 128 ∧ 1 * c.cols * (if c = .f64 then 4 else 1) ≤ 24576 :=
  ⟨List.length_replicate .., fun c => by cases c <;> decide⟩

/-- tanchor of 2048 and of −2049, tres under a reserved frm; offsets that are misaligned and that leave WBUF, of mopa.w and of the second
request of mopa.gr. -/
theorem test_witness_TileOperandTraps :
    let at_ := fun (x : Word) => withX [(6, x)] (withV 36 8 [0, 1] (withVl 2 0 tileS))
    after (exec (.tanchor 0 6) (at_ 2048)) (fun t => t.ctx.cause == 0x102) = true ∧
      after (exec (.tanchor 0 6) (at_ (-2049))) (fun t => t.ctx.cause == 0x102) = true ∧
      after (exec (.tres 0 5) (tileS.onCtx fun c => { c with frm := 5 })) (fun t => t.ctx.cause == 0x102) = true ∧
      ((tileS.ctx.tile 0).conflicts .float .half = false ∧ (at_ 8).ctx.rowBytes = some 48) ∧
      traps (exec (.mopaW 0 4 6 0 0) (at_ 8)) 0x104 8 = true ∧ traps (exec (.mopaW 0 4 6 0 0) (at_ 0xBFFE0)) 0x108 0xBFFE0 = true ∧
      traps (exec (.mopaGr 0 4 6 0) (at_ 8)) 0x104 8 = true ∧ traps (exec (.mopaGr 0 4 6 0) (at_ 0xBFFD0)) 0x108 0xC0000 = true := by
  decide +kernel

/-! ## Vector words -/

/-- A progress word that does not translate (R238), and two runs of another key type than the word's (R173). -/
theorem test_witness_VectorTraps :
    (let s := vmemS.onCtx fun c => { c with vnotify := 2 ^ 29 }
     8 ≤ s.ctx.vnotify.toNat % 2 ^ 55 ∧ s.ctx.vnotify.toNat % 8 ≤ 4 ∧ traps (exec (.vstN 2 1 0 2) s) 0x106 (2 ^ 29) = true) ∧
      (let s := withFacet 2 0x9202 (withFacet 4 0x9202 sortS)
       facetK (s.ctx.getFacet 2) = 1 ∧ facetK (s.ctx.getFacet 4) = 1 ∧ keyWidth (0 : BitVec 3).toNat = s.ctx.sew ∧
         traps (exec (.vmrg 10 2 4 0) s) 0x10A (0x9202 + 2 ^ 16 * 0x8000) = true) := by decide +kernel

/-! ## Launches -/

/-- The one ready launch is the head of its bank; a strict one comes before it. -/
theorem test_witness_PopTakes :
    let l := launch 0 .ready
    let m : Launch := { l with arm := 21, strict := true, readySeq := 9, bank := 5 }
    PopTakes [l] 3 5 l ∧ PopTakes [l, m] 3 5 m := by
  refine ⟨.inr ⟨by decide +kernel, .inl ⟨by decide +kernel, ?_⟩⟩, .inl (by decide +kernel)⟩
  unfold HeadOf; decide +kernel

/-! ## Lost parts -/

/-- A restartable launch of die 0, its counter, a unit of it on context 0, one on a context of die 1, and a byte in a polder of each die. -/
def partS : State :=
  { (((launched (launch (2 ^ 53) .active)).onDev fun d => { d with
      counters := [(ctrKey 0 7, ⟨true, false, false, 0, 1, 3, none, 0, 0, 20, [0]⟩), (ctrKey 1 7, ⟨true, false, false, 0, 1, 3, none, 0, 0, 21, [0]⟩)]
      writers := [(20, [(5, 3)])] }).onCtx fun c => { c with unit := some ((launch (2 ^ 53) .active).nestUnit 1) }) with
    others := [(104, { Ctx.reset true with unit := some ((launch (2 ^ 53) .active).nestUnit 2) })]
    mem := [(polderKey 0 5, 7), (polderKey 52 5, 7)] }

theorem test_witness_LostParts :
    (∀ l ∈ partS.dev.launches, l.isRst = true ∧ l.phase ≠ .waiting) ∧ partS.dev.shadow = [] ∧ partS.mem.wf = true ∧ partS.dev.mcRings = [] ∧
      (0 ∈ partS.touched ∧ partS.ctx.unit.isSome) ∧ (104 ∈ partS.touched ∧ coreOf 104 / 52 = 1) := by decide +kernel

theorem test_lost_die :
    after (exec (.dieLost 0) partS) (fun t => t.byteAt (polderKey 0 5) == 0 && t.byteAt (polderKey 52 5) == 7 &&
        (t.dev.counter false (ctrKey 0 7)).isNone && ((t.dev.counter true (ctrKey 0 7)).map (·.count)) == some 1 &&
        (t.dev.counter false (ctrKey 1 7)).isSome && t.dev.writers == [(20, [(5, 3)])] &&
        (t.dev.launches.map fun l => (l.shadow, l.phase, l.back.map fun v => (v.ord, v.shadow, v.avoid))) == [(true, .ready, [(1, true, some 0)])] &&
        ((t.ctxOf 104).unit.map fun u => (u.ord, u.shadow)) == some (2, true)) = true := by decide +kernel

theorem test_failed_core :
    after (exec (.coreFailed 0 0) partS) (fun t => t.byteAt (polderKey 0 5) == 0 && t.dev.counters == partS.dev.counters &&
        (t.dev.launches.map fun l => (l.shadow, l.back.map fun v => (v.ord, v.avoid))) == [(false, [(1, some 0)])]) = true := by decide +kernel

/-- The end of the transition to level 3, which keeps the launches, and to level 4, which does not. -/
theorem test_witness_DeepLevels :
    let s := fun (b : Nat) => partS.onWin fun w => { w with busy := some b }
    ((s 3).dev.win.busy = some 3 ∧ (s 3).dev.win.waiting = none ∧ 3 ≠ (s 3).dev.win.level ∧ (s 3).dev.win.state ≠ 6) ∧
      after (exec .powerTransitionDone (s 3)) (fun t => t.ctx == { Ctx.reset (partS.cur % 2 == 1) with tenure := partS.ctx.tenure + 1 } &&
        t.dev.launches == partS.dev.launches && t.byteAt (polderKey 0 5) == 7) = true ∧
      after (exec .powerTransitionDone (s 4)) (fun t => t.ctx == Ctx.reset (partS.cur % 2 == 1) && t.dev.launches == [] &&
        t.byteAt (polderKey 0 5) == 0) = true := by decide +kernel

/-! ## A fetch that waits -/

/-- A store that a scoreboard range holds, a fence of reads behind it, and a fetch that needs a walk (R358). -/
def fetchS : State := base.onCtx fun c => { c with
  stores := [⟨[(polderKey (coreOf base.cur) 5, 7)], 0, false, 0, 0, 0, 5, 5, 0, 0, 0, false, [], 0⟩, Pend.fence 2]
  ch := c.ch.set 3 { c.ch[3] with cmds := [⟨.push 0, 0, .app, some (0, 64), 0, 0⟩] } }

theorem test_witness_FetchWaits :
    AboutToFetch fetchS ∧ fetchS.tick.fetchWaits = true ∧ (fetchS.ctx.loop = none ∧ fetchS.beforeFetch = none) ∧
      after (step fetchS) (fun t => t.ctx.stall == some .chan && t.ctx.pc == fetchS.ctx.pc) = true ∧
      (base.placeWord 0x04A63800).tick.fetchWaits = false := by decide +kernel

/-- Level 4 shuts an event of the device out, and not one of the host. -/
theorem test_witness_LetAct :
    let u : State := ({ base with moves := [.event (.gtsSync 9)] } : State).onWin fun w => { w with level := 4 }
    ¬ LetAct u.tick (.event (.gtsSync 9)) ∧ LetAct u.tick (.event (.twarn 9)) ∧ LetAct base.tick (.event (.gtsSync 9)) ∧
      after (step u) (fun t => !t.dev.gtsTaken) = true := by decide +kernel

/-! ## Regeneration -/

/-- The codebook of R95. -/
def book95 : List Nat :=
  [0, 0x3E80, 0x3F00, 0x3F40, 0x3F80, 0x3FC0, 0x4000, 0x4040, 0xBE80, 0xBF00, 0xBF40, 0xBF80, 0xBFC0, 0xC000, 0xC040, 0x4080]

/-- R227's own example, with a greatest weight of 2: C(e) = BASE(e) ÷ 2. The codes of −0.125, 2 and a NaN, and R94's packing. -/
theorem test_witness_RegenEffect :
    let book := regenBook book95 [0xBE00, 0x4000, 0x7FC0]
    book = [0, 0x3E00, 0x3E80, 0x3EC0, 0x3F00, 0x3F40, 0x3F80, 0x3FC0, 0xBE00, 0xBE80, 0xBEC0, 0xBF00, 0xBF40, 0xBF80, 0xBFC0, 0x4000] ∧
      [0xBE00, 0x4000, 0x7FC0].map (fun w => (cbQuantise (book.map FType.bf16.decode) (FType.bf16.decode w)).1) = [8, 15, 0] ∧
      packCodes [8, 15, 0, 1] = [0xF8, 0x10] := by decide +kernel

end Sys2Proof.Tests
end

