-- ==== Sys2Proof/Tests/Witness10.lean ====
section
/-! SUPPORT. Concrete states that meet the hypotheses of the statements about the traps of bodies, waits and conversions, what stands behind
an entry in the access path, what the oldest queue entry does, chunks of a command, units handed out again, and power levels. -/

namespace Sys2Proof.Tests

set_option Elab.async false

open Sys2Proof.Machine Sys2Proof.Claims

/-! ## Bodies and waits -/

/-- A nest whose second word is a loop, and one whose body is not mapped (R123). -/
theorem test_witness_NestBodies :
    (let s := loopS 3 0x7CA00000
     s.ctx.vmWaits = false ∧ decide (s.behindBarriers = some s) = true ∧
      okWith (s.fetchBody (1 + 1) (pcPlus s.ctx.pc 4)) (fun b _ => firstBad (badBodyWord 7) b 0 == some 1) = true ∧
      traps (exec (.nest 7 1) s) 0x14 (s.ctx.pc + 8) = true) ∧
    (let s := base.onCtx fun c => { c with pc := 0x1FFFFFFC }
     (s.fetchBody (1 + 1) (pcPlus s.ctx.pc 4)).1.toOption = none ∧ traps (exec (.nest 7 1) s) 0x07 (s.ctx.pc + 4) = true) := by
  decide +kernel

/-- A misaligned address, and one beyond the address range. -/
theorem test_witness_MemoryWaitTraps :
    memS.ctx.vmWaits = false ∧ memS.behindBarriers = some memS ∧ (memS.getX 3).toNat % 4 ≠ 0 ∧
      (memS.aligned 0 .load none 8 (memS.getX 4)).1 = .error (.cause 0x05 (2 ^ 55)) ∧
      traps (exec (.waitge 3 2 0) memS) 0x04 0x1001 = true ∧ traps (exec (.waiteq 4 2 1) memS) 0x05 (2 ^ 55) = true := by decide +kernel

/-! ## Behind an entry in the access path -/

/-- A vector store that waits in the access path with `ps` behind it, and a word of another kind behind it in the queue. -/
def lateS (ps : List Pend) : State :=
  (memS.onCtx fun c => { c with viq := [⟨.vst 1 2 0 0, 0, 0, 0, none⟩, ⟨.vadd 1 2 3 0, 0, 0, 0, none⟩], late := some ps }).onDev
    fun d => { d with holdStores := true }

theorem test_witness_BehindEntry :
    (∃ e r, (lateS []).ctx.viq = e :: r ∧ isVm e.instr = true ∧ (∀ f ∈ r, isVm f.instr = false) ∧ (lateS []).ctx.late = some []) ∧
      (lateS []).beforeFetch = some (lateS []) ∧ lateHolds [pendAt false, Pend.fence 2] = true ∧
      (lateS [pendAt false, Pend.fence 2]).beforeFetch = none ∧
      okWith ((lateS []).aligned 0 .store none 8 0x1000) (fun _ s1 => decide (s1.ctx = (lateS []).ctx) && s1.dev.holdStores) = true ∧
      after (exec (.sd 2 1 0) (lateS [])) (fun t => t.ctx.late.any (fun l => l.length == 1) && t.ctx.stores.isEmpty && t.ctx.stall.isNone) = true ∧
      after (exec (.fence 2 0) (lateS [pendAt false])) (fun t => (t.ctx.late.map fun l => l.map (·.barrier)) == some [0, 2]) = true ∧
      after (exec (.sd 2 1 0) (lateS [pendAt false, Pend.fence 2])) (fun t => t.ctx.stall == some .chan) = true ∧
      ((lateS [pendAt false]).ctx.bars = [] ∧ (lateS [pendAt false]).ctx.wcb = [] ∧ (lateS [pendAt false]).ctx.detm = false) ∧
      ((lateS [pendAt false]).popHead.ctx.stores.map (·.writes)) = [(pendAt false).writes] :=
  ⟨⟨_, _, rfl, by decide +kernel⟩, by decide +kernel⟩

theorem test_witness_TrapEntryBehind :
    (lateS [pendAt false, Pend.fence 2]).ctx.tfv = false ∧ (∀ b ∈ (lateS [pendAt false, Pend.fence 2]).ctx.bars, b.2 ≠ 0) ∧
      (let c := ((lateS [pendAt false, Pend.fence 2]).takeTrap false true 5 0).ctx
       c.late = none ∧ c.frameBars = [(1, 2)] ∧ c.stores.map (·.barrier) = [0, 2]) := by decide +kernel

/-- A store that waits and that nothing holds, and one that a scoreboard range holds. -/
theorem test_witness_BlocksFollowStores :
    (let s := withCtx fun c => { c with stores := [pendAt false] }
     (∀ p ∈ s.ctx.stores, p.barrier = 0) ∧ s.ctx.stores ≠ [] ∧ (∀ p ∈ s.ctx.stores, s.holds p = false) ∧
      ((s.onCtx fun c => { c with stores := [] }).performAll s.ctx.stores).ctx.stores = []) ∧
    (∀ p ∈ heldCmdS.ctx.stores, p.barrier = 0 ∧ heldCmdS.holds p = true) ∧ heldCmdS.ctx.stores ≠ [] := by decide +kernel

/-! ## The oldest entry -/

/-- Context 0 with one entry in its queue, with a command's range on the scoreboard of its core. -/
def headS (i : Instr) (f : Ctx → Ctx) : State :=
  vecS.onCtx fun c => f { c with
    viq := [⟨i, 0x2000, 0x1000, 0, none⟩]
    ch := c.ch.set 3 { c.ch[3] with cmds := [⟨.push 0, 0, .app, some (0, 0x10000), 0, 0⟩] } }

/-- An asynchronous cause that is pending. -/
def pending (c : Ctx) : Ctx := { c with pCancelled := [⟨5, false, none⟩] }

/-- The oldest entry is about to trap, to commit or to wait in the access path. -/
def headIs (s : State) (p : Commit → Bool) : Bool :=
  match s.ctx.viq with
  | e :: _ => s.ctx.run == .running && s.ctx.lag == 0 && p (s.guarded e (commit e.instr e.op1 e.op2))
  | [] => false

/-- vfadd at SEW 8, which traps (R143): ahead of a cause that is pending; then vadd, with one and without. -/
theorem test_witness_HeadGoesOn :
    (let s := headS (.vfadd 1 2 3 0 0) fun c => pending { c with vtype := 0 }
     s.moves = [] ∧ headIs s.tick (fun k => match k with
       | .trap c _ _ => c == 2
       | _ => false) = true ∧ s.tick.ctx.loading = false ∧ (s.tick.ctx.takeAsync s.tick.cyc).isSome = true ∧
      after (step s) (fun t => t.ctx.cause == 0x102) = true) ∧
    (let s := headS (.vadd 1 2 3 0) pending
     headIs s.tick (fun k => match k with
       | .done _ => true
       | _ => false) = true ∧ after (step s) (fun t => t.ctx.cause == 0x8000000000000013) = true) ∧
    (let s := headS (.vadd 1 2 3 0) id
     s.tick.ctx.takeAsync s.tick.cyc = none ∧ after (step s) (fun t => t.ctx.viq.isEmpty && t.ctx.elem 1 0 == 12) = true) := by
  decide +kernel

/-- A trap of the oldest entry while a load that has begun waits: the load goes on first. -/
theorem test_witness_HeadBehindLoad :
    let s := (base.placeWord 0x3D250008).onCtx fun c =>
      { c with stall := some (.board none 0), viq := [⟨.vfadd 1 2 3 0 0, 0x2000, 0, 0, none⟩], vtype := 0 }
    s.tick.ctx.loading = true ∧ headIs s.tick (fun k => match k with
      | .trap c _ _ => c == 2
      | _ => false) = true ∧ after (step s) (fun t => !t.ctx.tfv && t.ctx.stall.isNone && t.ctx.pc == s.ctx.pc + 4) = true := by decide +kernel

/-- A move that lets the context go on, and one that passes the turn. -/
theorem test_witness_Alternate :
    let s : State := { base.placeWord 0x04A63800 with moves := [.go, .turn 2] }
    LetAct s.tick .go ∧ after (step s) (fun t => t.moves == [.turn 2] && t.ctx.pc == s.ctx.pc + 4 &&
      after (step t) fun u => u.cur == 2 && u.moves == []) = true := by decide +kernel

/-! ## Conversions -/

/-- SEW 8, a reserved frm, a reserved scale block, and a code between f16 and bf16 at SEW 32. -/
theorem test_witness_ConversionTraps :
    let narrow := withVl 2 0 vecS
    let frm := vecS.onCtx fun c => { c with frm := 7, frmSct := 7 }
    let scale := vecS.onCtx fun c => { c with vtype := 0x16 }
    VectorIdle narrow ∧ VectorIdle frm ∧ VectorIdle scale ∧ narrow.ctx.sew = 8 ∧ frm.ctx.sew ≠ 8 ∧ frmReserved frm.ctx.frm = true ∧
      5 ≤ scale.ctx.vtype.toNat / 4 ∧ vecS.ctx.sew ≠ 16 ∧ floatKind false narrow.ctx.sew = none ∧
      after (exec (.vhad 4 2 0 0) frm) (fun t => t.ctx.cause == 0x102) = true ∧
      after (exec (.vqnt 4 2 0 0 0) narrow) (fun t => t.ctx.cause == 0x102) = true ∧
      after (exec (.vdqnt 4 2 0 0 3) scale) (fun t => t.ctx.cause == 0x102) = true ∧
      after (exec (.vfcvt 4 2 5 0) vecS) (fun t => t.ctx.cause == 0x102) = true ∧
      after (exec (.vfredsum 1 2 0 0) narrow) (fun t => t.ctx.cause == 0x102 && t.ctx.q[1].isEmpty) = true := by decide +kernel

/-! ## The engine, the walker and power levels -/

/-- A started gather with one slot of zeros left to fill, in the chunk that lands. -/
theorem test_witness_Landing :
    let u : State := { startedS with moves := [.land 0 2 0] }
    let s : State := { u.tick with moves := [] }
    s.dev.win.state ≠ 6 ∧ s.dev.win.level ≠ 4 ∧ (∃ st, (s.ctxOf 0).ch[2].started = some st ∧ st.so = false ∧ st.writes[0]? = some (5, 7)) ∧
      Takes s [(5, 7)] ∧
      after (step u) (fun t => t.byteAt 5 == 7 && t.ctx.ch[2].oob == 1 && t.ctx.ch[2].done == 0) = true :=
  ⟨by decide +kernel, by decide +kernel, ⟨_, rfl, by decide +kernel⟩, by decide +kernel, by decide +kernel⟩

/-- A placed launch on the logical core 0, of which units 2 and 1 are to be handed out again; unit `n` not to core 0. -/
def placedLaunch (n : Nat) : Launch :=
  let r := block 256 [(0, 8, 2 ^ 56 + 2 ^ 36 + 2 ^ 32 + 2 ^ 50), (8, 8, 0x8000), (132, 4, 0x1000), (138, 2, 1)]
  let l := { launch 0 .active with record := r }
  { l with cores := [3], head := 3, back := [2, 1].map fun k => { l.nestUnit k with avoid := if k = n then some 0 else none } }

theorem test_witness_PlacedOrder :
    let l := placedLaunch 2
    let s := freeS l
    let m := placedLaunch 1
    (l.isPlc = true ∧ l.isPanel = false ∧ l.isGang = false ∧ l.lcn = 1 ∧ s.isFree 0 = true ∧ s.fits l 0 = true ∧ s.declared l (coreOf 0) 0 = true ∧
        sortBy (·.takenSeq) (s.dev.handing (dieOfCtx 0)) = [l]) ∧
      after (exec (.unitHandOut 0) s) (fun t => (t.ctx.unit.map (·.ord)) == some 1) = true ∧
      ((freeS m).fits m 0 = true ∧ after (exec (.unitHandOut 0) (freeS m)) (fun t => t.ctx.unit.isNone) = true) := by decide +kernel

/-- A running context on core 0 keeps out levels 3 and 4, and level 2 where it is on a core in one of the 24 highest slots. -/
theorem test_witness_MayEnter :
    ResidentIn base base.cur ∧ base.mayEnter 2 = true ∧ base.mayEnter 3 = false ∧ State.reset.mayEnter 4 = true ∧
      (let s := State.reset.turnTo (2 * 40)
       HighSlot s 40 ∧ (s.onCtx fun c => { c with run := .running }).mayEnter 2 = false) := by decide +kernel

/-- Bring-up waits at level 3. -/
theorem test_witness_MayStart :
    let s := State.reset.onWin fun w => { w with state := 3, hentry := 0x1000 }
    let t := s.onWin fun w => { w with level := 3 }
    s.mayStart = true ∧ t.mayStart = false ∧ after (exec .hypContextStart t) (fun u => u.dev.win.state == 3) = true := by decide +kernel

end Sys2Proof.Tests
end

