-- ==== Sys2Proof/Tests/Witness11.lean ====
section
/-! SUPPORT. Concrete states that meet the hypotheses of the statements about walks and refused pages, places that stay, latches, traps that
land what stood behind an entry, interrupted clasps, read-only CSRs, stolen ranges, cancelled units that stopped, and failed spares. -/

namespace Sys2Proof.Tests

set_option Elab.async false

open Sys2Proof.Machine Sys2Proof.Claims

/-! ## Translation -/

/-- The identity leaf of a page of `base`, changed. -/
def withLeaf (f : Nat → Nat) : State :=
  match base.walk 0 0x1000 with
  | .leaf e _ key => { base with mem := base.mem.setAll (writesAt key (leBytes 8 (f e))) }
  | _ => base

/-- The access is refused with a cause. -/
def refusedAs (s : State) (asid : BitVec 13) (p : Priv) (k : AccKind) (c : Nat) : Bool :=
  match (s.translate asid p k 0x1000).1 with
  | .error (.cause d va) => d == c && va == 0x1000
  | _ => false

/-- No entry of the ASID; an entry that is not valid; without R, W or X; supervisor pages; HBM of no bank; an on-chip slot and a core that
do not exist; a host page of an ASID without H; a page of a device that the job is not on. -/
theorem test_witness_TranslationRefusals :
    base.asidEntry 1 / 2 ^ 63 = 0 ∧ refusedAs base 1 .hyp .load 0x05 = true ∧
      (base.asidEntry 0 / 2 ^ 63 % 2 = 1 ∧ base.asidEntry 0 / 2 ^ 48 % 2 ^ 14 = 0 ∧ base.asidEntry 0 % 2 ^ 16 = 0) ∧
      (withLeaf fun _ => 0).walk 0 0x1000 = .fail ∧ refusedAs (withLeaf fun _ => 0) 0 .hyp .fetch 0x07 = true ∧
      refusedAs (withLeaf fun e => e - 8) 0 .hyp .store 0x06 = true ∧ refusedAs (withLeaf fun e => e - 8) 0 .hyp .rmw 0x06 = true ∧
      refusedAs base 0 .app .load 0x05 = true := by decide +kernel

/-- Host memory, a peer's page and an on-chip page of a core that is not there, by their leaves alone. -/
def leafOf (loc pa more : Nat) (s : State) : Bool :=
  match s.locOf 0 0x1000 ⟨1 + 2 + 4 + 8 + loc * 2 ^ 10 + pa / 2 ^ 16 * 2 ^ 16 + more, 16, true, true⟩ .load with
  | .error (.cause c va) => va == 0x1000 && c == if loc = 1 then 0x08 else 0x05
  | _ => false

theorem test_witness_TranslationLeaves :
    leafOf 0 (45 * 2 ^ 30) 0 base = true ∧ leafOf 1 (511 * 2 ^ 21) 0 base = true ∧ leafOf 1 (24 * 2 ^ 16) 0 base = true ∧
      leafOf 3 0 (5 * 2 ^ 56) base = true ∧ base.dev.tlbOn = false ∧ base.dev.peers = [] := by decide +kernel

/-- Jobs that share a peer and an address reach bytes of their own there (R366). -/
theorem test_witness_PeerJobs : peerKey 5 1 0x1000 ≠ peerKey 5 2 0x1000 ∧ areaOf (peerKey 63 255 (2 ^ 40 - 1)) = 6 := by decide

/-! ## Places, latches and traps -/

/-- A load that a scoreboard range holds: it goes where it was found, although the address would now be found elsewhere. -/
theorem test_witness_PlacesStay :
    let p : Place := ⟨⟨0x3000, false, false, false⟩, 0, 0x1000⟩
    let s := memS.onCtx fun c => { c with stall := some (.board (some p) 8) }
    (s.alignedOnce .load 8 0x1000).1 = .ok p ∧ (∃ q, (memS.alignedOnce .load 8 0x1000).1 = .ok q ∧ q.loc.key ≠ 0x3000) ∧
      memS.ctx.vmWaits = false ∧ memS.behindBarriers = some memS :=
  ⟨by decide +kernel, ⟨_, rfl, by decide +kernel⟩, by decide +kernel⟩

/-- A latch whose predicate fails, for a word at `l`. -/
def latchedS (l : Word) : State := (withX [(6, 5), (7, 6)] base).onCtx fun c => { c with latch := some ⟨false, false, 0, false, false, 0, false, l⟩ }

/-- It stops the add at the pc only where it is for that word (R75). -/
theorem test_witness_LatchedWord :
    decodeWord 0x04A63800 = .ok (.instr (.add 5 6 7)) ∧
      after ((latchedS base.ctx.pc).runFetched 0x04A63800) (fun t => t.ctx.latch.isNone && t.getX 5 == 0 && t.ctx.pc == base.ctx.pc + 4) = true ∧
      after ((latchedS 0x100).runFetched 0x04A63800) (fun t => t.ctx.latch.isNone && t.getX 5 == 11 && t.ctx.pc == base.ctx.pc + 4) = true := by decide +kernel

/-- A store behind an entry of a deterministic context whose core's buffer is full: the trap sends one line on (R222). -/
theorem test_witness_TrapSpills :
    let s := withCtx fun c => { c with
      detm := true, viq := [⟨.vadd 1 2 3 0, 0, 0, 0, none⟩], wcb := List.replicate 4096 (lineAt 1)
      late := some [{ pendAt false with writes := [(64, 9)], key := 64, parts := [(64, 1)], num := 3 }] }
    s.ctx.tfv = false ∧ s.ctx.late.isSome = true ∧
      (let t := s.takeTrap false false 5 0
       t.wcbLines (coreOf s.cur) = 4096 ∧ t.ctx.stores.length = 1 ∧ t.ctx.wcb.getLast?.map (·.line) = some 1) := by decide +kernel

/-! ## Clasps -/

/-- Context 0 in the wait of clasp 4's episode 0, of which another launch may come to hold the clasp. -/
def waitS (st : Stall) (bound : Option (Nat × Nat × Nat)) (epoch : Nat) : State :=
  ((claspS [] 0).onCtx fun c => { c with stall := some st }).onDev fun d =>
    { d with clasps := [(4, ⟨false, 2, 1, 0, 0, bound, epoch, [], [], [], []⟩)] }

/-- A wait that has begun on a clasp which another launch binds then: it goes on waiting, and ends with the episode. -/
theorem test_witness_WaitsStay :
    let o := some (0, 99, 99)
    (waitS (.clwait 4 0) o 0).claspRef 4 = .refused ∧
      after (exec (.clwait 1 2) (waitS (.clwait 4 0) o 0)) (fun t => t.ctx.stall == some (.clwait 4 0)) = true ∧
      after (exec (.clwait 1 2) (waitS (.clwait 4 0) o 1)) (fun t => t.ctx.stall.isNone && t.ctx.pc == base.ctx.pc + 4) = true := by decide +kernel

/-- An interrupted clasp: CW and its clasp word stay with the context, and after the eret the word at epc is the wait alone. -/
theorem test_witness_InterruptedClasp :
    let s := waitS (.clasp 4 0) none 0
    let t := s.takeTrap true false 1 0
    let r := (claspS [(0, 0, 0)] 0).onCtx fun c => { c with cw := true, claspWord := some 4, rejoin := some c.pc }
    (t.ctx.cw = true ∧ t.ctx.claspWord = some 4 ∧ t.ctx.epc = s.ctx.pc) ∧
      after (exec .eret t) (fun u => u.ctx.cw && u.ctx.rejoin == some s.ctx.pc) = true ∧
      (r.ctx.rejoin = some r.ctx.pc ∧ r.claspRef 4 ≠ .refused ∧ r.ctx.viq = [] ∧ r.ctx.stores = [] ∧ r.ctx.stall = none) ∧
      after (exec (.clasp 1 2) r) (fun u => u.ctx.stall == some (.clwait 4 0) && u.ctx.cw && u.dev.clasps == r.dev.clasps) = true ∧
      after (exec (.clasp 1 2) (r.onCtx fun c => { c with rejoin := none })) (fun u => u.dev.clasps != r.dev.clasps) = true := by decide +kernel

/-! ## CSRs, stolen ranges, cancels and spares -/

/-- csrw of a CSR that nothing writes, at each level; the decoder refuses the word first. -/
theorem test_witness_ReadOnlyCsr :
    (csrRights 0x00B).map (·.write) = some none ∧ (decode (encode (.csrw 1 0x00B))) = .error (.field .sup) ∧ base.ctx.latch = none ∧
      traps (exec (.csrw 1 0x00B) (withPriv .sup base)) 0x02 ((encode (.csrw 1 0x00B)).setWidth 64) = true ∧
      traps (exec (.csrs 1 0x00B) base) 0x02 ((encode (.csrs 1 0x00B)).setWidth 64) = true ∧
      traps (exec (.csrc 1 0x00B) (withPriv .app base)) 0x03 ((encode (.csrc 1 0x00B)).setWidth 64) = true := by decide +kernel

/-- A stolen range that entered the walker of die 3 gives its unit to a free context of die 0. -/
theorem test_witness_StolenRange :
    let l := { launch 0 .active with die := 3, owner := some (5, 0, 7, 20) }
    let s := freeS l
    sortBy (·.takenSeq) (s.dev.handing (dieOfCtx 0)) = [l] ∧
      after (exec (.unitHandOut 0) s) (fun t => (t.ctx.unit.map (·.ord)) == some 0) = true := by decide +kernel

/-- A unit whose context a double trap has stopped goes with what its channels have not started. -/
theorem test_witness_CancelStopped :
    let s := treeS.onCtx fun c => { c with run := .stopped }
    let t := s.cancelNode (ctrKey 0 2)
    t.ctx.unit = none ∧ t.ctx.preload = none ∧ t.ctx.ch[2].cmds = [] ∧ t.ctx.pCancelled = [] := by decide +kernel

/-- A spare that the self-test finds failed replaces nothing: the next one does. -/
theorem test_witness_FailedSpare :
    let s := State.reset.onWin fun w => { w with state := 1 }
    5 ∈ s.dev.enabled ∧ 48 ∈ s.dev.spares ∧ 48 ∉ s.dev.enabled ∧
      after (exec (.bootImageLoaded true [5, 48]) s) (fun t => t.dev.failed.contains 48 && t.dev.failed.contains 5 &&
        !t.dev.enabled.contains 48 && !t.dev.spares.contains 48 && t.dev.enabled.contains 49) = true := by decide +kernel

end Sys2Proof.Tests
end

