-- ==== Sys2Proof/Tests/Witness7.lean ====
section
/-! SUPPORT. For each statement about the background engines, failures, the host interface and the whole machine, concrete states that meet
its hypotheses together, clause by clause. -/

namespace Sys2Proof.Tests

set_option Elab.async false

open Sys2Proof.Machine Sys2Proof.Claims

/-! ## Engines -/

/-- A registered descriptor at 0x80, pending, running or asked to leave. -/
def regenS (r : Regen) : State := base.onDev fun d => { d with regens := [r] }

theorem test_witness_RegenEvents :
    let p := regenS ⟨0x80, 0, none, 1, false⟩
    let q := regenS ⟨0x80, 0, some ⟨[(5, 7)], some 0x100⟩, 0, true⟩
    let f := base.onDev fun d => { d with fills := [⟨[(5, 7)], some 0x100⟩] }
    (p.dev.regens[0]? = some ⟨0x80, 0, none, 1, false⟩) ∧ (q.dev.regens[0]? = some ⟨0x80, 0, some ⟨[(5, 7)], some 0x100⟩, 0, true⟩) ∧
      q.dev.eccBad = [] ∧ q.dev.snap = none ∧ q.refuses 5 = false ∧ (∀ j, j < 8 → q.refuses (0x100 + j) = false) ∧
      (p.dev.win.state ≠ 6 ∧ (p.onWin fun w => { w with state := 6 }).dev.win.state = 6) ∧
      ((0x100 : Word).toNat % 128 = 0 ∧ p.dev.regens.length < 64 ∧ (p.dev.regens.all fun r => r.addr != 0x100) = true) ∧
      ((0x102 : Word).toNat % 2 = 0 ∧ (0x102 : Word).toNat % 128 ≠ 0) ∧ (p.dev.regens.any fun r => r.addr == 0x80) = true ∧
      (∃ r ∈ p.dev.regens, r.addr = 0x80 ∧ r.drop = false) ∧ (f.dev.fills[0]? = some ⟨[(5, 7)], some 0x100⟩ ∧ Takes f [(5, 7)]) ∧
      (∀ j, j < 8 → f.refuses (0x100 + j) = false) ∧
      after (exec (.regenerationRun 0) p) (fun t => t.dev.regens.all fun r => r.owed == 0 && r.running.isSome) = true ∧
      after (exec (.regenerationRunComplete 0) q) (fun t => t.byteAt 5 == 7 && t.byteAt 0x100 == 1 && t.dev.regens.isEmpty) = true ∧
      after (exec (.randomFillDone 0) f) (fun t => t.byteAt 5 == 7 && t.byteAt 0x100 == 1) = true := by decide +kernel

/-- A snapshot with one line of the page at `base`'s address 0x1000, in an area of `size` bytes. -/
def snapS (size : Nat) : State :=
  match (base.translate 0 .hyp .load 0x1000).1 with
  | .ok l => base.onDev fun d => { d with snap := some ⟨[(l.key, 9)], [l.key / 64 * 64], [], 0, size, 0x2000, false⟩ }
  | .error _ => base

/-- The page's walk ends in a leaf and gives the location of the one line. -/
def snapMeets (s : State) : Bool :=
  match s.walk 0 0x1000 with
  | .leaf e level key => match s.locOf 0 0x1000 ⟨e, levelBits level, areaOf key == 5, true⟩ .load, s.dev.snap with
    | .ok l, some p => indexIn (l.key / 64 * 64) p.lines 0 == some 0 && !p.copied.contains (l.key / 64 * 64) && !p.overflow
    | _, _ => false
  | _ => false

/-- The last HBM word of 8 bytes lies in a line of the snapshot that is not copied. -/
def hostSnapS : State :=
  base.onDev fun d => { d with snap := some ⟨[(cxlKey (704 * 2 ^ 30 - 8), 9)], [cxlKey (704 * 2 ^ 30 - 8) / 64 * 64], [], 0, 64, 0x2000, false⟩ }

/-- The first write to a line copies it before it changes it (R225). -/
theorem test_witness_CopyFirst :
    ((704 * 2 ^ 30 - 8 : Word).toNat % 8 = 0 ∧ (704 * 2 ^ 30 - 8 : Word).toNat + 8 ≤ 704 * 2 ^ 30 ∧ hostSnapS.dev.win.state ≠ 6 ∧
        hostSnapS.dev.win.level < 3 ∧ (704 * 2 ^ 30 - 8 : Word).toNat / 2 ^ 30 / 44 ∉ hostSnapS.dev.lostStacks) ∧
      (hostSnapS.dev.eccBad = [] ∧ hostSnapS.dev.regens = [] ∧ hostSnapS.dev.refusing = []) ∧
      (hostSnapS.dev.snap.map fun p => (p.copied, p.overflow, indexIn (cxlKey (704 * 2 ^ 30 - 8) / 64 * 64) p.lines 0)) =
        some ([], false, some 0) ∧
      after (exec (.hostMemoryAccess true (704 * 2 ^ 30 - 8) 8 7) hostSnapS) (fun t =>
        t.byteAt (reservedKey Config.snapAreaOff + 56) == 9 && t.natAt (cxlKey (704 * 2 ^ 30 - 8)) 8 == 7) = true := by decide +kernel

theorem test_witness_SnapshotEvents :
    snapMeets (snapS 64) = true ∧ snapMeets (snapS 63) = true ∧ (snapS 64).dev.eccBad = [] ∧
      (∀ j, j < 64 → (snapS 64).refuses (reservedKey (Config.snapAreaOff + 0 + 64 * 0) + j) = false) ∧
      after (exec (.snapshotLineCopy 0 0x1000) (snapS 64)) (fun t => t.byteAt (reservedKey Config.snapAreaOff) == 9) = true ∧
      after (exec (.snapshotLineCopy 0 0x1000) (snapS 63)) (fun t => (t.dev.snap.map (·.overflow)) == some true) = true ∧
      (let s := (snapS 64).onDev fun d => { d with snap := d.snap.map fun p => { p with copied := p.lines } }
       (match s.dev.snap with
        | some p => p.lines.all fun k => p.copied.contains k
        | none => false) = true ∧
        okWith (({ s with dev := { s.dev with snap := none } } : State).translate 0 .hyp .rmw 0x2000) fun l s1 =>
          s1.dev.eccBad.isEmpty && s1.dev.regens.isEmpty && (List.range 8).all fun j => !s1.refuses (l.key + j)) := by decide +kernel

/-! ## Failures and links -/

/-- Pages of host memory: one that is not refused, one that is. -/
theorem test_witness_ErrorEvents :
    okWith (base.translate base.ctx.asid .hyp .load 0x1000) (fun l _ => areaOf l.key == 4 && !base.dev.refusing.contains (l.key / 65536) &&
        !base.dev.eccBad.contains (l.key / 8)) = true ∧
      (let s := match (base.translate base.ctx.asid .hyp .load 0x1000).1 with
        | .ok l => base.onDev fun d => { d with refusing := [l.key / 65536] }
        | .error _ => base
       okWith (s.translate s.ctx.asid .hyp .load 0x1000) (fun l _ => areaOf l.key == 4 && s.dev.refusing.contains (l.key / 65536)) = true) ∧
      base.ctx.stores = [] ∧ (∀ k ∈ [0, 15], k < 16 ∧ k ∉ base.dev.lostStacks) ∧ 0 ∈ base.touched ∧
      (base.ctxOf 0).writing (fun key => areaOf key == 0 && key / 2 ^ 36 == 15) = [] ∧
      (let s := base.onCtx fun c => { c with stores := [⟨[(15 * 2 ^ 36, 7)], 0, false, 0, 0, 0, 0, 15 * 2 ^ 36, 0, 0, 0, false, [], 0⟩] }
       after (exec (.hbmStackLost 15) s) (fun t => t.ctx.pMcheck.length == 1 && t.ctx.stores.isEmpty) = true) ∧
      after (exec (.softErrorThreshold 511) base) (fun t => lookup (0x1000 + 8 * 511) t.dev.win.errcnt == some 1) = true := by
  decide +kernel

/-- A core in service where its die has an idle spare, and where it has none; the last die. -/
theorem test_witness_FailureEvents :
    let s := base.onDev fun d => { d with spares := [] }
    base.dev.alive 0 = true ∧ 0 ∉ base.dev.spares ∧ (base.dev.spareOf 0).isSome = true ∧ (s.dev.alive 0 = true ∧ s.dev.spareOf 0 = none) ∧
      (3 < 4 ∧ 3 ∉ base.dev.lostDies) ∧ after (exec (.coreFailed 0 0) base) (fun t => t.ctx.run == .stopped) = true := by decide +kernel

/-- Links up and down; peers 63 and 64; versions that meet and that do not. -/
theorem test_witness_LinkEvents :
    let s := base.onDev fun d => { d with links := [⟨true, 3, 8, 1⟩, ⟨false, 0, 8, 0⟩], peers := [(3, 0)] }
    s.dev.links[0]? = some ⟨true, 3, 8, 1⟩ ∧ s.dev.links[1]? = some ⟨false, 0, 8, 0⟩ ∧ (1 ≤ 1 ∧ 63 < 64 ∧ 63 ≠ s.dev.win.domain) ∧
      ¬(2 ≤ 1 ∧ 1 ≤ 2) ∧ 64 ≤ 64 ∧ (3, 0) ∈ s.dev.peers ∧
      (base.dev.links.all fun k => !k.up) = true ∧
      after (exec (.linkLost 0) s) (fun t => t.dev.cutOff.contains 3) = true := by decide +kernel

/-! ## Host, power, thermal limits, bring-up -/

/-- The last aligned word of HBM, and the other premises of R412; a window that is idle, busy, tripped, and in each state of bring-up. -/
theorem test_witness_Host :
    ((704 * 2 ^ 30 - 8 : Word).toNat % 8 = 0 ∧ (704 * 2 ^ 30 - 8 : Word).toNat + 8 ≤ 704 * 2 ^ 30 ∧ base.dev.win.state ≠ 6 ∧
        base.dev.win.level < 3 ∧ (704 * 2 ^ 30 - 8 : Word).toNat / 2 ^ 30 / 44 ∉ base.dev.lostStacks ∧
        Takes base (writesAt (cxlKey (704 * 2 ^ 30 - 8)) (leBytes 8 7))) ∧
      (base.dev.win.busy = none ∧ base.mayEnter 1 = true ∧ base.mayEnter 7 = false) ∧
      (let s := base.onWin fun w => { w with busy := some 1 }
       s.dev.win.state ≠ 6 ∧ s.dev.win.busy = some 1 ∧ s.dev.win.waiting = none) ∧
      (let s := base.onWin fun w => { w with busy := some 4, level := 0 }
       s.dev.win.busy = some 4 ∧ s.dev.win.waiting = none ∧ 4 ≠ s.dev.win.level) ∧
      (let s := base.onWin fun w => { w with busy := some 0, level := 4 }
       s.dev.win.busy = some 0 ∧ s.dev.win.level = 4) ∧
      (base.windowRead 0x28 = some 0 ∧ base.windowRead 0xB8 = some 0 ∧ base.dev.regens.length < 128 ∧ (0xC8 : Nat) ∉ [0x08, 0x20]) ∧
      after (exec (.hostMemoryAccess true (704 * 2 ^ 30 - 8) 8 7) base) (fun t => t.natAt (cxlKey (704 * 2 ^ 30 - 8)) 8 == 7) = true := by
  decide +kernel

theorem test_witness_Thermal :
    base.dev.win.state ≠ 6 ∧ base.dev.win.twarn = 95 ∧ base.dev.win.ttrip = 105 ∧ (91 : Int) < base.dev.win.twarn - 3 ∧
      (let s := base.onWin fun w => { w with tripTimers := [true] }
       s.dev.win.tripTimers = [true]) ∧
      (let s := base.onWin fun w => { w with tripTimers := [false] }
       s.dev.win.tripTimers = [false] ∧ after (exec .tripTimerExpiry s) (fun t => t.dev.win.state == 6) = true) ∧
      (base.dev.win.temp 255 < base.dev.win.twarn ∧ (∀ m, m < 256 → m ≠ 255 → base.dev.win.temp m < base.dev.win.twarn - 3)) ∧
      after (exec (.twarnCrossing ⟨255, 95⟩) base) (fun t => t.dev.win.warn && t.dev.win.msix.contains 0) = true ∧
      after (exec (.ttripCrossing ⟨255, 105⟩) base) (fun t => t.dev.win.tripTimers == [false] && t.dev.win.msix == [0, 1]) = true ∧
      after (exec (.ttripCrossing ⟨255, 115⟩) base) (fun t => t.dev.win.state == 6) = true ∧
      after (exec (.twarnCrossing ⟨255, 115⟩) base) (fun t => t.dev.win.state == 6) = true ∧
      after (exec (.immediateTrip ⟨255, 115⟩) base) (fun t => t.dev.win.state == 6 && t.dev.win.trip) = true ∧
      after (exec (.warnClear ⟨255, 91⟩) (base.onWin fun w => { w with warn := true, temps := [(255, 95)] })) (fun t => !t.dev.win.warn) = true := by
  decide +kernel

theorem test_witness_BringUp :
    State.reset.dev.win.state = 0 ∧ State.reset.dev.win.level < 3 ∧
      (let s := State.reset.onWin fun w => { w with state := 1 }
       s.dev.win.state = 1 ∧ 0 ∈ s.dev.enabled) ∧
      (let s := State.reset.onWin fun w => { w with state := 2, hentry := 0x1000 }
       s.dev.win.state ≠ 3 ∧ after (exec .hypContextStart s) (fun t => t.dev.win.state == 2) = true) ∧
      (let s := State.reset.onWin fun w => { w with state := 3, hentry := 0x1000 }
       s.dev.win.state = 3 ∧ s.dev.inTime = true ∧ s.mayStart = true ∧ (s.clearCtxs.onDev Dev.defaults).dev.physCore 0 0 = some 0 ∧
         after (exec .hypContextStart s) (fun t => (t.ctxOf 0).pc == 0x1000 && (t.ctxOf 0).priv == .hyp) = true) ∧
      State.reset.mem.wf = true := by decide +kernel

/-! ## The whole machine -/

/-- `base` at the word add x5, x6, x7 (0x04A6_3800), at a word that is no instruction, and with an event as its next move. -/
theorem test_witness_StepRunsDecoded :
    let s := withX [(6, 2), (7, 3)] (base.placeWord 0x04A63800)
    let u : State := { base with moves := [.event (.gtsSync 9)] }
    (s.tick.sctWord.1.toOption = some 0x04A63800 ∧ s.ctx.latch = none ∧ AboutToFetch s ∧ decode 0x04A63800 = .ok (.add 5 6 7)) ∧
      ((base.placeWord 0).tick.sctWord.1.toOption = some 0 ∧ AboutToFetch (base.placeWord 0) ∧ decode 0 = .error .op) ∧
      (u.moves = [.event (.gtsSync 9)] ∧ isEvent (.gtsSync 9) = true) ∧
      after (step s) (fun t => t.getX 5 == 5 && t.ctx.pc == s.ctx.pc + 4) = true ∧
      after (step (base.placeWord 0)) (fun t => t.ctx.cause == 1) = true := by decide +kernel

theorem test_witness_DecodeEncode :
    (.amoCas 1 2 3 3 4 1 : Instr).wellFormed = true ∧ (.vldSeg 60 31 1 3 3 : Instr).wellFormed = true ∧
      (.vpart 60 63 31 6 : Instr).wellFormed = true ∧ decode 0xD8020000 = .error (.field .app) := by decide +kernel

/-- R43 to R45: a word for the SCT, one bound for the vector unit (major 0x24 with a mask and v0), and their kinds. -/
theorem test_witness_IllegalWords :
    illegalEnters 0 = false ∧ base.ctx.latch = none ∧ decode 0 = .error .op ∧ illegalEnters 0x90004080 = true ∧ VectorIdle base ∧
      decode 0x90004080 = .error (.field .app) ∧ (withPriv .app base).ctx.priv.rank < Priv.sup.rank := by decide +kernel

/-- An app context that executes ecall leaves for the vector of sup. -/
theorem test_witness_AppIsConfined :
    let s := withPriv .app base
    isEvent .ecall = false ∧ s.ctx.priv = .app ∧ s.mem.wf = true ∧ TilesOrdered s ∧
      after (exec .ecall s) (fun t => t.ctx.priv == .sup && t.ctx.pc == s.ctx.tvec && t.ctx.ppriv == .app) = true := by
  refine ⟨by decide +kernel, by decide +kernel, by decide +kernel, ⟨?_, ?_⟩, by decide +kernel⟩ <;> decide +kernel

end Sys2Proof.Tests
end

