-- ==== Sys2Proof/Tests/Witness8.lean ====
section
/-! SUPPORT. More states that meet the hypotheses of the statements together: CSR words, float order, images, launches, clasps, tiles,
triggers and barriers. -/

namespace Sys2Proof.Tests

set_option Elab.async false

open Sys2Proof.Machine Sys2Proof.Claims

/-! ## CSR words, floats, vectors -/

/-- csrs and csrc of hwm and status from sup. -/
theorem test_witness_CsrSetAndClear :
    let s := withX [(1, 8), (2, 0x200)] (withPriv .sup base)
    Drained s .sup ∧ csrWrite (.csrs 1 0x00A) s (s.readCsr 0x00A) = some (0x00A, 8) ∧
      csrWrite (.csrc 2 0x100) s (s.readCsr 0x100) = some (0x100, 1) ∧ privOf 0 = some .app ∧
      after (exec (.csrs 1 0x00A) s) (fun t => t.ctx.hwmBytes == 8) = true ∧
      after (exec (.csrc 2 0x100) (s.onCtx fun c => { c with skip := true })) (fun t => !t.ctx.skip) = true := by decide +kernel

/-- R93: −inf before a finite value, −0 and +0 at one place, and a NaN, which has none. -/
theorem test_witness_FloatOrder :
    rankOf (.inf true) = some (-1, 0) ∧ rankOf (.fin false 3 (-1)) = some (0, 3 / 2) ∧ rankOf (.nan false) = none ∧
      rankOf (.fin true 0 5) = rankOf (.fin false 0 0) ∧ lessRank (-1, 0) (0, 3 / 2) ∧ lessRank (0, 1) (0, 3 / 2) := by
  refine ⟨rfl, ?_, rfl, ?_, ?_, ?_⟩ <;> norm_num [rankOf, ratOf, lessRank]

theorem test_witness_FloatOrder_codes :
    (0x80000000 : Nat) < 2 ^ FType.f32.width ∧ fMinMax .f32 false 0 0x80000000 = (0x80000000, 0) ∧
      fClass .f32 0x00000001 = 0x020 ∧ FType.f32.hasInf = true ∧ fSub .f32 .rdn (.fin false 1 0) (.fin false 1 0) = (0x80000000, 0) ∧
      fFma .f32 .rne (.inf false) (.fin true 1 0) (.fin false 1 0) = (0xFF800000, 0) := by decide +kernel

/-- A vector float comparison at SEW 8, and vnclip at SEW 64. -/
theorem test_witness_BadWidths :
    let s := withVl 2 0 base
    let d := withVl 2 3 base
    VectorIdle s ∧ (∃ f, floatCompare (.vfle 1 2 3 0 0) s = some (1, 0, 0, f)) ∧ floatKind false s.ctx.sew = none ∧ VectorIdle d ∧
      d.ctx.sew = 64 ∧ (∃ f, satForm (.vnclip 4 2 3 0 1) d = some (4, 0, true, f)) ∧
      after (exec (.vfle 1 2 3 0 0) s) (fun t => t.ctx.cause == 0x102) = true ∧
      after (exec (.vnclip 4 2 3 0 1) d) (fun t => t.ctx.cause == 0x102) = true :=
  ⟨by decide +kernel, ⟨_, rfl⟩, by decide +kernel, by decide +kernel, by decide +kernel, ⟨_, rfl⟩, by decide +kernel, by decide +kernel⟩

/-! ## Images -/

/-- A stopped context with two registers of five bytes, a queue of three values, a command in channel 2, and a frame of two entries. -/
def imagedS : State :=
  (withV 1 8 [1, 2, 3, 4, 5] (withV 0 8 [9, 8, 7, 6, 5] (withX [(1, 0x5000), (31, -1)] base))).onCtx fun c => { c with
    hwmReg := 1, hwmBytes := 5, q := c.q.set 3 [1, 2, 3], tfv := true, epcv := 0x100, frameVf := true, vl := 3, cause := 0x105
    frame := [⟨.vadd 1 2 3 0, 0x100, 0, 0, some ⟨true, false, 3, true, true, 9, true, 0x44⟩⟩, ⟨.vrand 1 2 3 0, 0xF0, 5, 6, none⟩]
    ch := c.ch.set 2 ⟨[⟨.push 5, 0, .app, none, 0, 0⟩], none, true, 5, 9, none, 7, 8⟩ }

/-- The parts stand in rising order from offset `b`, none in the next one. -/
def Rising : Nat → List (Nat × List Byte) → Bool
  | _, [] => true
  | b, p :: ps => decide (b ≤ p.1) && Rising (p.1 + p.2.length) ps

/-- Parts in rising order are the slices of some bytes. -/
theorem exists_laid : ∀ (ps : List (Nat × List Byte)) (b : Nat), Rising b ps = true →
    ∃ img : List Byte, ∀ p ∈ ps, b ≤ p.1 ∧ slice img (p.1 - b) p.2.length = p.2
  | [], _, _ => ⟨[], by simp⟩
  | (o, l) :: ps, b, h => by
    simp only [Rising, Bool.and_eq_true, decide_eq_true_eq] at h
    obtain ⟨hb, hr⟩ := h
    obtain ⟨img, hi⟩ := exists_laid ps _ hr
    have hl : (List.replicate (o - b) 0 ++ l).length = o - b + l.length := by simp
    refine ⟨List.replicate (o - b) 0 ++ l ++ img, fun p hp => ?_⟩
    rcases List.mem_cons.mp hp with rfl | hp
    · refine ⟨hb, List.ext_getElem (by simp [slice]) fun n h1 h2 => ?_⟩
      simp [slice, List.getD_eq_getElem?_getD, List.getElem?_append, h2]
    · obtain ⟨h1, h2⟩ := hi p hp
      refine ⟨by omega, ?_⟩
      conv_rhs => rw [← h2]
      refine List.map_congr_left fun n _ => ?_
      have hn : p.1 - b + n = (List.replicate (o - b) 0 ++ l).length + (p.1 - (o + l.length) + n) := by omega
      simp only [List.getD_eq_getElem?_getD, hn, List.getElem?_append_right (Nat.le_add_right _ _), Nat.add_sub_cancel_left]

theorem imagedS_rect : ∀ n : BitVec 6, (imagedS.ctx.getV n).toNat < 2 ^ 40 ∧ (n.toNat ≤ 1 ∨ (imagedS.ctx.getV n).toNat = 0) := by
  decide +kernel

theorem imagedS_tiles : ∀ k : Fin 4, imagedS.ctx.tiles[k] = Tile.empty := by decide +kernel

theorem imagedS_empty : SavableTile imagedS.ctx.tileRows Tile.empty := by
  refine ⟨?_, ?_, ?_, ?_, ?_, ?_, ?_, ?_, ?_, ?_⟩ <;> decide +kernel

theorem test_witness_ImageGivesBack :
    Savable imagedS ∧ (imagedS.imageParts 1).2 < 2 ^ 32 ∧ ∃ img : List Byte, ∀ p ∈ (imagedS.imageParts 1).1, slice img p.1 p.2.length = p.2 :=
  ⟨{ x0 := by decide +kernel
     queues := by decide +kernel
     rect := ⟨by decide +kernel, by decide +kernel, fun n j h => by
       have hn := imagedS_rect n
       have hj : j < 40 := by
         by_contra hc
         rw [BitVec.getLsbD, Nat.testBit_lt_two_pow (lt_of_lt_of_le hn.1 (Nat.pow_le_pow_right (by decide) (Nat.le_of_not_lt hc)))] at h
         exact Bool.false_ne_true h
       refine ⟨hn.2.resolve_right fun h0 => ?_, hj⟩
       rw [BitVec.getLsbD, h0, Nat.zero_testBit] at h
       exact Bool.false_ne_true h⟩
     length := by decide +kernel
     csrs := by decide +kernel
     chans := by decide +kernel
     entries := by decide +kernel
     tiles := fun k => by
       have h : imagedS.ctx.tiles[k] = Tile.empty := imagedS_tiles k
       rw [h]
       exact ⟨imagedS_empty, fun _ => rfl⟩
     used := by decide +kernel },
   by decide +kernel, (exists_laid _ 0 (by decide +kernel)).imp fun _ h p hp => (h p hp).2⟩

/-- Tiles of one row: an FP64 tile at both ends of the range of a cell, and a resolved one. -/
theorem test_witness_RawRoundTrip :
    SavableTile (fun _ => 1) ⟨.redundant, .float, .f64, some (-2048), 0,
        [(0, ⟨-(2 ^ 271 : Nat), true, false, true, 0⟩), (63, ⟨2 ^ 271 - 1, false, false, false, 0⟩)], false⟩ ∧
      SavableTile (fun _ => 1) ⟨.resolved, .integer, .narrow, none, 7, [(2, ⟨0, false, false, false, 2 ^ 32 - 1⟩)], false⟩ ∧
      SavableTile (fun _ => 128) { Tile.empty with anchor := some 2047, mode := .float } := by
  refine ⟨⟨?_, ?_, ?_, ?_, ?_, ?_, ?_, ?_, ?_, ?_⟩, ⟨?_, ?_, ?_, ?_, ?_, ?_, ?_, ?_, ?_, ?_⟩, ⟨?_, ?_, ?_, ?_, ?_, ?_, ?_, ?_, ?_, ?_⟩⟩ <;>
    decide +kernel

/-! ## Launches and clasps -/

/-- A launch of `n` units under counter 7, whose parent 2 is armed, with the dependences in `deps`. -/
def blocksOf (n : Nat) (deps : List Nat) : LaunchBytes :=
  ⟨block 256 ([(0, 8, 2 ^ 56 + 2 ^ 36 + 2 ^ 32), (8, 8, 0x8000), (56, 2, 7), (58, 2, 2 ^ 15 + 2), (132, 4, 0x1000)] ++
      ((List.range deps.length).zip deps).map fun p => (48 + 2 * p.1, 2, 2 ^ 15 + p.2)),
    block 64 [(0, 4, 0x01100000), (8, 4, n)], [], [], []⟩

/-- Counters: 2 armed as a graph, 3 done, 4 cancelled, 5 armed. -/
def graphS : State := base.onDev fun d => { d with seq := 9, counters := [
  (ctrKey base.die 2, ⟨true, false, false, 1, 0, 5, none, 0, 0, 1, []⟩), (ctrKey base.die 3, ⟨true, true, false, 0, 1, 1, none, 0, 0, 2, [0]⟩),
  (ctrKey base.die 4, ⟨true, true, true, 0, 0, 1, none, 0, 0, 3, []⟩), (ctrKey base.die 5, ⟨true, false, false, 0, 0, 1, none, 0, 0, 4, []⟩)] }

/-- The phases of a launch as accepted: ready, waiting, cancelled, without units; and what is left of its counters. -/
theorem test_witness_LaunchAccepted :
    graphS.dev.launches = [] ∧ (∀ d ∈ [[], [3], [3, 5], [4, 5]], ∀ n ∈ recordDeps (blocksOf 3 d).record, ctrKey graphS.die n ≠ ctrKey graphS.die 7) ∧
      (∃ n, parseNest (blocksOf 3 []).space = some n ∧ n.count = 3) ∧ (∃ n, parseNest (blocksOf 0 []).space = some n ∧ n.count = 0) ∧
      (∀ d ∈ [[], [3], [3, 5], [4, 5]], graphS.launchFails (blocksOf 3 d) = [] ∧ graphS.launchCode (blocksOf 3 d).record = 0) ∧
      (([[], [3], [3, 5], [4, 5]].map fun d => (graphS.acceptLaunch (blocksOf 3 d)).dev.launches.map (·.phase)) =
        [[.ready], [.ready], [.waiting], []]) ∧
      (let t := graphS.acceptLaunch (blocksOf 0 [])
       t.dev.launches.isEmpty && ((t.dev.counter false (ctrKey base.die 2)).map fun k => (k.count, k.counted)) == some (1, [7]) &&
         ((t.dev.counter false (ctrKey base.die 7)).map fun k => (k.done, k.canc, k.target)) == some (true, false, 0)) = true :=
  ⟨by decide +kernel, by decide +kernel, ⟨_, rfl, by decide +kernel⟩, ⟨_, rfl, by decide +kernel⟩, by decide +kernel, by decide +kernel,
    by decide +kernel⟩

/-- The codes of a launch and of a node word for each state of a counter. -/
theorem test_launch_codes :
    graphS.launchCode (block 256 [(56, 2, 5), (58, 2, 2 ^ 15 + 2)]) = 2 ∧ graphS.launchCode (block 256 [(56, 2, 7), (58, 2, 2)]) = 3 ∧
      graphS.launchCode (block 256 [(56, 2, 7), (58, 2, 2 ^ 15 + 2), (48, 2, 2 ^ 15 + 8)]) = 3 ∧
      graphS.nodeCode 5 0 = 2 ∧ graphS.nodeCode (2 ^ 16 + 7) (2 ^ 32) = 1 ∧ graphS.nodeCode (2 ^ 48 + 2 ^ 32 * 2 + 2 ^ 16 + 7) 1 = 3 ∧
      graphS.nodeCode 3 0 = 0 ∧
      ∀ o ∈ [8, 32, 40, 60, 140, 160], o ∈ graphS.launchFails { blocksOf 3 [] with record := List.replicate 256 0xFF } := by
  decide +kernel

/-- The second member of a unit clasp arrives, late by more than Δ = 5, and completes episode 0; an arrival at a clasp of device 4. -/
theorem test_witness_ArrivalRecorded :
    let k : Clasp := ⟨false, 2, 1, 5, 0, none, 0, [(0, 0, 10)], [], [], []⟩
    let s := ({ base with gts := 16 } : State).onDev fun d => { d with clasps := [(4, k)] }
    lookup 4 s.dev.clasps = some k ∧ 1 < k.nmem ∧ lookup 1 k.replay = none ∧ k.stamp 0 1 = none ∧ s.nextEpisode (.here 4 1 k) = k.epoch ∧
      (∀ j, j < 2 → j = 1 ∨ (k.stamp k.epoch j).isSome ∨ j ∈ k.departed) ∧
      ((s.arriveAt (.here 4 1 k)).dev.clasps.map fun p => (p.2.epoch, p.2.lateIn, p.2.stamp 0 1)) = [(1, [(0, 1)], some 16)] ∧
      ((s.arriveAt (.away 4 9)).dev.outbox.map (·.args)) = [[9, s.dev.win.domain, 16]] := by decide +kernel

/-! ## Tiles -/

/-- R103: the greatest of the products 3, −1/2 and 0 lies in [2, 4). -/
theorem test_witness_TileSums :
    let ps : List (Option FVal) := [some (.fin false 3 0), none, some (.fin true 1 (-1)), some (.fin false 0 0)]
    (∃ q, Counted ps q ∧ (2 : ℚ) ^ (1 : Int) ≤ q) ∧ (∀ q, Counted ps q → q < (2 : ℚ) ^ ((1 : Int) + 1)) ∧ ps.Perm ps.reverse ∧
      (({ Tile.empty with mode := .float } : Tile).anchored ps).anchor = some 9 := by
  refine ⟨⟨3, ⟨false, 3, 0, by simp, by decide, by norm_num [ratOf]⟩, by norm_num⟩, ?_, (List.reverse_perm _).symm, by decide +kernel⟩
  rintro q ⟨n, m, e, h, hm, rfl⟩
  simp only [List.mem_cons, Option.some.injEq, FVal.fin.injEq, reduceCtorEq, List.not_mem_nil, or_false, false_or] at h
  rcases h with ⟨rfl, rfl, rfl⟩ | ⟨rfl, rfl, rfl⟩ | ⟨rfl, rfl, rfl⟩
  · norm_num [ratOf]
  · norm_num [ratOf, abs_of_neg]
  · exact absurd rfl hm

/-- Two vector elements, one row of tiles; tile 1 integer, tile 2 float with a resolved cell, tile 3 with a parity error. -/
def trapS : State :=
  (withX [(1, 8), (2, 2 ^ 20), (3, 12 * 2 ^ 32), (4, 0x1000), (5, 16 * 2 ^ 32)] (withVl 2 2 base)).onCtx fun c => { c with
    trn := 1
    tiles := ((c.tiles.set 1 { Tile.empty with mode := .integer, cls := .narrow, state := .redundant }).set 2
      { Tile.empty with mode := .float, cls := .f32, state := .redundant, anchor := some 0 }).set 3 { Tile.empty with bad := true } }

theorem test_witness_MoreTileTraps :
    let n := withVl 2 0 trapS
    let code := fun (o : Host.Outcome State Fault Refusal) (c : Word) (v : Word) => after o fun t => t.ctx.cause == c && t.ctx.tval == v
    VectorIdle trapS ∧ (trapS.ctx.scaleBlock ≠ none ∧ (trapS.ctx.tile 1).conflicts (fmtMode 5) (fmtClass 5) = true) ∧
      code (exec (.mopaS 1 2 4 0 5) trapS) 0x10D 0x0100000000000001 = true ∧
      (n.ctx.sew = fmtWidth 0 ∧ (n.getX 3).toNat < 2 ^ 39 ∧ (n.getX 3).toNat / 2 ^ 20 % 2 ^ 12 = 0 ∧ (n.ctx.tile 0).conflicts .float .half = false ∧
        n.ctx.tileRows .half ≤ (n.getX 5).toNat / 2 ^ 32 ∧ n.ctx.rowBytes ≠ none) ∧
      code (exec (.mopaGr 0 4 5 0) n) 0x10D 0x0200000000001000 = true ∧ code (exec (.mopaGr 1 4 3 0) n) 0x10D 0x0100000000000001 = true ∧
      after (exec (.mopaGr 0 4 2 0) n) (fun t => t.ctx.cause == 0x102) = true ∧
      code (exec (.tmovw 2 2 1 5) trapS) 0x10D 0x0200000000000802 = true ∧ code (exec (.tmovw 2 2 1 7) trapS) 0x10D 0x0100000000000002 = true ∧
      code (exec (.tldCan 1 4 5) trapS) 0x10D 0x0100000000000001 = true ∧ code (exec (.tstCan 1 4 5) trapS) 0x10D 0x0100000000000001 = true ∧
      (∀ i ∈ ([.mopaS 3 2 4 0 5, .mopaGr 3 4 2 0, .tmovw 3 2 1 5, .tldCan 3 4 5, .tstCan 3 4 5, .tanchor 3 1] : List Instr),
        parityOf i = some 3 ∧ after (exec i trapS) (fun t => t.ctx.cause == 0x112) = true) := by decide +kernel

/-- The checks of the range of tld.can and tst.can: a reserved space, a misaligned address, LANE, and a range that is refused. -/
theorem test_witness_CanonicalRanges :
    let s := withX [(4, 0x1001), (6, 2 ^ 55)] trapS
    let vmt := fun (m : BitVec 4) => s.onCtx fun c => { c with vmt := m }
    ((s.ctx.tile 2).bad = false ∧ (s.ctx.tile 2).conflicts (fmtMode 5) (fmtClass 5) = false ∧ frmReserved s.ctx.frm = false) ∧
      (∀ i ∈ ([.tldCan 2 4 5, .tstCan 2 4 5] : List Instr), after (exec i s) (fun t => t.ctx.cause == 0x104 && t.ctx.tval == 0x1001) = true ∧
        after (exec i (vmt 4)) (fun t => t.ctx.cause == 0x102) = true) ∧
      after (exec (.tldCan 2 1 5) (withX [(1, 0x1000)] (vmt 2))) (fun t => t.ctx.cause == 0x108) = true ∧
      after (exec (.tldCan 2 6 5) s) (fun t => t.ctx.cause == 0x105 && t.ctx.tval == 2 ^ 55) = true ∧
      after (exec (.tstCan 2 6 5) s) (fun t => t.ctx.cause == 0x106) = true := by decide +kernel

/-! ## Triggers, barriers, the tripped state -/

/-- A descriptor at 0x80 with its TRIG word at 0x3000 and N = 2. -/
def trigS (r : Regen) : State := (withBytes 0x80 (leBytes 8 0x3000 ++ leBytes 4 2) base).onDev fun d => { d with regens := [r] }

/-- The descriptor registered, and one store counted. -/
def trigR : Regen := ⟨0x80, 1, none, 0, false⟩

theorem test_witness_TriggerCounts :
    okWith ((trigS trigR).translate 0 .hyp .store 0x3004) (fun l s1 =>
      match (trigS trigR).trigOf 0x80 with
      | (some (key, n), s2) => decide (key + 4 = l.key ∧ n = 2 ∧ s2.dev.regens = [trigR] ∧ s1.dev.regens = [trigR]) &&
          (((trigS trigR).noteStores [(l.key, 4), (l.key + 4, 4)]).dev.regens == [{ trigR with count := 2, owed := 1 }])
      | _ => false) = true ∧
      (let s := withX [(1, 0x3000)] (trigS trigR)
       storeForm (.sw 2 1 4) = some (2, 1, 4, 4) ∧ PathClear s ∧ s.ctx.detm = false ∧
         after (exec (.sw 2 1 4) s) (fun t => t.dev.regens == [{ trigR with count := 2, owed := 1 }]) = true ∧
         after (exec (.sw 2 1 8) s) (fun t => t.dev.regens == [trigR]) = true) ∧
      (let s := trigS trigR
       s.dev.snap = none ∧ s.dev.refusing = [] ∧ s.dev.eccBad = [] ∧
         after (exec (.hostMemoryAccess true (704 * 2 ^ 30 - 8) 8 7) s) (fun t => t.dev.regens == [trigR]) = true) := by decide +kernel

/-- HBM that is not awake: at level 3, and in the tripped state; what still happens there. -/
theorem test_witness_Asleep :
    base.dev.hbmAwake = true ∧ (base.onWin fun w => { w with level := 3 }).dev.hbmAwake = false ∧
      (let u : State := ({ base with moves := [.event (.gtsSync 9)] } : State).onWin fun w => { w with state := 6 }
       u.tick.dev.win.state = 6 ∧ (Move.event (.gtsSync 9)).outlives = false ∧ after (step u) (fun t => t.gts == u.tick.gts) = true) ∧
      (Move.event (.twarn 9)).outlives = true := by decide +kernel

/-- A wait behind a barrier that holds reads; a store behind a fence of writes that stands behind a store. -/
theorem test_witness_BehindBarriers :
    let old : Pend := ⟨[(polderKey (coreOf base.cur) 5, 7)], 0, false, 0, 0, 0, 5, 5, 0, 0, 0, false, [], 0⟩
    let s := withX [(1, 0x3000)] base |>.onCtx fun c => { c with
      stores := [old, Pend.fence 2]
      ch := c.ch.set 3 { c.ch[3] with cmds := [⟨.push 0, 0, .app, some (0, 64), 0, 0⟩] } }
    let w := ((withX [(1, 0x3000)] base).onCtx fun c => { c with stores := [old, Pend.fence 1] }).onDev fun d => { d with holdStores := true }
    (s.ctx.vmWaits = false ∧ s.behindBarriers = none ∧ after (exec (.waitge 1 2 0) s) (fun t => t.ctx.safePoint) = true) ∧
      (w.ctx.vmWaits = false ∧ w.ctx.wcb = [] ∧ w.ctx.detm = false ∧ w.dev.holdStores = true ∧ (∃ q ∈ w.ctx.stores, q.barrier = 1) ∧
        (∀ q ∈ w.ctx.stores, q.barrier < 2) ∧ okWith (w.aligned 0 .store none 4 (w.getX 1)) (fun _ _ => true) = true ∧
        after (exec (.sw 2 1 0) w) (fun t => t.ctx.stores.length == 3 && t.ctx.pc == w.ctx.pc + 4) = true) := by decide +kernel

end Sys2Proof.Tests
end

/-! The step of the machine: what time, a move and a fetch leave of the context, and which word a step runs. -/

namespace Sys2Proof.Machine

open Sys2Proof.Claims

/-! ## What the passing of time leaves of a context -/

/-- Time changes the budget's count and what its limit raises alone (R312). -/
theorem Ctx.age_only (c : Ctx) (n : Nat) :
    c.age n = { c with bused := (c.age n).bused, armed := (c.age n).armed, pBudget := (c.age n).pBudget } := by
  unfold Ctx.age Ctx.spend
  split
  · split <;> rfl
  · rfl

theorem State.tick_ctx_only (s : State) :
    s.tick.ctx = { s.ctx with bused := s.tick.ctx.bused, armed := s.tick.ctx.armed, pBudget := s.tick.ctx.pBudget } := by
  unfold State.tick
  split
  · rfl
  · exact s.ctx.age_only _

@[simp] theorem State.tick_run (s : State) : s.tick.ctx.run = s.ctx.run := by rw [State.tick_ctx_only]
@[simp] theorem State.tick_viq (s : State) : s.tick.ctx.viq = s.ctx.viq := by rw [State.tick_ctx_only]
@[simp] theorem State.tick_stall (s : State) : s.tick.ctx.stall = s.ctx.stall := by rw [State.tick_ctx_only]
@[simp] theorem State.tick_resume (s : State) : s.tick.ctx.resume = s.ctx.resume := by rw [State.tick_ctx_only]
@[simp] theorem State.tick_latch (s : State) : s.tick.ctx.latch = s.ctx.latch := by rw [State.tick_ctx_only]
@[simp] theorem State.tick_moves (s : State) : s.tick.moves = s.moves := by unfold State.tick; split <;> rfl

/-! ## Translation changes no context -/

@[simp] theorem State.touch_ctx (s : State) (key e : Nat) (k : AccKind) : (s.touch key e k).ctx = s.ctx := by
  unfold State.touch
  split
  · rfl
  · exact s.copyFirst_ctx _

@[simp] theorem State.keepLeaf_ctx (s : State) (asid : BitVec 13) (va : Word) (l : Leaf) : (s.keepLeaf asid va l).ctx = s.ctx := by
  unfold State.keepLeaf
  split <;> rfl

@[simp] theorem State.leafFor_ctx (s : State) (asid : BitVec 13) (va : Nat) (k : AccKind) : (s.leafFor asid va k).2.2.ctx = s.ctx := by
  unfold State.leafFor
  split
  · rfl
  · split
    · rfl
    · rfl
    · exact s.touch_ctx _ _ _

@[simp] theorem State.translate_ctx (s : State) (asid : BitVec 13) (priv : Priv) (k : AccKind) (va : Word) :
    (s.translate asid priv k va).2.ctx = s.ctx := by
  have hl := s.leafFor_ctx asid va.toNat k
  unfold State.translate
  split
  · rfl
  · split <;> rename_i e <;> rw [e] at hl
    · exact hl
    · exact hl
    · split
      · split
        · exact (State.keepLeaf_ctx _ _ _ _).trans hl
        · exact hl
      · exact hl

@[simp] theorem State.appendRecord_ctx (s : State) (asid : BitVec 13) (bytes : Nat → List Byte) :
    (s.appendRecord asid bytes).1.ctx = s.ctx := by
  unfold State.appendRecord
  dsimp only
  split
  · rfl
  · rename_i ring seq _
    have ht := s.translate_ctx asid .hyp .store (ring + BitVec.ofNat 64 (64 * (seq % 4096)))
    split <;> rename_i e <;> rw [e] at ht
    · exact (State.store_ctx _ _).trans ht
    · exact ht

@[simp] theorem State.trigOf_ctx (s : State) (addr : Word) : (s.trigOf addr).2.ctx = s.ctx := by
  have ht := s.translate_ctx 0 .hyp .load addr
  unfold State.trigOf
  split <;> rename_i e <;> rw [e] at ht
  · split <;> exact ht
  · exact ht

@[simp] theorem State.noteStores_ctx (s : State) (parts : List (Nat × Nat)) : (s.noteStores parts).ctx = s.ctx := by
  unfold State.noteStores State.countTriggers
  split
  · rfl
  · refine foldl_keeps State.ctx _ (fun u r => ?_) _ s
    have ht := u.trigOf_ctx r.addr
    split <;> rename_i e <;> rw [e] at ht <;> exact ht

/-! ## What performing accesses leaves of a context -/

/-- `d` is `c` but for its accesses on their way, and the machine checks that performing them has made pending (R217, R222, R371). -/
def Ctx.SameButAccesses (c d : Ctx) : Prop :=
  d = { c with wcb := d.wcb, stores := d.stores, path := d.path, pMcheck := d.pMcheck }

theorem Ctx.SameButAccesses.refl (c : Ctx) : c.SameButAccesses c := rfl

theorem Ctx.SameButAccesses.of_eq {c d : Ctx} (h : d = c) : c.SameButAccesses d := h ▸ rfl

theorem Ctx.SameButAccesses.trans {c d e : Ctx} (h : c.SameButAccesses d) (k : d.SameButAccesses e) : c.SameButAccesses e := by
  unfold Ctx.SameButAccesses at *
  rw [k, h]

theorem Ctx.SameButAccesses.latch {c d : Ctx} (h : c.SameButAccesses d) : d.latch = c.latch := by rw [h]

/-- A fold whose steps change the accesses alone does so. -/
theorem State.foldl_sameButAccesses {α : Type} {f : State → α → State} (hf : ∀ (u : State) (a : α), u.ctx.SameButAccesses (f u a).ctx) (l : List α)
    (s : State) : s.ctx.SameButAccesses (l.foldl f s).ctx :=
  List.foldlRecOn (motive := fun u : State => s.ctx.SameButAccesses u.ctx) l f (.refl _) fun u hu a _ => hu.trans (hf u a)

theorem Ctx.leave_sameButAccesses (c : Ctx) (f : WLine → Bool) : c.SameButAccesses (c.leave f) :=
  List.foldlRecOn (motive := c.SameButAccesses) _ _ rfl fun _ hd _ _ => hd.trans rfl

theorem State.pendMcheck_sameButAccesses (s : State) (c : Nat) (p : Pending) : s.ctx.SameButAccesses (s.pendMcheck c p).ctx := by
  unfold State.pendMcheck State.setCtx State.ctxOf
  split <;> rfl

theorem State.report_sameButAccesses (s : State) (c kind : Nat) (p : Spot) : s.ctx.SameButAccesses (s.report c kind p).ctx :=
  (Ctx.SameButAccesses.of_eq (s.appendRecord_ctx _ _)).trans (State.pendMcheck_sameButAccesses _ _ _)

theorem State.noteRefused_sameButAccesses (s : State) (c key : Nat) (p : Spot) : s.ctx.SameButAccesses (s.noteRefused c key p).ctx := by
  unfold State.noteRefused
  split
  · exact s.report_sameButAccesses _ _ _
  · exact .refl _

theorem State.perform_sameButAccesses (s : State) (c : Nat) (spot : Nat → Spot) (parts : List (Nat × Nat)) (ws : List (Nat × Byte)) :
    s.ctx.SameButAccesses (s.perform c spot parts ws).ctx := by
  unfold State.perform State.settleWrites
  dsimp only
  rw [State.noteStores_ctx, State.store_ctx]
  exact (State.foldl_sameButAccesses (fun u k => u.report_sameButAccesses c 2 (spot k)) _ s).trans
    (State.foldl_sameButAccesses (fun u k => u.report_sameButAccesses c 4 (spot k)) _ _)

theorem State.performPend_sameButAccesses (s : State) (p : Pend) : s.ctx.SameButAccesses (s.performPend p).ctx := by
  unfold State.performPend
  split
  · exact s.perform_sameButAccesses _ _ _ _
  · exact State.perform_sameButAccesses (s.onDev _) _ _ _ _

theorem State.performAll_sameButAccesses (s : State) (ps : List Pend) : s.ctx.SameButAccesses (s.performAll ps).ctx :=
  State.foldl_sameButAccesses State.performPend_sameButAccesses _ s

theorem State.force_sameButAccesses {s t : State} {lvl : Nat} {need : Pend → Bool} (e : s.force lvl need = some t) :
    s.ctx.SameButAccesses t.ctx := by
  unfold State.force at e
  split at e
  · cases e
    exact .refl _
  · dsimp only at e
    split at e
    · cases e
    · cases e
      refine Ctx.SameButAccesses.trans ?_ (State.performAll_sameButAccesses _ _)
      rfl

/-! ## The SCT's next word -/

theorem State.beforeFetch_sameButAccesses {s t : State} (e : s.beforeFetch = some t) : s.ctx.SameButAccesses t.ctx := by
  unfold State.beforeFetch at e
  split at e
  · cases e
  · have h := State.force_sameButAccesses e
    split at h
    · exact (s.ctx.leave_sameButAccesses _).trans h
    · exact h

theorem State.fetchAt_sameButAccesses (s : State) (va : Word) : s.ctx.SameButAccesses (s.fetchAt va).2.ctx := by
  have ht := s.translate_ctx s.ctx.asid s.ctx.priv .fetch va
  unfold State.fetchAt
  split <;> rename_i e <;> rw [e] at ht
  · exact .of_eq ht
  · split
    · exact .of_eq ht
    · exact (Ctx.SameButAccesses.of_eq ht).trans (State.noteRefused_sameButAccesses _ _ _ _)

/-- To get its next word the SCT changes the accesses of its context alone (R358). -/
theorem State.sctWord_sameButAccesses (s : State) : s.ctx.SameButAccesses s.sctWord.2.ctx := by
  unfold State.sctWord
  split
  · exact .refl _
  · cases e : s.beforeFetch with
    | none => exact s.fetchAt_sameButAccesses _
    | some t => exact (State.beforeFetch_sameButAccesses e).trans (t.fetchAt_sameButAccesses _)

/-! ## A fetched word -/

/-- The instruction of a word is that of its decoded form. -/
theorem decode_eq_ok {w : Word32} {i : Instr} (h : decode w = .ok i) : ∃ d, decodeWord w = .ok d ∧ d.toInstr = i := by
  unfold decode at h
  split at h
  · cases h
  · rename_i d e
    cases h
    exact ⟨d, e, rfl⟩

theorem decode_eq_error {w : Word32} {e : DecodeError} (h : decode w = .error e) : decodeWord w = .error e := by
  unfold decode at h
  split at h
  · rename_i e' he
    cases h
    exact he
  · cases h

theorem State.onCtx_latchHere {s : State} (h : s.ctx.latch = none) : (s.onCtx fun c => { c with latch := c.latchHere }) = s := by
  have he : s.ctx.latchHere = s.ctx.latch := by simp [Ctx.latchHere, h]
  show ({ s with ctx := { s.ctx with latch := s.ctx.latchHere } } : State) = s
  rw [he]

/-- Without a pending lend a word runs as its instruction. -/
theorem State.runFetched_ok {s : State} {w : Word32} {i : Instr} (hl : s.ctx.latch = none) (h : decode w = .ok i) :
    s.runFetched w = exec i s := by
  obtain ⟨d, hd, rfl⟩ := decode_eq_ok h
  unfold State.runFetched
  rw [State.onCtx_latchHere hl]
  simp only [hd, hl]
  exact runDecoded_eq_exec d s

/-- Without a pending lend a word that is no instruction runs as such. -/
theorem State.runFetched_error {s : State} {w : Word32} {e : DecodeError} (hl : s.ctx.latch = none) (h : decode w = .error e) :
    s.runFetched w = exec (.illegalWord w e) s := by
  unfold State.runFetched
  rw [State.onCtx_latchHere hl]
  simp only [decode_eq_error h, hl]
  rfl

theorem State.fetchWaits_iff (s : State) :
    s.fetchWaits = true ↔ s.ctx.loop = none ∧ s.beforeFetch = none ∧ s.walkFree .fetch s.ctx.pc = false := by
  simp [State.fetchWaits, and_assoc]

theorem State.runWord_waits {s : State} (hr : s.ctx.resume = false) (hw : s.fetchWaits = true) : s.runWord = .next (s.stallFor .chan) := by
  unfold State.runWord
  simp [hr, hw]

theorem State.runWord_runs {s s1 : State} {w : Word32} (hr : s.ctx.resume = false) (hw : s.fetchWaits = false)
    (h : s.sctWord = (.ok w, s1)) : s.runWord = (s1.onCtx fun c => { c with lag := c.lag - 1 }).runFetched w := by
  unfold State.runWord
  simp [hr, hw, h]

/-! ## What a step does -/

theorem step_of_no_move {s : State} (h : s.moves = []) : step s = s.tick.advance := by
  unfold step State.act
  simp [h]

theorem step_of_move {s : State} {m : Move} {r : List Move} (h : s.moves = m :: r) :
    step s = ({ s.tick with moves := r } : State).moveOf m := by
  unfold step State.act
  simp [h]

/-- The guard of `State.moveOf` tells whether the tripped state or level 4 shuts a move out (R423, R425). -/
theorem State.shutOut_iff (s : State) (m : Move) :
    ((s.tripped && !m.outlives) || (s.dev.win.level == 4 && !m.whileOff)) = true ↔ ¬LetAct s m := by
  simp only [LetAct, State.tripped, Bool.or_eq_true, Bool.and_eq_true, beq_iff_eq, Bool.not_eq_true', not_and_or, not_or, not_not,
    Bool.not_eq_true]

theorem State.moveOf_shutOut {s : State} {m : Move} (h : ¬LetAct s m) : s.moveOf m = .next s := by
  unfold State.moveOf
  rw [if_pos ((s.shutOut_iff m).2 h)]

theorem State.moveOf_event {s : State} {i : Instr} (h : LetAct s (.event i)) (he : isEvent i = true) : s.moveOf (.event i) = exec i s := by
  unfold State.moveOf
  rw [if_neg fun g => (s.shutOut_iff _).1 g h]
  exact if_pos he

theorem State.moveOf_go {s : State} (h : LetAct s .go) : s.moveOf .go = s.advance := by
  unfold State.moveOf
  rw [if_neg fun g => (s.shutOut_iff _).1 g h]

theorem State.moveOf_turn {s : State} {c : Nat} (h : LetAct s (.turn c)) (hc : c < numContexts) : s.moveOf (.turn c) = .next (s.turnTo c) := by
  unfold State.moveOf
  rw [if_neg fun g => (s.shutOut_iff _).1 g h]
  exact if_pos hc

theorem State.head_eq_none {s : State} (h : s.ctx.viq = []) : s.head = none := by
  unfold State.head
  simp [h]

/-- A running context that no trap, no queue entry and no wait holds back executes a word. -/
theorem State.advance_eq_runWord {s : State} (hr : s.ctx.run = .running) (hv : s.ctx.viq = []) (hs : s.ctx.stall = none)
    (ha : s.ctx.takeAsync s.cyc = none) : s.advance = s.runWord := by
  unfold State.advance State.advanceBy State.advanceSct
  simp [hr, State.head_eq_none hv, ha, hs]

/-- With nothing before the next word, a step is that word. -/
theorem step_eq_runWord {s : State} (h : AboutToFetch s) : step s = s.tick.runWord := by
  obtain ⟨hm, hr, hv, hs, -, ha⟩ := h
  rw [step_of_no_move hm]
  exact State.advance_eq_runWord (by simpa using hr) (by simpa using hv) (by simpa using hs) ha

/-- A step whose word has been fetched or read from the loop buffer runs it, and no lend is pending there where none was before. -/
theorem step_eq_runFetched {s s1 : State} {w : Word32} (h : AboutToFetch s) (hw : s.tick.fetchWaits = false)
    (e : s.tick.sctWord = (.ok w, s1)) (hl : s.ctx.latch = none) :
    step s = (s1.onCtx fun c => { c with lag := c.lag - 1 }).runFetched w ∧ s1.ctx.latch = none := by
  constructor
  · rw [step_eq_runWord h]
    obtain ⟨-, -, -, -, hres, -⟩ := h
    exact State.runWord_runs (by simpa using hres) hw e
  · have hs := s.tick.sctWord_sameButAccesses
    rw [e] at hs
    rw [hs.latch, State.tick_latch, hl]

/-- Settles O52: time passes, then the next move is made or the context goes on. The fetched word is no lend's successor, since a fetch
changes nothing of the context but its accesses. -/
theorem stepRunsDecoded : Obligations.StepRunsDecoded := by
  unfold Obligations.StepRunsDecoded
  refine ⟨?waits, State.fetchWaits_iff, ?event, fun s h => step_of_no_move h, ?go, ?turn, ?word⟩
  case waits =>
    intro s h hw
    rw [step_eq_runWord h]
    obtain ⟨-, -, -, -, hres, -⟩ := h
    exact State.runWord_waits (by simpa using hres) hw
  case event =>
    intro u i r hm he
    rw [step_of_move hm]
    exact ⟨fun h => State.moveOf_event h he, fun h => State.moveOf_shutOut h⟩
  case go =>
    intro s r hm h
    rw [step_of_move hm]
    exact State.moveOf_go h
  case turn =>
    intro s c r hm hc h
    rw [step_of_move hm]
    exact State.moveOf_turn h hc
  case word =>
    intro s s1 w e hl h hw
    obtain ⟨hstep, hl1⟩ := step_eq_runFetched h hw e hl
    rw [hstep]
    exact ⟨fun i hd => State.runFetched_ok hl1 hd, fun x hd => State.runFetched_error hl1 hd⟩

end Sys2Proof.Machine

namespace Sys2Proof.Machine
open Sys2Proof.Claims

/-! ## What the completion of a word does next -/

theorem Ctx.retire_outside {c : Ctx} (h : c.loop = none) : c.retire = { c with pc := pcPlus c.pc 4, latch := none, stall := none } := by
  unfold Ctx.retire
  simp [h]

theorem Ctx.retire_within {c : Ctx} {l : LoopSt} (h : c.loop = some l) (hi : l.idx + 1 < l.body.length) :
    c.retire = { c with pc := pcPlus c.pc 4, loop := some { l with idx := l.idx + 1 }, latch := none, stall := none } := by
  unfold Ctx.retire
  simp [h, hi]

/-- After the last word of a body the next pass follows. -/
theorem Ctx.retire_last {c : Ctx} {l : LoopSt} (h : c.loop = some l) (hi : l.body.length ≤ l.idx + 1) :
    c.retire = ({ c with latch := none, stall := none } : Ctx).nextPass l := by
  unfold Ctx.retire
  simp [h, Nat.not_lt.2 hi]

/-- A register write and the latch and the wait do not meet. -/
theorem Ctx.setX_idle (c : Ctx) (r : BitVec 5) (v : Word) :
    ({ c with latch := none, stall := none } : Ctx).setX r v = { c.setX r v with latch := none, stall := none } := by
  unfold Ctx.setX
  split <;> rfl

theorem Ctx.nextPass_loop {c : Ctx} {l : LoopSt} (h : l.nest = none) :
    c.nextPass l = if c.getX l.xa = 1 then { c.setX l.xa 0 with pc := l.past, loop := none }
      else { c.setX l.xa (c.getX l.xa - 1) with pc := l.first, loop := some { l with idx := 0 } } := by
  unfold Ctx.nextPass
  simp only [h, sub_eq_zero]
  split
  · rename_i e
    rw [e, sub_self]
  · rfl

theorem Ctx.nextPass_next {c : Ctx} {l : LoopSt} {bs : List Byte} {b : NestBlock} {j : List Nat} (h : l.nest = some bs)
    (hb : parseNest bs = some b) (hj : b.next c.tuple = some j) :
    c.nextPass l = { c.setTuple j with pc := l.first, loop := some { l with idx := 0 } } := by
  unfold Ctx.nextPass
  simp only [h, hb, hj]

theorem Ctx.nextPass_past {c : Ctx} {l : LoopSt} {bs : List Byte} {b : NestBlock} (h : l.nest = some bs)
    (hb : parseNest bs = some b) (hj : b.next c.tuple = none) : c.nextPass l = { c with pc := l.past, loop := none } := by
  unfold Ctx.nextPass
  simp only [h, hb, hj]

theorem Ctx.setTuple_idle (c : Ctx) (j : List Nat) :
    ({ c with latch := none, stall := none } : Ctx).setTuple j = { c.setTuple j with latch := none, stall := none } := by
  simp only [Ctx.setTuple, List.range_succ, List.range_zero, List.foldl_append, List.foldl_cons, List.foldl_nil, List.nil_append, Ctx.setX_idle]

/-- Settles O1: a register write is read back, and the completion of a word goes by where in a body the word stands. -/
theorem registersAndCompletion : Obligations.RegistersAndCompletion := by
  unfold Obligations.RegistersAndCompletion
  refine ⟨fun s d r v => ⟨s.setX_getX d r v, s.setX_only d v⟩, fun c => Ctx.retire_outside, fun c l => Ctx.retire_within, ?loop, ?nest⟩
  case loop =>
    intro c l h hi hn
    rw [Ctx.retire_last h hi, Ctx.nextPass_loop hn, Ctx.setX_idle, Ctx.setX_idle]
    rfl
  case nest =>
    intro c l bs b h hi hn hb
    rw [Ctx.retire_last h hi]
    cases hj : b.next c.tuple with
    | none => exact Ctx.nextPass_past hn hb hj
    | some j => rw [Ctx.nextPass_next (c := { c with latch := none, stall := none }) hn hb hj, Ctx.setTuple_idle]

end Sys2Proof.Machine

namespace Sys2Proof.Machine
open Sys2Proof.Claims

/-! ## The machine after power-on -/

/-- No byte of memory is written after power-on, and no clasp has a record. -/
theorem State.reset_byteAt (a : Nat) : State.reset.byteAt a = 0 := by
  have hm : State.reset.mem.get a = 0 := rfl
  have hc : ∀ k, lookup k State.reset.dev.clasps = none := fun _ => rfl
  unfold State.byteAt
  simp only [hm, hc, ite_self]

theorem State.reset_tilesOrdered : TilesOrdered State.reset :=
  ⟨Ctx.reset_formed false, fun _ hp => absurd hp List.not_mem_nil⟩

/-- Settles O57: each value of the reset state is read off. -/
theorem resetState : Obligations.ResetState := by
  unfold Obligations.ResetState
  have hx : ∀ r : BitVec 5, State.reset.getX r = 0 := by decide
  have hv : ∀ r, State.reset.ctx.getV r = 0 := by
    intro r
    simp [Ctx.getV, State.reset, Ctx.reset]
  have hf : ∀ r, State.reset.ctx.getFacet r = 0 := by
    intro r
    simp [Ctx.getFacet, State.reset, Ctx.reset]
  have ht : ∀ t, State.reset.ctx.tile t = Tile.empty := by
    intro t
    simp [Ctx.tile, State.reset, Ctx.reset]
  have hq : ∀ q : Fin 8, State.reset.ctx.q[q] = [] ∧ State.reset.ctx.ch[q] = Chan.idle := by
    intro q
    simp [State.reset, Ctx.reset]
  have hc : ∀ p ∈ resetCsrs, State.reset.readCsr p.1 = p.2 := by
    simp [resetCsrs, State.readCsr, State.reset, Ctx.reset, Ctx.vcp, Ctx.status, Ctx.grantWord, Ctx.handle, Priv.code]
  have hen : State.reset.dev.enabled.length = 192 := by decide +kernel
  exact ⟨hc, hx, hv, hf, ht, hq, rfl, rfl, rfl, rfl, rfl, hen, State.reset_wf, State.reset_byteAt, State.reset_tilesOrdered⟩

end Sys2Proof.Machine

/-! The memory's canonical form is kept by everything that a step does (R28, R217). Each operation is followed through the operations it is
made of; of a word's or an entry's answer the machine it carries is meant. -/

namespace Sys2Proof.Machine

/-! ## Translation and records -/

theorem State.touch_wf {s : State} (h : s.mem.wf = true) (key e : Nat) (k : AccKind) : (s.touch key e k).mem.wf = true := by
  unfold State.touch
  split
  · exact h
  · exact Memory.wf_setAll (State.copyFirst_wf h _) _

theorem State.leafFor_wf {s : State} (h : s.mem.wf = true) (asid : BitVec 13) (va : Nat) (k : AccKind) :
    (s.leafFor asid va k).2.2.mem.wf = true := by
  unfold State.leafFor
  grind [State.touch_wf]

@[simp] theorem State.keepLeaf_mem (s : State) (asid : BitVec 13) (va : Word) (l : Leaf) : (s.keepLeaf asid va l).mem = s.mem := by
  unfold State.keepLeaf
  split <;> rfl

theorem State.translate_snd_wf {s : State} (h : s.mem.wf = true) (asid : BitVec 13) (priv : Priv) (k : AccKind) (va : Word) :
    (s.translate asid priv k va).2.mem.wf = true := by
  have hl := s.leafFor_wf h asid va.toNat k
  unfold State.translate
  grind [State.keepLeaf_mem]

theorem State.translate_wf {s t : State} {r : Except Refused Loc} {asid : BitVec 13} {priv : Priv} {k : AccKind} {va : Word}
    (h : s.mem.wf = true) (e : s.translate asid priv k va = (r, t)) : t.mem.wf = true :=
  (congrArg (fun x => x.2.mem.wf) e).symm.trans (s.translate_snd_wf h asid priv k va)

theorem State.appendRecord_wf {s : State} (h : s.mem.wf = true) (asid : BitVec 13) (bytes : Nat → List Byte) :
    (s.appendRecord asid bytes).1.mem.wf = true := by
  unfold State.appendRecord
  grind [State.translate_wf, State.store_wf, State.onDev_mem]

@[simp] theorem State.pendMcheck_mem (s : State) (c : Nat) (p : Pending) : (s.pendMcheck c p).mem = s.mem := s.setCtx_mem _ _

theorem State.record_fst_wf {s : State} (h : s.mem.wf = true) (asid : BitVec 13) (r : Record) : (s.record asid r).1.mem.wf = true :=
  s.appendRecord_wf h _ _

theorem State.record_wf {s t : State} {asid : BitVec 13} {r : Record} {a : Word} (h : s.mem.wf = true) (e : s.record asid r = (t, a)) :
    t.mem.wf = true :=
  (congrArg (fun x => x.1.mem.wf) e).symm.trans (s.record_fst_wf h asid r)

theorem State.report_wf {s : State} (h : s.mem.wf = true) (c kind : Nat) (p : Spot) : (s.report c kind p).mem.wf = true := by
  unfold State.report
  grind [State.record_wf, State.pendMcheck_mem]

theorem State.noteRefused_wf {s : State} (h : s.mem.wf = true) (c key : Nat) (p : Spot) : (s.noteRefused c key p).mem.wf = true := by
  unfold State.noteRefused
  grind [State.report_wf]

theorem State.trigOf_wf {s t : State} {addr : Word} {r : Option (Nat × Nat)} (h : s.mem.wf = true) (e : s.trigOf addr = (r, t)) :
    t.mem.wf = true := by
  unfold State.trigOf at e
  grind [State.translate_wf]

/-- A fold whose steps keep the memory's form keeps it. -/
theorem State.foldl_wf {α : Type} {f : State → α → State} (hf : ∀ (s : State) (a : α), s.mem.wf = true → (f s a).mem.wf = true) (l : List α)
    {s : State} (h : s.mem.wf = true) : (l.foldl f s).mem.wf = true :=
  List.foldlRecOn (motive := fun s : State => s.mem.wf = true) l f h fun t ht a _ => hf t a ht

/-- A fold whose steps leave the memory leaves it. -/
theorem State.foldl_mem {α : Type} {f : State → α → State} (hf : ∀ (s : State) (a : α), (f s a).mem = s.mem) (l : List α) (s : State) :
    (l.foldl f s).mem = s.mem :=
  List.foldlRecOn (motive := fun t : State => t.mem = s.mem) l f rfl fun t ht a _ => (hf t a).trans ht

theorem State.countTriggers_wf {s : State} (h : s.mem.wf = true) (parts : List (Nat × Nat)) : (s.countTriggers parts).mem.wf = true := by
  unfold State.countTriggers
  refine State.foldl_wf (fun s r h => ?_) _ h
  grind [State.trigOf_wf, State.onDev_mem]

theorem State.settleWrites_wf {s : State} (h : s.mem.wf = true) (parts : List (Nat × Nat)) (ws : List (Nat × Byte)) :
    (s.settleWrites parts ws).mem.wf = true := by
  unfold State.settleWrites State.noteStores
  grind [State.store_wf, State.countTriggers_wf]

theorem State.perform_wf {s : State} (h : s.mem.wf = true) (c : Nat) (spot : Nat → Spot) (parts : List (Nat × Nat))
    (ws : List (Nat × Byte)) : (s.perform c spot parts ws).mem.wf = true :=
  State.settleWrites_wf
    (State.foldl_wf (fun _ k h => State.report_wf h c 4 (spot k)) _ (State.foldl_wf (fun _ k h => State.report_wf h c 2 (spot k)) _ h)) parts ws

/-! ## Exceptions and the completion of a word -/

theorem State.spill_mem (s : State) : s.spill.mem = s.mem := by rw [State.spill_only]

theorem State.intoHandler_mem (s : State) (c : Ctx) : (s.intoHandler c).mem = s.mem := by
  unfold State.intoHandler
  grind [State.spill_mem]

theorem State.doubleTrap_wf {s : State} (h : s.mem.wf = true) (vec : Bool) : (s.doubleTrap vec).mem.wf = true := by
  unfold State.doubleTrap
  grind [State.record_wf, State.pendMcheck_mem, State.onCtx_mem]

theorem State.takeTrap_wf {s : State} (h : s.mem.wf = true) (int vec : Bool) (code : Nat) (tval : Word) :
    (s.takeTrap int vec code tval).mem.wf = true := by
  unfold State.takeTrap
  grind [State.doubleTrap_wf, State.intoHandler_mem]

theorem State.trap_wf {s : State} (h : s.mem.wf = true) (code : Nat) (tval : Word) : (s.trap code tval).mem.wf = true := s.takeTrap_wf h _ _ _ _

theorem State.trapPast_wf {s : State} (h : s.mem.wf = true) (code : Nat) (tval : Word) : (s.trapPast code tval).mem.wf = true := by
  unfold State.trapPast
  split
  · exact s.trap_wf h _ _
  · exact s.retire.trap_wf h _ _

theorem State.refuse_wf {s : State} (h : s.mem.wf = true) (r : Refused) : (s.refuse r).mem.wf = true := by
  unfold State.refuse
  grind [State.trap_wf, State.record_wf]

/-! ## The access path -/

theorem State.turnTo_mem (s : State) (c : Nat) : (s.turnTo c).mem = s.mem := by
  unfold State.turnTo
  split <;> rfl

theorem State.placeOf_wf {s t : State} {sp : Nat} {k : AccKind} {lane : Option Nat} {va : Word} {r : Except Refused Place}
    (h : s.mem.wf = true) (e : s.placeOf sp k lane va = (r, t)) : t.mem.wf = true := by
  unfold State.placeOf at e
  grind [State.translate_wf]

theorem State.aligned_wf {s t : State} {sp : Nat} {k : AccKind} {lane : Option Nat} {w : Nat} {va : Word} {r : Except Refused Place}
    (h : s.mem.wf = true) (e : s.aligned sp k lane w va = (r, t)) : t.mem.wf = true := by
  unfold State.aligned at e
  grind [State.placeOf_wf]

theorem State.alignedOnce_wf {s t : State} {k : AccKind} {w : Nat} {va : Word} {r : Except Refused Place}
    (h : s.mem.wf = true) (e : s.alignedOnce k w va = (r, t)) : t.mem.wf = true := by
  unfold State.alignedOnce at e
  grind [State.aligned_wf]

theorem State.performPend_wf {s : State} (h : s.mem.wf = true) (p : Pend) : (s.performPend p).mem.wf = true := by
  unfold State.performPend
  grind [State.perform_wf, State.onDev_mem]

theorem State.performAll_wf {s : State} (h : s.mem.wf = true) (ps : List Pend) : (s.performAll ps).mem.wf = true :=
  State.foldl_wf (fun _ p h => State.performPend_wf h p) _ h

theorem State.performReady_wf {s : State} (h : s.mem.wf = true) : s.performReady.mem.wf = true := State.performAll_wf (by exact h) _

theorem State.settle_wf {s : State} (h : s.mem.wf = true) : s.settle.mem.wf = true := by
  unfold State.settle
  split
  · exact h
  · exact State.performReady_wf h

theorem State.settleOf_wf {s : State} (h : s.mem.wf = true) (c : Nat) : (s.settleOf c).mem.wf = true := by
  unfold State.settleOf
  grind [State.settle_wf, State.turnTo_mem]

theorem State.settleCore_wf {s : State} (h : s.mem.wf = true) (c : Nat) : (s.settleCore c).mem.wf = true :=
  State.settleOf_wf (State.settleOf_wf h _) _

theorem State.force_wf {s t : State} {lvl : Nat} {need : Pend → Bool} (h : s.mem.wf = true) (e : s.force lvl need = some t) :
    t.mem.wf = true := by
  unfold State.force at e
  grind [State.performAll_wf, State.onCtx_mem]

theorem State.behindBarriers_wf {s t : State} (h : s.mem.wf = true) (e : s.behindBarriers = some t) : t.mem.wf = true := State.force_wf h e

theorem State.beforeFetch_wf {s t : State} (h : s.mem.wf = true) (e : s.beforeFetch = some t) : t.mem.wf = true := by
  unfold State.beforeFetch at e
  grind [State.force_wf, State.onCtx_mem]

theorem State.translating_wf {s t : State} {lane free : Bool} (h : s.mem.wf = true) (e : s.translating lane free = some t) :
    t.mem.wf = true := by
  unfold State.translating at e
  grind [State.behindBarriers_wf]

theorem State.drainOut_mem (s : State) : s.drainOut.mem = s.mem := by
  unfold State.drainOut
  split <;> rfl

theorem State.drainOldest_wf {s : State} (h : s.mem.wf = true) (core n : Nat) : (s.drainOldest core n).mem.wf = true := by
  induction n generalizing s with
  | zero => exact h
  | succ n ih =>
    unfold State.drainOldest
    grind [State.settleOf_wf, State.setCtx_mem]

theorem State.bufferStore_wf {s : State} (h : s.mem.wf = true) (p : Pend) : (s.bufferStore p).mem.wf = true := by
  unfold State.bufferStore
  grind [State.settle_wf, State.drainOldest_wf, State.onCtx_mem]

theorem State.placeBar_wf {s : State} (h : s.mem.wf = true) (kind : Nat) : (s.placeBar kind).mem.wf = true := by
  unfold State.placeBar
  grind [State.settle_wf, State.onCtx_mem]

theorem State.barrier_wf {s : State} (h : s.mem.wf = true) (kind : Nat) : (s.barrier kind).mem.wf = true := by
  unfold State.barrier
  grind [State.placeBar_wf, State.onCtx_mem]

theorem State.settleBars_wf {s : State} (h : s.mem.wf = true) : s.settleBars.mem.wf = true := by
  unfold State.settleBars
  dsimp only
  split
  · exact h
  · exact State.foldl_wf (fun _ b h => State.placeBar_wf h b.2) _ (by exact h)

theorem State.advanceBars_wf {s : State} (h : s.mem.wf = true) : s.advanceBars.mem.wf = true := by
  unfold State.advanceBars
  grind [State.settleBars_wf, State.onCtx_mem]

theorem State.landLate_wf {s : State} (h : s.mem.wf = true) : s.landLate.mem.wf = true := by
  unfold State.landLate
  grind [State.settle_wf, State.settleCore_wf, State.spill_mem, State.onCtx_mem]

theorem State.readAt_wf {s t : State} {p : Place} {pc : Word} {n v : Nat} (h : s.mem.wf = true) (e : s.readAt p pc n = .value v t) :
    t.mem.wf = true := by
  unfold State.readAt at e
  grind [State.force_wf, State.noteRefused_wf]

theorem State.enter_wf {s : State} (h : s.mem.wf = true) (p : Pend) : (s.enter p).mem.wf = true := by
  unfold State.enter
  grind [State.bufferStore_wf, State.onCtx_mem]

theorem State.putStore_wf {s : State} (h : s.mem.wf = true) (p : Pend) : (s.putStore p).mem.wf = true := by
  unfold State.putStore
  grind [State.enter_wf, State.onCtx_mem]

theorem State.writeAs_wf {s : State} (h : s.mem.wf = true) (word sp : Nat) (p : Place) (pc : Word) (bs : List Byte) :
    (s.writeAs word sp p pc bs).mem.wf = true := by
  unfold State.writeAs
  grind [State.perform_wf, State.enter_wf]

theorem State.writeAt_wf {s : State} (h : s.mem.wf = true) (sp : Nat) (p : Place) (pc : Word) (bs : List Byte) :
    (s.writeAt sp p pc bs).mem.wf = true := s.writeAs_wf h _ _ _ _ _

theorem State.release_wf {s t : State} (h : s.mem.wf = true) (e : s.release = some t) : t.mem.wf = true :=
  State.force_wf ((congrArg Memory.wf s.drainOut_mem).trans h) e

theorem State.rmw_wf {s t : State} {p : Place} {pc : Word} {n v : Nat} {f : Nat → Nat} (h : s.mem.wf = true) (e : s.rmw p pc n f = (v, t)) :
    t.mem.wf = true := by
  unfold State.rmw at e
  grind [State.report_wf, State.perform_wf]

theorem State.rmw_snd_wf {s : State} (h : s.mem.wf = true) (p : Place) (pc : Word) (n : Nat) (f : Nat → Nat) :
    (s.rmw p pc n f).2.mem.wf = true := State.rmw_wf h rfl

theorem State.pieces_wf {s t : State} {sp : Nat} {k : AccKind} {fuel : Nat} {va : Word} {n : Nat} {ps : Located} (h : s.mem.wf = true)
    (e : s.pieces sp k fuel va n = (ps, t)) : t.mem.wf = true := by
  induction fuel generalizing s t va n ps with
  | zero => cases e; exact h
  | succ fuel ih =>
    unfold State.pieces at e
    grind [State.placeOf_wf]

theorem State.span_wf {s t : State} {sp : Nat} {k : AccKind} {fuel : Nat} {va : Word} {n : Nat}
    {ps : Except (Refused × Nat) (List (Place × Nat))} (h : s.mem.wf = true) (e : s.span sp k fuel va n = (ps, t)) : t.mem.wf = true := by
  unfold State.span at e
  grind [State.pieces_wf]

theorem State.spanOnce_wf {s t : State} {sp : Nat} {k : AccKind} {fuel : Nat} {va : Word} {n : Nat}
    {ps : Except (Refused × Nat) (List (Place × Nat))} (h : s.mem.wf = true) (e : s.spanOnce sp k fuel va n = (ps, t)) :
    t.mem.wf = true := by
  unfold State.spanOnce at e
  grind [State.span_wf]

theorem State.noteSpan_wf {s : State} (h : s.mem.wf = true) (ps : List (Place × Nat)) : (s.noteSpan ps).mem.wf = true :=
  State.foldl_wf (fun _ _ h => State.noteRefused_wf h _ _ _) ps h

theorem State.readSpan_wf {s t : State} {ps : List (Place × Nat)} {bs : List Byte} (h : s.mem.wf = true) (e : s.readSpan ps = .bytes bs t) :
    t.mem.wf = true := by
  unfold State.readSpan at e
  grind [State.force_wf, State.noteSpan_wf]

theorem State.writePieces_wf {s : State} (h : s.mem.wf = true) (sp : Nat) (p : Place) (fuel o : Nat) (bs : List Byte) :
    (s.writePieces sp p fuel o bs).mem.wf = true := by
  induction fuel generalizing s o bs with
  | zero => exact h
  | succ fuel ih =>
    unfold State.writePieces
    split
    · exact h
    · exact ih (s.writeAt_wf h _ _ _ _) _ _

theorem State.writeSpan_wf {s : State} (h : s.mem.wf = true) (sp : Nat) (ps : List (Place × Nat)) (bs : List Byte) :
    (s.writeSpan sp ps bs).mem.wf = true := by
  induction ps generalizing s bs with
  | nil => exact h
  | cons p ps ih => exact ih (s.writePieces_wf h _ _ _ _ _) _

theorem State.readBlock_wf {s t : State} {c : Nat} {pc : Word} {asid : BitVec 13} {priv : Priv} {fuel : Nat} {va : Word} {n : Nat}
    {r : Except Refused (List Byte)} (h : s.mem.wf = true) (e : s.readBlock c pc asid priv fuel va n = (r, t)) : t.mem.wf = true := by
  induction fuel generalizing s t va n r with
  | zero => cases e; exact h
  | succ fuel ih =>
    unfold State.readBlock at e
    grind [State.translate_wf, State.noteRefused_wf]

theorem State.readOwn_wf {s t : State} {fuel : Nat} {va : Word} {n : Nat} {r : Except (Option Refused) (List Byte)} (h : s.mem.wf = true)
    (e : s.readOwn fuel va n = (r, t)) : t.mem.wf = true := by
  unfold State.readOwn at e
  grind [State.readBlock_wf]

theorem State.unread_wf {s : State} (h : s.mem.wf = true) (r : Option Refused) : (s.unread r).mem.wf = true := by
  unfold State.unread
  grind [State.refuse_wf, State.stallFor_mem]

theorem State.fetchAt_wf {s t : State} {va : Word} {r : Except Refused Word32} (h : s.mem.wf = true) (e : s.fetchAt va = (r, t)) :
    t.mem.wf = true := by
  unfold State.fetchAt at e
  grind [State.translate_wf, State.noteRefused_wf]

/-! ## The queue -/

/-- The machine that an entry's commit leaves has its memory in the canonical form. -/
def Commit.InForm : Commit → Prop
  | .done s => s.mem.wf = true
  | .wait => True
  | .held s _ => s.mem.wf = true
  | .trap _ _ s => s.mem.wf = true

@[simp] theorem Commit.inForm_done (s : State) : (Commit.done s).InForm ↔ s.mem.wf = true := Iff.rfl
@[simp] theorem Commit.inForm_wait : Commit.wait.InForm := trivial
@[simp] theorem Commit.inForm_held (s : State) (ps : Located) : (Commit.held s ps).InForm ↔ s.mem.wf = true := Iff.rfl
@[simp] theorem Commit.inForm_trap (c : Nat) (v : Word) (s : State) : (Commit.trap c v s).InForm ↔ s.mem.wf = true := Iff.rfl

/-- The machine that a word or an event leaves has its memory in the canonical form. -/
def Res.InForm (r : Res) : Prop := ∀ t, r = .next t → t.mem.wf = true

@[simp] theorem Res.inForm_next (s : State) : Res.InForm (.next s) ↔ s.mem.wf = true :=
  ⟨fun h => h s rfl, fun h t e => by cases e; exact h⟩

theorem State.guarded_inForm {s : State} (h : s.mem.wf = true) (e : VEntry) {go : State → Commit}
    (hg : ∀ s : State, s.mem.wf = true → (go s).InForm) : (s.guarded e go).InForm := by
  unfold State.guarded
  grind [Commit.inForm_done, State.onCtx_mem]

theorem State.popHead_wf {s : State} (h : s.mem.wf = true) : s.popHead.mem.wf = true :=
  State.advanceBars_wf (State.landLate_wf (by exact h))

theorem State.enterHead_mem (s : State) (ps : Located) : (s.enterHead ps).mem = s.mem := by rw [State.enterHead_only]

theorem State.commitWith_wf {s : State} (h : s.mem.wf = true) (e : VEntry) {go : State → Commit}
    (hg : ∀ s : State, s.mem.wf = true → (go s).InForm) : (s.commitWith e go).mem.wf = true := by
  have := s.guarded_inForm h e hg
  unfold State.commitWith
  grind [State.popHead_wf, State.enterHead_mem, State.takeTrap_wf, Commit.InForm]

theorem State.issue_inForm {s : State} (h : s.mem.wf = true) {i : Instr} {op1 op2 : Word} {go : State → Commit}
    (hg : ∀ s : State, s.mem.wf = true → (go s).InForm) : Res.InForm (s.issue i op1 op2 go) := by
  unfold State.issue
  grind [Res.inForm_next, State.stallFor_mem, State.commitWith_wf, State.onCtx_mem, State.retire_mem]

theorem State.refuseCommit_inForm {s : State} (h : s.mem.wf = true) (r : Refused) : (s.refuseCommit r).InForm := by
  unfold State.refuseCommit
  grind [State.record_wf, Commit.inForm_trap]

theorem State.pushQ_inForm {s : State} (h : s.mem.wf = true) (q : BitVec 3) (v : Word) : (s.pushQ q v).InForm := by
  unfold State.pushQ
  grind [Commit.inForm_wait, Commit.inForm_done, State.onCtx_mem]

theorem State.badField_inForm {s : State} (h : s.mem.wf = true) (i : Instr) : (s.badField i).InForm := h

theorem State.commitCtx_inForm {s : State} (h : s.mem.wf = true) (f : Ctx → Ctx) : (s.commitCtx f).InForm := h

theorem State.whenDrained_inForm {s : State} (h : s.mem.wf = true) {k : State → Res} (hk : Res.InForm (k s)) : Res.InForm (s.whenDrained k) := by
  unfold State.whenDrained
  grind [Res.inForm_next, State.stallFor_mem]

theorem State.needs_inForm {s : State} (h : s.mem.wf = true) {p : Priv} {w : Word32} {k : State → Res} (hk : Res.InForm (k s)) :
    Res.InForm (s.needs p w k) := by
  unfold State.needs
  grind [Res.inForm_next, State.trap_wf]

theorem execIllegalWord_inForm {s : State} (h : s.mem.wf = true) (w : Word32) (e : DecodeError) : Res.InForm (execIllegalWord w e s) := by
  unfold execIllegalWord
  split
  · exact s.issue_inForm h fun _ h => h
  · exact (Res.inForm_next _).2 (State.trap_wf (by exact h) _ _)


/-! ## What the entries of the vector unit do at their commit -/

theorem State.regrantIdle_mem (s : State) (c : Nat) : (s.regrantIdle c).mem = s.mem := by
  unfold State.regrantIdle
  grind [State.setCtx_mem]

theorem State.regrantCore_mem (s : State) (c : Nat) : (s.regrantCore c).mem = s.mem := by
  simp only [State.regrantCore, State.regrantIdle_mem]

theorem State.takeLanes_mem (s : State) (n : Nat) : (s.takeLanes n).mem = s.mem := by
  unfold State.takeLanes
  grind [State.regrantIdle_mem, State.onCtx_mem]

theorem State.setStanding_mem (s : State) (c lgn trn : Nat) : (s.setStanding c lgn trn).mem = s.mem := by
  simp only [State.setStanding, State.regrantCore_mem, State.setCtx_mem]

theorem State.floatOp_inForm {s : State} (h : s.mem.wf = true) {i : Instr} {bf rounds : Bool} {go : FType → RMode → Commit}
    (hg : ∀ t rm, (go t rm).InForm) : (s.floatOp i bf rounds go).InForm := by
  unfold State.floatOp
  grind [State.badField_inForm]

theorem State.widening_inForm {s : State} (h : s.mem.wf = true) {i : Instr} {go : Nat → Commit} (hg : ∀ w, (go w).InForm) :
    (s.widening i go).InForm := by
  unfold State.widening
  grind [State.badField_inForm]

theorem State.stageOp_inForm {s : State} (h : s.mem.wf = true) {i : Instr} {go : Option FType → Commit} (hg : ∀ t, (go t).InForm) :
    (s.stageOp i go).InForm := by
  unfold State.stageOp
  grind [State.badField_inForm]

theorem State.scaleOp_inForm {s : State} (h : s.mem.wf = true) {i : Instr} {rounds : Bool} {go : FType → Nat → RMode → Commit}
    (hg : ∀ t b rm, (go t b rm).InForm) : (s.scaleOp i rounds go).InForm := by
  unfold State.scaleOp
  grind [State.badField_inForm]

theorem State.keyOp_inForm {s : State} (h : s.mem.wf = true) {i : Instr} {k : BitVec 3} {go : Nat → Commit} (hg : ∀ kk, (go kk).InForm) :
    (s.keyOp i k go).InForm := by
  unfold State.keyOp
  grind [State.badField_inForm]

theorem State.sorted1_inForm {s : State} (h : s.mem.wf = true) {i : Instr} {a : BitVec 6} {k : BitVec 3} {p : Bool} {go : Nat → Commit}
    (hg : ∀ kk, (go kk).InForm) : (s.sorted1 i a k p go).InForm := by
  refine s.keyOp_inForm h fun kk => ?_
  grind [Commit.inForm_trap]

theorem State.sorted2_inForm {s : State} (h : s.mem.wf = true) {i : Instr} {a b : BitVec 6} {k : BitVec 3} {p : Bool} {go : Nat → Commit}
    (hg : ∀ kk, (go kk).InForm) : (s.sorted2 i a b k p go).InForm := by
  refine s.keyOp_inForm h fun kk => ?_
  grind [Commit.inForm_trap]

theorem State.pairedDest_inForm {s : State} (h : s.mem.wf = true) {i : Instr} {p : Bool} {ds : List (BitVec 6)} {go : Unit → Commit}
    (hg : ∀ u, (go u).InForm) : (s.pairedDest i p ds go).InForm := by
  unfold State.pairedDest
  grind [State.badField_inForm]

theorem State.soundTile_inForm {s : State} (h : s.mem.wf = true) {t : BitVec 2} {go : Unit → Commit} (hg : ∀ u, (go u).InForm) :
    (s.soundTile t go).InForm := by
  unfold State.soundTile
  grind [State.record_wf, Commit.inForm_trap]

theorem State.tileTrap_inForm {s : State} (h : s.mem.wf = true) (code row : Nat) (t : BitVec 2) : (s.tileTrap code row t).InForm := h

theorem State.putAccumulated_inForm {s : State} (h : s.mem.wf = true) (t : BitVec 2) (r : Tile × Bool) : (s.putAccumulated t r).InForm := by
  unfold State.putAccumulated
  grind [Commit.inForm_done, State.onCtx_mem, State.orFlags_mem]

theorem State.dense_inForm {s : State} (h : s.mem.wf = true) (t : BitVec 2) (f : Nat) (cls : TClass) (a : BitVec 6) (m : BitVec 1)
    (cols : List (FVal × Option FVal)) : (s.dense t f cls a m cols).InForm := s.putAccumulated_inForm h _ _

theorem State.readRow_wf {s t : State} {o n : Nat} {bs : List Byte} (h : s.mem.wf = true) (e : s.readRow o n = .bytes bs t) :
    t.mem.wf = true := State.readSpan_wf h e

/-- Rows read one after another keep the form, and so does the answer where one cannot be read. -/
theorem State.readRows_wf {s t : State} {n : Nat} {os : List Nat} {r : Except Commit (List (List FVal))} (h : s.mem.wf = true)
    (e : s.readRows n os = (r, t)) : t.mem.wf = true ∧ ∀ c, r = .error c → c.InForm := by
  induction os generalizing s t r with
  | nil => cases e; exact ⟨h, fun c hc => nomatch hc⟩
  | cons o os ih =>
    unfold State.readRows at e
    split at e
    · cases e
      exact ⟨h, fun c hc => by cases hc; exact h⟩
    · cases e
      exact ⟨h, fun c hc => by cases hc; exact s.refuseCommit_inForm h _⟩
    · rename_i bs u eu
      have hu := State.readRow_wf h eu
      split at e <;> rename_i er <;> cases e
      · exact ⟨(ih hu er).1, fun c hc => nomatch hc⟩
      · exact ⟨(ih hu er).1, fun c hc => (ih hu er).2 c (by cases hc; rfl)⟩

theorem State.withNpg_mem (s : State) (n : Nat) : (s.withNpg n).mem = s.mem := s.onCtx_mem _

theorem State.image_inForm {s : State} (h : s.mem.wf = true) {i : Instr} {k : AccKind} {align : Nat} {va : Word} {n : Nat}
    {go : List (Place × Nat) → State → Commit} (hg : ∀ ps (s : State), s.mem.wf = true → (go ps s).InForm) :
    (s.image i k align va n go).InForm := by
  unfold State.image
  grind [State.badField_inForm, Commit.inForm_trap, Commit.inForm_wait, State.withNpg_mem, → State.translating_wf, → State.spanOnce_wf,
    State.refuseCommit_inForm]

theorem State.loadImage_inForm {s : State} (h : s.mem.wf = true) {i : Instr} {align : Nat} {va : Word} {n : Nat}
    {go : List Byte → State → Commit} (hg : ∀ bs (s : State), s.mem.wf = true → (go bs s).InForm) :
    (s.loadImage i align va n go).InForm := by
  refine s.image_inForm h fun ps s h => ?_
  grind [Commit.inForm_held, State.withNpg_mem, State.refuseCommit_inForm, State.readSpan_wf]

/-- A tile image that is written keeps the form. -/
theorem State.writeSpan_settle_wf {s : State} (h : s.mem.wf = true) (sp : Nat) (ps : List (Place × Nat)) (bs : List Byte) :
    (s.writeSpan sp ps bs).settle.mem.wf = true := State.settle_wf (s.writeSpan_wf h sp ps bs)

theorem State.locate_wf {s t : State} {sp : Nat} {k : AccKind} {ix : Bool} {w : Nat} {as : List Acc} {ps : List (Acc × Except Refused Place)}
    (h : s.mem.wf = true) (e : s.locate sp k ix w as = (ps, t)) : t.mem.wf = true := by
  induction as generalizing s t ps with
  | nil => cases e; exact h
  | cons a as ih =>
    unfold State.locate at e
    grind [State.aligned_wf]

theorem State.locateOnce_wf {s t : State} {sp : Nat} {k : AccKind} {ix : Bool} {w : Nat} {as : List Acc}
    {ps : List (Acc × Except Refused Place)} (h : s.mem.wf = true) (e : s.locateOnce sp k ix w as = (ps, t)) : t.mem.wf = true := by
  unfold State.locateOnce at e
  grind [State.locate_wf]

theorem State.locateOnce_snd_wf {s : State} (h : s.mem.wf = true) (sp : Nat) (k : AccKind) (ix : Bool) (w : Nat) (as : List Acc) :
    (s.locateOnce sp k ix w as).2.mem.wf = true := State.locateOnce_wf h rfl

theorem State.progressOnce_wf {s t : State} {n : Nat} {va : Word} {r : Except Refused Place} (h : s.mem.wf = true)
    (e : s.progressOnce n va = (r, t)) : t.mem.wf = true := by
  unfold State.progressOnce at e
  grind [State.aligned_wf]

theorem State.vmOp_inForm {s : State} (h : s.mem.wf = true) {i : Instr} {ew : BitVec 2} {go : Nat → Nat → Commit}
    (hg : ∀ sp w, (go sp w).InForm) : (s.vmOp i ew go).InForm := by
  unfold State.vmOp
  grind [State.badField_inForm, State.withNpg_mem]

theorem State.vmRefuse_inForm {s : State} (h : s.mem.wf = true) (n : Nat) (r : Refused) : (s.vmRefuse n r).InForm :=
  State.refuseCommit_inForm ((congrArg Memory.wf (s.withNpg_mem n)).trans h) r

theorem State.noteReads_wf {s : State} (h : s.mem.wf = true) (ps : List Place) : (s.noteReads ps).mem.wf = true := by
  induction ps generalizing s with
  | nil => exact h
  | cons p ps ih =>
    unfold State.noteReads
    grind [State.noteRefused_wf]

theorem State.readAll_wf {s t : State} {w : Nat} {ps : List (Acc × Place)} {vs : List (Acc × Nat)} (h : s.mem.wf = true)
    (e : s.readAll w ps = .ok (vs, t)) : t.mem.wf = true := by
  unfold State.readAll at e
  grind [State.force_wf, State.noteReads_wf]

theorem State.vload_inForm {s : State} (h : s.mem.wf = true) (i : Instr) (d : BitVec 6) (m : BitVec 1) (nf : Nat) (ew : BitVec 2)
    (fof ix : Bool) (addr : Nat → Nat → Nat → Word) : (s.vload i d m nf ew fof ix addr).InForm := by
  refine s.vmOp_inForm h fun sp w => ?_
  dsimp only
  split
  · trivial
  · rename_i u hu
    have hu := State.translating_wf h hu
    grind only [Commit.inForm_wait, Commit.inForm_held, State.locateOnce_snd_wf, State.vmRefuse_inForm, → State.readAll_wf, State.commitCtx_inForm]

theorem State.writeElems_wf {s : State} (h : s.mem.wf = true) (sp w : Nat) (d : BitVec 6) (ps : List (Acc × Place)) :
    (s.writeElems sp w d ps).mem.wf = true := by
  unfold State.writeElems
  dsimp only
  split
  · exact s.performAll_wf h _
  · exact State.foldl_wf (fun _ _ h => State.writeAs_wf h _ _ _ _ _) _ h

theorem State.vstore_inForm {s : State} (h : s.mem.wf = true) (i : Instr) (d : BitVec 6) (m : BitVec 1) (nf : Nat) (ew : BitVec 2)
    (note ix : Bool) (addr : Nat → Nat → Nat → Word) : (s.vstore i d m nf ew note ix addr).InForm := by
  refine s.vmOp_inForm h fun sp w => ?_
  dsimp only
  split
  · exact State.badField_inForm ((congrArg Memory.wf (s.withNpg_mem 0)).trans h) i
  split
  · trivial
  · rename_i u hu
    have hu := State.translating_wf h hu
    grind only [Commit.inForm_wait, Commit.inForm_held, State.locateOnce_snd_wf, Commit.inForm_done, → State.progressOnce_wf,
      State.vmRefuse_inForm, State.writeElems_wf, State.settle_wf, → State.release_wf, State.rmw_snd_wf]

/-! ## The QUE words and the copy engine -/

theorem State.onChannel_inForm {s : State} (h : s.mem.wf = true) {k : BitVec 3} {go : State → Commit}
    (hg : ∀ s : State, s.mem.wf = true → (go s).InForm) : (s.onChannel k go).InForm := by
  unfold State.onChannel
  grind [Commit.inForm_wait, Commit.inForm_trap, State.settle_wf, State.drainOut_mem]

theorem State.pushCmd_inForm {s : State} (h : s.mem.wf = true) (k : BitVec 3) (kind : CmdKind) (w : Option Work) :
    (s.pushCmd k kind w).InForm := by
  unfold State.pushCmd
  grind [Commit.inForm_wait, State.commitCtx_inForm]

theorem State.commitBlock_inForm {s : State} (h : s.mem.wf = true) {va : Word} {go : List Byte → State → Commit}
    (hg : ∀ bs (s : State), s.mem.wf = true → (go bs s).InForm) : (s.commitBlock va go).InForm := by
  unfold State.commitBlock
  grind [Commit.inForm_wait, State.refuseCommit_inForm, → State.force_wf, → State.aligned_wf, → State.readAt_wf]

theorem State.engineLoc_wf {s t : State} {core : Nat} {asid : BitVec 13} {priv : Priv} {sp : Nat} {k : AccKind} {w : Nat} {va : Word}
    {r : Except Refused Loc} (h : s.mem.wf = true) (e : s.engineLoc core asid priv sp k w va = (r, t)) : t.mem.wf = true := by
  unfold State.engineLoc at e
  grind [State.translate_wf]

theorem State.checkElems_wf {s t : State} {core : Nat} {asid : BitVec 13} {priv : Priv} {w : Work} {es : List Elem}
    {r : Except Refused (List (Option Nat × Nat × Nat))} (h : s.mem.wf = true) (e : s.checkElems core asid priv w es = (r, t)) :
    t.mem.wf = true := by
  induction es generalizing s t r with
  | nil => cases e; exact h
  | cons x es ih =>
    unfold State.checkElems at e
    grind [→ State.engineLoc_wf]

theorem State.engineBlock_wf {s t : State} {c : Nat} {cmd : Cmd} {va : Word} {r : Except Refused (List Byte)} (h : s.mem.wf = true)
    (e : s.engineBlock c cmd va = (r, t)) : t.mem.wf = true := by
  unfold State.engineBlock at e
  grind [State.readBlock_wf]

theorem State.cmdWork_wf {s t : State} {c : Nat} {cmd : Cmd} {r : Except Refused Work} (h : s.mem.wf = true) (e : s.cmdWork c cmd = (r, t)) :
    t.mem.wf = true := by
  unfold State.cmdWork at e
  split at e
  · grind
  · cases e; exact h
  · split at e <;> rename_i e1 <;> have h1 := State.engineBlock_wf h e1
    · cases e; exact h1
    · split at e
      · cases e; exact h1
      · split at e <;> rename_i e2 <;> have h2 := State.engineBlock_wf h1 e2
        · cases e; exact h2
        · grind

@[simp] theorem State.setChan_mem (s : State) (c : Nat) (k : BitVec 3) (h : Chan) : (s.setChan c k h).mem = s.mem := s.setCtx_mem _ _

theorem State.haltChan_wf {s : State} (h : s.mem.wf = true) (c : Nat) (k : BitVec 3) (f : Refused) : (s.haltChan c k f).mem.wf = true := by
  unfold State.haltChan
  grind [State.record_fst_wf, State.setChan_mem]

theorem State.storesBefore_wf {s t : State} {c : Nat} {cmd : Cmd} (h : s.mem.wf = true) (e : s.storesBefore c cmd = some t) :
    t.mem.wf = true := by
  unfold State.storesBefore at e
  split at e
  · obtain ⟨u, hu, rfl⟩ := Option.map_eq_some_iff.1 e
    rw [State.turnTo_mem]
    exact State.force_wf ((congrArg Memory.wf (s.turnTo_mem c)).trans h) hu
  · cases e; exact h

theorem State.noteSources_wf {s : State} (h : s.mem.wf = true) (c sp : Nat) (w : Work) (ks : List (Option Nat × Nat × Nat)) :
    (s.noteSources c sp w ks).mem.wf = true := by
  refine State.foldl_wf (fun u p h => ?_) _ h
  grind [State.noteRefused_wf]

theorem State.beginCmd_wf {s : State} (h : s.mem.wf = true) (c : Nat) (k : BitVec 3) (cmd : Cmd) (rest : List Cmd) (w : Work)
    (ks : List (Option Nat × Nat × Nat)) : (s.beginCmd c k cmd rest w ks).mem.wf = true := by
  unfold State.beginCmd
  grind [State.noteSources_wf, State.setChan_mem]

theorem State.startCmd_wf {s : State} (h : s.mem.wf = true) (c : Nat) (k : BitVec 3) : (s.startCmd c k).mem.wf = true := by
  unfold State.startCmd
  dsimp only
  split
  · exact h
  split
  · exact h
  split
  · exact h
  rename_i u hu
  have hu := State.storesBefore_wf h hu
  split <;> rename_i e1 <;> have h1 := State.cmdWork_wf hu e1
  · exact State.haltChan_wf h1 _ _ _
  split <;> rename_i e2 <;> have h2 := State.checkElems_wf h1 e2
  · exact State.haltChan_wf h2 _ _ _
  · exact State.beginCmd_wf h2 _ _ _ _ _ _

theorem State.retireCmd_wf {s : State} (h : s.mem.wf = true) (c : Nat) (k : BitVec 3) : (s.retireCmd c k).mem.wf = true := by
  unfold State.retireCmd
  grind [State.settleCore_wf, State.perform_wf, State.setChan_mem]

theorem State.landChunk_wf {s : State} (h : s.mem.wf = true) (c : Nat) (k : BitVec 3) (n : Nat) : (s.landChunk c k n).mem.wf = true := by
  unfold State.landChunk
  grind [State.perform_wf, State.setChan_mem]

theorem State.engineMove_wf {s t : State} {c : Nat} (h : s.mem.wf = true) (e : s.engineMove c = some t) : t.mem.wf = true := by
  obtain ⟨n, -, e⟩ := List.exists_of_findSome?_eq_some e
  grind [State.startCmd_wf, State.retireCmd_wf]

theorem State.within_wf {s : State} (h : s.mem.wf = true) (c : Nat) {f : State → State} (hf : ∀ s : State, s.mem.wf = true → (f s).mem.wf = true) :
    (s.within c f).mem.wf = true := by
  unfold State.within
  grind [State.turnTo_mem]

theorem State.performOne_wf {s : State} (h : s.mem.wf = true) (k : Nat) : (s.performOne k).mem.wf = true := by
  unfold State.performOne
  grind [State.performAll_wf, State.onCtx_mem]

/-! ## Commits -/

theorem commitVsetvl_inForm {s : State} (h : s.mem.wf = true) (d a : BitVec 5) (sc : BitVec 3) (e : BitVec 2) (op1 op2 : Word) :
    (commitVsetvl d a sc e op1 op2 s).InForm := by
  unfold commitVsetvl
  grind [State.commitCtx_inForm, State.takeLanes_mem]

theorem commitVmv_inForm {s : State} (h : s.mem.wf = true) (d a : BitVec 6) (m : BitVec 1) : (commitVmv d a m s).InForm := by
  unfold commitVmv
  split <;> exact h

theorem commitVfcvt_inForm {s : State} (h : s.mem.wf = true) (d a c : BitVec 6) (m : BitVec 1) : (commitVfcvt d a c m s).InForm := by
  refine s.floatOp_inForm h fun t rm => ?_
  dsimp only
  split <;> exact h

theorem commitVfredsum_inForm {s : State} (h : s.mem.wf = true) (q : BitVec 3) (a : BitVec 6) (m k : BitVec 1) :
    (commitVfredsum q a m k s).InForm := by
  refine s.floatOp_inForm h fun t rm => ?_
  grind [State.pushQ_inForm, Commit.InForm, State.orFlags_mem]

theorem commitVrand_inForm {s : State} (h : s.mem.wf = true) (d : BitVec 6) (a b : BitVec 5) (m : BitVec 1) (op1 op2 : Word) :
    (commitVrand d a b m op1 op2 s).InForm := by
  unfold commitVrand
  split <;> exact h

theorem State.quantise_inForm {s : State} (h : s.mem.wf = true) (i : Instr) (d : BitVec 6) (t : Narrow) (m : BitVec 1) (get : Nat → Nat) :
    (s.quantise i d t m get).InForm := by
  unfold State.quantise
  exact s.scaleOp_inForm h fun _ _ _ => by exact h

theorem State.rank_inForm {s : State} (h : s.mem.wf = true) (i : Instr) (d a b : BitVec 6) (k : BitVec 3) (le : Bool) :
    (s.rank i d a b k le).InForm := by
  unfold State.rank
  exact s.sorted1_inForm h fun _ => by exact h

theorem commitVtopk_inForm {s : State} (h : s.mem.wf = true) (d a : BitVec 6) (b : BitVec 5) (k : BitVec 3) (op1 : Word) :
    (commitVtopk d a b k op1 s).InForm := by
  refine s.sorted1_inForm h fun kk => ?_
  dsimp only
  split <;> exact h

theorem commitVmrgc_inForm {s : State} (h : s.mem.wf = true) (q : BitVec 3) (a b : BitVec 6) (k : BitVec 3) :
    (commitVmrgc q a b k s).InForm := s.sorted2_inForm h fun _ => s.pushQ_inForm h _ _

theorem commitMopa_inForm {s : State} (h : s.mem.wf = true) (t : BitVec 2) (a b : BitVec 6) (m : BitVec 1) (f : BitVec 4) :
    (commitMopa t a b m f s).InForm := by
  refine s.soundTile_inForm h fun _ => ?_
  grind [State.tileTrap_inForm, State.dense_inForm]

theorem commitMopaS_inForm {s : State} (h : s.mem.wf = true) (t : BitVec 2) (a b : BitVec 6) (m : BitVec 1) (f : BitVec 4) :
    (commitMopaS t a b m f s).InForm := by
  refine s.soundTile_inForm h fun _ => ?_
  grind [State.badField_inForm, State.tileTrap_inForm, State.dense_inForm]

theorem commitMopaW_inForm {s : State} (h : s.mem.wf = true) (t : BitVec 2) (a : BitVec 6) (w : BitVec 5) (m : BitVec 1) (f : BitVec 4)
    (op1 : Word) : (commitMopaW t a w m f op1 s).InForm := by
  refine s.soundTile_inForm h fun _ => ?_
  grind [State.badField_inForm, State.tileTrap_inForm, Commit.inForm_trap, Commit.inForm_held, State.refuseCommit_inForm,
    → State.readRow_wf, State.dense_inForm]

theorem commitMopaGr_inForm {s : State} (h : s.mem.wf = true) (t : BitVec 2) (a : BitVec 6) (x : BitVec 5) (f : BitVec 4) (op1 : Word) :
    (commitMopaGr t a x f op1 s).InForm := by
  refine s.soundTile_inForm h fun _ => ?_
  dsimp only
  split
  · exact h
  split
  · exact h
  split
  · exact h
  split
  · exact h
  split
  · exact h
  split <;> rename_i e <;> obtain ⟨hs, hc⟩ := State.readRows_wf h e
  · exact hc _ rfl
  · exact State.putAccumulated_inForm hs _ _

theorem commitTanchor_inForm {s : State} (h : s.mem.wf = true) (t : BitVec 2) (a : BitVec 5) (op1 : Word) : (commitTanchor t a op1 s).InForm := by
  refine s.soundTile_inForm h fun _ => ?_
  grind [State.badField_inForm, State.tileTrap_inForm, State.commitCtx_inForm]

theorem commitTres_inForm {s : State} (h : s.mem.wf = true) (t : BitVec 2) (f : BitVec 4) : (commitTres t f s).InForm := by
  refine s.soundTile_inForm h fun _ => ?_
  dsimp only
  split <;> exact h

theorem commitTmovr_inForm {s : State} (h : s.mem.wf = true) (t : BitVec 2) (d : BitVec 6) (c : BitVec 5) (f : BitVec 4) (op1 : Word) :
    (commitTmovr t d c f op1 s).InForm := by
  refine s.soundTile_inForm h fun _ => ?_
  dsimp only
  split
  · exact h
  split <;> exact h

theorem commitTmovw_inForm {s : State} (h : s.mem.wf = true) (t : BitVec 2) (a : BitVec 6) (c : BitVec 5) (f : BitVec 4) (op1 : Word) :
    (commitTmovw t a c f op1 s).InForm := by
  refine s.soundTile_inForm h fun _ => ?_
  grind [State.badField_inForm, State.tileTrap_inForm, State.commitCtx_inForm]

theorem commitTldRaw_inForm {s : State} (h : s.mem.wf = true) (t : BitVec 2) (a : BitVec 5) (op1 : Word) : (commitTldRaw t a op1 s).InForm := by
  refine s.loadImage_inForm h fun img s h => ?_
  split <;> exact h

theorem commitTldCan_inForm {s : State} (h : s.mem.wf = true) (t : BitVec 2) (a : BitVec 5) (f : BitVec 4) (op1 : Word) :
    (commitTldCan t a f op1 s).InForm := by
  refine s.soundTile_inForm h fun _ => ?_
  dsimp only
  split
  · exact h
  split
  · exact h
  · exact s.loadImage_inForm h fun img s h => h

theorem commitTstRaw_inForm {s : State} (h : s.mem.wf = true) (t : BitVec 2) (a : BitVec 5) (op1 : Word) : (commitTstRaw t a op1 s).InForm :=
  s.soundTile_inForm h fun _ => s.image_inForm h fun _ s h => s.writeSpan_settle_wf h _ _ _

theorem commitTstCan_inForm {s : State} (h : s.mem.wf = true) (t : BitVec 2) (a : BitVec 5) (f : BitVec 4) (op1 : Word) :
    (commitTstCan t a f op1 s).InForm := by
  refine s.soundTile_inForm h fun _ => ?_
  dsimp only
  split
  · exact h
  split
  · exact h
  · exact s.image_inForm h fun _ s h => s.writeSpan_settle_wf h _ _ _

theorem commitQpush_inForm {s : State} (h : s.mem.wf = true) (q : BitVec 4) (x : BitVec 5) (op1 : Word) : (commitQpush q x op1 s).InForm := by
  unfold commitQpush
  split
  · exact h
  · exact s.onChannel_inForm h fun s h => s.pushCmd_inForm h _ _ _

theorem commitQstat_inForm {s : State} (h : s.mem.wf = true) (q k : BitVec 4) : (commitQstat q k s).InForm := by
  unfold commitQstat
  split
  · exact h
  · exact s.pushQ_inForm h _ _

theorem commitCopy_inForm {s : State} (h : s.mem.wf = true) (k : BitVec 4) (a : BitVec 5) (op1 : Word) : (commitCopy k a op1 s).InForm := by
  refine s.onChannel_inForm h fun s h => s.commitBlock_inForm h fun bs s h => ?_
  split
  · exact h
  refine s.commitBlock_inForm h fun ns s h => ?_
  split
  · exact h
  split
  · exact h
  · exact s.pushCmd_inForm h _ _ _

theorem commitVgthr_inForm {s : State} (h : s.mem.wf = true) (v : BitVec 5) (k : BitVec 4) (a : BitVec 5) (op1 : Word) :
    (commitVgthr v k a op1 s).InForm := by
  refine s.onChannel_inForm h fun s h => s.commitBlock_inForm h fun bs s h => ?_
  split
  · exact h
  · exact s.pushCmd_inForm h _ _ _

theorem commitDrain_inForm {s : State} (h : s.mem.wf = true) (k : BitVec 4) : (commitDrain k s).InForm := by
  unfold commitDrain
  grind [Commit.inForm_trap, Commit.inForm_done, Commit.inForm_wait]

/-- Every entry keeps the form at its commit: what changes vector registers, facets, tiles, flags, queues and CSRs alone leaves the memory. -/
theorem commit_inForm (i : Instr) (op1 op2 : Word) {s : State} (h : s.mem.wf = true) : (commit i op1 op2 s).InForm := by
  cases i
  case vsetvl d a sc e => exact commitVsetvl_inForm h d a sc e op1 op2
  case vmv => exact commitVmv_inForm h _ _ _
  case vfcvt => exact commitVfcvt_inForm h _ _ _ _
  case vfredsum => exact commitVfredsum_inForm h _ _ _ _
  case vrand d a b m => exact commitVrand_inForm h d a b m op1 op2
  case vgetvl | vredsum | vredmax | vredmin | vredand | vredor | vfirst | vcount | vfacet => exact s.pushQ_inForm h _ _
  case vfadd | vfsub | vfmul | vfdiv | vfsqrt | vfmadd | vfmin | vfmax | vfeq | vflt | vfle | vfexp2 | vfclass | vfaddVf | vfsubVf | vfmulVf |
      vfdivVf | vfmaddVf | vfminVf | vfmaxVf | vfeqVf | vfltVf | vfleVf => simp only [commit]; exact s.floatOp_inForm h fun _ _ => by exact h
  case vwmul | vwmacc | vwadd | vnclip => simp only [commit]; exact s.widening_inForm h fun _ => by exact h
  case vhad | vhadC => simp only [commit]; exact s.stageOp_inForm h fun _ => by exact h
  case vqnt | vqntC => simp only [commit]; exact s.quantise_inForm h _ _ _ _ _
  case vdqnt => simp only [commit]; exact s.scaleOp_inForm h fun _ _ _ => by exact h
  case vld | vldStrided | vldIndexed | vldSeg | vldF | vldFSeg | vldSegIndexed => simp only [commit]; exact s.vload_inForm h _ _ _ _ _ _ _ _
  case vst | vstStrided | vstIndexed | vstSeg | vstN | vstNSeg | vstNIndexed => simp only [commit]; exact s.vstore_inForm h _ _ _ _ _ _ _ _
  case vsort | vchks => simp only [commit]; exact s.keyOp_inForm h fun _ => by exact h
  case vmrg | visec => simp only [commit]; exact s.sorted2_inForm h fun _ => s.pairedDest_inForm h fun _ => by exact h
  case vuniq | vpart => simp only [commit]; exact s.sorted1_inForm h fun _ => s.pairedDest_inForm h fun _ => by exact h
  case vrank | vrankLe => exact s.rank_inForm h _ _ _ _ _ _
  case vcmpt => simp only [commit]; exact s.sorted1_inForm h fun _ => by exact h
  case vmrgc => exact commitVmrgc_inForm h _ _ _ _
  case vtopk => exact commitVtopk_inForm h _ _ _ _ _
  case mopa => exact commitMopa_inForm h _ _ _ _ _
  case mopaS => exact commitMopaS_inForm h _ _ _ _ _
  case mopaW => exact commitMopaW_inForm h _ _ _ _ _ _
  case mopaGr => exact commitMopaGr_inForm h _ _ _ _ _
  case tanchor => exact commitTanchor_inForm h _ _ _
  case tres => exact commitTres_inForm h _ _
  case tmovr => exact commitTmovr_inForm h _ _ _ _ _
  case tmovw => exact commitTmovw_inForm h _ _ _ _ _
  case tldRaw => exact commitTldRaw_inForm h _ _ _
  case tldCan => exact commitTldCan_inForm h _ _ _ _
  case tstRaw => exact commitTstRaw_inForm h _ _ _
  case tstCan => exact commitTstCan_inForm h _ _ _ _
  case cbld => simp only [commit]; exact s.loadImage_inForm h fun _ _ h => by exact h
  case qpush => exact commitQpush_inForm h _ _ _
  case qstat => exact commitQstat_inForm h _ _
  case copy k a => exact commitCopy_inForm h k a op1
  case vgthr v k a => exact commitVgthr_inForm h v k a op1
  case drain => exact commitDrain_inForm h _
  all_goals exact h

/-! ## Counters, launches and clasps -/

theorem State.ringDone_wf {s : State} (h : s.mem.wf = true) (key : Nat) : (s.ringDone key).mem.wf = true := by
  refine State.foldl_wf (fun u r h => ?_) _ h
  split
  · exact u.settleWrites_wf h _ _
  · exact h

theorem State.markDone_wf {s : State} (h : s.mem.wf = true) (sh : Bool) (key : Nat) (canc : Bool) : (s.markDone sh key canc).mem.wf = true := by
  unfold State.markDone
  grind [State.ringDone_wf, State.onDev_mem]

theorem State.countUp_wf (f : Nat) (sh : Bool) (key ord arm : Nat) {s : State} (h : s.mem.wf = true) :
    (State.countUp f sh key ord arm s).mem.wf = true := by
  induction f generalizing s key ord arm with
  | zero => exact h
  | succ f ih =>
    unfold State.countUp
    grind [State.markDone_wf, State.onDev_mem]

theorem State.finishCounter_wf {s : State} (h : s.mem.wf = true) (sh : Bool) (key : Nat) (canc : Bool) :
    (s.finishCounter sh key canc).mem.wf = true := by
  unfold State.finishCounter
  grind [State.markDone_wf, State.countUp_wf]

theorem State.depStep_wf {s t : State} (h : s.mem.wf = true) (e : s.depStep = some t) : t.mem.wf = true := by
  obtain ⟨l, -, e⟩ := List.exists_of_findSome?_eq_some e
  grind [State.finishCounter_wf, State.onDev_mem]

theorem State.settleDeps_wf (n : Nat) {s : State} (h : s.mem.wf = true) : (State.settleDeps n s).mem.wf = true := by
  induction n generalizing s with
  | zero => exact h
  | succ n ih =>
    unfold State.settleDeps
    split
    · exact h
    · rename_i e; exact ih (State.depStep_wf h e)

theorem State.settleLaunches_wf {s : State} (h : s.mem.wf = true) : s.settleLaunches.mem.wf = true := State.settleDeps_wf _ h

theorem State.tellMembers_mem (s : State) (id : Nat) (k : Clasp) : (s.tellMembers id k).mem = s.mem := by
  unfold State.tellMembers
  split <;> rfl

theorem State.putClasp_mem (s : State) (id : Nat) (k : Clasp) : (s.putClasp id k).mem = s.mem := by
  unfold State.putClasp
  grind [State.tellMembers_mem, State.onDev_mem]

theorem State.depart_mem (s : State) (u : UnitSt) : (s.depart u).mem = s.mem :=
  State.foldl_mem (fun s p => by grind [State.putClasp_mem]) _ s

theorem State.cancelIn_wf {s : State} (h : s.mem.wf = true) (arms : List Nat) (n c : Nat) : (s.cancelIn arms n c).mem.wf = true := by
  unfold State.cancelIn
  grind [State.settleCore_wf, State.setCtx_mem, State.depart_mem, State.regrantCore_mem]

theorem State.cancelNode_wf {s : State} (h : s.mem.wf = true) (key : Nat) : (s.cancelNode key).mem.wf = true := by
  unfold State.cancelNode
  extract_lets under live arms back s1 s2 s3
  have h1 : s1.mem.wf = true := (congrArg Memory.wf (State.foldl_mem State.depart_mem back s)).trans h
  have h2 : s2.mem.wf = true := State.foldl_wf (fun _ _ h => State.markDone_wf h _ _ _) _ h1
  have h3 : s3.mem.wf = true := by grind [State.countUp_wf]
  exact State.settleLaunches_wf (State.foldl_wf (fun _ _ h => State.cancelIn_wf h _ _ _) _ h3)

/-! ## The dispatcher and the walker -/

theorem State.fixTarget_wf {s : State} (h : s.mem.wf = true) (l : Launch) : (s.fixTarget l).mem.wf = true := by
  unfold State.fixTarget
  grind [State.finishCounter_wf, State.settleLaunches_wf, State.onDev_mem]

theorem State.bindUnit_mem (s : State) (c : Nat) (u : UnitSt) (l : Launch) : (s.bindUnit c u l).mem = s.mem := s.setCtx_mem _ _

theorem State.startUnit_mem (s : State) (c : Nat) : (s.startUnit c).mem = s.mem := by
  unfold State.startUnit
  grind [State.setCtx_mem]

theorem State.closeFailed_wf {s : State} (h : s.mem.wf = true) (l : Launch) (detail : Nat) : (s.closeFailed l detail).mem.wf = true := by
  unfold State.closeFailed
  dsimp only
  split
  · exact h
  · have h1 := State.settleLaunches_wf (s.finishCounter_wf h l.shadow (ctrKey l.die l.ctr) true)
    have h2 := fun r => State.record_fst_wf h1 l.asid r
    have h3 : ∀ (u : State) (ns : List Nat), u.mem.wf = true → (u.appendRecord l.asid fun seq => contBytes ns seq).1.mem.wf = true :=
      fun u _ h => u.appendRecord_wf h _ _
    have h4 := fun r l => State.foldl_wf h3 l (h2 r)
    split
    · rw [State.pendMcheck_mem]
      exact h4 _ _
    · exact h4 _ _

theorem State.checkFailed_wf {s : State} (h : s.mem.wf = true) (arm : Nat) : (s.checkFailed arm).mem.wf = true := by
  unfold State.checkFailed
  grind only [State.closeFailed_wf]

theorem State.replayClasps_mem (s : State) (u : UnitSt) : (s.replayClasps u).mem = s.mem := rfl

theorem State.loseUnit_wf {s : State} (h : s.mem.wf = true) (u : UnitSt) (core detail : Nat) : (s.loseUnit u core detail).mem.wf = true := by
  unfold State.loseUnit
  grind [State.checkFailed_wf, State.replayClasps_mem, State.depart_mem, State.onDev_mem]

theorem State.takeBack_mem (s : State) (u : UnitSt) : (s.takeBack u).mem = s.mem := by
  unfold State.takeBack
  split <;> rfl

theorem State.freeCtx_wf {s : State} (h : s.mem.wf = true) (c : Nat) : (s.freeCtx c).mem.wf = true := by
  unfold State.freeCtx
  grind [State.settleCore_wf, State.setCtx_mem, State.regrantCore_mem]

theorem State.runPrologue_wf {s t : State} {c : Nat} {l : Launch} {u : UnitSt} {r : Option State} (h : s.mem.wf = true)
    (e : s.runPrologue c l u = (r, t)) : t.mem.wf = true ∧ ∀ v, r = some v → v.mem.wf = true := by
  unfold State.runPrologue at e
  split at e
  · cases e; exact ⟨h, fun _ hv => nomatch hv⟩
  · split at e <;> rename_i e1 <;> have h1 := State.checkElems_wf h e1 <;> cases e
    · exact ⟨h1, fun _ hv => nomatch hv⟩
    · exact ⟨h1, fun v hv => by cases hv; exact State.perform_wf (State.noteSources_wf h1 _ _ _ _) _ _ _ _⟩

theorem State.prologueOf_wf {s : State} (h : s.mem.wf = true) (c : Nat) : (s.prologueOf c).mem.wf = true := by
  unfold State.prologueOf
  extract_lets x done go
  have hgo : ∀ b u, (go b u).mem.wf = true := by
    intro b u
    simp only [go, done]
    split
    · exact h
    · split <;> rename_i e <;> obtain ⟨h1, h2⟩ := State.runPrologue_wf h e
      · rw [State.setCtx_mem]; exact h2 _ rfl
      · refine State.loseUnit_wf ?_ _ _ _
        split <;> simpa only [State.regrantCore_mem, State.setCtx_mem] using h1
  split
  · split
    · exact hgo _ _
    · split
      · split
        · exact h
        · exact hgo _ _
      · exact h
  · exact h

theorem State.notice_mem (s : State) (l : Launch) : (s.notice l).mem = s.mem := by
  unfold State.notice
  grind [State.setCtx_mem]

theorem State.popLaunch_wf {s : State} (h : s.mem.wf = true) (die b1 b2 : Nat) : (s.popLaunch die b1 b2).mem.wf = true := by
  unfold State.popLaunch
  grind [State.finishCounter_wf, State.settleLaunches_wf, State.notice_mem, State.onDev_mem]

theorem State.offer_wf {s t : State} {c : Nat} {l : Launch} (h : s.mem.wf = true) (e : s.offer c l = some t) : t.mem.wf = true := by
  unfold State.offer at e
  grind [State.fixTarget_wf, State.bindUnit_mem, State.onDev_mem]

theorem State.handOut_wf {s t : State} {c : Nat} (h : s.mem.wf = true) (e : s.handOut c = some t) : t.mem.wf = true := by
  unfold State.handOut at e
  split at e
  · obtain ⟨l, -, e⟩ := List.exists_of_findSome?_eq_some e
    exact State.offer_wf h e
  · cases e

theorem State.admitGang_mem {s t : State} {die : Nat} (e : s.admitGang die = some t) : t.mem = s.mem := by
  unfold State.admitGang at e
  split at e
  · cases e
  dsimp only at e
  split at e
  · split at e
    · cases e
    · cases e; rfl
  · cases e
    exact State.foldl_mem (fun u n => by grind [State.startUnit_mem, State.bindUnit_mem]) _ _

theorem State.preloadUnit_wf {s : State} (h : s.mem.wf = true) (c : Nat) : (s.preloadUnit c).mem.wf = true := by
  unfold State.preloadUnit
  grind [State.fixTarget_wf, State.setCtx_mem, State.onDev_mem]

theorem State.sendTheft_mem (s : State) (walker victim die ctr ver lg tr n : Nat) : (s.sendTheft walker victim die ctr ver lg tr n).mem = s.mem := by
  unfold State.sendTheft
  dsimp only
  split <;> rfl

theorem State.serveTheft_mem (s : State) (die ctr n thief : Nat) : (s.serveTheft die ctr n thief).mem = s.mem := by
  unfold State.serveTheft
  grind only [State.onDev_mem]

theorem State.takeStolen_mem (s : State) (victim die ctr lo hi : Nat) (blob : List Byte) : (s.takeStolen victim die ctr lo hi blob).mem = s.mem := by
  unfold State.takeStolen
  grind only [State.onDev_mem]

theorem State.returnStolen_mem (s : State) (thief : Nat) : (s.returnStolen thief).mem = s.mem :=
  State.foldl_mem (fun s l => by grind [State.onDev_mem]) _ s

theorem State.deliverInc_wf {s : State} (h : s.mem.wf = true) (k : Nat) : (s.deliverInc k).mem.wf = true := by
  unfold State.deliverInc
  grind [State.countUp_wf, State.settleLaunches_wf, State.checkFailed_wf, State.onDev_mem]

/-! ## The words of the SCT: scalar memory, loops and nests, floats, synchronisation -/

theorem State.writeX_inForm {s : State} (h : s.mem.wf = true) (d : BitVec 5) (v : Word) : Res.InForm (s.writeX d v) := by
  unfold State.writeX
  grind [Res.inForm_next, State.retire_mem, State.setX_mem]

theorem State.branch_inForm {s : State} (h : s.mem.wf = true) (taken : Bool) (off : BitVec 16) : Res.InForm (s.branch taken off) := by
  unfold State.branch
  grind [Res.inForm_next, State.retire_mem, State.retireTo_mem]

theorem State.inOrder_inForm {s : State} (h : s.mem.wf = true) (w : Stall) {k : State → Res}
    (hk : ∀ s : State, s.mem.wf = true → Res.InForm (k s)) : Res.InForm (s.inOrder w k) := by
  unfold State.inOrder
  grind [Res.inForm_next, State.stallFor_mem, State.behindBarriers_wf]

theorem State.loadX_inForm {s : State} (h : s.mem.wf = true) (d a : BitVec 5) (i : BitVec 16) (w : Nat) (ext : Nat → Word) :
    Res.InForm (s.loadX d a i w ext) := by
  refine s.inOrder_inForm h _ fun s h => ?_
  split <;> rename_i e <;> have h1 := State.alignedOnce_wf h e
  · exact (Res.inForm_next _).2 (State.refuse_wf h1 _)
  · grind [Res.inForm_next, State.refuse_wf, State.writeX_inForm, State.readAt_wf, State.stallFor_mem]

theorem State.storeNow_inForm {s : State} (h : s.mem.wf = true) (x a : BitVec 5) (i : BitVec 16) (w : Nat) :
    Res.InForm (s.storeNow x a i w) := by
  unfold State.storeNow
  grind [Res.inForm_next, State.aligned_wf, State.refuse_wf, State.putStore_wf, State.settle_wf, State.retire_mem]

theorem State.storeX_inForm {s : State} (h : s.mem.wf = true) (x a : BitVec 5) (i : BitVec 16) (w : Nat) :
    Res.InForm (s.storeX x a i w) := by
  have hi := s.inOrder_inForm h .chan (fun s h => s.storeNow_inForm h x a i w)
  unfold State.storeX
  grind [Res.inForm_next, State.storeNow_inForm, State.beforeFetch_wf, State.stallFor_mem]

theorem State.amo_inForm {s : State} (h : s.mem.wf = true) (d a b : BitVec 5) (o : BitVec 2) (w : BitVec 1) (f : Nat → Nat → Nat → Nat) :
    Res.InForm (s.amo d a b o w f) := by
  refine s.inOrder_inForm h _ fun s h => ?_
  dsimp only
  split <;> rename_i e <;> have h1 := State.alignedOnce_wf h e
  · exact (Res.inForm_next _).2 (State.refuse_wf h1 _)
  · split
    · exact (Res.inForm_next _).2 (by rw [State.stallFor_mem]; exact h1)
    · rename_i t e
      have h2 : t.mem.wf = true := by grind [State.force_wf, State.drainOut_mem]
      exact State.writeX_inForm (State.rmw_snd_wf h2 _ _ _ _) _ _

theorem State.fetchBody_wf {s t : State} {n : Nat} {va : Word} {r : Except Refused (List Word32)} (h : s.mem.wf = true)
    (e : s.fetchBody n va = (r, t)) : t.mem.wf = true := by
  induction n generalizing s va r t with
  | zero => cases e; exact h
  | succ n ih =>
    unfold State.fetchBody at e
    split at e <;> rename_i e1 <;> have h1 := State.fetchAt_wf h e1
    · cases e; exact h1
    · split at e <;> rename_i e2 <;> cases e <;> exact ih h1 e2

theorem State.fetching_inForm {s : State} (h : s.mem.wf = true) (vas : List Word) {k : State → Res}
    (hk : ∀ s : State, s.mem.wf = true → Res.InForm (k s)) : Res.InForm (s.fetching vas k) := by
  unfold State.fetching
  grind [Res.inForm_next, State.stallFor_mem, State.beforeFetch_wf]

theorem State.sctWord_wf {s t : State} {r : Except Refused Word32} (h : s.mem.wf = true) (e : s.sctWord = (r, t)) : t.mem.wf = true := by
  unfold State.sctWord at e
  split at e
  · cases e; exact h
  · cases hb : s.beforeFetch with
    | none => rw [hb] at e; exact State.fetchAt_wf h e
    | some u => rw [hb] at e; exact State.fetchAt_wf (State.beforeFetch_wf h hb) e

/-- What the read of a nest block leaves has its memory in the canonical form. -/
def BlockRead.InForm : BlockRead → Prop
  | .bytes _ s => s.mem.wf = true
  | .refused _ s => s.mem.wf = true
  | .held _ => True

theorem State.readNest_inForm {s : State} (h : s.mem.wf = true) (va : Word) : (s.readNest va).InForm := by
  unfold State.readNest
  split <;> rename_i e <;> have h1 := State.alignedOnce_wf h e
  · exact h1
  · split
    · trivial
    · exact h1
    · rename_i e2
      dsimp only
      split <;> exact State.readAt_wf h1 e2

theorem execLoop_inForm {s : State} (h : s.mem.wf = true) (a l : BitVec 5) : Res.InForm (execLoop a l s) := by
  refine s.fetching_inForm h _ fun s h => ?_
  split <;> rename_i e <;> have h1 := State.fetchBody_wf h e
  · exact (Res.inForm_next _).2 (State.refuse_wf h1 _)
  · grind [Res.inForm_next, State.trap_wf, State.retire_mem, State.onCtx_mem]

theorem execNest_inForm {s : State} (h : s.mem.wf = true) (a l : BitVec 5) : Res.InForm (execNest a l s) := by
  refine s.inOrder_inForm h _ fun s h => ?_
  dsimp only
  split <;> rename_i e <;> have h1 := State.fetchBody_wf h e
  · exact (Res.inForm_next _).2 (State.refuse_wf h1 _)
  · split
    · exact (Res.inForm_next _).2 (State.trap_wf h1 _ _)
    · have h2 := State.readNest_inForm h1
      split <;> rename_i e2 <;> replace h2 := e2 ▸ h2 _
      · exact (Res.inForm_next _).2 (by rw [State.stallFor_mem]; exact h1)
      · exact (Res.inForm_next _).2 (State.refuse_wf h2 _)
      · simp only [BlockRead.InForm] at h2
        grind [Res.inForm_next, State.trap_wf, State.retire_mem, State.onCtx_mem]

theorem State.refetch_inForm {s : State} (h : s.mem.wf = true) : Res.InForm s.refetch := by
  unfold State.refetch
  extract_lets lp head resumed
  have hr : ∀ (s : State) a body nest, s.mem.wf = true → Res.InForm (resumed s a body nest) := fun s _ _ _ h =>
    (Res.inForm_next _).2 (by rw [State.onCtx_mem]; exact h)
  have ht : ∀ s : State, s.mem.wf = true → Res.InForm (.next (s.trap 0x14 head)) := fun s h => (Res.inForm_next _).2 (State.trap_wf h _ _)
  refine s.fetching_inForm h _ fun s h => ?_
  split <;> rename_i e <;> have h1 := State.fetchAt_wf h e
  · exact (Res.inForm_next _).2 (State.refuse_wf h1 _)
  split
  · split
    · exact ht _ h1
    · refine State.fetching_inForm h1 _ fun s h => ?_
      split <;> rename_i e <;> have h1 := State.fetchBody_wf h e
      · exact (Res.inForm_next _).2 (State.refuse_wf h1 _)
      · exact hr _ _ _ _ h1
  · split
    · exact ht _ h1
    · refine State.fetching_inForm h1 _ fun s h => ?_
      split <;> rename_i e <;> have h1 := State.fetchBody_wf h e
      · exact (Res.inForm_next _).2 (State.refuse_wf h1 _)
      · refine State.inOrder_inForm h1 _ fun s h => ?_
        have h2 := State.readNest_inForm h
        split <;> rename_i e2 <;> replace h2 := e2 ▸ h2 _
        · exact (Res.inForm_next _).2 (by rw [State.stallFor_mem]; exact h)
        · exact (Res.inForm_next _).2 (State.refuse_wf h2 _)
        · exact hr _ _ _ _ h2
  · exact ht _ h1

theorem State.skip_mem (s : State) (l : Latch) (d : Option (BitVec 5)) : (s.skip l d).mem = s.mem := by
  unfold State.skip
  grind [State.retire_mem, State.setX_mem]

theorem State.writeFlagged_inForm {s : State} (h : s.mem.wf = true) (d : BitVec 5) (v : Word) (fl : BitVec 5) :
    Res.InForm (s.writeFlagged d v fl) := by
  unfold State.writeFlagged
  grind [Res.inForm_next, State.retire_mem, State.setX_mem, State.orFlags_mem]

theorem State.fltRound_inForm {s : State} (h : s.mem.wf = true) (w : Word32) {k : RMode → Res} (hk : ∀ rm, Res.InForm (k rm)) :
    Res.InForm (s.fltRound w k) := by
  unfold State.fltRound
  grind [Res.inForm_next, State.trap_wf]

theorem execFcvt_inForm {s : State} (h : s.mem.wf = true) (d a : BitVec 5) (t : BitVec 1) (v : BitVec 4) : Res.InForm (execFcvt d a t v s) := by
  refine s.fltRound_inForm h _ fun rm => ?_
  have hw : ∀ d v fl, Res.InForm (s.writeFlagged d v fl) := s.writeFlagged_inForm h
  split <;> exact hw _ _ _

theorem State.waitWord_inForm {s : State} (h : s.mem.wf = true) (a b : BitVec 5) (w : BitVec 1) (ok : Nat → Nat → Bool) :
    Res.InForm (s.waitWord a b w ok) := by
  refine s.inOrder_inForm h _ fun s h => ?_
  dsimp only
  split <;> rename_i e <;> have h1 := State.aligned_wf h e
  · exact (Res.inForm_next _).2 (State.refuse_wf h1 _)
  · grind [Res.inForm_next, State.refuse_wf, State.retire_mem, State.readAt_wf, State.stallFor_mem]

theorem execFence_inForm {s : State} (h : s.mem.wf = true) (sc : BitVec 3) (k : BitVec 2) : Res.InForm (execFence sc k s) := by
  unfold execFence
  rw [Res.inForm_next, State.retire_mem]
  split
  · exact State.barrier_wf h _
  · exact h
  · exact State.barrier_wf h _

theorem State.resumeAt_inForm {s : State} (h : s.mem.wf = true) (c : Nat) {run : Stall → Decoded → State → Res}
    (hr : ∀ k i (s : State), s.mem.wf = true → Res.InForm (run k i s)) : Res.InForm (s.resumeAt c run) := by
  unfold State.resumeAt
  have hs : Res.InForm (.next s) := (Res.inForm_next s).2 h
  have ht : (s.turnTo c).mem.wf = true := by rw [State.turnTo_mem]; exact h
  split
  · exact hs
  dsimp only
  split
  · exact hs
  split
  · exact hs
  split
  · rename_i e
    split
    · have h2 := fun k i => hr k i _ (State.sctWord_wf ht e)
      split
      · rename_i e2
        rw [Res.inForm_next, State.turnTo_mem]
        exact h2 _ _ _ e2
      · exact h2 _ _
    · exact hs
  · exact hs

theorem State.access_inForm {s : State} (h : s.mem.wf = true) (w : Decoded) : Res.InForm (s.access w) := by
  unfold State.access
  split
  · exact State.refetch_inForm h
  · split
    case h_18 => exact execNest_inForm h _ _
    case h_19 => exact (Res.inForm_next _).2 h
    case h_1 | h_2 | h_3 | h_4 | h_5 | h_6 | h_7 => exact s.loadX_inForm h _ _ _ _ _
    all_goals exact s.amo_inForm h _ _ _ _ _ _

theorem execScoreboardWaitEnd_inForm {s : State} (h : s.mem.wf = true) (c : Nat) : Res.InForm (execScoreboardWaitEnd c s) := by
  refine s.resumeAt_inForm h c fun k i s h => ?_
  split
  · split
    · exact (Res.inForm_next _).2 h
    · exact State.access_inForm h i
  · exact (Res.inForm_next _).2 h

theorem execWaitSatisfied_inForm {s : State} (h : s.mem.wf = true) (c : Nat) : Res.InForm (execWaitSatisfied c s) := by
  refine s.resumeAt_inForm h c fun k i s h => ?_
  split
  · exact State.waitWord_inForm h _ _ _ _
  · exact State.waitWord_inForm h _ _ _ _
  · exact (Res.inForm_next _).2 h

/-! ## The SCHED words -/

theorem State.sched_inForm {s : State} (h : s.mem.wf = true) {p : Priv} {l : LateInstr} {k : State → Res}
    (hk : ∀ s : State, s.mem.wf = true → Res.InForm (k s)) : Res.InForm (s.sched p l k) :=
  s.needs_inForm h (s.whenDrained_inForm h (hk s h))

theorem State.readLaunch_wf {s t : State} {va : Word} {r : Except (Option Refused) LaunchBytes} (h : s.mem.wf = true)
    (e : s.readLaunch va = (r, t)) : t.mem.wf = true := by
  unfold State.readLaunch at e
  extract_lets rd optional at e
  have hr : ∀ {s t : State} {a n r}, s.mem.wf = true → rd s a n = (r, t) → t.mem.wf = true := fun h e => State.readOwn_wf h e
  have ho : ∀ {s t : State} {a n r}, s.mem.wf = true → optional s a n = (r, t) → t.mem.wf = true := by
    intro s t a n r h e
    simp only [optional] at e
    split at e
    · cases e; exact h
    · exact hr h e
  split at e <;> rename_i e1 <;> have h1 := hr h e1
  · cases e; exact h1
  split at e <;> rename_i e2 <;> have h2 := hr h1 e2
  · cases e; exact h2
  split at e <;> rename_i e3 <;> have h3 := ho h2 e3
  · cases e; exact h3
  split at e <;> rename_i e4 <;> have h4 := ho h3 e4
  · cases e; exact h4
  split at e
  · cases e; exact h4
  split at e <;> rename_i e5 <;> cases e <;> exact hr h4 e5

theorem State.acceptLaunch_wf {s : State} (h : s.mem.wf = true) (b : LaunchBytes) : (s.acceptLaunch b).mem.wf = true := by
  unfold State.acceptLaunch
  dsimp only
  refine State.settleLaunches_wf ?_
  split
  · exact State.finishCounter_wf (by exact h) _ _ _
  · exact h

theorem execLaunch_inForm {s : State} (h : s.mem.wf = true) (a d : BitVec 5) : Res.InForm (execLaunch a d s) := by
  refine s.sched_inForm h fun s h => ?_
  dsimp only
  split
  · exact (Res.inForm_next _).2 (State.trap_wf h _ _)
  split
  · exact (Res.inForm_next _).2 (by rw [State.stallFor_mem]; exact h)
  rename_i e1
  have h1 := State.release_wf h e1
  split <;> rename_i e2 <;> have h2 := State.readLaunch_wf h1 e2
  · exact (Res.inForm_next _).2 (State.unread_wf h2 _)
  · grind [State.writeX_inForm, State.acceptLaunch_wf]

theorem execLaunchNode_inForm {s : State} (h : s.mem.wf = true) (a b d : BitVec 5) : Res.InForm (execLaunchNode a b d s) := by
  refine s.sched_inForm h fun s h => ?_
  dsimp only
  split
  · exact State.writeX_inForm h _ _
  split
  · exact State.writeX_inForm (by exact h) _ _
  refine State.writeX_inForm (State.settleLaunches_wf ?_) _ _
  split
  · exact State.finishCounter_wf (by exact h) _ _ _
  · exact h

theorem execCancel_inForm {s : State} (h : s.mem.wf = true) (a d : BitVec 5) : Res.InForm (execCancel a d s) := by
  refine s.sched_inForm h fun s h => ?_
  grind [State.writeX_inForm, State.cancelNode_wf]

theorem State.readCounter_inForm {s : State} (h : s.mem.wf = true) (a d : BitVec 5) (f : Counter → Word) : Res.InForm (s.readCounter a d f) := by
  unfold State.readCounter
  grind [State.writeX_inForm, State.trap_wf, Res.inForm_next]

theorem State.sendInc_mem (s : State) (u : UnitSt) : (s.sendInc u).mem = s.mem := by
  unfold State.sendInc
  split <;> rfl

theorem execUend_inForm {s : State} (h : s.mem.wf = true) : Res.InForm (execUend s) := by
  refine s.whenDrained_inForm h ?_
  split
  · exact (Res.inForm_next _).2 (State.trap_wf h _ _)
  split
  · exact (Res.inForm_next _).2 (State.trap_wf (by exact h) _ _)
  split
  · exact (Res.inForm_next _).2 (by rw [State.stallFor_mem]; exact h)
  split
  · exact (Res.inForm_next _).2 (by rw [State.stallFor_mem]; exact h)
  rename_i e
  have h1 := State.release_wf h e
  refine (Res.inForm_next _).2 (State.checkFailed_wf (State.freeCtx_wf ?_ _) _)
  rw [State.depart_mem, State.sendInc_mem]
  exact h1

theorem execYield_inForm {s : State} (h : s.mem.wf = true) : Res.InForm (execYield s) := by
  refine s.whenDrained_inForm h ?_
  grind [Res.inForm_next, State.trapPast_wf, State.retire_mem]

theorem State.arriveAt_mem (s : State) (r : ClaspRef) : (s.arriveAt r).mem = s.mem := by
  unfold State.arriveAt
  split
  · exact s.putClasp_mem _ _
  · rfl
  · rfl

theorem State.beforeArrival_inForm {s : State} (h : s.mem.wf = true) (w : Word) {k : ClaspRef → Nat → State → Res}
    (hk : ∀ r e (s : State), s.mem.wf = true → Res.InForm (k r e s)) : Res.InForm (s.beforeArrival w k) := by
  unfold State.beforeArrival
  grind [Res.inForm_next, State.trap_wf, State.stallFor_mem, State.force_wf]

theorem State.claspWait_inForm {s : State} (h : s.mem.wf = true) (w e : Word) : Res.InForm (s.claspWait w e) := by
  unfold State.claspWait
  grind [Res.inForm_next, State.retire_mem, State.stallFor_mem]

theorem State.claspRewait_inForm {s : State} (h : s.mem.wf = true) (w e : Word) : Res.InForm (s.claspRewait w e) := by
  unfold State.claspRewait
  grind [Res.inForm_next, State.retire_mem, State.stallFor_mem, State.onCtx_mem]

theorem State.clwaitFor_inForm {s : State} (h : s.mem.wf = true) (w e : Word) : Res.InForm (s.clwaitFor w e) := by
  unfold State.clwaitFor
  grind [Res.inForm_next, State.retire_mem, State.stallFor_mem]

theorem execClasp_inForm {s : State} (h : s.mem.wf = true) (a d : BitVec 5) : Res.InForm (execClasp a d s) := by
  refine s.sched_inForm h fun s h => ?_
  split
  · exact State.claspWait_inForm h _ _
  · exact State.claspRewait_inForm h _ _
  split
  · dsimp only
    split
    · exact (Res.inForm_next _).2 (State.trap_wf h _ _)
    · exact State.claspRewait_inForm h _ _
  · refine s.beforeArrival_inForm h _ fun r e s h => State.claspWait_inForm ?_ _ _
    rw [State.setX_mem, State.arriveAt_mem]
    exact h

theorem execClarr_inForm {s : State} (h : s.mem.wf = true) (a : BitVec 5) (q : BitVec 3) : Res.InForm (execClarr a q s) := by
  refine s.sched_inForm h fun s h => s.beforeArrival_inForm h _ fun r e s h => ?_
  grind [Res.inForm_next, State.trap_wf, State.retire_mem, State.onCtx_mem, State.arriveAt_mem]

theorem execClwait_inForm {s : State} (h : s.mem.wf = true) (a b : BitVec 5) : Res.InForm (execClwait a b s) := by
  refine s.sched_inForm h fun s h => ?_
  grind [Res.inForm_next, State.trap_wf, State.clwaitFor_inForm]

theorem execClaspCfg_inForm {s : State} (h : s.mem.wf = true) (a b d : BitVec 5) : Res.InForm (execClaspCfg a b d s) := by
  refine s.sched_inForm h fun s h => ?_
  grind [State.writeX_inForm, State.onDev_mem]

theorem State.hearClasp_mem (s : State) : s.hearClasp.mem = s.mem := by
  unfold State.hearClasp
  grind [State.onDev_mem]

theorem execClaspWake_inForm {s : State} (h : s.mem.wf = true) (c : Nat) : Res.InForm (execClaspWake c s) := by
  refine s.resumeAt_inForm h c fun k i s h => ?_
  have h1 : s.hearClasp.mem.wf = true := by rw [State.hearClasp_mem]; exact h
  split
  · exact execClasp_inForm h1 _ _
  · exact execClasp_inForm h1 _ _
  · exact execClasp_inForm h1 _ _
  · exact execClwait_inForm h1 _ _
  · exact execClarr_inForm h1 _ _
  · exact (Res.inForm_next _).2 h

theorem execDeviceMemberArrival_inForm {s : State} (h : s.mem.wf = true) (id member : Nat) (stamp : BitVec 64) :
    Res.InForm (execDeviceMemberArrival id member stamp s) := by
  unfold execDeviceMemberArrival
  grind [Res.inForm_next, State.putClasp_mem]

theorem State.unbindPreload_mem (s : State) (c : Nat) : (s.unbindPreload c).mem = s.mem := by
  unfold State.unbindPreload
  grind [State.takeBack_mem, State.setCtx_mem]

theorem execGrant_inForm {s : State} (h : s.mem.wf = true) (a b d : BitVec 5) : Res.InForm (execGrant a b d s) := by
  refine s.sched_inForm h fun s h => ?_
  grind [State.writeX_inForm, State.unbindPreload_mem, State.setStanding_mem]

/-! ## The SYS words -/

theorem State.writeDrain_wf {s t : State} {n : BitVec 12} {v w : Word} (h : s.mem.wf = true) (e : s.writeDrain n v w = .ok t) :
    t.mem.wf = true := by
  unfold State.writeDrain at e
  grind only [State.onCtx_mem]

theorem execCsrr_inForm {s : State} (h : s.mem.wf = true) (d : BitVec 5) (n : BitVec 12) : Res.InForm (execCsrr d n s) := by
  refine s.needs_inForm h ?_
  grind [State.writeX_inForm, State.whenDrained_inForm]

theorem State.csrAccess_inForm {s : State} (h : s.mem.wf = true) (fn : Nat) (i : Instr) (a : BitVec 5) (n : BitVec 12) {go : State → Commit}
    (hg : ∀ s : State, s.mem.wf = true → (go s).InForm) : Res.InForm (s.csrAccess fn i a n go) := by
  refine s.needs_inForm h ?_
  split
  · exact (Res.inForm_next _).2 (State.trap_wf h _ _)
  split
  · split
    · exact (Res.inForm_next _).2 (by rw [State.stallFor_mem]; exact h)
    · refine State.issue_inForm ?_ hg
      split
      · rw [State.onCtx_mem]; exact h
      · exact h
  · refine s.whenDrained_inForm h ?_
    split
    · rename_i e
      exact (Res.inForm_next _).2 (by rw [State.retire_mem]; exact State.writeDrain_wf h e)
    · exact (Res.inForm_next _).2 (State.trap_wf h _ _)

theorem execEret_inForm {s : State} (h : s.mem.wf = true) : Res.InForm (execEret s) := by
  refine s.needs_inForm h (s.whenDrained_inForm h ?_)
  split
  · exact (Res.inForm_next _).2 (State.trap_wf h _ _)
  · exact (Res.inForm_next _).2 (State.settleBars_wf (by rw [State.onCtx_mem]; exact h))

theorem State.drainFor_wf {s : State} (h : s.mem.wf = true) (r : Reach) : (s.drainFor r).mem.wf = true := by
  refine State.foldl_wf (fun s c h => ?_) _ h
  dsimp only
  split
  · exact State.settleOf_wf (by rw [State.setCtx_mem]; exact h) _
  · exact h

theorem execTlbinv_inForm {s : State} (h : s.mem.wf = true) (d a : BitVec 5) : Res.InForm (execTlbinv d a s) := by
  refine s.needs_inForm h (s.whenDrained_inForm h ?_)
  extract_lets w n r own outside
  split
  · exact (Res.inForm_next _).2 (State.trap_wf h _ _)
  split <;> rename_i e
  · exact (Res.inForm_next _).2 (by rw [State.stallFor_mem]; exact State.drainFor_wf (by exact h) _)
  · have h1 := State.force_wf (State.drainFor_wf (by exact h) _) e
    split <;> simpa only [Res.inForm_next, State.stallFor_mem, State.retire_mem] using h1

theorem execTlbinvComplete_inForm {s : State} (h : s.mem.wf = true) (c : Nat) : Res.InForm (execTlbinvComplete c s) := by
  refine s.resumeAt_inForm h c fun k i s h => ?_
  split
  · exact execTlbinv_inForm h _ _
  · exact (Res.inForm_next _).2 h

theorem execPlacew_inForm {s : State} (h : s.mem.wf = true) (d a : BitVec 5) : Res.InForm (execPlacew d a s) := by
  refine s.needs_inForm h (s.whenDrained_inForm h ?_)
  grind [Res.inForm_next, State.trap_wf, State.retire_mem, State.onDev_mem]

theorem execVfset_inForm {s : State} (h : s.mem.wf = true) (a : BitVec 5) (v : BitVec 6) : Res.InForm (execVfset a v s) := by
  refine s.needs_inForm h (s.whenDrained_inForm h ?_)
  grind [Res.inForm_next, State.trap_wf, State.retire_mem, State.onCtx_mem]

theorem execSnap_inForm {s : State} (h : s.mem.wf = true) : Res.InForm (execSnap s) := by
  refine s.needs_inForm h (s.whenDrained_inForm h ?_)
  grind [Res.inForm_next, State.trap_wf, State.stallFor_mem, State.retire_mem, State.onDev_mem, State.release_wf]

theorem execSnapshotLineCopy_inForm {s : State} (h : s.mem.wf = true) (asid : BitVec 13) (va : BitVec 64) :
    Res.InForm (execSnapshotLineCopy asid va s) := by
  unfold execSnapshotLineCopy
  grind [Res.inForm_next, State.copyLine_wf]

theorem State.endSnap_wf {s : State} (h : s.mem.wf = true) : s.endSnap.mem.wf = true := by
  unfold State.endSnap
  split
  · exact h
  split
  · exact h
  dsimp only
  split <;> rename_i e <;> have h1 := State.translate_wf (by exact h) e
  · exact State.settleWrites_wf h1 _ _
  · exact h1

theorem execWfi_inForm {s : State} (h : s.mem.wf = true) : Res.InForm (execWfi s) := by
  refine s.needs_inForm h (s.whenDrained_inForm h ?_)
  grind [Res.inForm_next, State.stallFor_mem, State.retire_mem]

/-! ## Save images -/

theorem State.park_wf {s : State} (h : s.mem.wf = true) (key : Nat) (saved : Saved) : (s.park key saved).mem.wf = true :=
  State.freeCtx_wf (by exact h) _

theorem execCtxsave_inForm {s : State} (h : s.mem.wf = true) (a : BitVec 5) : Res.InForm (execCtxsave a s) := by
  refine s.needs_inForm h (s.whenDrained_inForm h ?_)
  have hw : ∀ (s : State) w, s.mem.wf = true → Res.InForm (.next (s.stallFor w)) := fun s w h => by
    rw [Res.inForm_next, State.stallFor_mem]; exact h
  split
  · exact hw _ _ h
  split
  · exact hw _ _ h
  rename_i e
  have h1 := State.release_wf h e
  dsimp only
  split
  · exact (Res.inForm_next _).2 (State.trap_wf h1 _ _)
  split <;> rename_i e <;> have h2 := State.span_wf h1 e
  · exact (Res.inForm_next _).2 (State.refuse_wf h2 _)
  split
  · exact hw _ _ h2
  have h3 := fun c spot ws => State.perform_wf h2 c spot [] ws
  split
  · exact (Res.inForm_next _).2 (State.park_wf (h3 _ _ _) _ _)
  · exact (Res.inForm_next _).2 (by rw [State.retire_mem, State.onDev_mem]; exact h3 _ _ _)

theorem State.boardCmds_mem (s : State) : s.boardCmds.mem = s.mem := rfl

theorem execCtxrst_inForm {s : State} (h : s.mem.wf = true) (a : BitVec 5) : Res.InForm (execCtxrst a s) := by
  refine s.needs_inForm h (s.whenDrained_inForm h ?_)
  have ht : ∀ (s : State) c v, s.mem.wf = true → Res.InForm (.next (s.trap c v)) := fun s _ _ h => (Res.inForm_next _).2 (State.trap_wf h _ _)
  have hf : ∀ (s : State) r, s.mem.wf = true → Res.InForm (.next (s.refuse r)) := fun s _ h => (Res.inForm_next _).2 (State.refuse_wf h _)
  have hu : ∀ (s : State) r, s.mem.wf = true → Res.InForm (.next (s.unread r)) := fun s _ h => (Res.inForm_next _).2 (State.unread_wf h _)
  dsimp only
  split
  · exact (Res.inForm_next _).2 (by rw [State.stallFor_mem]; exact h)
  rename_i e
  have h1 := State.release_wf h e
  split <;> rename_i e <;> have h2 := State.aligned_wf h1 e
  · exact hf _ _ h2
  split <;> rename_i e <;> have h3 := State.readOwn_wf h2 e
  · exact hu _ _ h3
  split <;> rename_i e <;> have h4 := State.span_wf h3 e
  · exact hf _ _ h4
  split
  · exact ht _ _ _ h4
  split <;> rename_i e <;> have h5 := State.readOwn_wf h4 e
  · exact hu _ _ h5
  split
  · exact ht _ _ _ h5
  split
  · exact ht _ _ _ h5
  split
  · exact ht _ _ _ h5
  split
  · exact ht _ _ _ h5
  · exact (Res.inForm_next _).2 (State.settleBars_wf (by rw [State.boardCmds_mem]; exact h5))

/-! ## The engines of the device -/

theorem State.jobKey_wf {s t : State} {k : AccKind} {va : Nat} {r : Option Nat} (h : s.mem.wf = true) (e : s.jobKey k va = (r, t)) :
    t.mem.wf = true := by
  unfold State.jobKey at e
  split at e <;> rename_i e1 <;> cases e <;> exact State.translate_wf h e1

theorem State.jobBytes_wf {s t : State} {va n : Nat} {bs : List Byte} (h : s.mem.wf = true) (e : s.jobBytes va n = (bs, t)) :
    t.mem.wf = true := by
  induction n generalizing s va bs t with
  | zero => cases e; exact h
  | succ n ih =>
    unfold State.jobBytes at e
    split at e
    rename_i e1
    split at e
    rename_i e2
    cases e
    exact ih (State.jobKey_wf h e1) e2

theorem State.jobWrites_wf {s t : State} {va : Nat} {bs : List Byte} {ws : List (Nat × Byte)} (h : s.mem.wf = true)
    (e : s.jobWrites va bs = (ws, t)) : t.mem.wf = true := by
  induction bs generalizing s va ws t with
  | nil => cases e; exact h
  | cons b r ih =>
    unfold State.jobWrites at e
    split at e
    rename_i e1
    split at e
    rename_i e2
    cases e
    exact ih (State.jobKey_wf h e1) e2

theorem State.jobKey_snd_wf {s : State} (h : s.mem.wf = true) (k : AccKind) (va : Nat) : (s.jobKey k va).2.mem.wf = true :=
  State.jobKey_wf h (Prod.mk.eta (p := s.jobKey k va)).symm

theorem State.jobBytes_snd_wf {s : State} (h : s.mem.wf = true) (va n : Nat) : (s.jobBytes va n).2.mem.wf = true :=
  State.jobBytes_wf h (Prod.mk.eta (p := s.jobBytes va n)).symm

theorem State.jobWrites_snd_wf {s : State} (h : s.mem.wf = true) (va : Nat) (bs : List Byte) : (s.jobWrites va bs).2.mem.wf = true :=
  State.jobWrites_wf h (Prod.mk.eta (p := s.jobWrites va bs)).symm

theorem State.regenRun_snd_wf {s : State} (h : s.mem.wf = true) (addr : Nat) : (s.regenRun addr).2.mem.wf = true := by
  unfold State.regenRun
  dsimp only
  refine State.jobKey_snd_wf ?_ _ _
  refine State.jobWrites_snd_wf (State.jobWrites_snd_wf ?_ _ _) _ _
  exact State.jobBytes_snd_wf (State.jobBytes_snd_wf (State.jobBytes_snd_wf h _ _) _ _) _ _

theorem State.finish_wf {s : State} (h : s.mem.wf = true) (f : Fill) : (s.finish f).mem.wf = true := by
  unfold State.finish
  have h1 := State.settleWrites_wf h [] f.writes
  dsimp only
  split
  · exact State.settleWrites_wf h1 _ _
  · exact h1

theorem execRegenerationRun_inForm {s : State} (h : s.mem.wf = true) (k : Nat) : Res.InForm (execRegenerationRun k s) := by
  unfold execRegenerationRun
  grind [Res.inForm_next, State.regenRun_snd_wf, State.onDev_mem]

theorem execRegenerationRunComplete_inForm {s : State} (h : s.mem.wf = true) (k : Nat) : Res.InForm (execRegenerationRunComplete k s) := by
  unfold execRegenerationRunComplete
  grind [Res.inForm_next, State.finish_wf, State.onDev_mem]

theorem execRegenRegister_inForm {s : State} (h : s.mem.wf = true) (a : BitVec 64) : Res.InForm (execRegenRegister a s) := by
  unfold execRegenRegister State.refuseRegen
  grind [Res.inForm_next, State.onDev_mem, State.onWin_mem]

theorem execRegenUnregister_inForm {s : State} (h : s.mem.wf = true) (a : BitVec 64) : Res.InForm (execRegenUnregister a s) := by
  unfold execRegenUnregister State.refuseRegen
  grind [Res.inForm_next, State.onDev_mem, State.onWin_mem]

theorem execRfill_inForm {s : State} (h : s.mem.wf = true) (a : BitVec 64) : Res.InForm (execRfill a s) := by
  unfold execRfill
  split
  · exact (Res.inForm_next _).2 h
  · dsimp only
    rw [Res.inForm_next, State.onDev_mem]
    exact State.jobKey_snd_wf (State.jobWrites_snd_wf (State.jobBytes_snd_wf h _ _) _ _) _ _

theorem execRandomFillDone_inForm {s : State} (h : s.mem.wf = true) (k : Nat) : Res.InForm (execRandomFillDone k s) := by
  unfold execRandomFillDone
  grind [Res.inForm_next, State.finish_wf, State.onDev_mem]

/-! ## Asynchronous causes and failures -/

theorem State.takeCause_mem (s : State) (code : Nat) : (s.takeCause code).mem = s.mem := by
  unfold State.takeCause
  grind [State.intoHandler_mem]

theorem State.overdue_mem (s : State) (c : Nat) : (s.overdue c).mem = s.mem := by
  unfold State.overdue
  grind [State.setCtx_mem]

theorem State.flush_wf {s : State} (h : s.mem.wf = true) (hit : Nat → Bool) : (s.flush hit).mem.wf = true := by
  unfold State.flush
  cases e : s.force 3 fun p => p.writes.any fun w => hit w.1 with
  | none => exact h
  | some t => exact State.force_wf h e

theorem execRemoteRefusal_inForm {s : State} (h : s.mem.wf = true) (c : Nat) (a : BitVec 64) : Res.InForm (execRemoteRefusal c a s) := by
  refine (Res.inForm_next _).2 (State.within_wf h c fun s h => ?_)
  grind [State.flush_wf, State.onDev_mem]

theorem execPartialStoreError_inForm {s : State} (h : s.mem.wf = true) (c : Nat) (a : BitVec 64) :
    Res.InForm (execPartialStoreError c a s) := by
  refine (Res.inForm_next _).2 (State.within_wf h c fun s h => ?_)
  grind [State.flush_wf, State.onDev_mem]

theorem State.spoilTile_mem (s : State) (c t : Nat) : (s.spoilTile c t).mem = s.mem := by
  unfold State.spoilTile
  rw [State.onDev_mem, State.setCtx_mem]

theorem State.stopCtx_wf {s : State} (h : s.mem.wf = true) (c detail : Nat) : (s.stopCtx c detail).mem.wf = true := by
  unfold State.stopCtx
  grind only [State.takeBack_mem, State.setCtx_mem, State.loseUnit_wf]

theorem State.stopCore_wf {s : State} (h : s.mem.wf = true) (core detail : Nat) : (s.stopCore core detail).mem.wf = true :=
  State.foldl_wf (fun _ _ h => State.stopCtx_wf h _ _) _ (by exact h)

theorem State.failCore_wf {s : State} (h : s.mem.wf = true) (core : Nat) : (s.failCore core).mem.wf = true := by
  unfold State.failCore
  extract_lets x r s1 s2
  have h2 : s2.mem.wf = true := Memory.wf_withoutPolder (State.stopCore_wf h _ _) _
  split
  rename_i e
  have h3 := State.record_wf h2 e
  split
  · rw [State.pendMcheck_mem]; exact h3
  · exact h3

theorem State.loseStack_wf {s : State} (h : s.mem.wf = true) (stack : Nat) : (s.loseStack stack).mem.wf = true := by
  refine State.foldl_wf (fun s c h => State.foldl_wf (fun s p h => State.report_wf h c 2 p) _ ?_) _ h
  rw [State.setCtx_mem]
  exact h

theorem State.mapUnits_mem (s : State) (f : UnitSt → UnitSt) : (s.mapUnits f).mem = s.mem := rfl

theorem State.loseDie_wf {s : State} (h : s.mem.wf = true) (die : Nat) : (s.loseDie die).mem.wf = true := by
  unfold State.loseDie
  extract_lets cores arms own s1 s2 s3
  have h2 : s2.mem.wf = true := State.foldl_wf (fun s core h => Memory.wf_withoutPolder h core) cores (by exact h)
  have h3 : s3.mem.wf = true := State.foldl_wf (fun s k h => State.loseStack_wf h _) _ h2
  clear_value s3
  refine State.settleLaunches_wf ?_
  rw [State.onDev_mem, State.mapUnits_mem]
  exact h3

theorem execLinkLost_inForm {s : State} (h : s.mem.wf = true) (link : Nat) : Res.InForm (execLinkLost link s) := by
  unfold execLinkLost
  have hf := fun (ps : List Nat) s => State.foldl_mem (fun s p => State.returnStolen_mem s p) ps s
  grind [Res.inForm_next, State.returnStolen_mem, State.onDev_mem]

theorem execLinkTraining_inForm {s : State} (h : s.mem.wf = true) (link peer lo hi : Nat) : Res.InForm (execLinkTraining link peer lo hi s) := by
  unfold execLinkTraining
  grind [Res.inForm_next, State.onWin_mem, State.onDev_mem]

/-! ## The host's interface -/

theorem execHostMemoryAccess_inForm {s : State} (h : s.mem.wf = true) (store : Bool) (a : BitVec 64) (n : Nat) (v : BitVec 64) :
    Res.InForm (execHostMemoryAccess store a n v s) := by
  unfold execHostMemoryAccess
  grind [Res.inForm_next, State.settleWrites_wf]

theorem State.noteStores_wf {s : State} (h : s.mem.wf = true) (parts : List (Nat × Nat)) : (s.noteStores parts).mem.wf = true := by
  unfold State.noteStores
  split
  · exact h
  · exact State.countTriggers_wf h parts

theorem State.outside_wf {s : State} (h : s.mem.wf = true) (key : Nat) (bs : List Byte) : (s.outside key bs).mem.wf = true := by
  unfold State.outside
  dsimp only
  split
  · split
    · exact State.settleWrites_wf h _ _
    · exact h
  · split
    · exact State.noteStores_wf (by exact Memory.wf_setAll h _) _
    · exact h

theorem State.beginLevel_mem (s : State) (level : Nat) : (s.beginLevel level).mem = s.mem := by
  unfold State.beginLevel
  grind [State.onWin_mem]

theorem execPlreq_inForm {s : State} (h : s.mem.wf = true) (v : BitVec 64) : Res.InForm (execPlreq v s) := by
  unfold execPlreq
  grind [Res.inForm_next, State.onWin_mem, State.beginLevel_mem]

theorem State.clearCtxs_mem (s : State) : s.clearCtxs.mem = s.mem := rfl

theorem State.loseCtxs_mem (s : State) : s.loseCtxs.mem = s.mem := rfl

theorem State.loseAt_wf {s : State} (h : s.mem.wf = true) (level : Nat) : (s.loseAt level).mem.wf = true := by
  unfold State.loseAt
  split
  · exact List.foldlRecOn (motive := fun m : Memory => m.wf = true) _ _ h fun m hm core _ => Memory.wf_withoutPolder hm core
  split
  · rw [State.onDev_mem, State.loseCtxs_mem]
    dsimp only
    exact Memory.wf_without h _
  split
  · rw [State.onDev_mem, State.clearCtxs_mem]
    dsimp only
    exact Memory.wf_without h _
  · exact h

theorem State.endLevel_wf {s : State} (h : s.mem.wf = true) (level : Nat) : (s.endLevel level).mem.wf = true := by
  unfold State.endLevel
  grind [State.loseAt_wf, State.onWin_mem]

theorem execPowerTransitionDone_inForm {s : State} (h : s.mem.wf = true) : Res.InForm (execPowerTransitionDone s) := by
  unfold execPowerTransitionDone
  grind [Res.inForm_next, State.onWin_mem, State.beginLevel_mem, State.endLevel_wf]

theorem State.trip_mem (s : State) : s.trip.mem = s.mem := by
  unfold State.trip
  split <;> rfl

theorem State.sense_mem (s : State) (n : Nat) (deg : Int) : (s.sense n deg).mem = s.mem := by
  unfold State.sense
  grind [State.onWin_mem, State.trip_mem]

theorem execTripTimerExpiry_inForm {s : State} (h : s.mem.wf = true) : Res.InForm (execTripTimerExpiry s) := by
  unfold execTripTimerExpiry
  grind [Res.inForm_next, State.onWin_mem, State.trip_mem]

theorem State.deviceReset_wf {s : State} (h : s.mem.wf = true) : s.deviceReset.mem.wf = true := by
  unfold State.deviceReset
  dsimp only
  exact Memory.wf_without h _

theorem execPowerOnReset_inForm {s : State} (h : s.mem.wf = true) : Res.InForm (execPowerOnReset s) := by
  unfold execPowerOnReset
  rw [Res.inForm_next]
  dsimp only
  exact Memory.wf_without h _

theorem execBootImageLoaded_inForm {s : State} (h : s.mem.wf = true) (good : Bool) (bad : List Nat) :
    Res.InForm (execBootImageLoaded good bad s) := by
  unfold execBootImageLoaded
  grind [Res.inForm_next, State.onWin_mem, State.onDev_mem]

theorem State.bringUp_wf {s : State} (h : s.mem.wf = true) : s.bringUp.mem.wf = true := by
  unfold State.bringUp
  extract_lets hh s1 kept s2
  have h1 : s1.mem.wf = true := by rw [State.onDev_mem, State.clearCtxs_mem]; exact h
  have hk : kept.wf = true := Memory.wf_filter h1 _
  clear_value hh s1 kept
  have h2 : s2.mem.wf = true := by
    dsimp only [s2]
    exact Memory.wf_setAll hk _
  clear_value s2
  split
  · rw [State.setCtx_mem]; exact h2
  · exact h2

theorem execControlWindowWrite_inForm {s : State} (h : s.mem.wf = true) (off : Nat) (v : BitVec 64) :
    Res.InForm (execControlWindowWrite off v s) := by
  unfold execControlWindowWrite
  split
  · exact (Res.inForm_next _).2 h
  · exact execPlreq_inForm h v
  · exact (Res.inForm_next _).2 h
  · exact (Res.inForm_next _).2 h
  · exact (Res.inForm_next _).2 h
  · exact (Res.inForm_next _).2 h
  · split
    · exact execRegenRegister_inForm h v
    · exact execRegenUnregister_inForm h v
  · exact execRfill_inForm h v
  · exact (Res.inForm_next _).2 h
  · refine (Res.inForm_next _).2 ?_
    split
    · exact State.deviceReset_wf h
    · exact h
  · exact (Res.inForm_next _).2 h

/-! ## Every word and every event -/

/-- An entry that the SCT issues is committed as `commit` says (R14). -/
theorem State.issue_commit_inForm {s : State} (h : s.mem.wf = true) {i : Instr} {op1 op2 : Word} {go : State → Commit}
    (e : go = commit i op1 op2) : Res.InForm (s.issue i op1 op2 go) := by
  subst e
  exact s.issue_inForm h fun _ h => commit_inForm i op1 op2 h

theorem execVsetvl_inForm {s : State} (h : s.mem.wf = true) (d a : BitVec 5) (sc : BitVec 3) (e : BitVec 2) :
    Res.InForm (execVsetvl d a sc e s) := by
  unfold execVsetvl
  dsimp only
  split
  · exact (Res.inForm_next _).2 (by rw [State.stallFor_mem]; exact h)
  · refine State.issue_inForm ?_ fun _ h => commitVsetvl_inForm h _ _ _ _ _ _
    grind [State.setX_mem]

theorem execQpop_inForm {s : State} (h : s.mem.wf = true) (q : BitVec 4) (d : BitVec 5) : Res.InForm (execQpop q d s) := by
  unfold execQpop
  grind [Res.inForm_next, State.trap_wf, State.stallFor_mem, State.retire_mem, State.setX_mem, State.onCtx_mem]

theorem execJalr_inForm {s : State} (h : s.mem.wf = true) (d a : BitVec 5) (i : BitVec 16) : Res.InForm (execJalr d a i s) := by
  unfold execJalr
  grind [Res.inForm_next, State.trap_wf, State.setX_mem, State.retireTo_mem]

theorem State.roundedF_inForm {s : State} (h : s.mem.wf = true) (w : Word32) (t : BitVec 1) (d : BitVec 5) (k : RMode → Nat × BitVec 5) :
    Res.InForm (s.fltRound w fun rm => s.writeF t d (k rm)) := s.fltRound_inForm h w fun _ => s.writeFlagged_inForm h _ _ _

theorem execFadd_inForm {s : State} (h : s.mem.wf = true) (d a b : BitVec 5) (t : BitVec 1) : Res.InForm (execFadd d a b t s) :=
  s.roundedF_inForm h (encode (.fadd d a b t)) t d fun rm => fAdd (fltType t) rm (s.readF t a) (s.readF t b)

theorem execFsub_inForm {s : State} (h : s.mem.wf = true) (d a b : BitVec 5) (t : BitVec 1) : Res.InForm (execFsub d a b t s) :=
  s.roundedF_inForm h (encode (.fsub d a b t)) t d fun rm => fSub (fltType t) rm (s.readF t a) (s.readF t b)

theorem execFmul_inForm {s : State} (h : s.mem.wf = true) (d a b : BitVec 5) (t : BitVec 1) : Res.InForm (execFmul d a b t s) :=
  s.roundedF_inForm h (encode (.fmul d a b t)) t d fun rm => fMul (fltType t) rm (s.readF t a) (s.readF t b)

theorem execFdiv_inForm {s : State} (h : s.mem.wf = true) (d a b : BitVec 5) (t : BitVec 1) : Res.InForm (execFdiv d a b t s) :=
  s.roundedF_inForm h (encode (.fdiv d a b t)) t d fun rm => fDiv (fltType t) rm (s.readF t a) (s.readF t b)

theorem execFsqrt_inForm {s : State} (h : s.mem.wf = true) (d a : BitVec 5) (t : BitVec 1) : Res.InForm (execFsqrt d a t s) :=
  s.roundedF_inForm h (encode (.fsqrt d a t)) t d fun rm => fSqrt (fltType t) rm (s.readF t a)

theorem execWaitge_inForm {s : State} (h : s.mem.wf = true) (a b : BitVec 5) (w : BitVec 1) : Res.InForm (execWaitge a b w s) :=
  s.waitWord_inForm h a b w _

theorem execWaiteq_inForm {s : State} (h : s.mem.wf = true) (a b : BitVec 5) (w : BitVec 1) : Res.InForm (execWaiteq a b w s) :=
  s.waitWord_inForm h a b w _

theorem execCread_inForm {s : State} (h : s.mem.wf = true) (a d : BitVec 5) : Res.InForm (execCread a d s) :=
  s.sched_inForm h fun s h => s.readCounter_inForm h a d _

theorem execCreadT_inForm {s : State} (h : s.mem.wf = true) (a d : BitVec 5) : Res.InForm (execCreadT a d s) :=
  s.sched_inForm h fun s h => s.readCounter_inForm h a d _

theorem execTrapPast_inForm {s : State} (h : s.mem.wf = true) (code : Nat) :
    Res.InForm (s.whenDrained fun s => .next (s.trapPast code 0)) :=
  s.whenDrained_inForm h ((Res.inForm_next _).2 (State.trapPast_wf h _ _))

/-- Every instruction word and every event keeps the memory in the canonical form. -/
theorem exec_inForm (i : Instr) {s : State} (h : s.mem.wf = true) : Res.InForm (exec i s) := by
  have hn : ∀ t : State, t.mem.wf = true → Res.InForm (.next t) := fun t => (Res.inForm_next t).2
  have hif : ∀ (p : Prop) [Decidable p] (t : State), t.mem.wf = true → Res.InForm (.next (if p then t else s)) := fun p _ t ht => by
    split
    · exact hn _ ht
    · exact hn _ h
  cases i
  case add | sub | and | or | xor | sll | srl | sra | slt | sltu | mul | mulh | mulhu | div | divu | rem | remu | min | max | minu | maxu |
      clz | ctz | popc | rev8 | sextB | sextH | sextW | addi | andi | ori | xori | slti | sltiu | slli | srli | srai | lui | auipc |
      fclass | fsgnj | fsgnjn | fsgnjx => exact s.writeX_inForm h _ _
  case lb | lbu | lh | lhu | lw | lwu | ld => exact s.loadX_inForm h _ _ _ _ _
  case sb | sh | sw | sd => exact s.storeX_inForm h _ _ _ _
  case amoAdd | amoAnd | amoOr | amoXor | amoMin | amoMax | amoMinu | amoMaxu | amoSwap | amoCas =>
    unfold exec
    simp only [execAmoAdd, execAmoAnd, execAmoOr, execAmoXor, execAmoMin, execAmoMax, execAmoMinu, execAmoMaxu, execAmoSwap, execAmoCas]
    exact s.amo_inForm h _ _ _ _ _ _
  case beq | bne | blt | bge | bltu | bgeu => exact s.branch_inForm h _ _
  case jal => exact hn _ h
  case jalr => exact execJalr_inForm h _ _ _
  case loop => exact execLoop_inForm h _ _
  case nest => exact execNest_inForm h _ _
  case fadd d a b t => exact execFadd_inForm h d a b t
  case fsub d a b t => exact execFsub_inForm h d a b t
  case fmul d a b t => exact execFmul_inForm h d a b t
  case fdiv d a b t => exact execFdiv_inForm h d a b t
  case fsqrt d a t => exact execFsqrt_inForm h d a t
  case fmin | fmax | feq | flt | fle => exact s.writeFlagged_inForm h _ _ _
  case fcvt => exact execFcvt_inForm h _ _ _ _
  case lend | hint | journalRelease | stragglerFlag | gtsSync | boot | twarn | ttrip | mcaddr | jrctr | replace | domain => exact hn _ h
  case vsetvl => exact execVsetvl_inForm h _ _ _ _
  case qpop => exact execQpop_inForm h _ _
  case fence sc k => exact execFence_inForm h sc k
  case vlsync | vfenceD => exact hn _ (by rw [State.retire_mem]; exact State.barrier_wf h _)
  case csrr => exact execCsrr_inForm h _ _
  case csrw => exact s.csrAccess_inForm h 1 _ _ _ fun _ h => by exact h
  case csrs => exact s.csrAccess_inForm h 2 _ _ _ fun _ h => by exact h
  case csrc => exact s.csrAccess_inForm h 3 _ _ _ fun _ h => by exact h
  case illegalWord => exact execIllegalWord_inForm h _ _
  case uend => exact execUend_inForm h
  case yield => exact execYield_inForm h
  case ecall => exact execTrapPast_inForm h 0x0E
  case ebrk => exact execTrapPast_inForm h 0x0F
  case eret => exact execEret_inForm h
  case snap => exact execSnap_inForm h
  case wfi => exact execWfi_inForm h
  case waitge => exact execWaitge_inForm h _ _ _
  case waiteq => exact execWaiteq_inForm h _ _ _
  case launch => exact execLaunch_inForm h _ _
  case launchNode => exact execLaunchNode_inForm h _ _ _
  case cancel => exact execCancel_inForm h _ _
  case cread => exact execCread_inForm h _ _
  case creadT => exact execCreadT_inForm h _ _
  case clasp => exact execClasp_inForm h _ _
  case claspCfg => exact execClaspCfg_inForm h _ _ _
  case clarr => exact execClarr_inForm h _ _
  case clwait => exact execClwait_inForm h _ _
  case grant => exact execGrant_inForm h _ _ _
  case ctxsave => exact execCtxsave_inForm h _
  case ctxrst => exact execCtxrst_inForm h _
  case tlbinv => exact execTlbinv_inForm h _ _
  case placew => exact execPlacew_inForm h _ _
  case vfset => exact execVfset_inForm h _ _
  case waitSatisfied => exact execWaitSatisfied_inForm h _
  case claspWake => exact execClaspWake_inForm h _
  case tlbinvComplete => exact execTlbinvComplete_inForm h _
  case accessPerform => exact hn _ (State.within_wf h _ fun _ h => State.performOne_wf h _)
  case wcbEarlyDrain => exact hif _ _ (State.drainOldest_wf h _ _)
  case scoreboardWaitEnd => exact execScoreboardWaitEnd_inForm h _
  case copyCommandStart => exact hif _ _ (State.startCmd_wf h _ _)
  case copyCommandRetire => exact hif _ _ (State.retireCmd_wf h _ _)
  case counterIncrement => exact hn _ (State.deliverInc_wf h _)
  case dispatcherPop => exact hn _ (State.popLaunch_wf h _ _ _)
  case gangAdmit die =>
    refine hn _ ?_
    cases e : s.admitGang die with
    | none => exact h
    | some t => exact (congrArg Memory.wf (State.admitGang_mem e)).trans h
  case unitHandOut c =>
    refine hif _ _ ?_
    cases e : s.handOut c with
    | none => exact h
    | some t => exact State.handOut_wf h e
  case unitPreload => exact hif _ _ (State.preloadUnit_wf h _)
  case prologueComplete => exact hif _ _ (State.prologueOf_wf h _)
  case unitStart => exact hif _ _ (by rw [State.startUnit_mem]; exact h)
  case budget | preempt => exact hn _ (State.within_wf h _ fun _ h => by rw [State.takeCause_mem, State.onCtx_mem]; exact h)
  case reclaim => exact hn _ (State.within_wf h _ fun _ h => by rw [State.takeCause_mem, State.overdue_mem]; exact h)
  case timer | cancelled => exact hn _ (State.within_wf h _ fun _ h => by rw [State.takeCause_mem]; exact h)
  case theftRequest => exact hn _ (by rw [State.serveTheft_mem]; exact h)
  case theftReply => exact hn _ (by rw [State.takeStolen_mem]; exact h)
  case regenerationRun => exact execRegenerationRun_inForm h _
  case rfill a => exact execRfill_inForm h a
  case randomFillDone => exact execRandomFillDone_inForm h _
  case snapshotLineCopy => exact execSnapshotLineCopy_inForm h _ _
  case snapshotComplete => exact hif _ _ (State.endSnap_wf h)
  case remoteRefusal => exact execRemoteRefusal_inForm h _ _
  case partialStoreError => exact execPartialStoreError_inForm h _ _
  case coreFailed => exact hif _ _ (State.failCore_wf h _)
  case dieLost => exact hif _ _ (State.loseDie_wf h _)
  case hbmStackLost => exact hif _ _ (by rw [State.onDev_mem]; exact State.loseStack_wf h _)
  case linkLanesFailed => unfold exec execLinkLanesFailed; grind [Res.inForm_next, State.onDev_mem]
  case linkLost => exact execLinkLost_inForm h _
  case softErrorThreshold => exact hif _ _ (by rw [State.onDev_mem]; exact h)
  case linkTraining => exact execLinkTraining_inForm h _ _ _ _
  case hostMemoryAccess => exact execHostMemoryAccess_inForm h _ _ _ _
  case bootImageLoaded => exact execBootImageLoaded_inForm h _ _
  case hypContextStart => exact hif _ _ (by rw [State.onWin_mem]; exact State.bringUp_wf h)
  case plreq => exact execPlreq_inForm h _
  case powerTransitionDone => exact execPowerTransitionDone_inForm h
  case regenRegister => exact execRegenRegister_inForm h _
  case regenUnregister => exact execRegenUnregister_inForm h _
  case reset => exact hif _ _ (State.deviceReset_wf h)
  case functionLevelReset | conventionalReset => exact hn _ (State.deviceReset_wf h)
  case powerOnReset => exact execPowerOnReset_inForm h
  case controlWindowWrite => exact execControlWindowWrite_inForm h _ _
  case twarnCrossing | warnClear | ttripCrossing | immediateTrip => exact hif _ _ (by rw [State.sense_mem]; exact h)
  case tripTimerExpiry => exact execTripTimerExpiry_inForm h
  case regenerationRunComplete => exact execRegenerationRunComplete_inForm h _
  case deviceMemberArrival => exact execDeviceMemberArrival_inForm h _ _ _
  all_goals exact s.issue_commit_inForm h rfl

/-! ## A step -/

theorem State.tick_mem (s : State) : s.tick.mem = s.mem := by
  unfold State.tick
  split <;> rfl

theorem runLate_inForm (l : LateInstr) {s : State} (h : s.mem.wf = true) : Res.InForm (runLate l s) := by
  cases l
  case waitge a b w => exact exec_inForm (.waitge a b w) h
  case waiteq a b w => exact exec_inForm (.waiteq a b w) h
  case launch a d => exact exec_inForm (.launch a d) h
  case launchNode a b d => exact exec_inForm (.launchNode a b d) h
  case cancel a d => exact exec_inForm (.cancel a d) h
  case cread a d => exact exec_inForm (.cread a d) h
  case creadT a d => exact exec_inForm (.creadT a d) h
  case clasp a d => exact exec_inForm (.clasp a d) h
  case claspCfg a b d => exact exec_inForm (.claspCfg a b d) h
  case clarr a q => exact exec_inForm (.clarr a q) h
  case clwait a b => exact exec_inForm (.clwait a b) h
  case grant a b d => exact exec_inForm (.grant a b d) h
  case ctxsave a => exact exec_inForm (.ctxsave a) h
  case ctxrst a => exact exec_inForm (.ctxrst a) h
  case tlbinv d a => exact exec_inForm (.tlbinv d a) h
  case placew d a => exact exec_inForm (.placew d a) h
  case vfset a v => exact exec_inForm (.vfset a v) h
  case hint n => exact exec_inForm (.hint n) h

theorem runDecoded_inForm (d : Decoded) {s : State} (h : s.mem.wf = true) : Res.InForm (runDecoded d s) :=
  match d with
  | .instr i => exec_inForm i h
  | .late l => runLate_inForm l h

theorem State.lendPair_inForm {s : State} (h : s.mem.wf = true) (w : Word32) : Res.InForm (s.lendPair w) :=
  (Res.inForm_next _).2 (State.trap_wf (by rw [State.onCtx_mem]; exact h) _ _)

theorem State.successor_inForm {s : State} (h : s.mem.wf = true) (l : Latch) (w : Word32) (d : Decoded) : Res.InForm (s.successor l w d) := by
  unfold State.successor
  split
  · exact (Res.inForm_next _).2 (State.trap_wf (by rw [State.onCtx_mem]; exact h) _ _)
  split
  · exact s.lendPair_inForm h w
  split
  · exact runDecoded_inForm d h
  · exact (Res.inForm_next _).2 (by rw [State.skip_mem]; exact h)

theorem State.runFetched_inForm {s : State} (h : s.mem.wf = true) (w : Word32) : Res.InForm (s.runFetched w) := by
  have h1 : (s.onCtx fun c => { c with latch := c.latchHere }).mem.wf = true := by rw [State.onCtx_mem]; exact h
  unfold State.runFetched
  dsimp only
  split
  · exact runDecoded_inForm _ h1
  · exact State.successor_inForm h1 _ _ _
  · exact execIllegalWord_inForm h1 _ _
  · split
    · exact State.lendPair_inForm h1 _
    · exact execIllegalWord_inForm h1 _ _

theorem State.runWord_inForm {s : State} (h : s.mem.wf = true) : Res.InForm s.runWord := by
  unfold State.runWord
  split
  · exact State.refetch_inForm h
  split
  · exact (Res.inForm_next _).2 (by rw [State.stallFor_mem]; exact h)
  split <;> rename_i e <;> have h1 := State.sctWord_wf h e
  · exact (Res.inForm_next _).2 (State.refuse_wf h1 _)
  · exact State.runFetched_inForm (by rw [State.onCtx_mem]; exact h1) _

theorem State.engines_wf {s t : State} (h : s.mem.wf = true) (e : s.engines = some t) : t.mem.wf = true := by
  unfold State.engines at e
  extract_lets done at e
  have hd : ∀ {r : Res}, Res.InForm r → done r = some t → t.mem.wf = true := by
    intro r hr e
    cases r <;> cases e
    exact (Res.inForm_next _).1 hr
  split at e
  · cases e
  split at e
  · split at e <;> cases e
    · split
      · exact State.endSnap_wf h
      · exact State.copyLine_wf h _
    · exact State.endSnap_wf h
  split at e
  · split at e
    · exact hd (execRegenerationRunComplete_inForm h _) e
    · exact hd (execRegenerationRun_inForm h _) e
  · split at e
    · cases e
    · exact hd (execRandomFillDone_inForm h _) e

theorem State.background_wf {s t : State} (h : s.mem.wf = true) (e : s.background = some t) : t.mem.wf = true := by
  unfold State.background at e
  dsimp only at e
  split at e
  · rename_i e1; cases e; exact State.engineMove_wf h e1
  · rename_i e1; cases e; exact State.engineMove_wf h e1
  · rename_i e1; cases e; exact State.engines_wf h e1
  · split at e
    · cases e; exact State.deliverInc_wf h _
    · split at e <;> cases e
      rw [State.serveTheft_mem]; exact h

theorem State.findWork_wf {s : State} (h : s.mem.wf = true) : s.findWork.mem.wf = true := by
  unfold State.findWork
  split
  · split
    · rw [State.startUnit_mem]; exact h
    · exact State.prologueOf_wf h _
  split
  · rename_i e; rw [State.admitGang_mem e]; exact h
  split
  · rename_i e; exact State.handOut_wf h e
  · exact State.popLaunch_wf h _ _ _

theorem State.idle_wf {s : State} (h : s.mem.wf = true) : s.idle.mem.wf = true := by
  unfold State.idle
  split
  · rename_i e; exact State.background_wf h e
  split
  · exact State.findWork_wf h
  · exact h

theorem State.advanceSct_inForm {s : State} (h : s.mem.wf = true) : Res.InForm s.advanceSct := by
  unfold State.advanceSct
  split
  · exact State.runWord_inForm h
  split
  · rename_i e; exact (Res.inForm_next _).2 (State.background_wf h e)
  · exact State.runWord_inForm h

theorem State.vectorTrap_inForm {s t : State} (h : s.mem.wf = true) (ht : t.mem.wf = true) : Res.InForm (s.vectorTrap t) := by
  have ha := State.advanceSct_inForm h
  unfold State.vectorTrap
  split
  · split
    · rename_i e
      rw [Res.inForm_next]
      split
      · exact ht
      · exact ha _ e
    · exact ha
  · exact (Res.inForm_next _).2 ht

/-- What the oldest entry does at the commit point has its memory in the canonical form. -/
theorem State.head_inForm {s : State} (h : s.mem.wf = true) {c : Commit} (e : s.head = some c) : c.InForm := by
  unfold State.head at e
  split at e
  · cases e
  split at e <;> cases e
  exact State.guarded_inForm h _ fun _ h => commit_inForm _ _ _ h

theorem State.advanceBy_inForm {s : State} (h : s.mem.wf = true) {hd : Option Commit} (hh : ∀ c, hd = some c → c.InForm) :
    Res.InForm (s.advanceBy hd) := by
  have hb : Res.InForm (match s.background with
      | some t => .next t
      | none => s.advanceSct) := by
    split
    · rename_i e; exact (Res.inForm_next _).2 (State.background_wf h e)
    · exact State.advanceSct_inForm h
  unfold State.advanceBy
  split
  · exact (Res.inForm_next _).2 (by rw [State.intoHandler_mem]; exact h)
  split
  · exact (Res.inForm_next _).2 (State.popHead_wf (hh _ rfl))
  · split
    · exact (Res.inForm_next _).2 (by rw [State.enterHead_mem]; exact hh _ rfl)
    · exact hb
  · exact hb
  · exact State.advanceSct_inForm h
  · exact State.advanceSct_inForm h

theorem State.advance_inForm {s : State} (h : s.mem.wf = true) : Res.InForm s.advance := by
  have hh := fun c => State.head_inForm (c := c) h
  unfold State.advance
  split
  · exact (Res.inForm_next _).2 (State.idle_wf h)
  split
  · rename_i e
    exact s.vectorTrap_inForm h (State.takeTrap_wf (hh _ e) _ _ _ _)
  · exact s.advanceBy_inForm h hh

/-- Every move of an agent keeps the memory in the canonical form. -/
theorem State.moveOf_inForm {s : State} (h : s.mem.wf = true) (m : Move) : Res.InForm (s.moveOf m) := by
  have hs : Res.InForm (.next s) := (Res.inForm_next _).2 h
  unfold State.moveOf
  split
  · exact hs
  cases m with
  | event i =>
    dsimp only
    split
    · exact exec_inForm i h
    · exact hs
  | turn c =>
    dsimp only
    split
    · exact (Res.inForm_next _).2 (by rw [State.turnTo_mem]; exact h)
    · exact fun _ e => nomatch e
  | go => exact State.advance_inForm h
  | lag n => exact (Res.inForm_next _).2 (by rw [State.onCtx_mem]; exact h)
  | land c ch n =>
    refine (Res.inForm_next _).2 ?_
    split
    · exact State.landChunk_wf h _ _ _
    · exact h
  | outside key bs => exact (Res.inForm_next _).2 (State.outside_wf h _ _)
  | softError k => exact (Res.inForm_next _).2 h
  | tileParity c t =>
    refine (Res.inForm_next _).2 ?_
    split
    · rw [State.spoilTile_mem]; exact h
    · exact h
  | steal => exact (Res.inForm_next _).2 (by rw [State.sendTheft_mem]; exact h)
  | theft => exact (Res.inForm_next _).2 h
  | claspRefuse => exact (Res.inForm_next _).2 h
  | sense => exact (Res.inForm_next _).2 (by rw [State.sense_mem]; exact h)

theorem State.act_inForm {s : State} (h : s.mem.wf = true) : Res.InForm s.act := by
  unfold State.act
  split
  · exact State.moveOf_inForm (by exact h) _
  · exact State.advance_inForm h

/-- Settles O58: time leaves the memory alone, and each thing that a step can do keeps its form. -/
theorem memoryFormKept : Obligations.MemoryFormKept := by
  unfold Obligations.MemoryFormKept
  intro s t h e
  exact State.act_inForm (by rw [State.tick_mem]; exact h) t e

end Sys2Proof.Machine

/-! The scalar memory words: what each of them is, where they wait for older accesses, and what is performed ahead of them
(R17, R228 to R235, R245, R358). -/

namespace Sys2Proof.Machine
open Sys2Proof.Claims

/-! ## Stores performed where nothing is in their way -/

/-- Nothing meets a store but memory: no word is uncorrectable, the far side refuses nothing, no regeneration descriptor is registered and
no snapshot is in progress. -/
structure Dev.Undisturbed (d : Dev) : Prop where
  ecc : d.eccBad = []
  refusing : d.refusing = []
  cutOff : d.cutOff = []
  regens : d.regens = []
  snap : d.snap = none

theorem State.refuses_undisturbed {s : State} (h : s.dev.Undisturbed) (key : Nat) : s.refuses key = false := by
  simp [State.refuses, h.refusing, h.cutOff]

theorem State.put_undisturbed {s : State} (h : s.dev.Undisturbed) (ws : List (Nat × Byte)) : s.put ws = { s with mem := s.mem.setAll ws } := by
  unfold State.put
  have hl : s.lostWords ws = [] := by simp [State.lostWords, h.ecc]
  simp only [hl, s.refuses_undisturbed h, List.contains_nil, Bool.not_false, Bool.and_self, List.filter_true, h.ecc, List.filter_nil]
  rw [← h.ecc]

theorem State.copyFirst_undisturbed {s : State} (h : s.dev.Undisturbed) (ws : List (Nat × Byte)) : s.copyFirst ws = s := by
  unfold State.copyFirst
  rw [h.snap]

theorem State.noteStores_undisturbed {s : State} (h : s.dev.regens = []) (parts : List (Nat × Nat)) : s.noteStores parts = s := by
  unfold State.noteStores
  rw [h, List.isEmpty_nil, Bool.or_true, if_pos rfl]

theorem State.settleWrites_undisturbed {s : State} (h : s.dev.Undisturbed) (parts : List (Nat × Nat)) (ws : List (Nat × Byte)) :
    s.settleWrites parts ws = { s with mem := s.mem.setAll ws } := by
  unfold State.settleWrites State.store
  rw [s.copyFirst_undisturbed h, s.put_undisturbed h, State.noteStores_undisturbed (by exact h.regens)]

theorem State.perform_undisturbed {s : State} (h : s.dev.Undisturbed) (c : Nat) (spot : Nat → Spot) (parts : List (Nat × Nat))
    (ws : List (Nat × Byte)) : s.perform c spot parts ws = { s with mem := s.mem.setAll ws } := by
  unfold State.perform
  have hl : s.lostWords ws = [] := by simp [State.lostWords, h.ecc]
  have hr : s.refusedKeys ws = [] := by simp [State.refusedKeys, s.refuses_undisturbed h]
  simp only [hl, hr, List.map_nil, List.foldl_nil, s.settleWrites_undisturbed h]

theorem State.performAll_nil (s : State) : s.performAll [] = s := by
  unfold State.performAll
  split <;> rfl

theorem State.performPend_undisturbed {s : State} (h : s.dev.Undisturbed) {p : Pend} (hd : p.drain = false) :
    s.performPend p = { s with mem := s.mem.setAll p.writes } := by
  unfold State.performPend
  simp only [hd, Bool.false_eq_true, if_false]
  exact s.perform_undisturbed h _ _ _ _

theorem Memory.setAll_append (m : Memory) (ws vs : List (Nat × Byte)) : m.setAll (ws ++ vs) = (m.setAll ws).setAll vs := List.foldl_append

/-- Stores performed one after another leave nothing but their bytes (R217). -/
theorem State.performAll_undisturbed {s : State} (h : s.dev.Undisturbed) {ps : List Pend} (hd : ∀ p ∈ ps, p.drain = false) :
    s.performAll ps = { s with mem := s.mem.setAll (ps.flatMap (·.writes)) } := by
  rw [State.performAll_sound h.ecc]
  induction ps generalizing s with
  | nil => rfl
  | cons p ps ih =>
    rw [List.foldl_cons, State.performPend_undisturbed h (hd p List.mem_cons_self), ih (by exact h) fun q hq => hd q (List.mem_cons_of_mem p hq),
      List.flatMap_cons, Memory.setAll_append]

/-- What the last write of a byte leaves. -/
theorem Memory.get_setAll_foldl {m : Memory} (h : m.wf = true) (ws : List (Nat × Byte)) (k : Nat) :
    (m.setAll ws).get k = ws.foldl (fun b w => if w.1 = k then w.2 else b) (m.get k) := by
  induction ws generalizing m with
  | nil => rfl
  | cons w ws ih =>
    rw [List.foldl_cons, ← apply_ite_get h w k]
    exact ih (Memory.wf_set h w.1 w.2)
where
  apply_ite_get {m : Memory} (h : m.wf = true) (w : Nat × Byte) (k : Nat) : (m.set w.1 w.2).get k = if w.1 = k then w.2 else m.get k := by
    rw [Memory.get_set h]
    simp only [eq_comm]

/-- Outside the clasp records a byte that the far side does not refuse is that of memory. -/
theorem State.byteAt_undisturbed {s : State} (h : s.dev.Undisturbed) {k : Nat} (hk : areaOf k ≠ 7) : s.byteAt k = s.mem.get k := by
  unfold State.byteAt
  rw [if_neg hk, s.refuses_undisturbed h]
  rfl

/-! ## What stands before a barrier that holds loads -/

/-- Behind barriers that hold only stores a load finds nothing to perform first (R245). -/
theorem markNeeded_low {lvl : Nat} {ps : List Pend} (h : ∀ p ∈ ps, p.barrier < lvl) :
    markNeeded lvl (fun _ => false) ps = (ps.map fun p => (p, false), [], false) := by
  induction ps with
  | nil => rfl
  | cons p ps ih =>
    have hp := h p List.mem_cons_self
    rw [markNeeded, ih fun q hq => h q (List.mem_cons_of_mem p hq)]
    simp [Nat.not_le.2 hp]

/-- All before the last barrier that holds loads is performed first, and no more (R245, R358). -/
theorem markNeeded_behind {lvl : Nat} (xs : List Pend) {q : Pend} {ys : List Pend} (hl : 0 < lvl) (hq : lvl ≤ q.barrier)
    (hy : ∀ y ∈ ys, y.barrier < lvl) :
    ∃ later, markNeeded lvl (fun _ => false) (xs ++ q :: ys) = (((xs ++ [q]).map fun p => (p, true)) ++ ys.map fun p => (p, false), later, true) := by
  induction xs with
  | nil =>
    refine ⟨[], ?_⟩
    have hq0 : q.barrier ≠ 0 := by omega
    rw [List.nil_append, markNeeded, markNeeded_low hy]
    simp [hq0, hq]
  | cons p xs ih =>
    obtain ⟨later, e⟩ := ih
    rw [List.cons_append, markNeeded, e]
    by_cases hp : p.barrier = 0 <;> simp [hp]

theorem State.behindBarriers_low {s : State} (h : ∀ p ∈ s.ctx.stores, p.barrier < 2) : s.behindBarriers = some s := by
  unfold State.behindBarriers State.force
  split
  · rfl
  · simp only [markNeeded_low h]
    simp [List.filter_map, Function.comp_def, State.performAll_nil]
    rfl

theorem State.behindBarriers_held {s : State} {xs ys : List Pend} {q : Pend} (hs : s.ctx.stores = xs ++ q :: ys) (hq : 2 ≤ q.barrier)
    (hy : ∀ y ∈ ys, y.barrier < 2) :
    s.behindBarriers = if (xs ++ [q]).any s.holds then none
      else some ((s.onCtx fun c => { c with stores := ys }).performAll (xs.filter fun p => p.barrier == 0)) := by
  obtain ⟨later, e⟩ := markNeeded_behind xs (by decide) hq hy
  have hq0 : q.barrier ≠ 0 := by omega
  have ht : ∀ l : List Pend, ((l.map fun p => (p, true)).filter (·.2)).map (·.1) = l := by simp [List.filter_map, Function.comp_def]
  have hf : ∀ l : List Pend, (l.map fun p => (p, false)).filter (·.2) = [] := by simp [List.filter_map, Function.comp_def]
  have ht' : ∀ l : List Pend, (l.map fun p => (p, true)).filter (fun m => !m.2) = [] := by simp [List.filter_map, Function.comp_def]
  have hf' : ∀ l : List Pend, ((l.map fun p => (p, false)).filter fun m => !m.2).map (·.1) = l := by simp [List.filter_map, Function.comp_def]
  unfold State.behindBarriers State.force
  rw [hs]
  split
  · rename_i e2
    exact absurd e2 (by simp)
  · simp only [e, List.filter_append, List.map_append, ht, hf, ht', hf', List.append_nil, List.nil_append]
    simp [hq0]

/-! ## The forms of the scalar memory words -/

theorem exec_of_loadForm {i : Instr} {d a : BitVec 5} {o : BitVec 16} {n : Nat} {sgn : Bool} (h : loadForm i = some (d, a, o, n, sgn)) (s : State) :
    exec i s = s.loadX d a o n (if sgn then sextBytes n else BitVec.ofNat 64) := by
  cases i <;> cases h <;> rfl

theorem exec_of_storeForm {i : Instr} {x a : BitVec 5} {o : BitVec 16} {n : Nat} (h : storeForm i = some (x, a, o, n)) (s : State) :
    exec i s = s.storeX x a o n := by
  cases i <;> cases h <;> rfl

/-- The amo that a form names is one of the shared operation, with some function. -/
theorem exec_of_amoForm {i : Instr} {d a b : BitVec 5} {o : BitVec 2} {n : Nat} {f : Nat → Nat → Nat → Nat}
    (h : amoForm i = some (d, a, b, o, n, f)) : ∃ w g, n = amoWidth w ∧ ∀ s, exec i s = s.amo d a b o w g := by
  cases i <;> cases h
  case amoAdd w => exact ⟨w, fun old b _ => (old + b) % 2 ^ (8 * amoWidth w), rfl, fun _ => rfl⟩
  case amoAnd w => exact ⟨w, fun old b _ => old &&& b, rfl, fun _ => rfl⟩
  case amoOr w => exact ⟨w, fun old b _ => old ||| b, rfl, fun _ => rfl⟩
  case amoXor w => exact ⟨w, fun old b _ => old ^^^ b, rfl, fun _ => rfl⟩
  case amoMin w =>
    exact ⟨w, fun old b _ => if toSigned (8 * amoWidth w) b < toSigned (8 * amoWidth w) old then b else old, rfl, fun _ => rfl⟩
  case amoMax w =>
    exact ⟨w, fun old b _ => if toSigned (8 * amoWidth w) old < toSigned (8 * amoWidth w) b then b else old, rfl, fun _ => rfl⟩
  case amoMinu w => exact ⟨w, fun old b _ => Nat.min old b, rfl, fun _ => rfl⟩
  case amoMaxu w => exact ⟨w, fun old b _ => Nat.max old b, rfl, fun _ => rfl⟩
  case amoSwap w => exact ⟨w, fun _ b _ => b, rfl, fun _ => rfl⟩
  case amoCas w => exact ⟨w, fun old b c => if old = c then b else old, rfl, fun _ => rfl⟩

/-! ## Where they wait -/

theorem State.inOrder_behindVm {s : State} (h : s.ctx.vmWaits = true) (w : Stall) (k : State → Res) :
    s.inOrder w k = .next (s.stallFor w.first) := by
  unfold State.inOrder
  rw [if_pos h]

theorem State.inOrder_held {s : State} (h : s.ctx.vmWaits = false) (hb : s.behindBarriers = none) (w : Stall) (k : State → Res) :
    s.inOrder w k = .next (s.stallFor w) := by
  unfold State.inOrder
  rw [h, hb]
  rfl

theorem State.inOrder_goes {s s0 : State} (h : s.ctx.vmWaits = false) (hb : s.behindBarriers = some s0) (w : Stall) (k : State → Res) :
    s.inOrder w k = k s0 := by
  unfold State.inOrder
  rw [h, hb]
  rfl

/-- An entry that waits in the access path is a vector memory instruction that has not entered it. -/
theorem Ctx.entered_of_no_vm {c : Ctx} (h : c.vmWaits = false) : c.entered = false := by
  unfold Ctx.vmWaits at h
  unfold Ctx.entered
  split
  · rename_i e
    rw [e, List.any_cons, Bool.or_eq_false_iff] at h
    simp [h.1]
  · simp

/-! ## Refused addresses (R228, R229) -/

theorem State.aligned_misaligned {va : Word} {n : Nat} (h : va.toNat % n ≠ 0) (s : State) (sp : Nat) (k : AccKind) (lane : Option Nat) :
    s.aligned sp k lane n va = (.error (.cause 0x04 va), s) := by
  unfold State.aligned
  rw [if_pos h]

theorem State.alignedOnce_misaligned {va : Word} {n : Nat} (h : va.toNat % n ≠ 0) (s : State) (k : AccKind) :
    s.alignedOnce k n va = (.error (.cause 0x04 va), s) := by
  unfold State.alignedOnce
  rw [if_pos h]

theorem State.loadX_refused {s s0 s1 : State} {d a : BitVec 5} {o : BitVec 16} {n : Nat} {r : Refused} (hv : s.ctx.vmWaits = false)
    (hb : s.behindBarriers = some s0) (e : s0.alignedOnce .load n (s0.getX a + o.signExtend 64) = (.error r, s1)) (ext : Nat → Word) :
    s.loadX d a o n ext = .next (s1.refuse r) := by
  unfold State.loadX
  rw [State.inOrder_goes hv hb]
  unfold State.addrSI
  rw [e]

theorem State.amo_refused {s s0 s1 : State} {d a b : BitVec 5} {o : BitVec 2} {w : BitVec 1} {r : Refused} (hv : s.ctx.vmWaits = false)
    (hb : s.behindBarriers = some s0) (e : s0.alignedOnce .rmw (amoWidth w) (s0.getX a) = (.error r, s1)) (g : Nat → Nat → Nat → Nat) :
    s.amo d a b o w g = .next (s1.refuse r) := by
  unfold State.amo
  rw [State.inOrder_goes hv hb]
  dsimp only
  rw [e]

theorem State.storeNow_refused {s s1 : State} {x a : BitVec 5} {o : BitVec 16} {n : Nat} {r : Refused} {va : Word}
    (hva : va = s.getX a + o.signExtend 64) (e : s.aligned 0 .store none n va = (.error r, s1)) :
    s.storeNow x a o n = .next (s1.refuse r) := by
  subst hva
  unfold State.storeNow State.addrSI
  rw [e]

/-- With no vector memory instruction ahead, a store runs once what its fences hold is performed. -/
theorem State.storeX_goes {s s0 : State} (hv : s.ctx.vmWaits = false) (hb : s.behindBarriers = some s0) (x a : BitVec 5) (o : BitVec 16) (n : Nat) :
    s.storeX x a o n = s0.storeNow x a o n := by
  unfold State.storeX
  simp [Ctx.entered_of_no_vm hv, hb, State.inOrder_goes hv hb]

/-- Behind a fence whose older stores are held, a store that needs no walk takes its place, and another waits (R245, R358). -/
theorem State.storeX_behind {s : State} (hv : s.ctx.vmWaits = false) (hb : s.behindBarriers = none) (x a : BitVec 5) (o : BitVec 16) (n : Nat) :
    s.storeX x a o n = if (s.addrSI a o).toNat % n ≠ 0 ∨ s.walkFree .store (s.addrSI a o) = true then s.storeNow x a o n
      else .next (s.stallFor .chan) := by
  unfold State.storeX
  simp [Ctx.entered_of_no_vm hv, hb, hv, State.inOrder_held hv hb]

theorem State.storeX_behindVm {s : State} (hv : s.ctx.vmWaits = true) (he : s.ctx.entered = false) (x a : BitVec 5) (o : BitVec 16) (n : Nat) :
    s.storeX x a o n = .next (s.stallFor .viq) := by
  unfold State.storeX
  simp [he, hv, State.inOrder_behindVm hv, Stall.first]

/-- Settles O4: by the form of the word, and by what stands among the stores. -/
theorem scalarMemoryTraps : Obligations.ScalarMemoryTraps := by
  unfold Obligations.ScalarMemoryTraps
  refine ⟨?loads, ?stores, ?amos, ?loadWaits, ?amoWaits, ?storeWaits, fun s => State.behindBarriers_low, ?barriers⟩
  case loads =>
    intro i s s0 d a o n sgn hi hv hb
    rw [exec_of_loadForm hi]
    exact ⟨fun hm => State.loadX_refused hv hb (State.alignedOnce_misaligned hm s0 .load) _, fun r s1 e => State.loadX_refused hv hb e _⟩
  case stores =>
    intro i s s0 x a o n hi hv hb
    rw [exec_of_storeForm hi, State.storeX_goes hv hb]
    exact ⟨fun hm => State.storeNow_refused rfl (State.aligned_misaligned hm s0 0 .store none), fun r s1 e => State.storeNow_refused rfl e⟩
  case amos =>
    intro i s s0 d a b o n f hi hv hb
    obtain ⟨w, g, rfl, he⟩ := exec_of_amoForm hi
    rw [he]
    exact ⟨fun hm => State.amo_refused hv hb (State.alignedOnce_misaligned hm s0 .rmw) g, fun r s1 e => State.amo_refused hv hb e g⟩
  case loadWaits =>
    intro i s d a o n sgn hi
    rw [exec_of_loadForm hi]
    exact ⟨fun hv => State.inOrder_behindVm hv _ _, fun hv hb => State.inOrder_held hv hb _ _⟩
  case amoWaits =>
    intro i s d a b o n f hi
    obtain ⟨w, g, rfl, he⟩ := exec_of_amoForm hi
    rw [he]
    exact ⟨fun hv => State.inOrder_behindVm hv _ _, fun hv hb => State.inOrder_held hv hb _ _⟩
  case storeWaits =>
    intro i s x a o n va hi hva
    rw [exec_of_storeForm hi]
    refine ⟨fun hv he => State.storeX_behindVm hv he x a o n, fun hv hb => ?_⟩
    rw [State.storeX_behind hv hb, show s.addrSI a o = va from hva.symm]
    refine ⟨fun hm => ?_, fun hm hr ht => ?_, fun r s1 hw e => ?_⟩
    · rw [if_pos (.inl hm)]
      exact State.storeNow_refused hva (State.aligned_misaligned hm s 0 .store none)
    · rw [if_neg]
      simp only [hm, State.walkFree, ht]
      simpa using hr
    · rw [if_pos (.inr (by simpa [State.walkFree] using hw))]
      exact State.storeNow_refused hva (e)
  case barriers =>
    intro s xs ys q hs hq hy
    rw [State.behindBarriers_held hs hq hy]
    constructor
    · rintro ⟨p, hp, hh⟩
      rw [if_pos (List.any_eq_true.2 ⟨p, hp, hh⟩)]
    · intro hh hd h1 h2 h3 h4 h5 hw
      have hu : s.dev.Undisturbed := ⟨h1, h2, h3, h4, h5⟩
      have hdr : ∀ p ∈ xs.filter fun p => p.barrier == 0, p.drain = false := fun p hp => hd p (List.mem_of_mem_filter hp)
      rw [if_neg (by simpa [List.any_eq_true, or_imp, forall_and] using hh), State.performAll_undisturbed (by exact hu) hdr]
      refine ⟨_, rfl, rfl, Memory.wf_setAll hw _, fun k hk => ?_⟩
      rw [State.byteAt_undisturbed (by exact hu) hk, State.byteAt_undisturbed hu hk]
      exact Memory.get_setAll_foldl hw _ k
end Sys2Proof.Machine

/-! The words that wait for a memory word (R248), and what a read of a place finds where nothing of the context's own is in the way. -/

namespace Sys2Proof.Machine
open Sys2Proof.Claims

/-! ## Reads of plain bytes -/

@[simp] theorem State.placeOf_ctx (s : State) (sp : Nat) (k : AccKind) (lane : Option Nat) (va : Word) :
    (s.placeOf sp k lane va).2.ctx = s.ctx := by
  have ht := s.translate_ctx s.ctx.asid s.ctx.priv k va
  unfold State.placeOf
  dsimp only
  split
  · split <;> rename_i e <;> rw [e] at ht <;> exact ht
  · split
    · split <;> rfl
    · rfl
  · split
    · split <;> rfl
    · rfl
  · split <;> rfl

@[simp] theorem State.aligned_ctx (s : State) (sp : Nat) (k : AccKind) (lane : Option Nat) (w : Nat) (va : Word) :
    (s.aligned sp k lane w va).2.ctx = s.ctx := by
  unfold State.aligned
  split
  · rfl
  · exact s.placeOf_ctx sp k lane va

theorem State.force_empty {s : State} (h : s.ctx.stores = []) (lvl : Nat) (need : Pend → Bool) : s.force lvl need = some s := by
  unfold State.force
  rw [h]

theorem State.behindBarriers_empty {s : State} (h : s.ctx.stores = []) : s.behindBarriers = some s := s.force_empty h _ _

/-- With no store or line of its own a load finds memory (R217). -/
theorem State.ownBytes_clear {s : State} (hs : s.ctx.stores = []) (hw : s.ctx.wcb = []) (key n : Nat) : s.ownBytes key n = s.bytesAt key n := by
  simp [State.ownBytes, State.bytesAt, hs, hw, lookup]

theorem State.noteRefused_not {s : State} {key : Nat} (h : s.refuses key = false) (c : Nat) (p : Spot) : s.noteRefused c key p = s := by
  unfold State.noteRefused
  rw [h]
  rfl

/-- A read of plain bytes finds their value, and changes nothing. -/
theorem State.readAt_plain {s : State} {p : Place} {n : Nat} (hs : s.ctx.stores = []) (hw : s.ctx.wcb = []) (hp : Plain s p.loc.key n)
    (hn : 0 < n) (pc : Word) : s.readAt p pc n = .value (s.natAt p.loc.key n) s := by
  obtain ⟨hb, he, hr⟩ := hp
  unfold State.readAt
  simp only [hb, Bool.false_eq_true, if_false, State.force_empty hs, he, State.ownBytes_clear hs hw]
  rw [State.noteRefused_not (by simpa using (hr 0 hn).2)]
  rfl

/-! ## waitge and waiteq -/

/-- The width of a wait word (R248). -/
def waitWidth (w : BitVec 1) : Nat := if w = 0 then 4 else 8

theorem State.waitWord_waits {s : State} (h : s.ctx.vmWaits = true ∨ s.behindBarriers = none) (a b : BitVec 5) (w : BitVec 1)
    (ok : Nat → Nat → Bool) : s.waitWord a b w ok = .next (s.stallFor .word) := by
  cases hv : s.ctx.vmWaits
  · exact State.inOrder_held hv (h.resolve_left (by simp [hv])) .word _
  · exact State.inOrder_behindVm hv .word _

theorem State.waitWord_refused {s s0 s1 : State} {a : BitVec 5} {w : BitVec 1} {r : Refused} (hv : s.ctx.vmWaits = false)
    (hb : s.behindBarriers = some s0) (e : s0.aligned 0 .load none (waitWidth w) (s0.getX a) = (.error r, s1)) (b : BitVec 5)
    (ok : Nat → Nat → Bool) : s.waitWord a b w ok = .next (s1.refuse r) := by
  unfold State.waitWord
  rw [State.inOrder_goes hv hb]
  unfold waitWidth at e
  dsimp only
  rw [e]

/-- The word at a plain place decides. -/
theorem State.waitWord_plain {s s1 : State} {a : BitVec 5} {w : BitVec 1} {p : Place} (hc : PathClear s) (hp : Plain s1 p.loc.key (waitWidth w))
    (e : s.aligned 0 .load none (waitWidth w) (s.getX a) = (.ok p, s1)) (b : BitVec 5) (ok : Nat → Nat → Bool) :
    s.waitWord a b w ok = .next (if ok (s1.natAt p.loc.key (waitWidth w)) ((s.getX b).toNat % 2 ^ (8 * waitWidth w)) then s1.retire
      else s1.stallFor .word) := by
  obtain ⟨hv, hs, hw⟩ := hc
  have h1 : s1.ctx = s.ctx := by simpa [e] using s.aligned_ctx 0 .load none (waitWidth w) (s.getX a)
  have hn : 0 < waitWidth w := by unfold waitWidth; split <;> decide
  have hb : s1.getX b = s.getX b := by unfold State.getX; rw [h1]
  have hr := State.readAt_plain (by rw [h1]; exact hs) (by rw [h1]; exact hw) hp hn s1.ctx.pc
  unfold State.waitWord
  rw [State.inOrder_goes hv (State.behindBarriers_empty hs)]
  unfold waitWidth at *
  dsimp only
  rw [e]
  dsimp only
  rw [hr]
  dsimp only
  rw [hb, apply_ite Host.Outcome.next]

theorem exec_waitge (a b : BitVec 5) (w : BitVec 1) (s : State) : exec (.waitge a b w) s = s.waitWord a b w fun v x => decide (x ≤ v) := rfl

theorem exec_waiteq (a b : BitVec 5) (w : BitVec 1) (s : State) : exec (.waiteq a b w) s = s.waitWord a b w fun v x => v == x := rfl

/-- A wait at a memory word has begun, so that causes may be taken there, behind a lend too (R75). -/
theorem State.stallFor_word_safePoint {s : State} (hr : s.ctx.run = .running) (ht : s.ctx.tfv = false) :
    (s.stallFor .word).ctx.safePoint = true := by
  unfold State.stallFor Ctx.safePoint
  cases s.ctx.latch <;> simp [hr, ht]

/-- Settles O9: the two words are one wait, with two conditions. -/
theorem memoryWaits : Obligations.MemoryWaits := by
  unfold Obligations.MemoryWaits
  simp only [exec_waitge, exec_waiteq]
  refine ⟨fun s a b w h => ⟨State.waitWord_waits h a b w _, State.waitWord_waits h a b w _⟩, fun s => State.stallFor_word_safePoint, ?refused,
    ?found⟩
  case refused =>
    intro s s0 a b w n hn hv hb
    obtain rfl : n = waitWidth w := hn
    refine ⟨fun hm => ?_, fun r s1 e => ⟨State.waitWord_refused hv hb e b _, State.waitWord_refused hv hb e b _⟩⟩
    have e := State.aligned_misaligned hm s0 0 .load none
    exact ⟨State.waitWord_refused hv hb e b _, State.waitWord_refused hv hb e b _⟩
  case found =>
    intro s s1 a b w n p hn hc hp e
    obtain rfl : n = waitWidth w := hn
    rw [State.waitWord_plain hc hp e, State.waitWord_plain hc hp e]
    simp only [decide_eq_true_eq, beq_iff_eq, and_self]

end Sys2Proof.Machine

/-! Barriers (R245): where the oldest entry leaves the queue, the write-combining buffer of its core keeps to its size, and lines of the
core's other context may leave it with the store that lands. -/

namespace Sys2Proof.Machine
open Sys2Proof.Claims

/-- A store that the SCT has put behind the oldest entry. -/
def lateStore : Pend := ⟨[(0, 1)], 0, false, 0, 0, 0, 0, 0, 0, 0, 0, false, [(0, 1)], 0⟩

/-- A buffered line. -/
def fullLine : WLine := ⟨0, 0, [(0, 1)], [(0, 1)], 0, 0, 0, 0, 0⟩

/-- A vector load in the queue. -/
def lateEntry : VEntry := ⟨.vld 0 1 0 0, 0, 0, 0, none⟩

/-- A context whose oldest entry waits in the access path with a store behind it, on a core whose other context has 4,097 buffered lines:
one more than the core's buffer holds (R222). -/
def overfullS : State :=
  { State.reset with
    ctx := { Ctx.reset false with viq := [lateEntry], late := some [lateStore] }
    others := [(1, { Ctx.reset true with wcb := List.replicate 4097 fullLine })]
    dev := { State.reset.dev with holdStores := true } }

theorem overfullS_popHead : (overfullS.popHead.ctxOf 1).wcb.length = 4096 := by decide +kernel

theorem overfullS_others : (overfullS.ctxOf 1).wcb.length = 4097 := by decide +kernel

/-- Refutes O14: its clause on the oldest entry that leaves the queue says that only the context of the entry changes; as the store behind
it lands, a line of the core's other context leaves a buffer that holds more than its 4,096 lines. -/
theorem not_barriers : ¬ Obligations.Barriers := by
  rintro ⟨-, h⟩
  obtain ⟨-, -, -, -, -, hlate, -⟩ := h overfullS 0
  obtain ⟨-, -, hpop⟩ := hlate lateEntry [] [lateStore] rfl rfl (by simp) rfl
  have e := hpop lateStore rfl rfl rfl rfl rfl rfl
  have hl : (overfullS.popHead.ctxOf 1).wcb.length = (overfullS.ctxOf 1).wcb.length := by rw [e]; rfl
  rw [overfullS_popHead, overfullS_others] at hl
  exact absurd hl (by decide)

end Sys2Proof.Machine

/-! ecall (R404) where the SCT's stores behind an oldest entry overfill the core's write-combining buffer as the trap is taken. -/

namespace Sys2Proof.Machine
open Sys2Proof.Claims

/-- A context with an empty queue that still holds the mark of an entry in the access path, on a core whose other context has 4,097
buffered lines: one more than the core's buffer holds (R222). -/
def overfullCallS : State :=
  { State.reset with
    ctx := { Ctx.reset false with late := some [] }
    others := [(1, { Ctx.reset true with wcb := List.replicate 4097 fullLine })] }

theorem overfullCallS_trap : ((overfullCallS.retire.trap 0x0E 0).ctxOf 1).wcb.length = 4096 := by decide +kernel

theorem overfullCallS_others : (overfullCallS.ctxOf 1).wcb.length = 4097 := by decide +kernel

theorem overfullCallS_cur : 1 ≠ overfullCallS.cur := by decide +kernel

theorem State.ctxOf_of_ctx_only (s : State) (c : Ctx) {i : Nat} (t : State) (ht : t = { s with ctx := c }) (h : i ≠ s.cur) : t.ctxOf i = s.ctxOf i := by
  subst ht
  simp [State.ctxOf, h]

theorem exec_ecall_drained {s : State} (hq : s.ctx.viq = []) (ht : s.ctx.tfv = false) : exec .ecall s = .next (s.retire.trap 0x0E 0) := by
  have he : exec .ecall s = s.whenDrained fun s => .next (s.trapPast 0x0E 0) := rfl
  rw [he, State.whenDrained_empty hq, State.trapPast, ht]
  rfl

/-- Refutes O18: its clause on ecall says that only the context of the word changes; as the trap lands what stands behind the oldest entry,
a line of the core's other context leaves a buffer that holds more than its 4,096 lines. -/
theorem not_systemCallsAndReturn : ¬ Obligations.SystemCallsAndReturn := by
  rintro ⟨h, -⟩
  obtain ⟨-, -, hcall⟩ := h .ecall 0x0E (.inl ⟨rfl, rfl⟩) overfullCallS
  obtain ⟨t, ht, -, -, -, -, -, -, -, -, c, hc⟩ := hcall rfl rfl rfl rfl
  have e : overfullCallS.retire.trap 0x0E 0 = t := Host.Outcome.next.inj ((exec_ecall_drained rfl rfl).symm.trans ht)
  have hl : (t.ctxOf 1).wcb.length = (overfullCallS.ctxOf 1).wcb.length := by
    rw [State.ctxOf_of_ctx_only overfullCallS c t hc overfullCallS_cur]
  rw [← e, overfullCallS_trap, overfullCallS_others] at hl
  exact absurd hl (by decide)

end Sys2Proof.Machine

/-! Issue of a vector word to the VIQ (R12, R13): with the values that its entry captures, at once or behind older entries (log 6). -/

namespace Sys2Proof.Machine
open Sys2Proof.Claims

/-- Each form of the vector unit, but vsetvl (which writes an x register) and the words of an in-order CSR, is issued with the values of the
x registers that it names, and at the commit point does what `commit` says of it. -/
theorem exec_of_entersViq {i : Instr} (s : State) (hv : entersViq i = true) (hx : xDest i = none)
    (hc : ∀ a n, i ≠ .csrw a n ∧ i ≠ .csrs a n ∧ i ≠ .csrc a n) :
    exec i s = s.issue i (captured i s 0) (captured i s 1) (commit i (captured i s 0) (captured i s 1)) := by
  cases i
  case csrw a n => exact absurd rfl (hc a n).1
  case csrs a n => exact absurd rfl (hc a n).2.1
  case csrc a n => exact absurd rfl (hc a n).2.2
  all_goals simp only [entersViq, vDest, xDest, Option.isSome_none, Bool.false_eq_true, reduceCtorEq] at hv hx
  all_goals rfl

/-- An entry without a latch is not guarded. -/
theorem State.guarded_of_no_latch (s : State) {e : VEntry} (h : e.latch = none) (go : State → Commit) : s.guarded e go = go s := by
  unfold State.guarded
  rw [h]

theorem State.enqueued_of_idle {s : State} (hv : s.ctx.viq = []) (hl : s.ctx.latch = none) (i : Instr) (op1 op2 : Word) :
    s.enqueued i op1 op2 = issued i op1 op2 s := by
  simp [State.enqueued, State.entry, issued, State.onCtx, hv, hl]

/-- Into an idle vector unit a word is issued and reaches the commit point in the same step (log 6). -/
theorem State.issue_of_vectorIdle {s : State} (h : VectorIdle s) (i : Instr) (op1 op2 : Word) (go : State → Commit) :
    s.issue i op1 op2 go = .next (match go (issued i op1 op2 s) with
      | .done t => t.popHead
      | .wait => issued i op1 op2 s
      | .held t ps => t.enterHead ps
      | .trap c v t => t.takeTrap false true c v) := by
  obtain ⟨hv, hlag, hl, -, -⟩ := h
  have h := State.issue_idle hv hlag i op1 op2 go
  rw [State.enqueued_of_idle hv hl, State.commitWith, State.guarded_of_no_latch _ (by simp [State.entry, hl])] at h
  exact h

/-- Settles O30: every form is issued by the one operation `State.issue`, with a full, a busy and an idle queue. -/
theorem vectorIssue : Obligations.VectorIssue := by
  intro i s hv hx hc
  rw [exec_of_entersViq s hv hx hc]
  refine ⟨fun hf => ?full, fun hn hb => ?busy, fun hi => ?idle⟩
  case full => exact State.issue_full hf _ _ _ _
  case busy => exact State.issue_behind hn hb _ _ _ _
  case idle => exact State.issue_of_vectorIdle hi _ _ _ _

end Sys2Proof.Machine

/-! A store into a buffered line that the same ASID wrote for another job (R222). -/

namespace Sys2Proof.Machine
open Sys2Proof.Claims

/-- A buffered line of ASID 0, written while that ASID belonged to job 1. -/
def formerJobLine : WLine := ⟨0, 0, [(0, 1)], [(0, 1)], 0, 1, 0, 0, 0⟩

/-- A deterministic context of ASID 0, of job 0 now, that holds such a line; stores are held back by choice (log 7). -/
def formerJobS : State :=
  { State.reset with
    ctx := { Ctx.reset false with detm := true, wcb := [formerJobLine] }
    dev := { State.reset.dev with holdStores := true } }

/-- The first byte of that line, as a store of one byte finds it. -/
def lineStart : Place := ⟨⟨0, false, false, false⟩, 0, 0⟩

theorem formerJobS_writeAt_stores : (formerJobS.writeAt 0 lineStart 0 [1]).ctx.stores.length = 1 := by decide +kernel

theorem formerJobS_wcbLines : formerJobS.wcbLines (coreOf formerJobS.cur) < 4096 := by decide +kernel

/-- Refutes O45: its clause on a store of a deterministic context asks for the line's ASID alone and says that the access path does not
change; a line that the ASID wrote for another job leaves the buffer for the access path first (R222). -/
theorem not_contextEvents : ¬ Obligations.ContextEvents := by
  rintro ⟨-, -, -, -, -, -, hbuf⟩
  have hasid : ∀ l ∈ formerJobS.ctx.wcb, l.line = lineStart.loc.key / 64 → l.asid = formerJobS.ctx.asid := by decide +kernel
  obtain ⟨-, hstores, -⟩ := hbuf formerJobS lineStart 0 [1] rfl rfl formerJobS_wcbLines hasid (by decide)
  have hl := formerJobS_writeAt_stores
  rw [hstores] at hl
  exact absurd hl (by decide)

end Sys2Proof.Machine

/-! The queue and channel words (R250 to R266) in an idle vector unit, and the oldest entry of a queue. -/

namespace Sys2Proof.Machine
open Sys2Proof.Claims

/-! ## A word at the commit point of an idle vector unit -/

theorem Ctx.setX_setViq (c : Ctx) (q : List VEntry) (d : BitVec 5) (v : Word) :
    ({ c with viq := q } : Ctx).setX d v = { c.setX d v with viq := q } := by
  unfold Ctx.setX
  split <;> rfl

theorem Ctx.setTuple_setViq (c : Ctx) (q : List VEntry) (j : List Nat) :
    ({ c with viq := q } : Ctx).setTuple j = { c.setTuple j with viq := q } := by
  unfold Ctx.setTuple
  generalize List.range 6 = ks
  induction ks generalizing c with
  | nil => rfl
  | cons k ks ih => rw [List.foldl_cons, List.foldl_cons, Ctx.setX_setViq, ih]

/-- The end of a pass reads and changes no queue entry. -/
theorem Ctx.nextPass_setViq (c : Ctx) (q : List VEntry) (l : LoopSt) :
    ({ c with viq := q } : Ctx).nextPass l = { c.nextPass l with viq := q } := by
  have hx : ∀ r, ({ c with viq := q } : Ctx).getX r = c.getX r := fun _ => rfl
  have ht : ({ c with viq := q } : Ctx).tuple = c.tuple := rfl
  unfold Ctx.nextPass
  rw [ht, hx]
  dsimp only
  split
  · split <;> rw [Ctx.setX_setViq]
  · split
    · rfl
    · split
      · rw [Ctx.setTuple_setViq]
      · rfl

/-- The completion of a word reads and changes no queue entry. -/
theorem Ctx.retire_setViq (c : Ctx) (q : List VEntry) : ({ c with viq := q } : Ctx).retire = { c.retire with viq := q } := by
  unfold Ctx.retire
  dsimp only
  split
  · rfl
  · next l _ =>
    split
    · rfl
    · exact Ctx.nextPass_setViq { c with latch := none, stall := none } q l

theorem issued_eq (i : Instr) (a b : Word) (s : State) :
    issued i a b s = { s with ctx := { s.ctx.retire with viq := [⟨i, s.ctx.pc, a, b, none⟩] } } := by
  unfold issued
  rw [State.retire, State.onCtx]
  exact congrArg (fun c => ({ s with ctx := c } : State)) (Ctx.retire_setViq s.ctx _)

/-- With nothing behind the oldest entry and no fence that follows entries, the entry leaves the queue and nothing else changes. -/
theorem State.popHead_plain {s : State} (hl : s.ctx.late = none) (hb : s.ctx.bars = []) :
    s.popHead = s.onCtx fun c => { c with viq := c.viq.tail } := by
  unfold State.popHead
  rw [State.landLate_none (by exact hl), State.advanceBars]
  exact if_pos (by simp [State.onCtx, hb])

/-- What a word of an idle vector unit leaves, where its commit changes the context to `c`. -/
theorem exec_of_commit_done {i : Instr} {s : State} {t : State} (hs : VectorIdle s) (hv : entersViq i = true) (hx : xDest i = none)
    (hc : ∀ a n, i ≠ .csrw a n ∧ i ≠ .csrs a n ∧ i ≠ .csrc a n)
    (h : commit i (captured i s 0) (captured i s 1) (issued i (captured i s 0) (captured i s 1) s) = .done t)
    (hl : t.ctx.late = none) (hb : t.ctx.bars = []) : exec i s = .next (t.onCtx fun c => { c with viq := c.viq.tail }) := by
  rw [exec_of_entersViq s hv hx hc, State.issue_of_vectorIdle hs, h]
  exact congrArg Host.Outcome.next (State.popHead_plain hl hb)

theorem exec_of_commit_wait {i : Instr} {s : State} (hs : VectorIdle s) (hv : entersViq i = true) (hx : xDest i = none)
    (hc : ∀ a n, i ≠ .csrw a n ∧ i ≠ .csrs a n ∧ i ≠ .csrc a n)
    (h : commit i (captured i s 0) (captured i s 1) (issued i (captured i s 0) (captured i s 1) s) = .wait) :
    exec i s = .next (issued i (captured i s 0) (captured i s 1) s) := by
  rw [exec_of_entersViq s hv hx hc, State.issue_of_vectorIdle hs, h]

theorem exec_of_commit_trap {i : Instr} {s t : State} {c : Nat} {v : Word} (hs : VectorIdle s) (hv : entersViq i = true) (hx : xDest i = none)
    (hc : ∀ a n, i ≠ .csrw a n ∧ i ≠ .csrs a n ∧ i ≠ .csrc a n)
    (h : commit i (captured i s 0) (captured i s 1) (issued i (captured i s 0) (captured i s 1) s) = .trap c v t) :
    exec i s = .next (t.takeTrap false true c v) := by
  rw [exec_of_entersViq s hv hx hc, State.issue_of_vectorIdle hs, h]

@[simp] theorem issued_ctx (i : Instr) (a b : Word) (s : State) :
    (issued i a b s).ctx = { s.ctx.retire with viq := [⟨i, s.ctx.pc, a, b, none⟩] } := by rw [issued_eq]

@[simp] theorem issued_cur (i : Instr) (a b : Word) (s : State) : (issued i a b s).cur = s.cur := by rw [issued_eq]
@[simp] theorem issued_others (i : Instr) (a b : Word) (s : State) : (issued i a b s).others = s.others := by rw [issued_eq]

theorem issued_ctxOf_other (i : Instr) (a b : Word) (s : State) :
    (issued i a b s).ctxOf (otherOf s.cur) = s.ctxOf (otherOf s.cur) := by
  have h : otherOf s.cur ≠ s.cur := by unfold otherOf; omega
  simp [State.ctxOf, h]

theorem Ctx.setViq_self {c : Ctx} {q : List VEntry} (h : c.viq = q) : ({ c with viq := q } : Ctx) = c := by
  subst h
  rfl

/-- A change of a context that has no part in the queue and in what stands behind its oldest entry. -/
structure PastQueue (f : Ctx → Ctx) : Prop where
  late : ∀ c, (f c).late = c.late
  bars : ∀ c, (f c).bars = c.bars
  viq : ∀ c q, f { c with viq := q } = { f c with viq := q }

/-- What an idle vector unit leaves where the commit of the word makes such a change: it, after the word's completion in the SCT. -/
theorem exec_of_commit_ctx {i : Instr} {s : State} {f : Ctx → Ctx} (hf : PastQueue f) (hs : VectorIdle s) (hv : entersViq i = true)
    (hx : xDest i = none) (hc : ∀ a n, i ≠ .csrw a n ∧ i ≠ .csrs a n ∧ i ≠ .csrc a n)
    (h : commit i (captured i s 0) (captured i s 1) (issued i (captured i s 0) (captured i s 1) s) =
      .done ((issued i (captured i s 0) (captured i s 1) s).onCtx f)) :
    exec i s = .next { s with ctx := f s.ctx.retire } := by
  obtain ⟨hviq, -, -, hb, hl⟩ := id hs
  have hq : (f s.ctx.retire).viq = [] := by
    have h := hf.viq s.ctx.retire []
    rw [Ctx.setViq_self (by rw [Ctx.retire_viq, hviq])] at h
    rw [h]
  rw [exec_of_commit_done hs hv hx hc h (by simp [State.onCtx, hf.late, hl]) (by simp [State.onCtx, hf.bars, hb])]
  refine congrArg Host.Outcome.next ?_
  rw [issued_eq]
  have he := hf.viq s.ctx.retire [⟨i, s.ctx.pc, captured i s 0, captured i s 1, none⟩]
  unfold State.onCtx
  dsimp only
  rw [he]
  exact congrArg (fun c => ({ s with ctx := c } : State)) (Ctx.setViq_self hq)

@[simp] theorem Ctx.retire_path (c : Ctx) : c.retire.path = c.path := by rw [Ctx.retire_only]

/-! ## The queue words -/

/-- The fields of a number put together as a status word is. -/
theorem statusFields (b e p o d : Nat) (hb : b ≤ 1) (he : e < 2 ^ 7) (hp : p < 2 ^ 5) (ho : o ≤ 0xFFFF) (hd : d < 2 ^ 32)
    (n : Nat) (hn : n = b * 2 ^ 63 + e * 2 ^ 56 + p * 2 ^ 48 + o * 2 ^ 32 + d) :
    n < 2 ^ 64 ∧ n / 2 ^ 63 % 2 = b ∧ n / 2 ^ 56 % 2 ^ 7 = e ∧ n / 2 ^ 53 % 2 ^ 3 = 0 ∧ n / 2 ^ 48 % 2 ^ 5 = p ∧
      n / 2 ^ 32 % 2 ^ 16 = o ∧ n % 2 ^ 32 = d := by
  omega

/-- The status word of a channel has the fields of R266. -/
theorem Chan.status_statusWord (h : Chan) : StatusWord h h.status := by
  obtain ⟨hlt, hb, he, hz, hp, ho, hd⟩ := statusFields (if h.halted then 1 else 0) (h.ecause % 2 ^ 7)
    ((h.cmds.length + if h.started.isSome then 1 else 0) % 2 ^ 5) (min h.oob 0xFFFF) (h.done % 2 ^ 32) (by split <;> decide)
    (Nat.mod_lt _ (by decide)) (Nat.mod_lt _ (by decide)) (Nat.min_le_right _ _) (Nat.mod_lt _ (by decide)) _ rfl
  have hn : h.status = BitVec.ofNat 64 ((if h.halted then 1 else 0) * 2 ^ 63 + h.ecause % 2 ^ 7 * 2 ^ 56 +
      (h.cmds.length + if h.started.isSome then 1 else 0) % 2 ^ 5 * 2 ^ 48 + min h.oob 0xFFFF * 2 ^ 32 + h.done % 2 ^ 32) := by
    unfold Chan.status
    cases h.halted <;> rfl
  have hv := congrArg BitVec.toNat hn
  rw [BitVec.toNat_ofNat, Nat.mod_eq_of_lt hlt] at hv
  refine ⟨?_, ?_, ?_, ?_, ?_, ?_⟩
  · rw [BitVec.getLsbD, hv, Nat.testBit_eq_decide_div_mod_eq, hb]
    cases h.halted <;> rfl
  all_goals rw [hv]; assumption

section QueueWords
variable {s : State} (q k : BitVec 4) (x : BitVec 5) (hs : VectorIdle s)
include hs

theorem exec_qpush_free (hw : s.ctx.wcb = []) (hq : 8 ≤ q.toNat) (hu : s.ctx.ch[(q.setWidth 3).toNat].used < 16) :
    exec (.qpush q x) s = .next { s with ctx := { s.ctx.retire with
      ch := s.ctx.ch.set (q.setWidth 3).toNat { s.ctx.ch[(q.setWidth 3).toNat] with
        cmds := s.ctx.ch[(q.setWidth 3).toNat].cmds ++
          [⟨.push (s.getX x), s.ctx.asid, s.ctx.priv, none, s.ctx.path, (s.ctxOf (otherOf s.cur)).path⟩] } } } := by
  refine (exec_of_commit_ctx (f := fun c => c.setCh (q.setWidth 3) { s.ctx.ch[(q.setWidth 3).toNat] with
        cmds := s.ctx.ch[(q.setWidth 3).toNat].cmds ++
          [⟨.push (s.getX x), c.asid, c.priv, none, c.path, (s.ctxOf (otherOf s.cur)).path⟩] })
    ⟨fun _ => rfl, fun _ => rfl, fun _ _ => rfl⟩ hs rfl rfl (by simp) ?_).trans ?_
  · show commitQpush q x (s.getX x) (issued (.qpush q x) (s.getX x) 0 s) = .done ((issued (.qpush q x) (s.getX x) 0 s).onCtx _)
    unfold commitQpush State.onChannel State.pushCmd
    rw [if_neg (by omega)]
    simp [-BitVec.toNat_setWidth, hu, hw, State.commitCtx, issued_ctxOf_other]
  · simp [Ctx.setCh]

theorem exec_qpush_full (hq : 8 ≤ q.toNat) (hu : 16 ≤ s.ctx.ch[(q.setWidth 3).toNat].used) :
    exec (.qpush q x) s = .next (if s.ctx.ch[(q.setWidth 3).toNat].halted = true then
      (issued (.qpush q x) (s.getX x) 0 s).takeTrap false true (s.ctx.ch[(q.setWidth 3).toNat].ecause % 256)
        s.ctx.ch[(q.setWidth 3).toNat].eaddr else issued (.qpush q x) (s.getX x) 0 s) := by
  have hc : commitQpush q x (s.getX x) (issued (.qpush q x) (s.getX x) 0 s) =
      if s.ctx.ch[(q.setWidth 3).toNat].halted then .trap (s.ctx.ch[(q.setWidth 3).toNat].ecause % 256)
        s.ctx.ch[(q.setWidth 3).toNat].eaddr (issued (.qpush q x) (s.getX x) 0 s) else .wait := by
    unfold commitQpush State.onChannel
    rw [if_neg (by omega)]
    simp [-BitVec.toNat_setWidth, Nat.not_lt.mpr hu]
  split
  · next hh => exact exec_of_commit_trap hs rfl rfl (by simp) (hc.trans (if_pos hh))
  · next hh => exact exec_of_commit_wait hs rfl rfl (by simp) (hc.trans (if_neg hh))

theorem exec_qpush_queue (hq : q.toNat < 8) : exec (.qpush q x) s =
    .next ((issued (.qpush q x) (s.getX x) 0 s).takeTrap false true 0x0C ((encode (.qpush q x)).setWidth 64)) :=
  exec_of_commit_trap hs rfl rfl (by simp) (if_pos hq)

theorem exec_qstat (hq : q.toNat < 8) (hl : s.ctx.q[(q.setWidth 3).toNat].length < 8) :
    exec (.qstat q k) s = .next { s with ctx := { s.ctx.retire with
      q := s.ctx.q.set (q.setWidth 3).toNat (s.ctx.q[(q.setWidth 3).toNat] ++ [s.ctx.ch[(k.setWidth 3).toNat].status]) } } := by
  refine exec_of_commit_ctx (f := fun c => { c with
    q := c.q.set (q.setWidth 3).toNat (s.ctx.q[(q.setWidth 3).toNat] ++ [s.ctx.ch[(k.setWidth 3).toNat].status]) })
    ⟨fun _ => rfl, fun _ => rfl, fun _ _ => rfl⟩ hs rfl rfl (by simp) ?_ |>.trans ?_
  · show commitQstat q k (issued (.qstat q k) 0 0 s) = .done ((issued (.qstat q k) 0 0 s).onCtx _)
    unfold commitQstat State.pushQ
    rw [if_neg (by omega)]
    simp [-BitVec.toNat_setWidth, Nat.not_le.mpr hl]
  · simp

theorem exec_qstat_channel (hq : 8 ≤ q.toNat) : exec (.qstat q k) s =
    .next ((issued (.qstat q k) 0 0 s).takeTrap false true 0x0C ((encode (.qstat q k)).setWidth 64)) :=
  exec_of_commit_trap hs rfl rfl (by simp) (if_pos hq)

theorem exec_drain_empty (hc : s.ctx.ch[(k.setWidth 3).toNat].cmds = []) (hst : s.ctx.ch[(k.setWidth 3).toNat].started = none)
    (hh : s.ctx.ch[(k.setWidth 3).toNat].halted = false) : exec (.drain k) s = .next s.retire := by
  refine exec_of_commit_ctx (f := id) ⟨fun _ => rfl, fun _ => rfl, fun _ _ => rfl⟩ hs rfl rfl (by simp) ?_
  show commitDrain k (issued (.drain k) 0 0 s) = .done (issued (.drain k) 0 0 s)
  unfold commitDrain
  simp [-BitVec.toNat_setWidth, hc, hst, hh]

theorem exec_drain_halted (hh : s.ctx.ch[(k.setWidth 3).toNat].halted = true) : exec (.drain k) s =
    .next ((issued (.drain k) 0 0 s).takeTrap false true (s.ctx.ch[(k.setWidth 3).toNat].ecause % 256)
      s.ctx.ch[(k.setWidth 3).toNat].eaddr) := by
  refine exec_of_commit_trap hs rfl rfl (by simp) ?_
  show commitDrain k (issued (.drain k) 0 0 s) = _
  unfold commitDrain
  simp [-BitVec.toNat_setWidth, hh]

end QueueWords

theorem channelWords : ChannelWords := by
  intro s q k x hs _ hw
  refine ⟨fun hq hu => ⟨_, exec_qpush_free q x hs hw hq hu, rfl, rfl⟩, exec_qpush_full q x hs, exec_qpush_queue q x hs,
    fun hq hl => ⟨_, exec_qstat q k hs hq hl, rfl, _, Chan.status_statusWord _, rfl⟩, exec_qstat_channel q k hs,
    exec_drain_empty k hs, exec_drain_halted k hs⟩

theorem queuePop : QueuePop := by
  intro s q d
  have he : exec (.qpop q d) s = execQpop q d s := rfl
  rw [he]
  unfold execQpop
  refine ⟨fun v r hq hv => ⟨_, ?_, rfl⟩, fun hq hv => ?_, fun hq => if_pos hq⟩
  · rw [if_neg (by omega), hv]
  · rw [if_neg (by omega), hv]

/-- Settles O28: the words through the vector unit by what their commit makes of the machine of their issue, qpop by its three cases. -/
theorem queues : Obligations.Queues := ⟨channelWords, queuePop⟩

end Sys2Proof.Machine

/-! One rounding of an exact magnitude (R88 to R90): what `quantise` says of a magnitude, and that `roundMag` delivers its one rounding. -/

namespace Sys2Proof.Machine
open Sys2Proof.Claims

/-! ## A magnitude as its place among the numbers -/

/-- `side` says how a magnitude lies to a number: it is m × 2^e, or with `sticky` more than that and less than (m + 1) × 2^e. -/
structure LiesAt (side : ℚ → Ordering) (m : ℕ) (e : ℤ) (sticky : Bool) : Prop where
  below : ∀ v : ℚ, 0 ≤ v → v < m * 2 ^ e → side v = .gt
  here : side (m * 2 ^ e) = if sticky then .gt else .eq
  above : ∀ v : ℚ, m * 2 ^ e < v → (sticky = true → (m + 1) * 2 ^ e ≤ v) → side v = .lt

theorem liesAt_compare {q : ℚ} {m : ℕ} {e : ℤ} (h : q = m * 2 ^ e) : LiesAt (compare q) m e false where
  below v _ hv := compare_gt_iff_gt.mpr (h ▸ hv)
  here := by rw [h]; exact compare_eq_iff_eq.mpr rfl
  above v hv _ := compare_lt_iff_lt.mpr (h ▸ hv)

theorem two_zpow_pos (e : ℤ) : (0 : ℚ) < 2 ^ e := zpow_pos (by norm_num) e

/-- A multiple of 2^q as one of 2^e, where e is not above q. -/
theorem mul_zpow_eq {e q : ℤ} (h : e ≤ q) (n : ℕ) : (n : ℚ) * 2 ^ q = (n * 2 ^ (q - e).toNat : ℕ) * 2 ^ e := by
  obtain ⟨d, hd⟩ := Int.eq_ofNat_of_zero_le (sub_nonneg.mpr h)
  obtain rfl : q = e + d := by omega
  have : (e + d - e).toNat = d := by omega
  rw [this, zpow_add₀ (by norm_num), zpow_natCast]
  push_cast
  ring

section
variable {side : ℚ → Ordering} {m : ℕ} {e : ℤ} {sticky : Bool} (h : LiesAt side m e sticky)
include h

theorem LiesAt.gt_of_lt {n : ℕ} (hn : n < m) : side (n * 2 ^ e) = .gt :=
  h.below _ (mul_nonneg (Nat.cast_nonneg n) (two_zpow_pos e).le)
    (mul_lt_mul_of_pos_right (Nat.cast_lt.mpr hn) (two_zpow_pos e))

theorem LiesAt.lt_of_gt {n : ℕ} (hn : m < n) : side (n * 2 ^ e) = .lt := by
  refine h.above _ (mul_lt_mul_of_pos_right (Nat.cast_lt.mpr hn) (two_zpow_pos e)) fun _ => ?_
  exact mul_le_mul_of_nonneg_right (by exact_mod_cast hn) (two_zpow_pos e).le

/-- What `quantise` says of a magnitude: the multiple of 2^q below it, whether it is that, and how it lies to the middle between that one
and the next. With `sticky` the quantum is above the unit of the magnitude. -/
theorem quantise_spec {q : ℤ} (hq : sticky = true → e < q) {s : ℕ} {cmp : Ordering} {rest : Bool}
    (hr : quantise m e q sticky = (s, cmp, rest)) :
    side (s * 2 ^ q) = (if rest then .gt else .eq) ∧ side ((s + 1 : ℕ) * 2 ^ q) = .lt ∧ side ((2 * s + 1 : ℕ) * 2 ^ (q - 1)) = cmp ∧
      (rest = false → cmp = .lt) := by
  unfold quantise at hr
  split at hr
  case isTrue hle =>
    obtain rfl : sticky = false := by
      cases sticky
      · rfl
      · exact absurd (hq rfl) (by omega)
    obtain ⟨rfl, rfl, rfl⟩ : m * 2 ^ (e - q).toNat = s ∧ Ordering.lt = cmp ∧ false = rest := by simpa using hr
    have hm : (m : ℚ) * 2 ^ e = (m * 2 ^ (e - q).toNat : ℕ) * 2 ^ q := mul_zpow_eq hle m
    have hlt : ∀ v : ℚ, m * 2 ^ e < v → side v = .lt := fun v hv => h.above v hv (by simp)
    refine ⟨?_, hlt _ ?_, hlt _ ?_, fun _ => rfl⟩
    · rw [← hm]; exact h.here
    · rw [hm]
      exact mul_lt_mul_of_pos_right (by exact_mod_cast Nat.lt_succ_self _) (two_zpow_pos q)
    · rw [hm, mul_zpow_eq (show q - 1 ≤ q by omega)]
      refine mul_lt_mul_of_pos_right ?_ (two_zpow_pos _)
      have : (q - (q - 1)).toNat = 1 := by omega
      rw [this]
      exact_mod_cast (by omega)
  case isFalse hle =>
    obtain ⟨d, hd⟩ : ∃ d : ℕ, q = e + (d + 1 : ℕ) := ⟨(q - e).toNat - 1, by omega⟩
    have hdn : (q - e).toNat = d + 1 := by omega
    have hq1 : ∀ n : ℕ, (n : ℚ) * 2 ^ q = (n * 2 ^ (d + 1) : ℕ) * 2 ^ e := fun n => by
      rw [mul_zpow_eq (show e ≤ q by omega), hdn]
    have hq2 : ∀ n : ℕ, (n : ℚ) * 2 ^ (q - 1) = (n * 2 ^ d : ℕ) * 2 ^ e := fun n => by
      rw [mul_zpow_eq (show e ≤ q - 1 by omega)]
      have : (q - 1 - e).toNat = d := by omega
      rw [this]
    have hp : 2 ^ (d + 1) = 2 * 2 ^ d := by ring
    have hpos : 0 < 2 ^ d := by positivity
    rw [hdn] at hr
    dsimp only at hr
    split at hr
    case isTrue hsmall =>
      obtain ⟨rfl, rfl, rfl⟩ : 0 = s ∧ Ordering.lt = cmp ∧ (decide (m ≠ 0) || sticky) = rest := by simpa using hr
      have hm : m < 2 ^ d := lt_of_lt_of_le Nat.lt_log2_self (Nat.pow_le_pow_right (by decide) (by omega))
      refine ⟨?_, ?_, ?_, fun _ => rfl⟩
      · rcases Nat.eq_zero_or_pos m with rfl | hm0
        · have := h.here
          cases sticky <;> simpa using this
        · rw [hq1, h.gt_of_lt (by omega)]
          simp [Nat.pos_iff_ne_zero.mp hm0]
      · rw [hq1]; exact h.lt_of_gt (by omega)
      · rw [hq2]; exact h.lt_of_gt (by omega)
    case isFalse =>
      obtain ⟨rfl, hc, rfl⟩ : m / 2 ^ (d + 1) = s ∧ _ = cmp ∧ (decide (m % 2 ^ (d + 1) ≠ 0) || sticky) = rest := by
        simpa only [Prod.mk.injEq] using hr
      have hdm := Nat.div_add_mod m (2 ^ (d + 1))
      have hml := Nat.mod_lt m (show 0 < 2 ^ (d + 1) by positivity)
      generalize hS : m / 2 ^ (d + 1) = S at *
      generalize hR : m % 2 ^ (d + 1) = R at *
      have hm : m = S * 2 ^ (d + 1) + R := by rw [mul_comm]; omega
      have hmid : (2 * S + 1) * 2 ^ d = S * 2 ^ (d + 1) + 2 ^ d := by rw [hp]; ring
      refine ⟨?_, ?_, ?_, ?_⟩
      · rw [hq1]
        rcases Nat.eq_zero_or_pos R with hR0 | hR0
        · have : S * 2 ^ (d + 1) = m := by omega
          rw [this, h.here, hR0]
          simp
        · rw [h.gt_of_lt (by omega)]
          simp [Nat.pos_iff_ne_zero.mp hR0]
      · rw [hq1]
        exact h.lt_of_gt (by rw [Nat.add_mul, one_mul]; omega)
      · rw [hq2, hmid, ← hc, Nat.add_sub_cancel]
        split
        · exact h.lt_of_gt (by omega)
        · split
          · have : S * 2 ^ (d + 1) + 2 ^ d = m := by omega
            rw [this, h.here]
          · exact h.gt_of_lt (by omega)
      · intro hrest
        have hR0 : R = 0 := by simpa using (Bool.or_eq_false_iff.mp hrest).1
        rw [← hc, if_pos (by rw [hR0, Nat.add_sub_cancel]; exact hpos)]
end

/-! ## Codes and the magnitudes they stand for -/

theorem FType.fbits_pos (t : FType) : 1 ≤ t.fbits := by cases t <;> decide

/-- The magnitude of a code that is put together from a step of the exponent and a significand. -/
theorem magAt_code (t : FType) {j s : ℕ} (hs : s ≤ 2 ^ (t.fbits + 1)) (hj : j = 0 ∨ 2 ^ t.fbits ≤ s) :
    magAt t (j * 2 ^ t.fbits + s) = s * 2 ^ (1 - t.bias + j - t.fbits) := by
  have hp : 2 ^ (t.fbits + 1) = 2 * 2 ^ t.fbits := by ring
  have hpos : 0 < 2 ^ t.fbits := by positivity
  rcases Nat.lt_or_ge s (2 ^ t.fbits) with hlt | hge
  · obtain rfl : j = 0 := by omega
    rw [magAt, if_pos (by omega)]
    simp
  · rw [magAt, if_neg (by have := Nat.zero_le (j * 2 ^ t.fbits); omega)]
    rcases Nat.lt_or_ge s (2 ^ (t.fbits + 1)) with hlt | htop
    · have hd : (j * 2 ^ t.fbits + s) / 2 ^ t.fbits = j + 1 := by
        rw [Nat.mul_comm, Nat.mul_add_div hpos, Nat.div_eq_of_lt_le (k := 1) (by omega) (by omega)]
      have hm : 2 ^ t.fbits + (j * 2 ^ t.fbits + s) % 2 ^ t.fbits = s := by
        have := Nat.div_add_mod (j * 2 ^ t.fbits + s) (2 ^ t.fbits)
        rw [hd, Nat.mul_comm, Nat.add_mul] at this
        omega
      rw [hd, hm]
      congr 2
      push_cast
      ring
    · obtain rfl : s = 2 * 2 ^ t.fbits := by omega
      have hc : j * 2 ^ t.fbits + 2 * 2 ^ t.fbits = (j + 2) * 2 ^ t.fbits := by ring
      rw [hc, Nat.mul_div_cancel _ hpos, Nat.mul_mod_left]
      have hz : ((j + 2 : ℕ) : ℤ) - t.bias - t.fbits = (1 - t.bias + j - t.fbits) + 1 := by push_cast; ring
      rw [hz, zpow_add_one₀ (by norm_num)]
      push_cast
      ring

theorem quantise_fst_sticky (m : ℕ) (e q : ℤ) (b c : Bool) : (quantise m e q b).1 = (quantise m e q c).1 := by
  unfold quantise
  split
  · rfl
  · dsimp only
    split <;> rfl

/-- The lower candidate times the quantum is the greatest multiple not above the magnitude. -/
theorem quantise_bounds (m : ℕ) (e q : ℤ) (b : Bool) :
    ((quantise m e q b).1 : ℚ) * 2 ^ q ≤ m * 2 ^ e ∧ (m : ℚ) * 2 ^ e < ((quantise m e q b).1 + 1 : ℕ) * 2 ^ q := by
  rw [quantise_fst_sticky m e q b false]
  rcases hr : quantise m e q false with ⟨s, cmp, rest⟩
  obtain ⟨h1, h2, -, -⟩ := quantise_spec (liesAt_compare rfl) (by simp) hr
  refine ⟨?_, compare_lt_iff_lt.mp h2⟩
  rw [← not_lt, ← compare_lt_iff_lt, h1]
  split <;> simp

theorem pow_log_le {m : ℕ} (hm : m ≠ 0) (e : ℤ) : (2 : ℚ) ^ (Nat.log2 m + e) ≤ m * 2 ^ e := by
  rw [zpow_add₀ (by norm_num), zpow_natCast]
  exact mul_le_mul_of_nonneg_right (by exact_mod_cast Nat.log2_self_le hm) (two_zpow_pos e).le

theorem succ_le_pow_log (m : ℕ) (e : ℤ) : ((m : ℚ) + 1) * 2 ^ e ≤ 2 ^ (Nat.log2 m + e + 1) := by
  have : ((Nat.log2 m : ℤ) + e + 1) = ((Nat.log2 m + 1 : ℕ) : ℤ) + e := by push_cast; ring
  rw [this, zpow_add₀ (by norm_num), zpow_natCast]
  exact mul_le_mul_of_nonneg_right (by exact_mod_cast Nat.lt_log2_self) (two_zpow_pos e).le

/-! ## The one rounding -/

/-- The least exponent of a quantum for a magnitude of a type: that of its top bit, or the least of the type (R84, R90). -/
def FType.baseOf (t : FType) (top : ℤ) : ℤ := if top < 1 - t.bias then 1 - t.bias else top

/-- The significand that a magnitude has is below two, and not below one but for a subnormal one. -/
theorem sig_range (t : FType) {m : ℕ} (hm : m ≠ 0) (e : ℤ) (b : Bool) {base : ℤ} (hb : base = t.baseOf (Nat.log2 m + e)) :
    (quantise m e (base - t.fbits) b).1 + 1 ≤ 2 ^ (t.fbits + 1) ∧
      ((base - (1 - t.bias)).toNat = 0 ∨ 2 ^ t.fbits ≤ (quantise m e (base - t.fbits) b).1) := by
  obtain ⟨hlo, hhi⟩ := quantise_bounds m e (base - t.fbits) b
  generalize (quantise m e (base - t.fbits) b).1 = s at *
  have htop : (Nat.log2 m : ℤ) + e ≤ base := by rw [hb]; unfold FType.baseOf; split <;> omega
  have hmlt : (m : ℚ) * 2 ^ e < 2 ^ (base + 1) := calc
    (m : ℚ) * 2 ^ e < (m + 1) * 2 ^ e := mul_lt_mul_of_pos_right (by linarith) (two_zpow_pos e)
    _ ≤ 2 ^ (Nat.log2 m + e + 1) := succ_le_pow_log m e
    _ ≤ 2 ^ (base + 1) := zpow_le_zpow_right₀ (by norm_num) (by omega)
  have hq : ∀ n : ℕ, (2 : ℚ) ^ (base - t.fbits + n) = (2 ^ n : ℕ) * 2 ^ (base - t.fbits) := fun n => by
    rw [zpow_add₀ (by norm_num), zpow_natCast, mul_comm]
    norm_cast
  refine ⟨?_, ?_⟩
  · have : (s : ℚ) * 2 ^ (base - t.fbits) < (2 ^ (t.fbits + 1) : ℕ) * 2 ^ (base - t.fbits) := by
      rw [← hq]
      refine lt_of_le_of_lt hlo (lt_of_lt_of_eq hmlt (congrArg _ ?_))
      push_cast
      ring
    exact_mod_cast lt_of_mul_lt_mul_right this (two_zpow_pos _).le
  · by_cases h0 : (base - (1 - t.bias)).toNat = 0
    · exact .inl h0
    · right
      have hbt : base = Nat.log2 m + e := by
        unfold FType.baseOf at hb
        split at hb
        · omega
        · exact hb
      have : ((2 ^ t.fbits : ℕ) : ℚ) * 2 ^ (base - t.fbits) < (s + 1 : ℕ) * 2 ^ (base - t.fbits) := by
        rw [← hq]
        refine lt_of_le_of_lt ?_ hhi
        have he : base - t.fbits + (t.fbits : ℕ) = Nat.log2 m + e := by omega
        rw [he]
        exact pow_log_le hm e
      have := lt_of_mul_lt_mul_right this (two_zpow_pos _).le
      exact Nat.lt_succ_iff.mp (by exact_mod_cast this)

/-- Whether a magnitude lies below the least normal one is told by its top bit. -/
theorem LiesAt.lt_normal_iff {side : ℚ → Ordering} {m : ℕ} {e : ℤ} {sticky : Bool} (h : LiesAt side m e sticky) (hm : m ≠ 0) (n : ℤ) :
    side (2 ^ n) = .lt ↔ (Nat.log2 m : ℤ) + e < n := by
  rcases lt_or_ge ((Nat.log2 m : ℤ) + e) n with hlt | hge
  · have hle : ((m : ℚ) + 1) * 2 ^ e ≤ 2 ^ n := (succ_le_pow_log m e).trans (zpow_le_zpow_right₀ (by norm_num) (by omega))
    have : (m : ℚ) * 2 ^ e < 2 ^ n :=
      lt_of_lt_of_le (mul_lt_mul_of_pos_right (by linarith) (two_zpow_pos e)) hle
    exact iff_of_true (h.above _ this fun _ => hle) hlt
  · refine iff_of_false ?_ (by omega)
    have hle : (2 : ℚ) ^ n ≤ m * 2 ^ e := (zpow_le_zpow_right₀ (by norm_num) hge).trans (pow_log_le hm e)
    rcases hle.eq_or_lt with heq | hlt
    · rw [heq, h.here]
      split <;> simp
    · rw [h.below _ (two_zpow_pos n).le hlt]
      simp

/-- The candidate that `roundsUp` picks is the one of the rounding mode, and the code itself for an exact magnitude. -/
theorem picks_eq (t : FType) (rm : RMode) (neg : Bool) {side : ℚ → Ordering} {c sig : ℕ} {cmp : Ordering} {rest : Bool}
    (hat : side (magAt t c) = if rest then .gt else .eq) (htie : side ((magAt t c + magAt t (c + 1)) / 2) = cmp)
    (hexact : rest = false → cmp = .lt) (hodd : c % 2 = sig % 2) :
    (if side (magAt t c) = .eq then c else picks t rm neg side c) =
      c + if roundsUp rm neg (sig % 2 == 1) cmp rest then 1 else 0 := by
  cases rest
  case false =>
    have hup : roundsUp rm neg (sig % 2 == 1) cmp false = false := by
      rw [hexact rfl]
      cases rm <;> simp [roundsUp]
    simp [hat, hup]
  case true =>
    rw [hat, if_neg (by simp)]
    unfold picks roundsUp
    rw [htie, hodd]
    cases rm
    case rne =>
      rcases Nat.mod_two_eq_zero_or_one sig with h | h <;> cases cmp <;> simp [h]
    case rmm => cases cmp <;> simp
    all_goals cases neg <;> simp

/-- `roundMag` through the quantum and the candidates of its magnitude. -/
theorem roundMag_eq (t : FType) (rm : RMode) (neg : Bool) {m : ℕ} {e base : ℤ} {sticky : Bool} {sig : ℕ} {cmp : Ordering} {rest : Bool}
    (hbase : base = t.baseOf (Nat.log2 m + e)) (hr : quantise m e (base - t.fbits) sticky = (sig, cmp, rest)) {d : ℕ}
    (hd : d = (base - (1 - t.bias)).toNat * 2 ^ t.fbits + sig + if roundsUp rm neg (sig % 2 == 1) cmp rest then 1 else 0) :
    roundMag t rm neg m e sticky =
      if t.maxCode < d then (overflowCode t rm neg, flagOF ||| flagNX)
      else (d + (if neg then t.signBit else 0),
        (if rest then flagNX else 0) ||| (if rest && decide ((Nat.log2 m : ℤ) + e < 1 - t.bias) then flagUF else 0)) := by
  have hd' : d = (base - (1 - t.bias)).toNat * 2 ^ t.fbits + if roundsUp rm neg (sig % 2 == 1) cmp rest then sig + 1 else sig := by
    rw [hd]
    split <;> rfl
  rw [hd']
  subst hbase
  unfold roundMag
  unfold FType.baseOf at hr ⊢
  dsimp only
  rw [hr]

theorem overflowCode_eq (t : FType) (rm : RMode) (neg : Bool) : overflowCode t rm neg =
    (if t.hasInf ∧ (rm = .rne ∨ rm = .rmm ∨ (rm = .rdn ∧ neg = true) ∨ (rm = .rup ∧ neg = false)) then t.infCode else t.maxCode) +
      (if neg then t.signBit else 0) := by
  unfold overflowCode
  cases rm <;> cases neg <;> cases t.hasInf <;> simp

/-- ONE ROUNDING: what `roundMag` delivers is the one rounding of a magnitude, whose unit lies below the type's quantum where it is only
bounded by it. -/
theorem roundMag_isRounding (t : FType) (rm : RMode) (neg : Bool) {side : ℚ → Ordering} {m : ℕ} {e : ℤ} {sticky : Bool} (hm : m ≠ 0)
    (h : LiesAt side m e sticky) (hs : sticky = true → e < t.baseOf (Nat.log2 m + e) - t.fbits) :
    IsRounding t rm neg side (roundMag t rm neg m e sticky) := by
  obtain ⟨base, hbase⟩ : ∃ base, base = t.baseOf (Nat.log2 m + e) := ⟨_, rfl⟩
  rw [← hbase] at hs
  rcases hr : quantise m e (base - t.fbits) sticky with ⟨sig, cmp, rest⟩
  obtain ⟨hat, hnext, hmid, hexact⟩ := quantise_spec h hs hr
  obtain ⟨hsig, hj⟩ := sig_range t hm e sticky hbase
  rw [hr] at hsig hj
  dsimp only at hsig hj
  have hround := roundMag_eq t rm neg hbase hr rfl
  obtain ⟨j, hjdef⟩ : ∃ j, j = (base - (1 - t.bias)).toNat := ⟨_, rfl⟩
  rw [← hjdef] at hj hround
  have hbj : base - t.fbits = 1 - t.bias + j - t.fbits := by
    have : 1 - t.bias ≤ base := by rw [hbase]; unfold FType.baseOf; split <;> omega
    omega
  obtain ⟨c, hcdef⟩ : ∃ c, c = j * 2 ^ t.fbits + sig := ⟨_, rfl⟩
  rw [← hcdef] at hround
  have hc : magAt t c = sig * 2 ^ (base - t.fbits) := by rw [hcdef, hbj]; exact magAt_code t (by omega) hj
  have hc1 : magAt t (c + 1) = (sig + 1 : ℕ) * 2 ^ (base - t.fbits) := by
    rw [hcdef, hbj]
    exact magAt_code t (by omega) (hj.imp id fun h => by omega)
  have htie : (magAt t c + magAt t (c + 1)) / 2 = (2 * sig + 1 : ℕ) * 2 ^ (base - t.fbits - 1) := by
    rw [hc, hc1, zpow_sub_one₀ (by norm_num)]
    push_cast
    ring
  have hodd : c % 2 = sig % 2 := by
    obtain ⟨k, hk⟩ := Nat.exists_eq_add_of_le t.fbits_pos
    rw [hcdef, hk, Nat.add_comm 1 k, pow_succ, ← Nat.mul_assoc]
    omega
  rw [← hc] at hat
  rw [← hc1] at hnext
  have hpick := picks_eq t rm neg hat (htie ▸ hmid) hexact hodd
  obtain ⟨d, hd⟩ : ∃ d, d = c + if roundsUp rm neg (sig % 2 == 1) cmp rest then 1 else 0 := ⟨_, rfl⟩
  rw [← hd] at hround hpick
  have hexactAt : side (magAt t d) = .eq ↔ rest = false := by
    cases hrest : rest
    · have : d = c := by rw [hd, hrest, hexact hrest]; cases rm <;> simp [roundsUp]
      simp [this, hat, hrest]
    · rw [hd]
      split <;> simp [hat, hnext, hrest]
  refine ⟨c, d, ?_, hnext, hpick.symm, ?_⟩
  · rw [hat]; split <;> simp
  · rw [hround, overflowCode_eq]
    by_cases hov : t.maxCode < d
    · rw [if_pos hov, if_neg (Nat.not_le.mpr hov)]
    · rw [if_neg hov, if_pos (Nat.not_lt.mp hov)]
      refine Prod.ext rfl ?_
      cases hrest : rest <;> simp [hexactAt, hrest, h.lt_normal_iff hm]
      split <;> simp

end Sys2Proof.Machine

/-! The float operations deliver one rounding of their exact results (R88 to R91, R93). -/

namespace Sys2Proof.Machine
open Sys2Proof.Claims

/-! ## Rational values -/

theorem ratOf_eq (neg : Bool) (m : ℕ) (e : ℤ) : ratOf neg m e = (if neg then -(m : ℚ) else m) * 2 ^ e := by
  cases neg <;> simp [ratOf]

theorem abs_ratOf (neg : Bool) (m : ℕ) (e : ℤ) : |ratOf neg m e| = m * 2 ^ e := by
  have h : (0 : ℚ) ≤ m * 2 ^ e := mul_nonneg (Nat.cast_nonneg m) (two_zpow_pos e).le
  cases neg
  · rw [ratOf_eq, if_neg (by simp), abs_of_nonneg h]
  · rw [ratOf_eq, if_pos rfl, neg_mul, abs_neg, abs_of_nonneg h]

theorem ratOf_eq_zero {neg : Bool} {m : ℕ} {e : ℤ} : ratOf neg m e = 0 ↔ m = 0 := by
  rw [← abs_eq_zero, abs_ratOf, mul_eq_zero]
  simp [(two_zpow_pos e).ne']

theorem ratOf_neg_iff {neg : Bool} {m : ℕ} {e : ℤ} (hm : m ≠ 0) : ratOf neg m e < 0 ↔ neg = true := by
  have h : (0 : ℚ) < m * 2 ^ e := mul_pos (by exact_mod_cast Nat.pos_of_ne_zero hm) (two_zpow_pos e)
  cases neg
  · simp [ratOf_eq, h.le]
  · simp [ratOf_eq, h]

theorem ratOf_pos_iff {neg : Bool} {m : ℕ} {e : ℤ} (hm : m ≠ 0) : 0 < ratOf neg m e ↔ neg = false := by
  have h : (0 : ℚ) < m * 2 ^ e := mul_pos (by exact_mod_cast Nat.pos_of_ne_zero hm) (two_zpow_pos e)
  cases neg
  · simp [ratOf_eq, h]
  · simp [ratOf_eq, h.le]

theorem ratOf_not (neg : Bool) (m : ℕ) (e : ℤ) : ratOf (!neg) m e = -ratOf neg m e := by
  cases neg <;> simp [ratOf]

theorem ratOf_mul (na nb : Bool) (ma mb : ℕ) (ea eb : ℤ) : ratOf na ma ea * ratOf nb mb eb = ratOf (na != nb) (ma * mb) (ea + eb) := by
  simp only [ratOf, zpow_add₀ (show (2 : ℚ) ≠ 0 by norm_num)]
  cases na <;> cases nb <;> push_cast <;> simp <;> ring

/-- The integer of a value at an exponent that is not above its own. -/
theorem atExp_mul {e e0 : ℤ} (h : e0 ≤ e) (neg : Bool) (m : ℕ) : (atExp neg m e e0 : ℚ) * 2 ^ e0 = ratOf neg m e := by
  have hm : ((m * 2 ^ (e - e0).toNat : ℕ) : ℚ) * 2 ^ e0 = m * 2 ^ e := (mul_zpow_eq h m).symm
  cases neg
  · simpa [atExp, ratOf] using hm
  · have := congrArg Neg.neg hm
    simpa [atExp, ratOf] using this

/-! ## Roundings of exact values -/

theorem roundMag_ratOf (t : FType) (rm : RMode) {neg : Bool} {m : ℕ} {e : ℤ} (hm : m ≠ 0) :
    RoundsRat t rm (ratOf neg m e) (roundMag t rm neg m e false) := by
  unfold RoundsRat
  have hn : decide (ratOf neg m e < 0) = neg := by cases neg <;> simp [ratOf_neg_iff hm]
  rw [hn]
  exact roundMag_isRounding t rm neg hm (liesAt_compare (abs_ratOf neg m e)) (by simp)

theorem roundInt_rounds (t : FType) (rm : RMode) {x : ℤ} (e : ℤ) (hx : x ≠ 0) : RoundsRat t rm (x * 2 ^ e) (roundInt t rm x e) := by
  have hr : (x : ℚ) * 2 ^ e = ratOf (decide (x < 0)) x.natAbs e := by
    rw [ratOf_eq]
    rcases lt_or_ge x 0 with h | h
    · rw [decide_eq_true h, if_pos rfl, Nat.cast_natAbs, abs_of_neg h]
      push_cast
      ring
    · rw [decide_eq_false (not_lt.mpr h), if_neg (by simp), Nat.cast_natAbs, abs_of_nonneg h]
  rw [roundInt, if_neg hx, hr]
  exact roundMag_ratOf t rm (Int.natAbs_ne_zero.mpr hx)

/-- The sum of two values at the lesser of their exponents. -/
theorem sum_atExp (na nb : Bool) (ma mb : ℕ) (ea eb : ℤ) :
    ((atExp na ma ea (if ea ≤ eb then ea else eb) + atExp nb mb eb (if ea ≤ eb then ea else eb) : ℤ) : ℚ) *
      2 ^ (if ea ≤ eb then ea else eb) = ratOf na ma ea + ratOf nb mb eb := by
  push_cast
  rw [add_mul, atExp_mul (by split <;> omega), atExp_mul (by split <;> omega)]

theorem sum_atExp_eq_zero {na nb : Bool} {ma mb : ℕ} {ea eb : ℤ} :
    atExp na ma ea (if ea ≤ eb then ea else eb) + atExp nb mb eb (if ea ≤ eb then ea else eb) = 0 ↔ ratOf na ma ea + ratOf nb mb eb = 0 := by
  rw [← sum_atExp, mul_eq_zero, Int.cast_eq_zero]
  exact (or_iff_left (two_zpow_pos _).ne').symm

theorem addFin_rounds (t : FType) (rm : RMode) {na nb : Bool} {ma mb : ℕ} {ea eb : ℤ} (h : ratOf na ma ea + ratOf nb mb eb ≠ 0) :
    RoundsRat t rm (ratOf na ma ea + ratOf nb mb eb) (addFin t rm na ma ea nb mb eb) := by
  have hx := mt sum_atExp_eq_zero.mp h
  rw [← sum_atExp]
  unfold addFin
  rw [if_neg hx]
  exact roundInt_rounds t rm _ hx

theorem addFin_zero (t : FType) (rm : RMode) {na nb : Bool} {ma mb : ℕ} {ea eb : ℤ} (h : ratOf na ma ea + ratOf nb mb eb = 0) :
    addFin t rm na ma ea nb mb eb = (zeroCode t (if ma = 0 ∧ mb = 0 ∧ na = nb then na else rm == .rdn), 0) := by
  unfold addFin
  exact if_pos (sum_atExp_eq_zero.mpr h)

/-- A magnitude between m × 2^e and (m + 1) × 2^e lies so. -/
theorem liesAt_between {q : ℚ} {m : ℕ} {e : ℤ} {sticky : Bool} (hlo : m * 2 ^ e ≤ q) (hhi : q < (m + 1) * 2 ^ e)
    (hs : sticky = false ↔ m * 2 ^ e = q) : LiesAt (compare q) m e sticky where
  below v _ hv := compare_gt_iff_gt.mpr (lt_of_lt_of_le hv hlo)
  here := by
    cases sticky
    · exact compare_eq_iff_eq.mpr (hs.mp rfl).symm
    · have : (m : ℚ) * 2 ^ e ≠ q := fun h => by simpa using hs.mpr h
      exact compare_gt_iff_gt.mpr (lt_of_le_of_ne hlo this)
  above v hv hv2 := by
    refine compare_lt_iff_lt.mpr ?_
    cases sticky
    · rwa [← hs.mp rfl]
    · exact lt_of_lt_of_le hhi (hv2 rfl)

/-- A magnitude with more bits than the type's precision has its unit below the quantum. -/
theorem unit_lt_quantum (t : FType) {m : ℕ} (e : ℤ) (h : 2 ^ (t.fbits + 1) ≤ m) : e < t.baseOf (Nat.log2 m + e) - t.fbits := by
  have hl : t.fbits + 1 ≤ Nat.log2 m := (Nat.le_log2 (by have := Nat.two_pow_pos (t.fbits + 1); omega)).mpr h
  unfold FType.baseOf
  split <;> omega

theorem fDiv_rounds (t : FType) (rm : RMode) {na nb : Bool} {ma mb : ℕ} {ea eb : ℤ} (ha : ma ≠ 0) (hb : mb ≠ 0) :
    RoundsRat t rm (ratOf na ma ea / ratOf nb mb eb) (fDiv t rm (.fin na ma ea) (.fin nb mb eb)) := by
  obtain ⟨k, hk⟩ : ∃ k, k = t.fbits + 4 + Nat.log2 mb := ⟨_, rfl⟩
  have hdiv : fDiv t rm (.fin na ma ea) (.fin nb mb eb) =
      roundMag t rm (na != nb) (ma * 2 ^ k / mb) (ea - k - eb) (ma * 2 ^ k % mb != 0) := by
    rw [hk, fDiv, if_neg hb, if_neg ha]
  rw [hdiv]
  have hbpos : (0 : ℚ) < mb := by exact_mod_cast Nat.pos_of_ne_zero hb
  have hbig : 2 ^ (t.fbits + 1) ≤ ma * 2 ^ k / mb := by
    refine (Nat.le_div_iff_mul_le (Nat.pos_of_ne_zero hb)).mpr ?_
    calc 2 ^ (t.fbits + 1) * mb ≤ 2 ^ (t.fbits + 1) * 2 ^ (Nat.log2 mb + 1) := Nat.mul_le_mul_left _ Nat.lt_log2_self.le
      _ = 2 ^ (t.fbits + Nat.log2 mb + 2) := by rw [← pow_add]; congr 1; omega
      _ ≤ 2 ^ k := Nat.pow_le_pow_right (by decide) (by omega)
      _ ≤ ma * 2 ^ k := Nat.le_mul_of_pos_left _ (Nat.pos_of_ne_zero ha)
  have habs : |ratOf na ma ea / ratOf nb mb eb| = (ma * 2 ^ k : ℕ) / mb * 2 ^ (ea - k - eb) := by
    rw [abs_div, abs_ratOf, abs_ratOf, zpow_sub₀ (by norm_num), zpow_sub₀ (by norm_num), zpow_natCast]
    have := (two_zpow_pos eb).ne'
    push_cast
    field_simp
  have hneg : decide (ratOf na ma ea / ratOf nb mb eb < 0) = (na != nb) := by
    rw [Bool.eq_iff_iff, decide_eq_true_iff, div_neg_iff, ratOf_neg_iff ha, ratOf_neg_iff hb, ratOf_pos_iff ha, ratOf_pos_iff hb]
    cases na <;> cases nb <;> simp
  unfold RoundsRat
  rw [hneg]
  refine roundMag_isRounding t rm _ (by have := Nat.two_pow_pos (t.fbits + 1); omega) ?_ fun _ => unit_lt_quantum t _ hbig
  have hdm : ((ma * 2 ^ k : ℕ) : ℚ) = mb * (ma * 2 ^ k / mb : ℕ) + (ma * 2 ^ k % mb : ℕ) := by
    exact_mod_cast (Nat.div_add_mod _ _).symm
  have hml : ((ma * 2 ^ k % mb : ℕ) : ℚ) < mb := by exact_mod_cast Nat.mod_lt _ (Nat.pos_of_ne_zero hb)
  have hm0 : (0 : ℚ) ≤ (ma * 2 ^ k % mb : ℕ) := Nat.cast_nonneg _
  have hpos := two_zpow_pos (ea - k - eb)
  rw [habs]
  refine liesAt_between ?_ ?_ ?_
  · refine mul_le_mul_of_nonneg_right ?_ hpos.le
    rw [le_div_iff₀ hbpos, hdm]
    linarith [mul_comm (mb : ℚ) (ma * 2 ^ k / mb : ℕ)]
  · refine mul_lt_mul_of_pos_right ?_ hpos
    rw [div_lt_iff₀ hbpos, hdm]
    linarith [mul_comm (mb : ℚ) (ma * 2 ^ k / mb : ℕ)]
  · rw [mul_left_inj' hpos.ne', eq_div_iff hbpos.ne', hdm]
    constructor
    · intro h
      have : ma * 2 ^ k % mb = 0 := by simpa using h
      rw [this]
      push_cast
      ring
    · intro h
      have : ((ma * 2 ^ k % mb : ℕ) : ℚ) = 0 := by linarith [mul_comm (mb : ℚ) (ma * 2 ^ k / mb : ℕ)]
      simpa using this

/-! ## The square root -/

/-- The bit-by-bit root keeps the square at most `n` and finds the last bits. -/
theorem isqrtFrom_spec (n : ℕ) : ∀ (i r : ℕ), r * r ≤ n → n < (r + 2 ^ i) * (r + 2 ^ i) →
    isqrtFrom n i r * isqrtFrom n i r ≤ n ∧ n < (isqrtFrom n i r + 1) * (isqrtFrom n i r + 1)
  | 0, r, h1, h2 => ⟨h1, by simpa [isqrtFrom] using h2⟩
  | i + 1, r, h1, h2 => by
    rw [isqrtFrom]
    split
    · next h =>
      refine isqrtFrom_spec n i _ h ?_
      rwa [Nat.add_assoc, ← two_mul, ← pow_succ']
    · next h => exact isqrtFrom_spec n i r h1 (by omega)

theorem isqrt_spec (n : ℕ) :
    isqrtFrom n (Nat.log2 n / 2 + 1) 0 * isqrtFrom n (Nat.log2 n / 2 + 1) 0 ≤ n ∧
      n < (isqrtFrom n (Nat.log2 n / 2 + 1) 0 + 1) * (isqrtFrom n (Nat.log2 n / 2 + 1) 0 + 1) := by
  refine isqrtFrom_spec n _ 0 (by simp) ?_
  rw [Nat.zero_add, ← pow_add]
  exact lt_of_lt_of_le Nat.lt_log2_self (Nat.pow_le_pow_right (by decide) (by omega))

/-- The root of n × 2^(2f), as its square lies to the squares of numbers. -/
theorem liesAt_root {n r : ℕ} {f : ℤ} (hlo : r * r ≤ n) (hhi : n < (r + 1) * (r + 1)) :
    LiesAt (fun v => compare ((n : ℚ) * 2 ^ (2 * f)) (v * v)) r f (r * r != n) := by
  have hp := two_zpow_pos f
  have hsq : (2 : ℚ) ^ (2 * f) = 2 ^ f * 2 ^ f := by rw [two_mul, zpow_add₀ (by norm_num)]
  have hlo' : ((r : ℚ) * 2 ^ f) * (r * 2 ^ f) ≤ n * 2 ^ (2 * f) := by
    rw [hsq, mul_mul_mul_comm]
    exact mul_le_mul_of_nonneg_right (by exact_mod_cast hlo) (mul_pos hp hp).le
  have hhi' : (n : ℚ) * 2 ^ (2 * f) < ((r + 1) * 2 ^ f) * ((r + 1) * 2 ^ f) := by
    rw [hsq, mul_mul_mul_comm]
    exact mul_lt_mul_of_pos_right (by exact_mod_cast hhi) (mul_pos hp hp)
  have hr0 : (0 : ℚ) ≤ r * 2 ^ f := mul_nonneg (Nat.cast_nonneg r) hp.le
  refine ⟨fun v h0 hv => ?_, ?_, fun v hv hs => ?_⟩
  · exact compare_gt_iff_gt.mpr (lt_of_lt_of_le (mul_self_lt_mul_self h0 hv) hlo')
  · by_cases h : r * r = n
    · have : (n : ℚ) * 2 ^ (2 * f) = (r * 2 ^ f) * (r * 2 ^ f) := by
        rw [hsq, mul_mul_mul_comm, ← h]
        push_cast
        ring
      simp [h, this]
    · have hlt : ((r : ℚ) * 2 ^ f) * (r * 2 ^ f) < n * 2 ^ (2 * f) := by
        rw [hsq, mul_mul_mul_comm]
        exact mul_lt_mul_of_pos_right (by exact_mod_cast lt_of_le_of_ne hlo h) (mul_pos hp hp)
      have : (r * r != n) = true := by simpa using h
      rw [this]
      exact compare_gt_iff_gt.mpr hlt
  · refine compare_lt_iff_lt.mpr ?_
    by_cases h : r * r = n
    · refine lt_of_eq_of_lt ?_ (mul_self_lt_mul_self hr0 hv)
      rw [hsq, mul_mul_mul_comm, ← h]
      push_cast
      ring
    · have hv' := hs (by simpa using h)
      exact lt_of_lt_of_le hhi' (mul_self_le_mul_self (mul_nonneg (by positivity) hp.le) hv')

theorem fSqrt_rounds (t : FType) (rm : RMode) {m : ℕ} (e : ℤ) (hm : m ≠ 0) :
    IsRounding t rm false (fun v => compare (ratOf false m e) (v * v)) (fSqrt t rm (.fin false m e)) := by
  obtain ⟨k, hk⟩ : ∃ k, k = 2 * (t.fbits + 4) + (if (e % 2) = 0 then 0 else 1) := ⟨_, rfl⟩
  have hdef : fSqrt t rm (.fin false m e) =
      roundMag t rm false (isqrtFrom (m * 2 ^ k) (Nat.log2 (m * 2 ^ k) / 2 + 1) 0) ((e - k) / 2)
        (isqrtFrom (m * 2 ^ k) (Nat.log2 (m * 2 ^ k) / 2 + 1) 0 * isqrtFrom (m * 2 ^ k) (Nat.log2 (m * 2 ^ k) / 2 + 1) 0 != m * 2 ^ k) := by
    rw [hk, fSqrt, if_neg hm, if_neg (by simp)]
  rw [hdef]
  obtain ⟨hlo, hhi⟩ := isqrt_spec (m * 2 ^ k)
  generalize isqrtFrom (m * 2 ^ k) (Nat.log2 (m * 2 ^ k) / 2 + 1) 0 = r at *
  have he : 2 * ((e - k) / 2) = e - k := by
    rw [hk]
    push_cast
    split <;> omega
  have hval : ratOf false m e = (m * 2 ^ k : ℕ) * 2 ^ (2 * ((e - k) / 2)) := by
    rw [he, ratOf_eq, if_neg (by simp), zpow_sub₀ (by norm_num), zpow_natCast]
    push_cast
    field_simp
  have hbig : 2 ^ (t.fbits + 1) ≤ r := by
    by_contra hc
    have h1 : r + 1 ≤ 2 ^ (t.fbits + 1) := by omega
    have h2 : (r + 1) * (r + 1) ≤ 2 ^ k := calc
      (r + 1) * (r + 1) ≤ 2 ^ (t.fbits + 1) * 2 ^ (t.fbits + 1) := Nat.mul_le_mul h1 h1
      _ = 2 ^ (2 * (t.fbits + 1)) := by rw [← pow_add, two_mul]
      _ ≤ 2 ^ k := Nat.pow_le_pow_right (by decide) (by omega)
    have h3 : 2 ^ k ≤ m * 2 ^ k := Nat.le_mul_of_pos_left _ (Nat.pos_of_ne_zero hm)
    omega
  rw [hval]
  exact roundMag_isRounding t rm false (by have := Nat.two_pow_pos (t.fbits + 1); omega) (liesAt_root hlo hhi) fun _ => unit_lt_quantum t _ hbig

/-! ## Powers of two -/

theorem roundMag_two_zpow (t : FType) (rm : RMode) (k : ℤ) : RoundsRat t rm (2 ^ k) (roundMag t rm false 1 k false) := by
  have h := roundMag_ratOf t rm (neg := false) (m := 1) (e := k) (by decide)
  rwa [ratOf_eq, if_neg (by simp), Nat.cast_one, one_mul] at h

theorem fExp2_rounds (t : FType) (rm : RMode) {neg : Bool} {m : ℕ} {e k : ℤ} (h : ratOf neg m e = k) :
    RoundsRat t rm (2 ^ k) (fExp2 t rm (.fin neg m e)) := by
  suffices hs : fExp2 t rm (.fin neg m e) = roundMag t rm false 1 k false by
    rw [hs]
    exact roundMag_two_zpow t rm k
  unfold fExp2
  dsimp only
  split
  case isTrue hm =>
    have hk : k = 0 := by exact_mod_cast h.symm.trans (ratOf_eq_zero.mpr hm)
    rw [hk]
  case isFalse hm =>
    split
    case isTrue he =>
      have hk : (if neg then -((m * 2 ^ e.toNat : ℕ) : ℤ) else (m * 2 ^ e.toNat : ℕ)) = k := by
        have hz : (2 : ℚ) ^ e = (2 ^ e.toNat : ℕ) := by
          conv_lhs => rw [← Int.toNat_of_nonneg he]
          rw [zpow_natCast]
          norm_cast
        rw [ratOf_eq, hz] at h
        have : (((if neg then -((m * 2 ^ e.toNat : ℕ) : ℤ) else (m * 2 ^ e.toNat : ℕ)) : ℤ) : ℚ) = k := by
          rw [← h]
          cases neg <;> push_cast <;> simp
        exact_mod_cast this
      rw [hk]
    case isFalse he =>
      obtain ⟨d, hd⟩ : ∃ d : ℕ, e = -d := ⟨(-e).toNat, by omega⟩
      have hdn : (-e).toNat = d := by omega
      have hk : (if neg then -(m : ℤ) else m) = k * 2 ^ d := by
        rw [ratOf_eq, hd, zpow_neg, zpow_natCast, ← div_eq_mul_inv, div_eq_iff (by positivity)] at h
        have : (((if neg then -(m : ℤ) else m) : ℤ) : ℚ) = k * 2 ^ d := by
          rw [← h]
          cases neg <;> simp
        exact_mod_cast this
      have hp : (2 : ℤ) ^ d ≠ 0 := by positivity
      rw [hdn, hk, Int.mul_emod_left, if_pos (by rfl), Int.mul_ediv_cancel _ hp]

/-! ## Conversion to an integer -/

theorem intRound_intCast (rm : RMode) (z : ℤ) : intRound rm z = z := by
  unfold intRound
  simp

/-- The integer that a mode gives for a number that is none, by its floor and how its fraction lies to one half (R88, R91). -/
def modeInt (rm : RMode) (q : ℚ) (f : ℤ) (half : Ordering) : ℤ :=
  match rm with
  | .rdn => f
  | .rup => f + 1
  | .rtz => if q < 0 then f + 1 else f
  | .rne => if half = .lt ∨ (half = .eq ∧ f % 2 = 0) then f else f + 1
  | .rmm => if half = .lt ∨ (half = .eq ∧ q < 0) then f else f + 1

theorem intRound_of_not_int (rm : RMode) {q : ℚ} {f : ℤ} {half : Ordering} (hf : ⌊q⌋ = f) (hq : q ≠ f)
    (hh : compare (q - f) (1 / 2) = half) : intRound rm q = modeInt rm q f half := by
  unfold intRound
  dsimp only
  rw [hf, if_neg hq, hh]
  cases rm <;> rfl

theorem compare_of_same {a b c d : ℚ} {o : Ordering} (h : compare a b = o) (hl : a < b → c < d) (he : a = b → c = d) (hg : b < a → d < c) :
    compare c d = o := by
  cases o
  · exact compare_lt_iff_lt.mpr (hl (compare_lt_iff_lt.mp h))
  · exact compare_eq_iff_eq.mpr (he (compare_eq_iff_eq.mp h))
  · exact compare_gt_iff_gt.mpr (hg (compare_gt_iff_gt.mp h))

theorem compare_of_swap {a b c d : ℚ} {o : Ordering} (h : compare a b = o) (hl : a < b → d < c) (he : a = b → c = d) (hg : b < a → c < d) :
    compare c d = o.swap := by
  cases o
  · exact compare_gt_iff_gt.mpr (hl (compare_lt_iff_lt.mp h))
  · exact compare_eq_iff_eq.mpr (he (compare_eq_iff_eq.mp h))
  · exact compare_lt_iff_lt.mpr (hg (compare_gt_iff_gt.mp h))

/-- The integer that a mode gives for a magnitude with its sign is that of its candidates. -/
theorem intRound_ratOf (rm : RMode) {neg : Bool} {m : ℕ} {e : ℤ} {s : ℕ} {cmp : Ordering} {rest : Bool}
    (hr : quantise m e 0 false = (s, cmp, rest)) :
    intRound rm (ratOf neg m e) = (if neg then -((if roundsUp rm neg (s % 2 == 1) cmp rest then s + 1 else s : ℕ) : ℤ)
      else (if roundsUp rm neg (s % 2 == 1) cmp rest then s + 1 else s : ℕ)) ∧
      (rest = false ↔ ∃ k : ℤ, ratOf neg m e = k) := by
  obtain ⟨hat, hnext, hmid, hexact⟩ := quantise_spec (liesAt_compare rfl) (by simp) hr
  have hM := ratOf_eq neg m e
  obtain ⟨M, hMdef⟩ : ∃ M : ℚ, M = m * 2 ^ e := ⟨_, rfl⟩
  rw [← hMdef] at hat hnext hmid
  have hM' : ratOf neg m e = if neg then -M else M := by rw [hM, hMdef]; cases neg <;> simp
  rw [hM']
  rw [zpow_zero, mul_one] at hat hnext
  have hmid2 : compare M (s + 1 / 2) = cmp := by
    rw [← hmid]
    congr 1
    rw [zero_sub, zpow_neg_one]
    push_cast
    ring
  have hlt : M < s + 1 := by exact_mod_cast compare_lt_iff_lt.mp hnext
  cases rest
  case false =>
    have hMs : M = s := compare_eq_iff_eq.mp hat
    have hup : roundsUp rm neg (s % 2 == 1) cmp false = false := by rw [hexact rfl]; cases rm <;> simp [roundsUp]
    have hz : (if neg then -M else M) = ((if neg then -(s : ℤ) else s : ℤ) : ℚ) := by rw [hMs]; cases neg <;> simp
    refine ⟨?_, iff_of_true rfl ⟨_, hz⟩⟩
    rw [hz, hup, intRound_intCast]
    rfl
  case true =>
    have hgt : (s : ℚ) < M := compare_gt_iff_gt.mp hat
    have hfl : ⌊M⌋ = s := by
      rw [Int.floor_eq_iff]
      exact ⟨by exact_mod_cast hgt.le, by exact_mod_cast hlt⟩
    have hfn : ⌊-M⌋ = -(s + 1 : ℤ) := by
      rw [Int.floor_eq_iff]
      push_cast
      exact ⟨by linarith, by linarith⟩
    cases neg
    case false =>
      have hne : M ≠ (s : ℤ) := by push_cast; exact hgt.ne'
      have hh : compare (M - (s : ℤ)) (1 / 2) = cmp := by
        refine compare_of_same hmid2 ?_ ?_ ?_ <;> push_cast <;> intro h <;> linarith
      have hM0 : ¬ M < 0 := not_lt.mpr (le_trans (Nat.cast_nonneg s) hgt.le)
      refine ⟨?_, iff_of_false (by simp) ?_⟩
      · rw [if_neg (by simp), intRound_of_not_int rm hfl hne hh]
        unfold modeInt roundsUp
        rcases Nat.mod_two_eq_zero_or_one s with h2 | h2
        · have h2z : (s : ℤ) % 2 = 0 := by omega
          cases rm <;> cases cmp <;> simp [h2, h2z, hM0]
        · have h2z : (s : ℤ) % 2 = 1 := by omega
          cases rm <;> cases cmp <;> simp [h2, h2z, hM0]
      · rintro ⟨k, hk⟩
        rw [if_neg (by simp)] at hk
        rw [hk, Int.floor_intCast] at hfl
        exact hne (hk.trans (by rw [hfl]))
    case true =>
      have hne : -M ≠ ((-(s + 1 : ℤ) : ℤ) : ℚ) := by push_cast; intro h; linarith
      have hh : compare (-M - ((-(s + 1 : ℤ) : ℤ) : ℚ)) (1 / 2) = cmp.swap := by
        refine compare_of_swap hmid2 ?_ ?_ ?_ <;> push_cast <;> intro h <;> linarith
      have hM0 : -M < 0 := by linarith [Nat.cast_nonneg (α := ℚ) s]
      refine ⟨?_, iff_of_false (by simp) ?_⟩
      · rw [if_pos rfl, intRound_of_not_int rm hfn hne hh]
        unfold modeInt roundsUp
        rcases Nat.mod_two_eq_zero_or_one s with h2 | h2
        · have h2z : (s : ℤ) % 2 = 0 := by omega
          have h2n : (-(s + 1 : ℤ)) % 2 ≠ 0 := by omega
          cases rm <;> cases cmp <;> simp [h2, hM0]
          omega
        · have h2n : (-(s + 1 : ℤ)) % 2 = 0 := by omega
          cases rm <;> cases cmp <;> simp [h2, hM0]
          omega
      · rintro ⟨k, hk⟩
        rw [if_pos rfl] at hk
        rw [hk, Int.floor_intCast] at hfn
        exact hne (hk.trans (by rw [hfn]))

end Sys2Proof.Machine

/-! Settles O10: the scalar float words that round, one rounding per operation, and the results that are no rounding (R85 to R93, R133, R134). -/

namespace Sys2Proof.Machine
open Sys2Proof.Claims

/-! ## What the operations make of finite values -/

theorem fAdd_fin (t : FType) (rm : RMode) (na nb : Bool) (ma mb : ℕ) (ea eb : ℤ) :
    fAdd t rm (.fin na ma ea) (.fin nb mb eb) = addFin t rm na ma ea nb mb eb := rfl

theorem fSub_fin (t : FType) (rm : RMode) (na nb : Bool) (ma mb : ℕ) (ea eb : ℤ) :
    fSub t rm (.fin na ma ea) (.fin nb mb eb) = addFin t rm na ma ea (!nb) mb eb := rfl

theorem fMul_fin (t : FType) (rm : RMode) (na nb : Bool) (ma mb : ℕ) (ea eb : ℤ) :
    fMul t rm (.fin na ma ea) (.fin nb mb eb) = (FVal.fin (na != nb) (ma * mb) (ea + eb)).into t rm := rfl

theorem fFma_fin (t : FType) (rm : RMode) (na nb nc : Bool) (ma mb mc : ℕ) (ea eb ec : ℤ) :
    fFma t rm (.fin na ma ea) (.fin nb mb eb) (.fin nc mc ec) = addFin t rm (na != nb) (ma * mb) (ea + eb) nc mc ec := rfl

theorem into_rounds (t : FType) (rm : RMode) {neg : Bool} {m : ℕ} {e : ℤ} (h : ratOf neg m e ≠ 0) :
    RoundsRat t rm (ratOf neg m e) ((FVal.fin neg m e).into t rm) := by
  have hm : m ≠ 0 := mt ratOf_eq_zero.mpr h
  rw [FVal.into, if_neg hm]
  exact roundMag_ratOf t rm hm

theorem intToF_rounds (t : FType) (rm : RMode) {k : ℤ} (hk : k ≠ 0) : RoundsRat t rm k (intToF t rm k) := by
  have h := roundInt_rounds t rm 0 hk
  rw [zpow_zero, mul_one] at h
  rw [intToF, if_neg hk]
  exact h

/-- R91: a conversion to an integer delivers the integer that the mode gives, or the nearest bound with nv. -/
theorem fToInt_fin (u : Bool) (w : ℕ) (rm : RMode) (neg : Bool) (m : ℕ) (e : ℤ) :
    fToInt u w rm (.fin neg m e) =
      if intRound rm (ratOf neg m e) < typeMin u w then (wrap w (typeMin u w), flagNV)
      else if typeMax u w < intRound rm (ratOf neg m e) then (wrap w (typeMax u w), flagNV)
      else (wrap w (intRound rm (ratOf neg m e)), if ratOf neg m e = intRound rm (ratOf neg m e) then 0 else flagNX) := by
  obtain ⟨s, cmp, rest, hq⟩ : ∃ s cmp rest, quantise m e 0 false = (s, cmp, rest) := ⟨_, _, _, rfl⟩
  obtain ⟨hval, hint⟩ := intRound_ratOf rm (neg := neg) hq
  have hexact : (ratOf neg m e = intRound rm (ratOf neg m e)) ↔ rest = false := by
    rw [hint]
    refine ⟨fun h => ⟨_, h⟩, ?_⟩
    rintro ⟨k, hk⟩
    rw [hk, intRound_intCast]
  unfold fToInt
  simp only [hq, ← hval, hexact]
  by_cases hlo : intRound rm (ratOf neg m e) < typeMin u w
  · simp only [saturate, if_pos hlo]
  · by_cases hhi : typeMax u w < intRound rm (ratOf neg m e)
    · simp only [saturate, if_neg hlo, if_pos hhi]
    · simp only [saturate, if_neg hlo, if_neg hhi]
      cases rest <;> rfl

/-- R88 to R91, R93: every operation delivers one rounding of its exact result. -/
theorem floatExact : FloatExact := by
  intro t rm na nb nc ma mb mc ea eb ec
  refine ⟨fun h => addFin_rounds t rm h, fun h => ?_, fun h => ?_, fun h => ?_, fun ha hb => ?_, fun h => ?_, into_rounds t rm,
    fun k => intToF_rounds t rm, fun k => fExp2_rounds t rm, fun u w _ => fToInt_fin u w rm na ma ea⟩
  · rw [sub_eq_add_neg, ← ratOf_not] at h ⊢
    exact addFin_rounds t rm h
  · rw [ratOf_mul] at h ⊢
    exact into_rounds t rm h
  · rw [ratOf_mul] at h ⊢
    exact addFin_rounds t rm h
  · exact fDiv_rounds t rm (mt ratOf_eq_zero.mpr ha) (mt ratOf_eq_zero.mpr hb)
  · have hm : ma ≠ 0 := mt ratOf_eq_zero.mpr h.ne'
    rw [(ratOf_pos_iff hm).mp h]
    exact fSqrt_rounds t rm ea hm

/-! ## Results that are no rounding -/

theorem zeroCode_true (t : FType) : zeroCode t true = t.signBit := rfl

theorem nan_fAdd (t : FType) (rm : RMode) {x y : FVal} (h : x.isNan ∨ y.isNan) :
    fAdd t rm x y = (t.nanCode, if x.isSig || y.isSig then flagNV else 0) := by
  cases x with
  | nan => rfl
  | _ =>
    cases y with
    | nan => rfl
    | _ => simp [FVal.isNan] at h

theorem isNan_negate (x : FVal) : x.negate.isNan = x.isNan := by cases x <;> rfl

theorem isSig_negate (x : FVal) : x.negate.isSig = x.isSig := by cases x <;> rfl

theorem nan_fSub (t : FType) (rm : RMode) {x y : FVal} (h : x.isNan ∨ y.isNan) :
    fSub t rm x y = (t.nanCode, if x.isSig || y.isSig then flagNV else 0) := by
  rw [fSub, nan_fAdd t rm (by rwa [isNan_negate]), isSig_negate]

theorem nan_fDiv (t : FType) (rm : RMode) {x y : FVal} (h : x.isNan ∨ y.isNan) :
    fDiv t rm x y = (t.nanCode, if x.isSig || y.isSig then flagNV else 0) := by
  cases x with
  | nan => rfl
  | _ =>
    cases y with
    | nan => rfl
    | _ => simp [FVal.isNan] at h

/-- A product with a NaN operand is a NaN, signalling if one is. -/
theorem nan_mul {x y : FVal} (h : x.isNan ∨ y.isNan) : x.mul y = some (.nan (x.isSig || y.isSig)) := by
  cases x <;> cases y <;> simp [FVal.mul, FVal.isNan, FVal.isSig, Bool.or_comm] at h ⊢

theorem nan_fMul (t : FType) (rm : RMode) (ht : t ≠ .e2m1) {x y : FVal} (h : x.isNan ∨ y.isNan) :
    fMul t rm x y = (t.nanCode, if x.isSig || y.isSig then flagNV else 0) := by
  have hb : (t == .e2m1) = false := by simpa using ht
  simp [fMul, nan_mul h, FVal.into, hb]

theorem isSig_of_not_isNan {x : FVal} (h : x.isNan = false) : x.isSig = false := by
  cases x with
  | nan => simp [FVal.isNan] at h
  | _ => rfl

/-- A product of values that are no NaN is none. -/
theorem mul_isSig {x y p : FVal} (h : x.mul y = some p) (hx : x.isNan = false) (hy : y.isNan = false) : p.isSig = false := by
  refine isSig_of_not_isNan ?_
  cases p with
  | nan => cases x <;> cases y <;> simp [FVal.mul, FVal.isNan] at h hx hy
  | _ => rfl

/-- A fused product and sum with a NaN, where the product is not invalid. -/
theorem nan_fFma (t : FType) (rm : RMode) {x y z : FVal} (hsome : (x.mul y).isSome) (h : x.isNan ∨ y.isNan ∨ z.isNan) :
    fFma t rm x y z = (t.nanCode, if x.isSig || y.isSig || z.isSig then flagNV else 0) := by
  by_cases hxy : x.isNan ∨ y.isNan
  · simp only [fFma, nan_mul hxy]
    exact nan_fAdd t rm (.inl rfl)
  · obtain ⟨hx, hy⟩ : x.isNan = false ∧ y.isNan = false := by simpa using hxy
    have hz : z.isNan := by simpa [hx, hy] using h
    have hsig : x.isSig = false ∧ y.isSig = false := ⟨isSig_of_not_isNan hx, isSig_of_not_isNan hy⟩
    obtain ⟨p, hp⟩ := Option.isSome_iff_exists.mp hsome
    simp only [fFma, hp]
    rw [nan_fAdd t rm (.inr hz), mul_isSig hp hx hy, hsig.1, hsig.2]
    rfl

theorem fFma_of_invalid (t : FType) (rm : RMode) {x y : FVal} (z : FVal) (h : x.mul y = none) : fFma t rm x y z = (t.nanCode, flagNV) := by
  simp [fFma, h, nanOut]

theorem fMul_of_invalid (t : FType) (rm : RMode) {x y : FVal} (h : x.mul y = none) : fMul t rm x y = (t.nanCode, flagNV) := by
  simp [fMul, h, nanOut]

theorem fFma_of_mul (t : FType) (rm : RMode) {x y p : FVal} (z : FVal) (h : x.mul y = some p) : fFma t rm x y z = fAdd t rm p z := by
  simp [fFma, h]

theorem mul_inf_inf (na nb : Bool) : (FVal.inf na).mul (.inf nb) = some (.inf (na != nb)) := rfl

theorem mul_inf_fin (na nb : Bool) {m : ℕ} (e : ℤ) (h : m ≠ 0) : (FVal.inf na).mul (.fin nb m e) = some (.inf (na != nb)) := if_neg h

theorem mul_fin_inf (na nb : Bool) {m : ℕ} (e : ℤ) (h : m ≠ 0) : (FVal.fin na m e).mul (.inf nb) = some (.inf (na != nb)) := if_neg h

theorem fMul_of_mul (t : FType) (rm : RMode) {x y p : FVal} (h : x.mul y = some p) : fMul t rm x y = p.into t rm := by
  simp [fMul, h]

/-- A product with an infinity, plus what a fused sum adds (R93). -/
theorem fFma_inf (t : FType) (rm : RMode) {x y : FVal} {n : Bool} (nc : Bool) (mc : ℕ) (ec : ℤ) (h : x.mul y = some (.inf n)) :
    fFma t rm x y (.fin nc mc ec) = (t.infCode + zeroCode t n, 0) ∧ fFma t rm x y (.inf n) = (t.infCode + zeroCode t n, 0) ∧
      fFma t rm x y (.inf !n) = (t.nanCode, flagNV) := by
  simp only [fFma_of_mul t rm _ h]
  cases n <;> exact ⟨rfl, rfl, rfl⟩

/-- R85: an exact zero of a sum of values that are not both zeros of one sign is +0, or −0 under rdn. -/
theorem fFma_zero (t : FType) (rm : RMode) (na nb nc : Bool) (ma mb mc : ℕ) (ea eb ec : ℤ)
    (h : ratOf na ma ea * ratOf nb mb eb + ratOf nc mc ec = 0) : fFma t rm (.fin na ma ea) (.fin nb mb eb) (.fin nc mc ec) =
      (zeroCode t (if (ma = 0 ∨ mb = 0) ∧ mc = 0 ∧ nc = (na != nb) then nc else rm == .rdn), 0) := by
  rw [ratOf_mul] at h
  rw [fFma_fin, addFin_zero t rm h]
  by_cases hsame : nc = (na != nb)
  · simp [← hsame]
  · simp [hsame, Ne.symm hsame]

theorem floatSpecials : FloatSpecials := by
  intro t rm na nb nc ma mb mc ea eb ec x y z
  refine ⟨fun h => addFin_zero t rm h, fun h => ?_, fFma_zero t rm na nb nc ma mb mc ea eb ec, fun h => ?_, fun h1 h2 => ?_, fun h => ?_, rfl,
    fun ht h => ?_, fun h => ?_, nan_fFma t rm, fun h => ?_, ?_, ?_, fun h1 h2 => ?_, fun h1 h2 => ?_, fun h1 h2 => ?_, rfl, fun u w => rfl, ⟨rfl, rfl⟩,
    ⟨rfl, fun h => ?_⟩, fun ht => ?_⟩
  · rw [sub_eq_add_neg, ← ratOf_not] at h
    rw [fSub_fin, addFin_zero t rm h]
    cases na <;> cases nb <;> simp [zeroCode]
  · rw [fMul_fin, FVal.into, if_pos (mul_eq_zero.mpr h)]
    rfl
  · rw [fDiv, if_neg h2, if_pos h1]
    rfl
  · subst h
    exact ⟨rfl, rfl⟩
  · exact ⟨nan_fAdd t rm h, nan_fSub t rm h, nan_fMul t rm ht h, nan_fDiv t rm h⟩
  · obtain ⟨sig, rfl⟩ : ∃ sig, x = .nan sig := by cases x <;> simp [FVal.isNan] at h ⊢
    exact ⟨rfl, rfl, by cases sig <;> cases t <;> rfl, fun u w => rfl⟩
  · have hnone := Option.isNone_iff_eq_none.mp h
    exact ⟨fMul_of_invalid t rm hnone, fFma_of_invalid t rm z hnone⟩
  · exact ⟨rfl, rfl⟩
  · cases na <;> exact ⟨rfl, rfl, rfl⟩
  · subst h1 h2
    rfl
  · subst h1
    rw [fDiv, if_pos rfl, if_neg h2]
    rfl
  · subst h1
    rw [fSqrt, if_neg h2]
    rfl
  · exact ⟨fMul_of_mul t rm (mul_inf_fin na nc ec h), fMul_of_mul t rm (mul_fin_inf nc na ec h)⟩
  · refine ⟨?_, rfl, rfl, ?_, ?_, rfl, rfl, rfl, rfl, rfl, rfl, fun n h => fFma_inf t rm nc mc ec ?_⟩
    · exact if_pos rfl
    · cases na <;> rfl
    · cases na <;> rfl
    · rcases h with ⟨rfl, rfl, rfl⟩ | ⟨hm, ⟨rfl, rfl⟩ | ⟨rfl, rfl⟩, rfl⟩
      · rfl
      · exact mul_inf_fin na nb eb hm
      · rw [bne_comm]
        exact mul_fin_inf nb na eb hm

/-! ## The words that round -/

/-- What a word that rounds completes with. -/
def State.roundTo (s : State) (r : BitVec 5 × Nat × BitVec 5) : Res := .next ((s.setX r.1 (BitVec.ofNat 64 r.2.1)).orFlags r.2.2).retire

theorem ofNat_emod_eq_ofInt (z : ℤ) : BitVec.ofNat 64 (z % 2 ^ 64).toNat = BitVec.ofInt 64 z := by
  apply BitVec.eq_of_toNat_eq
  rw [BitVec.toNat_ofNat, BitVec.toNat_ofInt]
  omega

/-- R50, R91, R134: the conversions of a scalar float word. -/
theorem exec_fcvt {d a : BitVec 5} {t : BitVec 1} {v : BitVec 4} {s : State} {r : BitVec 5 × Nat × BitVec 5}
    (h : roundForm (.fcvt d a t v) s (rmOf s.ctx.frmSct) = some r) :
    exec (.fcvt d a t v) s =
      if frmReserved s.ctx.frmSct then .next (s.trap 0x02 ((encode (.fcvt d a t v)).setWidth 64)) else s.roundTo r := by
  show execFcvt d a t v s = _
  unfold execFcvt State.fltRound State.roundTo
  simp only [← ofNat_emod_eq_ofInt]
  unfold roundForm at h
  dsimp only at h
  split_ifs at h with h0 h1 h2 h3 h4 h5 h6 h7 h8
  all_goals
    obtain rfl := Option.some.inj h
    subst v
    rfl

/-- R15, R87, R134: a word that rounds raises 0x02 under a reserved frm, and else completes with its one rounding. -/
theorem exec_roundForm {i : Instr} {s : State} {r : BitVec 5 × Nat × BitVec 5} (h : roundForm i s (rmOf s.ctx.frmSct) = some r) :
    exec i s = if frmReserved s.ctx.frmSct then .next (s.trap 0x02 ((encode i).setWidth 64)) else s.roundTo r := by
  cases i
  case fadd d a b t => obtain rfl := Option.some.inj h; rfl
  case fsub d a b t => obtain rfl := Option.some.inj h; rfl
  case fmul d a b t => obtain rfl := Option.some.inj h; rfl
  case fdiv d a b t => obtain rfl := Option.some.inj h; rfl
  case fsqrt d a t => obtain rfl := Option.some.inj h; rfl
  case fcvt d a t v => exact exec_fcvt h
  all_goals simp [roundForm] at h

/-- R15, R92, R133, R134: the words that round under a frm that is not reserved. -/
theorem floatRounds : FloatRounds := by
  intro i s d v fl hfrm h
  rw [exec_roundForm h, if_neg (by simp [hfrm])]
  rfl

/-- R87, R134: the words that round under a reserved frm. -/
theorem floatReservedRounding : FloatReservedRounding := by
  intro i s r hfrm h
  rw [exec_roundForm h, if_pos hfrm]

/-- Settles O10: the words that round complete with the result of their operation, which is one rounding of the exact value. -/
theorem floatRounding : Obligations.FloatRounding := ⟨floatRounds, floatReservedRounding, floatExact, floatSpecials⟩

end Sys2Proof.Machine

/-! Settles O37: the words that push a value to a queue (R148, R154, R160, R186), and the exact float sum (R85, R110). -/

namespace Sys2Proof.Machine
open Sys2Proof.Claims

/-! ## What a word reads at its commit in an idle vector unit -/

section Issued
variable (i : Instr) (x y : Word) (s : State)

@[simp] theorem issued_sew : (issued i x y s).ctx.sew = s.ctx.sew := by simp [Ctx.sew]

@[simp] theorem issued_elem (a : BitVec 6) (j : ℕ) : (issued i x y s).ctx.elem a j = s.ctx.elem a j := by
  simp only [Ctx.elem, Ctx.getV, issued_sew]
  simp

@[simp] theorem issued_active (m : BitVec 1) (j : ℕ) : (issued i x y s).ctx.active m j = s.ctx.active m j := by
  simp [Ctx.active, Ctx.maskBit, Ctx.getV]

@[simp] theorem issued_actives (m : BitVec 1) : (issued i x y s).ctx.actives m = s.ctx.actives m := by
  rw [Ctx.actives, funext fun j => issued_active i x y s m j]
  simp [Ctx.actives]

@[simp] theorem issued_activeElems (a : BitVec 6) (m : BitVec 1) : (issued i x y s).ctx.activeElems a m = s.ctx.activeElems a m := by
  simp [Ctx.activeElems, -issued_ctx]

@[simp] theorem issued_bitOf (a : BitVec 6) : (issued i x y s).ctx.bitOf a = s.ctx.bitOf a := by
  funext j
  simp [Ctx.bitOf, Ctx.getV]

end Issued

/-! ## The values of the reductions -/

theorem Ctx.sew_cases (c : Ctx) : c.sew = 8 ∨ c.sew = 16 ∨ c.sew = 32 ∨ c.sew = 64 := by
  have h : c.vtype.toNat % 4 < 4 := Nat.mod_lt _ (by decide)
  unfold Ctx.sew sewOf
  interval_cases c.vtype.toNat % 4 <;> simp

theorem elem_lt (c : Ctx) (a : BitVec 6) (j : ℕ) : c.elem a j < 2 ^ c.sew := by
  unfold Ctx.elem elemIn
  split
  · exact Nat.mod_lt _ (Nat.two_pow_pos _)
  · exact Nat.two_pow_pos _

theorem readInt_eq_asInt (u : Bool) {w v : ℕ} (hw : 0 < w) (hv : v < 2 ^ w) : readInt u w v = asInt u w v := by
  have hhalf : 2 ^ w / 2 = 2 ^ (w - 1) := by
    obtain ⟨k, rfl⟩ := Nat.exists_eq_succ_of_ne_zero hw.ne'
    simp [pow_succ]
  unfold readInt asInt toSigned
  rw [Nat.mod_eq_of_lt hv, hhalf]
  push_cast
  rfl

theorem readInt_iMax (u : Bool) (w a b : ℕ) : readInt u w (iMax u w a b) = max (readInt u w a) (readInt u w b) := by
  unfold iMax
  split <;> omega

theorem readInt_iMin (u : Bool) (w a b : ℕ) : readInt u w (iMin u w a b) = min (readInt u w a) (readInt u w b) := by
  unfold iMin
  split <;> omega

/-- A fold of an operation that a map carries to an associative and commutative one. -/
theorem foldl_hom {f : ℕ → ℕ → ℕ} {g : ℤ → ℤ → ℤ} [Std.Associative g] [Std.Commutative g] {r : ℕ → ℤ}
    (h : ∀ a b, r (f a b) = g (r a) (r b)) (l : List ℕ) (a : ℕ) : r (l.foldl f a) = (l.map r).foldr g (r a) := by
  rw [← List.foldl_eq_foldr]
  induction l generalizing a with
  | nil => rfl
  | cons b l ih => rw [List.foldl_cons, ih, h, List.map_cons, List.foldl_cons]

theorem typeMin_le_typeMax (u : Bool) (w : ℕ) : typeMin u w ≤ typeMax u w := by
  have hw := Nat.two_pow_pos w
  have hw1 := Nat.two_pow_pos (w - 1)
  unfold typeMin typeMax
  split <;> omega

/-- The code of a value of a type reads as it. -/
theorem readInt_wrap (u : Bool) {w : ℕ} (hw : 0 < w) {z : ℤ} (hlo : typeMin u w ≤ z) (hhi : z ≤ typeMax u w) : readInt u w (wrap w z) = z := by
  obtain ⟨k, rfl⟩ := Nat.exists_eq_succ_of_ne_zero hw.ne'
  have hp := Nat.two_pow_pos k
  have h2 : 2 ^ (k + 1) = 2 * 2 ^ k := by rw [pow_succ, mul_comm]
  unfold typeMin at hlo
  unfold typeMax at hhi
  unfold readInt wrap toSigned
  simp only [Nat.succ_eq_add_one, Nat.add_sub_cancel, h2] at hlo hhi ⊢
  generalize 2 ^ k = P at hlo hhi hp ⊢
  cases u
  · simp only [Bool.false_eq_true, if_false] at hlo hhi ⊢
    rcases lt_or_ge z 0 with hz | hz
    · have hm : z % (2 * P : ℕ) = z + (2 * P : ℕ) := by
        rw [← Int.add_emod_right, Int.emod_eq_of_lt] <;> omega
      rw [hm, Nat.mod_eq_of_lt (by omega), if_neg (by omega)]
      omega
    · rw [Int.emod_eq_of_lt hz (by omega), Nat.mod_eq_of_lt (by omega), if_pos (by omega)]
      omega
  · simp only [if_true] at hlo hhi ⊢
    rw [Int.emod_eq_of_lt hlo (by omega)]
    omega

/-- A bound beyond every type clamps to the type's own. -/
theorem clamp_low (u : Bool) (c : Ctx) : clamp u c.sew (-(2 ^ 64)) = typeMin u c.sew := by
  rcases c.sew_cases with h | h | h | h <;> rw [h] <;> cases u <;> rfl

theorem clamp_high (u : Bool) (c : Ctx) : clamp u c.sew (2 ^ 64) = typeMax u c.sew := by
  rcases c.sew_cases with h | h | h | h <;> rw [h] <;> cases u <;> rfl

theorem Ctx.sew_pos (c : Ctx) : 0 < c.sew := by
  rcases c.sew_cases with h | h | h | h <;> omega

theorem map_readInt_activeElems (c : Ctx) (u : Bool) (a : BitVec 6) (m : BitVec 1) :
    (c.activeElems a m).map (readInt u c.sew) = (c.actives m).map fun j => asInt u c.sew (c.elem a j) := by
  rw [Ctx.activeElems, List.map_map]
  exact List.map_congr_left fun j _ => readInt_eq_asInt u c.sew_pos (elem_lt c a j)

theorem readInt_redmax (c : Ctx) (u : Bool) (a : BitVec 6) (m : BitVec 1) :
    readInt u c.sew ((c.activeElems a m).foldl (iMax u c.sew) (wrap c.sew (typeMin u c.sew))) =
      ((c.actives m).map fun j => asInt u c.sew (c.elem a j)).foldr max (clamp u c.sew (-(2 ^ 64))) := by
  rw [foldl_hom (readInt_iMax u c.sew), map_readInt_activeElems, readInt_wrap u c.sew_pos le_rfl (typeMin_le_typeMax u c.sew), clamp_low]

theorem readInt_redmin (c : Ctx) (u : Bool) (a : BitVec 6) (m : BitVec 1) :
    readInt u c.sew ((c.activeElems a m).foldl (iMin u c.sew) (wrap c.sew (typeMax u c.sew))) =
      ((c.actives m).map fun j => asInt u c.sew (c.elem a j)).foldr min (clamp u c.sew (2 ^ 64)) := by
  rw [foldl_hom (readInt_iMin u c.sew), map_readInt_activeElems, readInt_wrap u c.sew_pos (typeMin_le_typeMax u c.sew) le_rfl, clamp_high]

/-- A bit of a register within the grant. -/
theorem bitOf_eq (c : Ctx) (r : BitVec 6) (j : ℕ) : c.bitOf r j = (decide (j < c.lgn * 256) && (c.getV r).getLsbD j) := by
  have hb : (vbits (c.getV r) (j * 1) 1 == 1) = (c.getV r).getLsbD j := by
    rw [mul_one, BitVec.getLsbD, Nat.testBit_eq_decide_div_mod_eq]
    rfl
  unfold Ctx.bitOf elemIn
  by_cases h : j < c.lgn * 256
  · rw [if_pos (by omega), hb, decide_eq_true h, Bool.true_and]
  · rw [if_neg (by omega), decide_eq_false h]
    rfl

/-! ## A word that pushes a value -/

theorem State.pushQ_room {s : State} {q : BitVec 3} {v : Word} (h : s.ctx.q[q.toNat].length < 8) :
    s.pushQ q v = .done (s.onCtx fun c => { c with q := c.q.set q.toNat (s.ctx.q[q.toNat] ++ [v]) }) := if_neg (by omega)

theorem State.pushQ_full {s : State} {q : BitVec 3} {v : Word} (h : 8 ≤ s.ctx.q[q.toNat].length) : s.pushQ q v = .wait := if_pos h

/-- What the commit of a word that pushes `v` leaves in an idle vector unit (R18, R29). -/
theorem exec_push {i : Instr} {s : State} {q : BitVec 3} {v : Word} (hs : VectorIdle s) (hv : entersViq i = true) (hx : xDest i = none)
    (hc : ∀ a n, i ≠ .csrw a n ∧ i ≠ .csrs a n ∧ i ≠ .csrc a n)
    (hcap : captured i s 0 = 0 ∧ captured i s 1 = 0) (h : commit i 0 0 (issued i 0 0 s) = (issued i 0 0 s).pushQ q v) :
    (s.ctx.q[q.toNat].length < 8 →
      exec i s = .next { s with ctx := { s.ctx.retire with q := s.ctx.q.set q.toNat (s.ctx.q[q.toNat] ++ [v]) } }) ∧
    (8 ≤ s.ctx.q[q.toNat].length → exec i s = .next (issued i 0 0 s)) := by
  refine ⟨fun hl => ?_, fun hl => ?_⟩
  · refine exec_of_commit_ctx (f := fun c => { c with q := c.q.set q.toNat (s.ctx.q[q.toNat] ++ [v]) })
      ⟨fun _ => rfl, fun _ => rfl, fun _ _ => rfl⟩ hs hv hx hc ?_ |>.trans ?_
    · rw [hcap.1, hcap.2, h, State.pushQ_room (by simpa using hl)]
      simp
    · simp
  · rw [State.pushQ_full (by simpa using hl)] at h
    rw [exec_of_commit_wait hs hv hx hc (by rw [hcap.1, hcap.2, h]), hcap.1, hcap.2]

/-- R148, R154, R160, R186: the value that the commit of such a word pushes. -/
theorem commit_queueForm {i : Instr} {s : State} {q : BitVec 3} {v : Word} (h : queueForm i s = some (q, v)) :
    commit i 0 0 (issued i 0 0 s) = (issued i 0 0 s).pushQ q v := by
  have hact : ∀ m, (List.range s.ctx.vl).filter (s.ctx.active m) = s.ctx.actives m := fun _ => rfl
  cases i
  case vgetvl q' =>
    obtain ⟨rfl, rfl⟩ := Prod.mk.inj (Option.some.inj h)
    show commitVgetvl _ _ = _
    simp [commitVgetvl]
  case vredsum q' a m u =>
    obtain ⟨rfl, rfl⟩ := Prod.mk.inj (Option.some.inj h)
    show commitVredsum _ _ _ _ _ = _
    rw [commitVredsum, issued_activeElems, issued_sew, extResult, readInt_eq_asInt _ s.ctx.sew_pos (Nat.mod_lt _ (Nat.two_pow_pos _))]
    rfl
  case vredmax q' a m u =>
    obtain ⟨rfl, rfl⟩ := Prod.mk.inj (Option.some.inj h)
    show commitVredmax _ _ _ _ _ = _
    rw [commitVredmax, issued_activeElems, issued_sew, extResult, readInt_redmax]
    rfl
  case vredmin q' a m u =>
    obtain ⟨rfl, rfl⟩ := Prod.mk.inj (Option.some.inj h)
    show commitVredmin _ _ _ _ _ = _
    rw [commitVredmin, issued_activeElems, issued_sew, extResult, readInt_redmin]
    rfl
  case vredand q' a m =>
    obtain ⟨rfl, rfl⟩ := Prod.mk.inj (Option.some.inj h)
    show commitVredand _ _ _ _ = _
    rw [commitVredand, issued_activeElems, issued_sew, List.foldl_eq_foldr]
    rfl
  case vredor q' a m =>
    obtain ⟨rfl, rfl⟩ := Prod.mk.inj (Option.some.inj h)
    show commitVredor _ _ _ _ = _
    rw [commitVredor, issued_activeElems, List.foldl_eq_foldr]
    rfl
  case vfirst q' a m =>
    obtain ⟨rfl, rfl⟩ := Prod.mk.inj (Option.some.inj h)
    show commitVfirst _ _ _ _ = _
    rw [commitVfirst, issued_actives, issued_bitOf, funext (bitOf_eq s.ctx a)]
    rfl
  case vcount q' a m =>
    obtain ⟨rfl, rfl⟩ := Prod.mk.inj (Option.some.inj h)
    show commitVcount _ _ _ _ = _
    rw [commitVcount, issued_actives, issued_bitOf, funext (bitOf_eq s.ctx a)]
    rfl
  case vfacet q' a =>
    obtain ⟨rfl, rfl⟩ := Prod.mk.inj (Option.some.inj h)
    show commitVfacet _ _ _ = _
    simp [commitVfacet, Ctx.getFacet]
  all_goals cases h

/-- The words that push a value to a queue go through the VIQ and read no x register. -/
theorem queueForm_word {i : Instr} {s : State} {r : BitVec 3 × Word} (h : queueForm i s = some r) :
    entersViq i = true ∧ xDest i = none ∧ (∀ a n, i ≠ .csrw a n ∧ i ≠ .csrs a n ∧ i ≠ .csrc a n) ∧
      captured i s 0 = 0 ∧ captured i s 1 = 0 := by
  unfold queueForm at h
  split at h
  case h_10 => cases h
  all_goals exact ⟨rfl, rfl, by simp, rfl, rfl⟩

theorem queueResults : QueueResults := by
  intro i s q v h hs
  obtain ⟨hv, hx, hc, hcap⟩ := queueForm_word h
  exact exec_push hs hv hx hc hcap (commit_queueForm h)

/-! ## The exact float sum -/

section FloatSum
variable {s : State} {q : BitVec 3} {a : BitVec 6} {m k : BitVec 1}

/-- R87, R143: vfredsum under a width without a type of its kind, or under a reserved frm. -/
theorem exec_vfredsum_bad (hs : VectorIdle s) (h : floatKind (k == 1) s.ctx.sew = none ∨ frmReserved s.ctx.frm = true) :
    exec (.vfredsum q a m k) s =
      .next ((issued (.vfredsum q a m k) 0 0 s).takeTrap false true 0x02 ((encode (.vfredsum q a m k)).setWidth 64)) := by
  refine exec_of_commit_trap hs rfl rfl (by simp) ?_
  show commitVfredsum q a m k (issued (.vfredsum q a m k) 0 0 s) = _
  unfold commitVfredsum State.floatOp
  rw [issued_sew]
  split
  · rfl
  · next t ht =>
    rcases h with h | h
    · rw [h] at ht
      cases ht
    · rw [issued_ctx, if_pos (by simpa using h)]
      rfl

theorem exec_vfredsum (hs : VectorIdle s) {ty : FType} (ht : floatKind (k == 1) s.ctx.sew = some ty) (hf : frmReserved s.ctx.frm = false)
    (hl : s.ctx.q[q.toNat].length < 8) {r : ℕ × BitVec 5}
    (hr : r = exactSum ty (rmOf s.ctx.frm) ((s.ctx.activeElems a m).map ty.decode)) :
    exec (.vfredsum q a m k) s = .next { s with ctx := { s.ctx.retire with
      q := s.ctx.q.set q.toNat (s.ctx.q[q.toNat] ++ [BitVec.ofNat 64 r.1]), fflags := s.ctx.fflags ||| r.2 } } := by
  refine exec_of_commit_ctx (f := fun c => { c with
    q := c.q.set q.toNat (s.ctx.q[q.toNat] ++ [BitVec.ofNat 64 r.1]), fflags := c.fflags ||| r.2 })
    ⟨fun _ => rfl, fun _ => rfl, fun _ _ => rfl⟩ hs rfl rfl (by simp) ?_ |>.trans ?_
  · show commitVfredsum q a m k (issued (.vfredsum q a m k) 0 0 s) = _
    have hfrm : (issued (.vfredsum q a m k) 0 0 s).ctx.frm = s.ctx.frm := by simp
    have hq : (issued (.vfredsum q a m k) 0 0 s).ctx.q = s.ctx.q := by simp
    unfold commitVfredsum State.floatOp
    simp only [issued_sew, ht, issued_activeElems, hfrm, hf, Bool.and_false, Bool.false_eq_true, if_false, ← hr]
    rw [State.pushQ_room (by rw [hq]; exact hl), hq]
    rfl
  · simp

end FloatSum

/-- A term of the exact sum: the number of a finite value at the least exponent of the type. -/
def termAt (e0 : ℤ) : FVal → ℤ
  | .fin n m e => atExp n m e e0
  | _ => 0

theorem foldl_terms {f : ℤ → FVal → ℤ} {e0 : ℤ} (hf : ∀ x v, f x v = x + termAt e0 v) (vs : List FVal) (x : ℤ) :
    vs.foldl f x = x + (vs.map (termAt e0)).sum := by
  induction vs generalizing x with
  | nil => simp
  | cons v vs ih => rw [List.foldl_cons, ih, hf, List.map_cons, List.sum_cons, ← add_assoc]

/-- The sign of a zero sum, with the tests for all −0 and all +0 named. -/
theorem zeroSum_code (t : FType) (rdn : Bool) {f g : FVal → Bool} (hf : ∀ v, f v = zeroOf true v) (hg : ∀ v, g v = zeroOf false v)
    {vs : List FVal} (hne : vs ≠ []) :
    (zeroCode t (if vs.all f then true else if vs.all g then false else rdn), (0 : BitVec 5)) =
      (if vs.all (zeroOf false) then 0 else if rdn = true ∨ vs.all (zeroOf true) then t.signBit else 0, 0) := by
  rw [funext hf, funext hg]
  have hboth : vs.all (zeroOf true) = true → vs.all (zeroOf false) = false := by
    obtain ⟨v, rest, rfl⟩ := List.exists_cons_of_ne_nil hne
    cases v <;> simp +contextual [zeroOf]
  cases hm : vs.all (zeroOf true)
  · cases vs.all (zeroOf false) <;> cases rdn <;> rfl
  · rw [hboth hm]
    cases rdn <;> rfl

section ExactSum
variable {t : FType} {rm : RMode} {vs : List FVal}

/-- The exact sum of finite elements: one rounding of the integer sum, or a zero with its sign. -/
theorem exactSum_fin (hfin : ∀ v ∈ vs, v.isFin = true) (hne : vs ≠ []) {x : ℤ}
    (hx : x = (vs.map (termAt (1 - t.bias - t.fbits))).sum) : exactSum t rm vs =
      if x = 0 then (if vs.all (zeroOf false) then 0 else if (rm == .rdn) = true ∨ vs.all (zeroOf true) then t.signBit else 0, 0)
      else roundInt t rm x (1 - t.bias - t.fbits) := by
  have hnan : vs.any FVal.isNan = false := by
    rw [List.any_eq_false]
    intro v hv
    have := hfin v hv
    cases v <;> simp [FVal.isFin, FVal.isNan] at this ⊢
  have hinf : ∀ n, (vs.any fun v => v == .inf n) = false := by
    intro n
    rw [List.any_eq_false]
    intro v hv
    have := hfin v hv
    cases v <;> simp [FVal.isFin] at this ⊢
  have hempty : vs.isEmpty = false := by simpa using hne
  unfold exactSum
  simp only [hnan, hinf, hempty, Bool.false_eq_true, if_false, Bool.and_false, Bool.or_false]
  rw [foldl_terms (e0 := 1 - t.bias - t.fbits) (fun x v => by cases v <;> simp [termAt]), zero_add, ← hx]
  split
  · exact zeroSum_code t _ (fun v => by cases v <;> simp [zeroOf]) (fun v => by cases v <;> simp [zeroOf]) hne
  · rfl

end ExactSum

theorem ordinary_exp {b f e : ℤ} {ef fr m m' : ℕ} {neg n : Bool}
    (h : (if ef = 0 then FVal.fin neg fr (1 - b - f) else .fin neg m' (ef - b - f)) = .fin n m e) : 1 - b - f ≤ e := by
  split at h <;> obtain ⟨-, -, rfl⟩ := FVal.fin.inj h <;> omega

/-- The exponent of a finite value of a type is not below the type's least. -/
theorem decode_exp {t : FType} {c m : ℕ} {n : Bool} {e : ℤ} (h : t.decode c = .fin n m e) : 1 - t.bias - t.fbits ≤ e := by
  unfold FType.decode at h
  cases t
  case e2m1 => exact ordinary_exp h
  case e4m3 =>
    dsimp only at h
    split at h
    · cases h
    · exact ordinary_exp h
  all_goals
    dsimp only at h
    split at h
    · split at h <;> cases h
    · exact ordinary_exp h

/-- The sum of the terms, as a rational number. -/
theorem sum_terms {t : FType} {vs : List FVal} (hfin : ∀ v ∈ vs, v.isFin = true) (hdec : ∀ v ∈ vs, ∃ c, v = t.decode c) :
    ((vs.map (termAt (1 - t.bias - t.fbits))).sum : ℚ) * 2 ^ (1 - t.bias - t.fbits) = (vs.map ratVal).sum := by
  induction vs with
  | nil => simp
  | cons v vs ih =>
    obtain ⟨hv, hvs⟩ := List.forall_mem_cons.mp hfin
    obtain ⟨⟨c, hc⟩, hcs⟩ := List.forall_mem_cons.mp hdec
    have hterm : (termAt (1 - t.bias - t.fbits) v : ℚ) * 2 ^ (1 - t.bias - t.fbits) = ratVal v := by
      cases v with
      | fin n m e => exact atExp_mul (decode_exp hc.symm) n m
      | _ => cases hv
    rw [List.map_cons, List.map_cons, List.sum_cons, List.sum_cons, Int.cast_add, add_mul, hterm, ih hvs hcs]

section ExactSum
variable {t : FType} (rm : RMode) {vs : List FVal}

theorem exactSum_rounds (hfin : ∀ v ∈ vs, v.isFin = true) (hdec : ∀ v ∈ vs, ∃ c, v = t.decode c) (h : (vs.map ratVal).sum ≠ 0) :
    RoundsRat t rm (vs.map ratVal).sum (exactSum t rm vs) := by
  have hne : vs ≠ [] := by
    rintro rfl
    exact h rfl
  rw [← sum_terms hfin hdec] at h ⊢
  have hx := Int.cast_ne_zero.mp (left_ne_zero_of_mul h)
  rw [exactSum_fin hfin hne rfl, if_neg hx]
  exact roundInt_rounds t rm _ hx

theorem exactSum_zero (hfin : ∀ v ∈ vs, v.isFin = true) (hdec : ∀ v ∈ vs, ∃ c, v = t.decode c) (h : (vs.map ratVal).sum = 0) :
    exactSum t rm vs = (if vs.all (zeroOf false) then 0 else if rm = .rdn ∨ vs.all (zeroOf true) then t.signBit else 0, 0) := by
  rcases eq_or_ne vs [] with rfl | hne
  · rfl
  · rw [← sum_terms hfin hdec, mul_eq_zero, or_iff_left (two_zpow_pos _).ne', Int.cast_eq_zero] at h
    rw [exactSum_fin hfin hne rfl, if_pos h]
    simp only [beq_iff_eq]

theorem any_inf (n : Bool) : (vs.any fun v => v == .inf n) = decide (FVal.inf n ∈ vs) := by
  rw [Bool.eq_iff_iff]
  simp

/-- A NaN among the elements. -/
theorem exactSum_nan (h : ∃ v ∈ vs, v.isNan = true) : exactSum t rm vs =
    (t.nanCode, if (∃ v ∈ vs, v.isSig = true) ∨ (.inf false ∈ vs ∧ .inf true ∈ vs) then flagNV else 0) := by
  unfold exactSum nanOut
  rw [if_pos (by simpa using h)]
  congr 2
  simp

/-- Infinities among elements that are no NaN. -/
theorem exactSum_inf (h : ∀ v ∈ vs, v.isNan = false) (hinf : .inf false ∈ vs ∨ .inf true ∈ vs) : exactSum t rm vs =
    if .inf false ∈ vs ∧ .inf true ∈ vs then (t.nanCode, flagNV) else (t.infCode + zeroCode t (decide (.inf true ∈ vs)), 0) := by
  unfold exactSum nanOut
  rw [if_neg (by simpa using h)]
  simp only [any_inf]
  by_cases hp : FVal.inf false ∈ vs <;> by_cases hm : FVal.inf true ∈ vs
  · simp [hp, hm]
  · simp [hp, hm]
  · simp [hp, hm]
  · exact absurd hinf (by simp [hp, hm])

end ExactSum

theorem floatSum : FloatSum := by
  refine ⟨fun s q a m k hs h => exec_vfredsum_bad hs h, fun s q a m k ty hs ht hf hl => exec_vfredsum hs ht hf hl (by rw [Ctx.activeElems, List.map_map]; rfl), ?_⟩
  rintro ty rm codes vs sum hvs rfl
  have hdec : ∀ v ∈ vs, ∃ c, v = ty.decode c := by
    subst hvs
    simp +contextual [eq_comm]
  refine ⟨fun hfin => exactSum_rounds rm hfin hdec, fun hfin => exactSum_zero rm hfin hdec, exactSum_nan rm, fun hn hp hm => ?_, fun n hn hp hm => ?_⟩
  · rw [exactSum_inf rm hn (.inl hp), if_pos ⟨hp, hm⟩]
  · cases n
    · rw [exactSum_inf rm hn (.inl hp), if_neg fun h => hm h.2, decide_eq_false (show FVal.inf true ∉ vs from hm)]
      rfl
    · rw [exactSum_inf rm hn (.inr hp), if_neg fun h => hm h.1, decide_eq_true hp]
      rfl

/-- Settles O37: each word pushes the value of its form at its commit, and the float sum is exact before its one rounding. -/
theorem queuePushes : Obligations.QueuePushes := ⟨queueResults, floatSum⟩

end Sys2Proof.Machine

/-! Settles O20: writes of the plain CSRs of kind D and of the in-order CSRs (R15, R398, R399, R401, R403). -/

namespace Sys2Proof.Machine
open Sys2Proof.Claims

/-! ## The bits that a write stores -/

/-- The bits of a number under a mask of `k` ones from bit `a`. -/
theorem and_ones (x k a : ℕ) : x &&& ((2 ^ k - 1) * 2 ^ a) = x / 2 ^ a % 2 ^ k * 2 ^ a := by
  apply Nat.eq_of_testBit_eq
  intro i
  rw [Nat.testBit_and, ← Nat.shiftLeft_eq, ← Nat.shiftLeft_eq, Nat.testBit_shiftLeft, Nat.testBit_shiftLeft, Nat.testBit_two_pow_sub_one,
    Nat.testBit_mod_two_pow, Nat.testBit_div_two_pow]
  by_cases h : a ≤ i
  · simp [h, Bool.and_comm]
  · simp [h]

theorem and_low (v : Word) (k : ℕ) : v.toNat &&& (2 ^ k - 1) = v.toNat % 2 ^ k := Nat.and_two_pow_sub_one_eq_mod _ k

theorem setWidth_and {k : ℕ} (hk : k ≤ 64) (v : Word) : (v.setWidth k).setWidth 64 = v &&& BitVec.ofNat 64 (2 ^ k - 1) := by
  apply BitVec.eq_of_toNat_eq
  have hlt : 2 ^ k - 1 < 2 ^ 64 := by
    have := Nat.pow_le_pow_right (show 0 < 2 by decide) hk
    omega
  rw [BitVec.toNat_and, BitVec.toNat_ofNat, Nat.mod_eq_of_lt hlt, and_low, BitVec.toNat_setWidth, BitVec.toNat_setWidth]
  exact Nat.mod_eq_of_lt (lt_of_le_of_lt (Nat.mod_le _ _) v.isLt)

theorem pcBits_and (v : Word) : BitVec.ofNat 64 (pcBits v) = v &&& 0x007FFFFFFFFFFFFC := by
  apply BitVec.eq_of_toNat_eq
  have h := and_ones v.toNat 53 2
  rw [BitVec.toNat_and, BitVec.toNat_ofNat]
  show pcBits v % 2 ^ 64 = v.toNat &&& ((2 ^ 53 - 1) * 2 ^ 2)
  rw [h]
  unfold pcBits
  omega

/-- The bits under a mask of two fields that do not meet. -/
theorem and_add {x m n : ℕ} {k : ℕ} (hn : n < 2 ^ k) (hm : 2 ^ k ∣ m) : x &&& (m + n) = (x &&& m) + (x &&& n) := by
  obtain ⟨p, rfl⟩ := hm
  have hx : x &&& 2 ^ k * p = 2 ^ k * (x / 2 ^ k &&& p) := by
    apply Nat.eq_of_testBit_eq
    intro i
    rw [Nat.testBit_and, mul_comm, ← Nat.shiftLeft_eq, mul_comm, ← Nat.shiftLeft_eq, Nat.testBit_shiftLeft, Nat.testBit_shiftLeft, Nat.testBit_and,
      Nat.testBit_div_two_pow]
    by_cases h : k ≤ i
    · simp [h]
    · simp [h]
  have hlt : x &&& n < 2 ^ k := lt_of_le_of_lt Nat.and_le_right hn
  rw [hx, Nat.two_pow_add_eq_or_of_lt hn, Nat.two_pow_add_eq_or_of_lt hlt, Nat.and_or_distrib_left, hx]

theorem vfsMask_and (v : Word) : vfsMask v = v &&& 0x3FFFFFF00FF := by
  apply BitVec.eq_of_toNat_eq
  rw [BitVec.toNat_and, vfsMask, BitVec.toNat_ofNat]
  show _ = v.toNat &&& ((2 ^ 26 - 1) * 2 ^ 16 + (2 ^ 8 - 1))
  rw [and_add (k := 16) (by decide) (by decide), and_ones, and_low]
  omega

theorem causeBits_and (v : Word) : causeBits v = v &&& 0x80000000000001FF := by
  apply BitVec.eq_of_toNat_eq
  rw [BitVec.toNat_and, causeBits, BitVec.toNat_ofNat]
  show _ = v.toNat &&& ((2 ^ 1 - 1) * 2 ^ 63 + (2 ^ 9 - 1))
  rw [and_add (k := 63) (by decide) (by decide), and_ones, and_low]
  omega

theorem epcBits_and (v : Word) : epcBits v = v &&& 0x8FFFFFFFFFFFFFFC := by
  apply BitVec.eq_of_toNat_eq
  rw [BitVec.toNat_and, epcBits, BitVec.toNat_ofNat]
  show _ = v.toNat &&& ((2 ^ 1 - 1) * 2 ^ 63 + ((2 ^ 5 - 1) * 2 ^ 55 + (2 ^ 53 - 1) * 2 ^ 2))
  rw [and_add (k := 63) (by decide) (by decide), and_add (k := 55) (by decide) (by decide), and_ones, and_ones, and_ones]
  unfold pcBits
  omega

theorem low55_and (v : Word) : BitVec.ofNat 64 (v.toNat % 2 ^ 55) = v &&& 0x007FFFFFFFFFFFFF := by
  apply BitVec.eq_of_toNat_eq
  rw [BitVec.toNat_and, BitVec.toNat_ofNat]
  show _ = v.toNat &&& (2 ^ 55 - 1)
  rw [and_low]
  omega

theorem flag_and (v : Word) : (if v.getLsbD 0 then (1 : Word) else 0) = v &&& 0x1 := by
  apply BitVec.eq_of_toNat_eq
  rw [BitVec.toNat_and]
  show _ = v.toNat &&& (2 ^ 1 - 1)
  rw [and_low, BitVec.getLsbD, Nat.testBit_eq_decide_div_mod_eq]
  rcases Nat.mod_two_eq_zero_or_one v.toNat with h | h <;> simp [h]

theorem all_and (v : Word) : v = v &&& 0xFFFFFFFFFFFFFFFF := (BitVec.and_allOnes).symm

/-! ## What the CSRs read as after a write -/

theorem csr_of_toNat {n : BitVec 12} {k : ℕ} (h : n.toNat = k) : n = BitVec.ofNat 12 k := by
  rw [← h, BitVec.ofNat_toNat, BitVec.setWidth_eq]

/-- R15, R399: an in-order CSR reads as written. -/
theorem readCsr_writeInOrder_same (s : State) (c : Ctx) (v : Word) {n : BitVec 12} {mask : Word} (h : inOrderMask n = some mask) :
    ({ s with ctx := c.writeInOrder n v } : State).readCsr n = v &&& mask := by
  unfold inOrderMask at h
  split at h
  case h_1 hn => obtain ⟨rfl, rfl⟩ := And.intro (csr_of_toNat hn) (Option.some.inj h); exact setWidth_and (by decide) v
  case h_2 hn => obtain ⟨rfl, rfl⟩ := And.intro (csr_of_toNat hn) (Option.some.inj h); exact setWidth_and (by decide) v
  case h_3 hn => obtain ⟨rfl, rfl⟩ := And.intro (csr_of_toNat hn) (Option.some.inj h); exact setWidth_and (by decide) v
  case h_4 hn => obtain ⟨rfl, rfl⟩ := And.intro (csr_of_toNat hn) (Option.some.inj h); exact low55_and v
  case h_5 hn => obtain ⟨rfl, rfl⟩ := And.intro (csr_of_toNat hn) (Option.some.inj h); exact all_and v
  case h_6 hn => obtain ⟨rfl, rfl⟩ := And.intro (csr_of_toNat hn) (Option.some.inj h); exact setWidth_and (by decide) v
  case h_7 hn => obtain ⟨rfl, rfl⟩ := And.intro (csr_of_toNat hn) (Option.some.inj h); exact setWidth_and (by decide) v
  case h_8 => cases h

/-- What a write of an in-order CSR makes of the context, field by field (R15, R399). -/
def putInOrder (n : BitVec 12) (v : Word) (c : Ctx) : Ctx := { c with
  vl := if n = 0x001 then Nat.min c.vl (vlmaxOf c.lgn (sewOf v.toNat)) else c.vl
  vtype := if n = 0x001 then v.setWidth 5 else c.vtype
  vmt := if n = 0x002 then v.setWidth 4 else c.vmt
  vrm := if n = 0x003 then v.setWidth 2 else c.vrm
  vnotify := if n = 0x006 then BitVec.ofNat 64 (v.toNat % 2 ^ 55) else c.vnotify
  vthr := if n = 0x007 then v else c.vthr
  frm := if n = 0x008 then v.setWidth 3 else c.frm
  wfmt := if n = 0x00C then v.setWidth 4 else c.wfmt }

theorem Ctx.writeInOrder_eq (c : Ctx) (v : Word) {n : BitVec 12} {mask : Word} (h : inOrderMask n = some mask) :
    c.writeInOrder n v = putInOrder n v c := by
  unfold inOrderMask at h
  split at h
  case h_8 => cases h
  case h_1 hn =>
    obtain rfl := csr_of_toNat hn
    have hsew : sewOf (v.setWidth 5).toNat = sewOf v.toNat := by
      have hmod : v.toNat % 2 ^ 5 % 4 = v.toNat % 4 := Nat.mod_mod_of_dvd _ (by decide)
      rw [BitVec.toNat_setWidth, sewOf, sewOf, hmod]
    show ({ c with vtype := v.setWidth 5, vl := Nat.min c.vl (vlmaxOf c.lgn (sewOf (v.setWidth 5).toNat)) } : Ctx) = _
    rw [hsew]
    rfl
  all_goals
    next hn =>
    obtain rfl := csr_of_toNat hn
    rfl

/-- R397: an in-order CSR is written alone, but for vtype, which keeps vl to VLMAX. -/
theorem readCsr_putInOrder_other (s : State) (c : Ctx) (v : Word) {n m : BitVec 12} (hm : m ≠ n) (hvl : m = 0x000 → n ≠ 0x001) :
    ({ s with ctx := putInOrder n v c } : State).readCsr m = ({ s with ctx := c } : State).readCsr m := by
  have hne : ∀ k, m.toNat = k → n ≠ BitVec.ofNat 12 k := fun k hk hn => hm (by rw [hn, csr_of_toNat hk])
  unfold State.readCsr
  split
  case h_1 hk => simp only [putInOrder, if_neg (hvl (csr_of_toNat hk))]
  case h_2 hk | h_3 hk | h_4 hk | h_9 hk | h_13 hk => simp [putInOrder, hne _ hk]
  case h_7 hk | h_8 hk => exact if_neg (hne _ hk)
  all_goals rfl

/-- R401, R403: what a write of a plain CSR of kind D makes of the context. -/
def writePlain (n : BitVec 12) (v : Word) (c : Ctx) : Ctx := { c with
  vsat := if n = 0x004 then v.getLsbD 0 else c.vsat
  vfs := if n = 0x005 then vfsMask v else c.vfs
  fflags := if n = 0x009 then v.setWidth 5 else c.fflags
  cause := if n = 0x101 then causeBits v else c.cause
  epc := if n = 0x102 then epcBits v else c.epc
  epcv := if n = 0x103 then BitVec.ofNat 64 (pcBits v) else c.epcv
  tval := if n = 0x104 then v else c.tval
  tvec := if n = 0x105 then BitVec.ofNat 64 (pcBits v) else c.tvec
  tmr := if n = 0x10C then v else c.tmr
  htvec := if n = 0x205 then BitVec.ofNat 64 (pcBits v) else c.htvec }

theorem writeDrain_plain (s : State) (v w : Word) {n : BitVec 12} {mask : Word} (h : csrMask n = some mask) :
    s.writeDrain n v w = .ok (s.onCtx (writePlain n v)) := by
  unfold csrMask at h
  split at h
  case h_11 => cases h
  all_goals
    next hn =>
    obtain rfl := csr_of_toNat hn
    rfl

theorem readCsr_writePlain_same (s : State) (c : Ctx) (v : Word) {n : BitVec 12} {mask : Word} (h : csrMask n = some mask) :
    ({ s with ctx := writePlain n v c } : State).readCsr n = v &&& mask := by
  unfold csrMask at h
  split at h
  case h_1 hn => obtain ⟨rfl, rfl⟩ := And.intro (csr_of_toNat hn) (Option.some.inj h); exact flag_and v
  case h_2 hn => obtain ⟨rfl, rfl⟩ := And.intro (csr_of_toNat hn) (Option.some.inj h); exact vfsMask_and v
  case h_3 hn => obtain ⟨rfl, rfl⟩ := And.intro (csr_of_toNat hn) (Option.some.inj h); exact setWidth_and (by decide) v
  case h_4 hn => obtain ⟨rfl, rfl⟩ := And.intro (csr_of_toNat hn) (Option.some.inj h); exact causeBits_and v
  case h_5 hn => obtain ⟨rfl, rfl⟩ := And.intro (csr_of_toNat hn) (Option.some.inj h); exact epcBits_and v
  case h_6 hn | h_8 hn | h_10 hn => obtain ⟨rfl, rfl⟩ := And.intro (csr_of_toNat hn) (Option.some.inj h); exact pcBits_and v
  case h_7 hn | h_9 hn => obtain ⟨rfl, rfl⟩ := And.intro (csr_of_toNat hn) (Option.some.inj h); exact all_and v
  case h_11 => cases h

theorem readCsr_writePlain_other (s : State) (c : Ctx) (v : Word) {n m : BitVec 12} (hm : m ≠ n) :
    ({ s with ctx := writePlain n v c } : State).readCsr m = ({ s with ctx := c } : State).readCsr m := by
  have hne : ∀ k, m.toNat = k → n ≠ BitVec.ofNat 12 k := fun k hk hn => hm (by rw [hn, csr_of_toNat hk])
  unfold State.readCsr
  split
  case h_5 hk | h_10 hk => simp [writePlain, hne _ hk]
  case h_6 hk | h_20 hk | h_21 hk | h_22 hk | h_23 hk | h_24 hk | h_31 hk | h_32 hk => exact if_neg (hne _ hk)
  all_goals rfl

/-- A completed word leaves every CSR but status as it was, and status too where no latch was pending. -/
theorem readCsr_retire (s : State) {m : BitVec 12} (h : m ≠ 0x100 ∨ s.ctx.latch = none) : s.retire.readCsr m = s.readCsr m := by
  have hm : m.toNat = 0x100 → s.ctx.latch = none := fun e => h.resolve_left (not_not.mpr (BitVec.eq_of_toNat_eq e))
  rw [State.retire_only]
  unfold State.readCsr
  split
  case h_19 hs => simp [Ctx.status, hm hs]
  all_goals rfl

/-! ## The words -/

/-- The registers that the end of a body leaves as they are (R124, R128). -/
theorem Ctx.retire_getX_of_bodyWrites {c : Ctx} {r : BitVec 5} (h : bodyWrites c r = false) : c.retire.getX r = c.getX r := by
  refine Ctx.retire_getX c r fun l hl => ?_
  unfold bodyWrites at h
  rw [hl] at h
  dsimp only at h
  split at h
  · next hi => exact .inl hi
  · split at h
    · next hn => exact .inr (.inl ⟨hn, by simpa using h⟩)
    · next hn => exact .inr (.inr ⟨by simp [hn], by simpa [imp_iff_not_or] using h⟩)

/-- The three words that write a CSR, by the operation that they share and its number. -/
theorem exec_csrWrite {i : Instr} {s : State} {n : BitVec 12} {v : Word} (h : csrWrite i s (s.readCsr n) = some (n, v)) :
    ∃ fn a, v = csrResult fn (s.readCsr n) (s.getX a) ∧
      exec i s = s.csrAccess fn i a n fun u => u.commitCsr fn n (s.getX a) := by
  cases i
  case csrw a m => obtain ⟨rfl, rfl⟩ := Prod.mk.inj (Option.some.inj h); exact ⟨1, a, rfl, rfl⟩
  case csrs a m => obtain ⟨rfl, rfl⟩ := Prod.mk.inj (Option.some.inj h); exact ⟨2, a, rfl, rfl⟩
  case csrc a m => obtain ⟨rfl, rfl⟩ := Prod.mk.inj (Option.some.inj h); exact ⟨3, a, rfl, rfl⟩
  all_goals cases h

theorem csrMask_rights {n : BitVec 12} {mask : Word} (h : csrMask n = some mask) : csrWritable n = true ∧ inOrderCsr n = false := by
  unfold csrMask at h
  split at h
  case h_11 => cases h
  all_goals
    next hn =>
    obtain rfl := csr_of_toNat hn
    exact ⟨rfl, rfl⟩

theorem inOrderMask_rights {n : BitVec 12} {mask : Word} (h : inOrderMask n = some mask) :
    csrWritable n = true ∧ inOrderCsr n = true ∧ csrWriteLevel n = .app := by
  unfold inOrderMask at h
  split at h
  case h_8 => cases h
  all_goals
    next hn =>
    obtain rfl := csr_of_toNat hn
    exact ⟨rfl, rfl, rfl⟩

/-- R398, R401, R403: a plain CSR of kind D. -/
theorem csrAccess_plain {s : State} {n : BitVec 12} {mask : Word} (hn : csrMask n = some mask) (hd : Drained s (csrWriteLevel n))
    (fn : ℕ) (i : Instr) (a : BitVec 5) (go : State → Commit) : s.csrAccess fn i a n go =
      .next (s.onCtx (writePlain n (csrResult fn (s.readCsr n) (s.getX a)))).retire := by
  obtain ⟨hw, ho⟩ := csrMask_rights hn
  unfold State.csrAccess
  rw [State.needs_allowed hd.2, hw, ho]
  simp only [Bool.not_true, Bool.false_eq_true, if_false]
  rw [State.whenDrained_empty hd.1, writeDrain_plain s _ _ hn]

theorem csrMask_ne_status {n : BitVec 12} {mask : Word} (h : csrMask n = some mask) : n ≠ 0x100 := by
  rintro rfl
  cases h

theorem csrWrites : CsrWrites := by
  intro i s n v mask h hn hd
  obtain ⟨fn, a, hv, hexec⟩ := exec_csrWrite h
  rw [csrAccess_plain hn hd, ← hv] at hexec
  refine ⟨_, hexec, ?_, fun m _ hm hst _ => ?_, ?_⟩
  · rw [readCsr_retire _ (.inl (csrMask_ne_status hn))]
    exact readCsr_writePlain_same s s.ctx v hn
  · rw [readCsr_retire _ (.inl hst)]
    exact readCsr_writePlain_other s s.ctx v hm
  · refine ⟨?_, ?_, ?_, ?_, ?_, ?_, ?_, ?_, fun r hr => ?_, ?_, ?_, ?_, ?_⟩
    case refine_9 => exact Ctx.retire_getX_of_bodyWrites (c := writePlain n v s.ctx) hr
    all_goals simp [State.retire, State.onCtx, writePlain]

/-- The SCT's copy of frm takes the value of a write of frm as the word is issued (R15). -/
def copyFrm (n : BitVec 12) (v : Word) (c : Ctx) : Ctx := { c with frmSct := if n = 0x008 then v.setWidth 3 else c.frmSct }

theorem readCsr_issued {n : BitVec 12} {mask : Word} (hn : inOrderMask n = some mask) (i : Instr) (x y v : Word) (s : State) :
    (issued i x y (s.onCtx (copyFrm n v))).readCsr n = s.readCsr n := by
  have hne : n ≠ 0x100 := by
    rintro rfl
    cases hn
  rw [issued, readCsr_retire _ (.inl hne)]
  unfold inOrderMask at hn
  split at hn
  case h_8 => cases hn
  all_goals
    next hk =>
    obtain rfl := csr_of_toNat hk
    rfl

/-- R15, R399: what an in-order CSR's write leaves in an idle vector unit. -/
theorem csrAccess_inOrder {s : State} {n : BitVec 12} {mask v : Word} (hn : inOrderMask n = some mask) (hs : VectorIdle s)
    (hfrm : s.ctx.frm = s.ctx.frmSct) {fn : ℕ} {i : Instr} {a : BitVec 5} (hv : v = csrResult fn (s.readCsr n) (s.getX a)) :
    (s.csrAccess fn i a n fun u => u.commitCsr fn n (s.getX a)) = .next (s.onCtx fun c => putInOrder n v (copyFrm n v c).retire) := by
  obtain ⟨hw, ho, hl⟩ := inOrderMask_rights hn
  obtain ⟨hviq, -, -, hb, hlate⟩ := id hs
  have hcopy : (if n = 0x008 then s.onCtx fun c => { c with frmSct := (csrResult fn (c.frmSct.setWidth 64) (s.getX a)).setWidth 3 } else s) =
      s.onCtx (copyFrm n v) := by
    split
    · next h8 =>
      subst h8
      rw [hv]
      show _ = ({ s with ctx := { s.ctx with frmSct := (csrResult fn (s.ctx.frm.setWidth 64) (s.getX a)).setWidth 3 } } : State)
      rw [hfrm]
      rfl
    · next h8 =>
      unfold State.onCtx copyFrm
      rw [if_neg h8]
  unfold State.csrAccess
  rw [hl, State.needs_allowed (Nat.zero_le _), hw, ho]
  simp only [Bool.not_true, Bool.false_eq_true, if_false, if_true]
  rw [if_neg (by simp [hviq]), hcopy, State.issue_of_vectorIdle (s := s.onCtx (copyFrm n v)) hs]
  refine congrArg Host.Outcome.next ?_
  unfold State.commitCsr State.commitCtx
  rw [readCsr_issued hn, ← hv]
  dsimp only
  rw [State.popHead_plain (by simp [State.onCtx, Ctx.writeInOrder_eq _ _ hn, putInOrder, copyFrm, hlate])
    (by simp [State.onCtx, Ctx.writeInOrder_eq _ _ hn, putInOrder, copyFrm, hb])]
  have hq : (copyFrm n v s.ctx).retire.viq = [] := by rw [Ctx.retire_viq]; exact hviq
  rw [issued_eq]
  unfold State.onCtx
  dsimp only
  rw [Ctx.writeInOrder_eq _ _ hn]
  exact congrArg (fun c => ({ s with ctx := putInOrder n v c } : State)) (Ctx.setViq_self hq)

/-- The completion of a word and the SCT's copy of frm are no part of what an in-order CSR reads as. -/
theorem readCsr_inOrder_other {s : State} (hs : VectorIdle s) (v : Word) {n m : BitVec 12} (hm : m ≠ n) (hvl : m = 0x000 → n ≠ 0x001) :
    (s.onCtx fun c => putInOrder n v (copyFrm n v c).retire).readCsr m = s.readCsr m := by
  have h1 := readCsr_putInOrder_other s (copyFrm n v s.ctx).retire v hm hvl
  have h2 := readCsr_retire (s.onCtx (copyFrm n v)) (m := m) (.inr hs.2.2.1)
  exact h1.trans h2

theorem inOrderCsrWrites : InOrderCsrWrites := by
  intro i s n v mask h hn hs hfrm
  obtain ⟨fn, a, hv, hexec⟩ := exec_csrWrite h
  rw [csrAccess_inOrder hn hs hfrm hv] at hexec
  refine ⟨_, hexec, ?_, ?_, fun h1 => ?_, fun h1 => ?_, fun m _ hm hvl _ => readCsr_inOrder_other hs v hm hvl, fun r hr => ?_, ?_⟩
  · rw [← readCsr_writeInOrder_same s (copyFrm n v s.ctx).retire v hn, Ctx.writeInOrder_eq _ _ hn]
    rfl
  · simp [State.onCtx, putInOrder, copyFrm, hfrm]
  · simp [State.onCtx, putInOrder, copyFrm, h1]
  · show (if n = 0x001 then _ else (copyFrm n v s.ctx).retire.vl) = _
    rw [if_neg h1, Ctx.retire_vl]
    rfl
  · exact Ctx.retire_getX_of_bodyWrites (c := copyFrm n v s.ctx) hr
  · refine ⟨rfl, ?_, ?_, ?_, ?_⟩
    all_goals simp [State.onCtx, putInOrder, copyFrm, hs.1]

/-- Settles O20: a plain CSR of kind D is written by the SCT, an in-order one by its queue entry and, for frm, by its copy. -/
theorem csrWriting : Obligations.CsrWriting := ⟨csrWrites, inOrderCsrWrites⟩

end Sys2Proof.Machine

/-! What the performing of stores leaves unchanged (R217, R225, R227, R389 to R391): of the device all but its translations, uncorrectable
words, snapshot, records, regeneration counts and kept writers, of a context all but its stores and pending machine checks. -/

namespace Sys2Proof.Machine
open Sys2Proof.Claims

/-- `t` is `s` but for what the performing of stores changes. -/
structure StoresOnly (s t : State) : Prop where
  dev : t.dev = { s.dev with
    tlb := t.dev.tlb, eccBad := t.dev.eccBad, snap := t.dev.snap, mcRings := t.dev.mcRings, regens := t.dev.regens, writers := t.dev.writers }
  ctx : ∀ c, t.ctxOf c = { s.ctxOf c with stores := (t.ctxOf c).stores, pMcheck := (t.ctxOf c).pMcheck }
  touched : ∀ c ∈ s.touched, c ∈ t.touched

theorem StoresOnly.refl (s : State) : StoresOnly s s := ⟨rfl, fun _ => rfl, fun _ h => h⟩

theorem StoresOnly.trans {s t u : State} (h : StoresOnly s t) (k : StoresOnly t u) : StoresOnly s u where
  dev := by rw [k.dev, h.dev]
  ctx c := by rw [k.ctx, h.ctx]
  touched c hc := k.touched c (h.touched c hc)

theorem StoresOnly.of_foldl {α : Type} {f : State → α → State} (hf : ∀ s a, StoresOnly s (f s a)) (l : List α) (s : State) :
    StoresOnly s (l.foldl f s) :=
  List.foldlRecOn (motive := StoresOnly s) l f (StoresOnly.refl s) fun t ht a _ => ht.trans (hf t a)

/-- An operation that changes nothing of a context. -/
theorem StoresOnly.of_dev {s t : State} (hc : t.ctx = s.ctx) (ho : t.others = s.others) (hcur : t.cur = s.cur) (hd : t.dev = { s.dev with
    tlb := t.dev.tlb, eccBad := t.dev.eccBad, snap := t.dev.snap, mcRings := t.dev.mcRings, regens := t.dev.regens, writers := t.dev.writers }) :
    StoresOnly s t where
  dev := hd
  ctx c := by
    have h : t.ctxOf c = s.ctxOf c := by unfold State.ctxOf; rw [hc, ho, hcur]
    rw [h]
  touched c h := by rwa [State.touched, hcur, ho]

theorem State.put_storesOnly (s : State) (ws : List (Nat × Byte)) : StoresOnly s (s.put ws) := .of_dev rfl rfl rfl rfl

theorem State.copyLine_storesOnly (s : State) (key : Nat) : StoresOnly s (s.copyLine key) := by
  unfold State.copyLine
  split
  · exact .refl s
  · split
    · exact .refl s
    · split
      · exact .refl s
      · split
        · exact .of_dev rfl rfl rfl rfl
        · exact (s.put_storesOnly _).trans (.of_dev rfl rfl rfl rfl)

theorem State.copyFirst_storesOnly (s : State) (ws : List (Nat × Byte)) : StoresOnly s (s.copyFirst ws) := by
  unfold State.copyFirst
  split
  · exact .refl s
  · exact .of_foldl State.copyLine_storesOnly _ s

theorem State.store_storesOnly (s : State) (ws : List (Nat × Byte)) : StoresOnly s (s.store ws) :=
  (s.copyFirst_storesOnly ws).trans (State.put_storesOnly _ ws)

/-! ## The contexts that differ from their reset state -/

theorem mem_assign_keys {α : Type} (k j : Nat) (v : α) (l : List (Nat × α)) (h : j = k ∨ j ∈ l.map (·.1)) : j ∈ (assign k v l).map (·.1) := by
  induction l with
  | nil => simpa [assign] using h
  | cons p l ih =>
    obtain ⟨a, b⟩ := p
    unfold assign
    split
    · next ha => simpa [ha, or_comm] using h
    · rw [List.map_cons, List.mem_cons] at h ⊢
      rcases h with h | h | h
      · exact .inr (ih (.inl h))
      · exact .inl h
      · exact .inr (ih (.inr h))

theorem State.touched_setCtx {s : State} {c e : Nat} {x : Ctx} (h : e ∈ s.touched) : e ∈ (s.setCtx c x).touched := by
  unfold State.setCtx
  split
  · exact h
  · rcases List.mem_cons.mp h with h | h
    · exact List.mem_cons.mpr (.inl h)
    · exact List.mem_cons.mpr (.inr (mem_assign_keys c e x _ (.inr h)))

theorem State.touched_turnTo {s : State} {c e : Nat} (h : e ∈ s.touched) : e ∈ (s.turnTo c).touched := by
  unfold State.turnTo
  split
  · exact h
  · by_cases he : e = c
    · exact List.mem_cons.mpr (.inl he)
    · have hk := mem_assign_keys s.cur e s.ctx s.others (List.mem_cons.mp h)
      obtain ⟨p, hp, rfl⟩ := List.mem_map.mp hk
      exact List.mem_cons.mpr (.inr (List.mem_map.mpr ⟨p, List.mem_filter.mpr ⟨hp, by simpa using he⟩, rfl⟩))

/-! ## Translations and records -/

theorem State.touch_storesOnly (s : State) (key e : Nat) (k : AccKind) : StoresOnly s (s.touch key e k) := by
  unfold State.touch
  split
  · exact .refl s
  · exact (s.copyFirst_storesOnly _).trans (.of_dev rfl rfl rfl rfl)

theorem State.leafFor_storesOnly (s : State) (asid : BitVec 13) (va : Nat) (k : AccKind) : StoresOnly s (s.leafFor asid va k).2.2 := by
  unfold State.leafFor
  split
  · exact .refl s
  · split
    · exact .refl s
    · exact .refl s
    · exact s.touch_storesOnly _ _ _

theorem State.keepLeaf_storesOnly (s : State) (asid : BitVec 13) (va : Word) (l : Leaf) : StoresOnly s (s.keepLeaf asid va l) := by
  unfold State.keepLeaf
  split
  · exact .of_dev rfl rfl rfl rfl
  · exact .refl s

theorem State.translate_snd_storesOnly (s : State) (asid : BitVec 13) (priv : Priv) (k : AccKind) (va : Word) :
    StoresOnly s (s.translate asid priv k va).2 := by
  have hl := s.leafFor_storesOnly asid va.toNat k
  unfold State.translate
  split
  · exact .refl s
  · split
    · next h => rw [h] at hl; exact hl
    · next h => rw [h] at hl; exact hl
    · next h =>
      rw [h] at hl
      split
      · split
        · exact hl.trans (State.keepLeaf_storesOnly _ _ _ _)
        · exact hl
      · exact hl

theorem State.translate_storesOnly {s t : State} {r : Except Refused Loc} {asid : BitVec 13} {priv : Priv} {k : AccKind} {va : Word}
    (e : s.translate asid priv k va = (r, t)) : StoresOnly s t := by
  have h := s.translate_snd_storesOnly asid priv k va
  rwa [e] at h

theorem State.appendRecord_storesOnly (s : State) (asid : BitVec 13) (bytes : Nat → List Byte) : StoresOnly s (s.appendRecord asid bytes).1 := by
  unfold State.appendRecord
  dsimp only
  split
  · exact .refl s
  · split
    · next h => exact (State.translate_storesOnly h).trans ((State.store_storesOnly _ _).trans (.of_dev rfl rfl rfl rfl))
    · next h => exact State.translate_storesOnly h

theorem State.pendMcheck_storesOnly (s : State) (c : Nat) (p : Pending) : StoresOnly s (s.pendMcheck c p) where
  dev := by rw [State.pendMcheck, State.setCtx_dev]
  ctx e := by
    unfold State.pendMcheck
    rw [State.ctxOf_setCtx]
    split
    · next h => rw [h]
    · rfl
  touched e h := State.touched_setCtx h

theorem State.report_storesOnly (s : State) (c kind : Nat) (p : Spot) : StoresOnly s (s.report c kind p) := by
  unfold State.report
  split
  next h =>
  have hr := s.appendRecord_storesOnly (s.ctxOf c).asid fun seq => Record.bytes { s.recordOf c kind p.sp p.va with pc := p.pc } seq s.gts
  unfold State.record at h
  rw [h] at hr
  exact hr.trans (State.pendMcheck_storesOnly _ _ _)

theorem State.trigOf_storesOnly {s t : State} {addr : Word} {r : Option (Nat × Nat)} (e : s.trigOf addr = (r, t)) : StoresOnly s t := by
  unfold State.trigOf at e
  split at e
  · next h =>
    have ht := State.translate_storesOnly h
    split at e <;> (obtain ⟨-, rfl⟩ := Prod.mk.inj e; exact ht)
  · next h =>
    obtain ⟨-, rfl⟩ := Prod.mk.inj e
    exact State.translate_storesOnly h

theorem State.countTriggers_storesOnly (s : State) (parts : List (Nat × Nat)) : StoresOnly s (s.countTriggers parts) := by
  refine .of_foldl (fun s r => ?_) _ s
  split
  · next h => exact (State.trigOf_storesOnly h).trans (.of_dev rfl rfl rfl rfl)
  · next h => exact State.trigOf_storesOnly h

theorem State.settleWrites_storesOnly (s : State) (parts : List (Nat × Nat)) (ws : List (Nat × Byte)) : StoresOnly s (s.settleWrites parts ws) := by
  unfold State.settleWrites State.noteStores
  refine (s.store_storesOnly ws).trans ?_
  split
  · exact .refl _
  · exact State.countTriggers_storesOnly _ _

theorem State.perform_storesOnly (s : State) (c : Nat) (spot : Nat → Spot) (parts : List (Nat × Nat)) (ws : List (Nat × Byte)) :
    StoresOnly s (s.perform c spot parts ws) :=
  (StoresOnly.of_foldl (fun s k => State.report_storesOnly s c 2 (spot k)) _ s).trans
    ((StoresOnly.of_foldl (fun s k => State.report_storesOnly s c 4 (spot k)) _ _).trans (State.settleWrites_storesOnly _ _ _))

/-! ## The access path -/

theorem State.performPend_storesOnly (s : State) (p : Pend) : StoresOnly s (s.performPend p) := by
  unfold State.performPend
  split
  · exact s.perform_storesOnly _ _ _ _
  · refine StoresOnly.trans ?_ (State.perform_storesOnly _ _ _ _ _)
    exact .of_dev rfl rfl rfl rfl

theorem State.performAll_storesOnly (s : State) (ps : List Pend) : StoresOnly s (s.performAll ps) :=
  .of_foldl State.performPend_storesOnly _ s

theorem State.withStores_storesOnly (s : State) (ps : List Pend) : StoresOnly s (s.onCtx fun c => { c with stores := ps }) where
  dev := rfl
  ctx c := by
    unfold State.ctxOf State.onCtx
    dsimp only
    split <;> rfl
  touched _ h := h

theorem State.settle_storesOnly (s : State) : StoresOnly s s.settle := by
  unfold State.settle State.performReady
  split
  · exact .refl s
  · split
    exact (s.withStores_storesOnly _).trans (State.performAll_storesOnly _ _)

theorem lookup_unassign {α : Type} (k j : Nat) (l : List (Nat × α)) (h : j ≠ k) : lookup j (unassign k l) = lookup j l := by
  induction l with
  | nil => rfl
  | cons p l ih =>
    obtain ⟨a, b⟩ := p
    unfold unassign at ih ⊢
    by_cases ha : a = k
    · rw [List.filter_cons_of_neg (by simp [ha]), ih, lookup, if_neg (by rw [ha]; exact h.symm)]
    · rw [List.filter_cons_of_pos (by simp [ha]), lookup, lookup, ih]

/-- A turn changes the state of no context. -/
theorem State.ctxOf_turnTo (s : State) (c e : Nat) : (s.turnTo c).ctxOf e = s.ctxOf e := by
  unfold State.turnTo
  by_cases hc : c = s.cur
  · rw [if_pos hc]
  · rw [if_neg hc]
    by_cases he : e = c
    · subst he
      exact if_pos rfl
    · unfold State.ctxOf
      rw [if_neg he, lookup_unassign c e _ he, lookup_assign]
      by_cases hs : e = s.cur
      · rw [if_pos hs, if_pos hs]
      · rw [if_neg hs, if_neg hs]

theorem State.turnTo_storesOnly (s : State) (c : Nat) : StoresOnly s (s.turnTo c) where
  dev := by
    unfold State.turnTo
    split <;> rfl
  ctx e := by rw [State.ctxOf_turnTo]
  touched e h := State.touched_turnTo h

theorem State.settleOf_storesOnly (s : State) (c : Nat) : StoresOnly s (s.settleOf c) := by
  unfold State.settleOf
  split
  · exact .refl s
  · exact (s.turnTo_storesOnly c).trans ((State.settle_storesOnly _).trans (State.turnTo_storesOnly _ _))

theorem State.settleCore_storesOnly (s : State) (c : Nat) : StoresOnly s (s.settleCore c) :=
  (s.settleOf_storesOnly _).trans (State.settleOf_storesOnly _ _)

end Sys2Proof.Machine

/-! Settles O26: cancel and what it does to the subtree of its counter (R31, R267, R330, R335), cread and cread.t (R336). -/

namespace Sys2Proof.Machine
open Sys2Proof.Claims

/-! ## What an operation leaves of units, commands and counters -/

/-- The two contexts have the same units, commands and pending cancellations. -/
structure Unmoved (x y : Ctx) : Prop where
  unit : y.unit = x.unit
  preload : y.preload = x.preload
  run : y.run = x.run
  ch : y.ch = x.ch
  canc : y.pCancelled = x.pCancelled

theorem Unmoved.refl (x : Ctx) : Unmoved x x := ⟨rfl, rfl, rfl, rfl, rfl⟩

theorem Unmoved.trans {x y z : Ctx} (h : Unmoved x y) (k : Unmoved y z) : Unmoved x z :=
  ⟨k.unit.trans h.unit, k.preload.trans h.preload, k.run.trans h.run, k.ch.trans h.ch, k.canc.trans h.canc⟩

theorem StoresOnly.unmoved {s t : State} (h : StoresOnly s t) (c : Nat) : Unmoved (s.ctxOf c) (t.ctxOf c) := by
  rw [h.ctx c]
  exact ⟨rfl, rfl, rfl, rfl, rfl⟩

/-- `t` has the counters, the launches, the units and the commands of `s`. -/
structure Steady (s t : State) : Prop where
  counters : ∀ n, t.dev.counter false n = s.dev.counter false n
  launches : t.dev.launches = s.dev.launches
  ctx : ∀ c, Unmoved (s.ctxOf c) (t.ctxOf c)
  touched : ∀ c ∈ s.touched, c ∈ t.touched

theorem Steady.refl (s : State) : Steady s s := ⟨fun _ => rfl, rfl, fun _ => .refl _, fun _ h => h⟩

theorem Steady.trans {s t u : State} (h : Steady s t) (k : Steady t u) : Steady s u :=
  ⟨fun n => (k.counters n).trans (h.counters n), k.launches.trans h.launches, fun c => (h.ctx c).trans (k.ctx c),
    fun c hc => k.touched c (h.touched c hc)⟩

theorem Steady.of_foldl {α : Type} {f : State → α → State} (hf : ∀ s a, Steady s (f s a)) (l : List α) (s : State) : Steady s (l.foldl f s) :=
  List.foldlRecOn (motive := Steady s) l f (Steady.refl s) fun t ht a _ => ht.trans (hf t a)

theorem Steady.of_dev {s t : State} (hc : t.ctx = s.ctx) (ho : t.others = s.others) (hcur : t.cur = s.cur)
    (hk : t.dev.counters = s.dev.counters) (hl : t.dev.launches = s.dev.launches) : Steady s t where
  counters n := by
    unfold Dev.counter
    rw [if_neg (by simp), if_neg (by simp), hk]
  launches := hl
  ctx c := by
    have h : t.ctxOf c = s.ctxOf c := by unfold State.ctxOf; rw [hc, ho, hcur]
    rw [h]
    exact .refl _
  touched c h := by rwa [State.touched, hcur, ho]

theorem StoresOnly.steady {s t : State} (h : StoresOnly s t) : Steady s t where
  counters n := by rw [h.dev]; rfl
  launches := by rw [h.dev]
  ctx := h.unmoved
  touched := h.touched

theorem State.setCtx_steady {s : State} {c : Nat} {x : Ctx} (h : Unmoved (s.ctxOf c) x) : Steady s (s.setCtx c x) where
  counters n := by rw [State.setCtx_dev]
  launches := by rw [State.setCtx_dev]
  ctx e := by
    rw [State.ctxOf_setCtx]
    split
    · next he => rw [he]; exact h
    · exact .refl _
  touched e := State.touched_setCtx

theorem State.regrantCore_steady (s : State) (c : Nat) : Steady s (s.regrantCore c) := by
  have hone : ∀ (s : State) c, Steady s (s.regrantIdle c) := by
    intro s c
    unfold State.regrantIdle
    dsimp only
    split
    · exact .refl s
    · exact State.setCtx_steady ⟨rfl, rfl, rfl, rfl, rfl⟩
  exact (hone s c).trans (hone _ _)

theorem State.ringDone_steady (s : State) (key : Nat) : Steady s (s.ringDone key) := by
  refine .of_foldl (fun s r => ?_) _ s
  split
  · exact (State.settleWrites_storesOnly _ _ _).steady
  · exact .refl s

theorem State.putClasp_steady (s : State) (id : Nat) (k : Clasp) : Steady s (s.putClasp id k) := by
  unfold State.putClasp State.tellMembers
  dsimp only
  split
  · exact .of_dev rfl rfl rfl rfl rfl
  · split <;> exact .of_dev rfl rfl rfl rfl rfl

theorem State.depart_steady (s : State) (u : UnitSt) : Steady s (s.depart u) := by
  refine .of_foldl (fun s p => ?_) _ s
  split
  · exact s.putClasp_steady _ _
  · exact .refl s

/-! ## A counter that becomes done -/

theorem Dev.counter_setCounter (d : Dev) (key n : Nat) (k : Counter) :
    (d.setCounter false key k).counter false n = if n = key then some k else d.counter false n := lookup_assign key n k d.counters

/-- R30: what becomes of the counters, of the launches and of the contexts when a counter becomes done. -/
theorem State.markDone_counter (s : State) (key n : Nat) (canc : Bool) : (s.markDone false key canc).dev.counter false n =
    if n = key then (s.dev.counter false key).map fun k => { k with done := true, canc := canc } else s.dev.counter false n := by
  unfold State.markDone
  cases hk : s.dev.counter false key with
  | none =>
    dsimp only
    split
    · next hn => rw [hn, hk]; rfl
    · rfl
  | some k =>
    have hset := s.dev.counter_setCounter key n { k with done := true, canc := canc }
    dsimp only
    split
    · exact hset
    · split
      · rw [(State.ringDone_steady _ key).counters]
        exact hset
      · exact hset

theorem State.mem_markDone_launches (s : State) (key : Nat) (canc : Bool) (l : Launch) : l ∈ (s.markDone false key canc).dev.launches ↔
    l ∈ s.dev.launches ∧ ∀ k, s.dev.counter false key = some k → k.level = 0 → l.arm ≠ k.arm := by
  unfold State.markDone
  cases hk : s.dev.counter false key with
  | none => simp
  | some k =>
    dsimp only
    split
    · next h0 => simp [State.onDev, Dev.setCounter, h0]
    · next h0 =>
      have hl : ((s.onDev fun d => d.setCounter false key { k with done := true, canc := canc })).dev.launches = s.dev.launches := rfl
      split
      · rw [(State.ringDone_steady _ key).launches, hl]
        simp [h0]
      · rw [hl]
        simp [h0]

/-- What the machinery of counters and launches keeps: counters that are done, the units and commands of contexts; no new launch appears. -/
structure DoneKept (s t : State) : Prop where
  done : ∀ n q, s.dev.counter false n = some q → q.done = true → t.dev.counter false n = some q
  arms : ∀ l ∈ t.dev.launches, ∃ m ∈ s.dev.launches, m.arm = l.arm
  ctx : ∀ c, Unmoved (s.ctxOf c) (t.ctxOf c)
  touched : ∀ c ∈ s.touched, c ∈ t.touched

theorem Steady.doneKept {s t : State} (h : Steady s t) : DoneKept s t where
  done n _ hq _ := (h.counters n).trans hq
  arms l hl := ⟨l, h.launches ▸ hl, rfl⟩
  ctx := h.ctx
  touched := h.touched

theorem DoneKept.trans {s t u : State} (h : DoneKept s t) (k : DoneKept t u) : DoneKept s u where
  done n q hq hd := k.done n q (h.done n q hq hd) hd
  arms l hl := by
    obtain ⟨m, hm, hml⟩ := k.arms l hl
    obtain ⟨m', hm', hml'⟩ := h.arms m hm
    exact ⟨m', hm', hml'.trans hml⟩
  ctx c := (h.ctx c).trans (k.ctx c)
  touched c hc := k.touched c (h.touched c hc)

/-- A change of the device that keeps the counters that are done. -/
theorem DoneKept.of_onDev {s : State} {f : Dev → Dev}
    (hd : ∀ n q, s.dev.counter false n = some q → q.done = true → (f s.dev).counter false n = some q)
    (ha : ∀ l ∈ (f s.dev).launches, ∃ m ∈ s.dev.launches, m.arm = l.arm) : DoneKept s (s.onDev f) :=
  ⟨hd, ha, fun _ => .refl _, fun _ h => h⟩

/-- A counter that is not done may be written. -/
theorem State.setCounter_doneKept {s : State} {shadow : Bool} {key : Nat} {k' : Counter}
    (h : ∀ k, s.dev.counter shadow key = some k → k.done = false) : DoneKept s (s.onDev fun d => d.setCounter shadow key k') := by
  refine .of_onDev (fun n q hq hd => ?_) fun l hl => ⟨l, ?_, rfl⟩
  · cases shadow
    · rw [Dev.counter_setCounter, if_neg]
      · exact hq
      · rintro rfl
        simp [h q hq] at hd
    · exact hq
  · cases shadow <;> exact hl

theorem State.markDone_doneKept {s : State} {shadow : Bool} {key : Nat} (canc : Bool)
    (h : ∀ k, s.dev.counter shadow key = some k → k.done = false) : DoneKept s (s.markDone shadow key canc) := by
  unfold State.markDone
  split
  · exact (Steady.refl s).doneKept
  · next k hk =>
    dsimp only
    split
    · refine (State.setCounter_doneKept h).trans (.of_onDev (fun _ _ hq _ => hq) fun l hl => ⟨l, (List.mem_filter.mp hl).1, rfl⟩)
    · split
      · exact (State.setCounter_doneKept h).trans (State.ringDone_steady _ _).doneKept
      · exact State.setCounter_doneKept h

theorem Dev.counter_setCounter_same (d : Dev) (shadow : Bool) (key : Nat) (k : Counter) :
    (d.setCounter shadow key k).counter shadow key = some k := by
  cases shadow
  · exact (lookup_assign key key k d.counters).trans (if_pos rfl)
  · exact (lookup_assign key key k d.shadow).trans (if_pos rfl)

theorem State.countUp_doneKept (f : Nat) (shadow : Bool) : ∀ (key ord arm : Nat) (s : State), DoneKept s (State.countUp f shadow key ord arm s) := by
  induction f with
  | zero => exact fun _ _ _ s => (Steady.refl s).doneKept
  | succ f ih =>
    intro key ord arm s
    unfold State.countUp
    split
    · exact (Steady.refl s).doneKept
    · next k hk =>
      split
      · exact (Steady.refl s).doneKept
      · next hgo =>
        have hnd : k.done = false := by
          cases h : k.done
          · rfl
          · simp [h] at hgo
        have hset : DoneKept s (s.onDev fun d => d.setCounter shadow key { k with count := k.count + 1, counted := k.counted ++ [ord] }) :=
          State.setCounter_doneKept fun k' hk' => by rw [hk] at hk'; rw [← Option.some.inj hk']; exact hnd
        have hmark := hset.trans (State.markDone_doneKept false fun k' hk' => by
          rw [State.onDev, Dev.counter_setCounter_same] at hk'
          rw [← Option.some.inj hk']
          exact hnd)
        dsimp only
        split
        · split
          · exact hmark.trans (ih _ _ _ _)
          · exact hmark
        · exact hset

theorem State.finishCounter_doneKept (s : State) (shadow : Bool) (key : Nat) (canc : Bool) : DoneKept s (s.finishCounter shadow key canc) := by
  unfold State.finishCounter
  split
  · exact (Steady.refl s).doneKept
  · next k hk =>
    split
    · exact (Steady.refl s).doneKept
    · next hnd =>
      have hmark : DoneKept s (s.markDone shadow key canc) := State.markDone_doneKept canc fun k' hk' => by
        rw [hk] at hk'
        rw [← Option.some.inj hk']
        simpa using hnd
      split
      · exact hmark.trans (State.countUp_doneKept _ _ _ _ _ _)
      · exact hmark

theorem State.makeReady_doneKept {s : State} {l : Launch} (hl : l ∈ s.dev.launches) : DoneKept s (s.onDev fun d => d.makeReady l) := by
  refine .of_onDev (fun _ _ hq _ => hq) fun m hm => ?_
  obtain ⟨m', hm', rfl⟩ := List.mem_map.mp hm
  split
  · exact ⟨l, hl, rfl⟩
  · exact ⟨m', hm', rfl⟩

theorem State.depStep_doneKept {s t : State} (h : s.depStep = some t) : DoneKept s t := by
  obtain ⟨l, hl, h⟩ := List.exists_of_findSome?_eq_some h
  dsimp only at h
  split at h
  · cases h
  · split at h
    · obtain rfl := Option.some.inj h
      exact s.finishCounter_doneKept _ _ _
    · split at h
      · obtain rfl := Option.some.inj h
        exact State.makeReady_doneKept hl
      · cases h

theorem State.settleDeps_doneKept (n : Nat) : ∀ s, DoneKept s (State.settleDeps n s) := by
  induction n with
  | zero => exact fun s => (Steady.refl s).doneKept
  | succ n ih =>
    intro s
    unfold State.settleDeps
    split
    · exact (Steady.refl s).doneKept
    · next t h => exact (State.depStep_doneKept h).trans (ih t)

theorem State.settleLaunches_doneKept (s : State) : DoneKept s s.settleLaunches := State.settleDeps_doneKept _ s

/-- Where no launch waits, the readiness of launches is settled. -/
theorem State.settleLaunches_of_none_waiting {s : State} (h : ∀ l ∈ s.dev.launches, l.phase ≠ .waiting) : s.settleLaunches = s := by
  have hstep : s.depStep = none := by
    refine List.findSome?_eq_none_iff.mpr fun l hl => ?_
    exact if_pos (h l hl)
  unfold State.settleLaunches
  cases s.dev.launches.length with
  | zero => rfl
  | succ n => simp [State.settleDeps, hstep]

/-! ## The subtree of a counter -/

theorem isUnder_iff (d : Dev) (key : Nat) : ∀ f n, d.isUnder key f n = true ↔ Beneath d key f n := by
  intro f
  induction f with
  | zero => exact fun n => by simp [Dev.isUnder, Beneath]
  | succ f ih =>
    intro n
    unfold Dev.isUnder Beneath
    rw [Bool.or_eq_true, beq_iff_eq]
    refine or_congr Iff.rfl ?_
    cases hk : d.counter false n with
    | none => simp
    | some k =>
      cases hp : k.parent with
      | none => simp [hp]
      | some p =>
        cases hq : d.counter false p with
        | none => simp [hp, hq]
        | some q => simp [hp, hq, ih]

/-- Counters made done together, cancelled. -/
theorem counter_markAll (ks : List Nat) : ∀ (s : State) (n : Nat),
    (ks.foldl (fun s k => s.markDone false k true) s).dev.counter false n =
      if n ∈ ks then (s.dev.counter false n).map fun k => { k with done := true, canc := true } else s.dev.counter false n := by
  induction ks with
  | nil => simp
  | cons k ks ih =>
    intro s n
    rw [List.foldl_cons, ih, State.markDone_counter]
    by_cases hn : n = k
    · subst hn
      rw [if_pos rfl, if_pos (List.mem_cons_self ..)]
      cases s.dev.counter false n <;> simp
    · simp [hn]

theorem mem_launches_markAll (ks : List Nat) : ∀ (s : State) (l : Launch), l ∈ (ks.foldl (fun s k => s.markDone false k true) s).dev.launches ↔
    l ∈ s.dev.launches ∧ ∀ n ∈ ks, ∀ k, s.dev.counter false n = some k → k.level = 0 → l.arm ≠ k.arm := by
  induction ks with
  | nil => simp
  | cons k ks ih =>
    intro s l
    rw [List.foldl_cons, ih, State.mem_markDone_launches]
    constructor
    · rintro ⟨⟨hl, h1⟩, h2⟩
      refine ⟨hl, fun n hn q hq h0 => ?_⟩
      rcases List.mem_cons.mp hn with rfl | hn
      · exact h1 q hq h0
      · by_cases hnk : n = k
        · exact h1 q (hnk ▸ hq) h0
        · exact h2 n hn q (by rw [State.markDone_counter, if_neg hnk]; exact hq) h0
    · rintro ⟨hl, h⟩
      refine ⟨⟨hl, h k (List.mem_cons_self ..)⟩, fun n hn q hq h0 => ?_⟩
      rw [State.markDone_counter] at hq
      split at hq
      · next hnk =>
        obtain ⟨q', hq', rfl⟩ := Option.map_eq_some_iff.mp hq
        exact h k (List.mem_cons_self ..) q' hq' h0
      · exact h n (List.mem_cons_of_mem _ hn) q hq h0

theorem State.markDone_ctx (s : State) (key : Nat) (canc : Bool) :
    (∀ c, Unmoved (s.ctxOf c) ((s.markDone false key canc).ctxOf c)) ∧ ∀ c ∈ s.touched, c ∈ (s.markDone false key canc).touched := by
  unfold State.markDone
  split
  · exact ⟨fun _ => .refl _, fun _ h => h⟩
  · dsimp only
    split
    · exact ⟨fun _ => .refl _, fun _ h => h⟩
    · split
      · have h := State.ringDone_steady (s.onDev fun d => d.setCounter false key { ‹Counter› with done := true, canc := canc }) key
        exact ⟨h.ctx, h.touched⟩
      · exact ⟨fun _ => .refl _, fun _ h => h⟩

theorem markAll_ctx (ks : List Nat) (s : State) : (∀ c, Unmoved (s.ctxOf c) ((ks.foldl (fun s k => s.markDone false k true) s).ctxOf c)) ∧
    ∀ c ∈ s.touched, c ∈ (ks.foldl (fun s k => s.markDone false k true) s).touched :=
  List.foldlRecOn (motive := fun t : State => (∀ c, Unmoved (s.ctxOf c) (t.ctxOf c)) ∧ ∀ c ∈ s.touched, c ∈ t.touched) ks _
    ⟨fun _ => .refl _, fun _ h => h⟩ fun t ht k _ =>
      ⟨fun c => (ht.1 c).trans ((t.markDone_ctx k true).1 c), fun c hc => (t.markDone_ctx k true).2 c (ht.2 c hc)⟩

/-! ## What a cancel makes of a context -/

/-- A unit of one of these armings, which a cancel reaches. -/
def reached (arms : List Nat) (u : UnitSt) : Bool := !u.shadow && arms.contains u.arm

/-- The preload of a context after a cancel. -/
def Ctx.dropPreload (x : Ctx) (arms : List Nat) : Ctx :=
  if (x.preload.filter (reached arms)).isSome then { x with preload := none } else x

/-- The unit and the commands of a context after a cancel of counter `n`. -/
def Ctx.dropUnit (x : Ctx) (arms : List Nat) (n : Nat) : Ctx :=
  match x.unit with
  | none => x
  | some u =>
    if !reached arms u then x
    else if x.run = .running then x.cancelled n
    else { x.newTenure with unit := none, ch := x.ch.map Chan.cancel }

theorem Ctx.dropUnit_congr {x y : Ctx} (h : Unmoved x y) (arms : List Nat) (n : Nat) : Unmoved (x.dropUnit arms n) (y.dropUnit arms n) := by
  unfold Ctx.dropUnit
  rw [h.unit]
  split
  · exact h
  · rw [h.run]
    split
    · exact h
    · split
      · exact ⟨h.unit, h.preload, h.run, congrArg (·.map Chan.cancel) h.ch, by simp [Ctx.cancelled, Ctx.newTenure, h.canc]⟩
      · exact ⟨rfl, h.preload, h.run, congrArg (·.map Chan.cancel) h.ch, by simp [Ctx.newTenure, h.canc]⟩

/-- The first part of a cancel in a context: its preload. -/
def State.cancelPreload (s : State) (arms : List Nat) (c : Nat) : State :=
  match (s.ctxOf c).preload.filter (reached arms) with
  | some u => (s.setCtx c { s.ctxOf c with preload := none }).depart u
  | none => s

/-- The second part: its unit. -/
def State.cancelUnit (s : State) (arms : List Nat) (n c : Nat) : State :=
  match (s.ctxOf c).unit with
  | none => s
  | some u =>
    if !reached arms u then s
    else if (s.ctxOf c).run = .running then (s.setCtx c ((s.ctxOf c).cancelled n)).settleCore c
    else (((s.setCtx c { (s.ctxOf c).newTenure with unit := none, ch := (s.ctxOf c).ch.map Chan.cancel }).settleCore c).regrantCore c).depart u

theorem State.cancelIn_eq (s : State) (arms : List Nat) (n c : Nat) : s.cancelIn arms n c = (s.cancelPreload arms c).cancelUnit arms n c := rfl

/-- What an operation in context `c` leaves, where it makes `x` of that context. -/
structure OnlyIn (c : Nat) (x : Ctx) (s t : State) : Prop where
  here : Unmoved x (t.ctxOf c)
  other : ∀ e, e ≠ c → Unmoved (s.ctxOf e) (t.ctxOf e)
  counters : ∀ n, t.dev.counter false n = s.dev.counter false n
  launches : t.dev.launches = s.dev.launches

theorem OnlyIn.refl (s : State) (c : Nat) : OnlyIn c (s.ctxOf c) s s := ⟨.refl _, fun _ _ => .refl _, fun _ => rfl, rfl⟩

/-- A context written, and a steady operation after that. -/
theorem OnlyIn.of_setCtx {s t : State} {c : Nat} {x : Ctx} (h : Steady (s.setCtx c x) t) : OnlyIn c x s t where
  here := by
    have hc := h.ctx c
    rwa [State.ctxOf_setCtx, if_pos rfl] at hc
  other e he := by
    have hc := h.ctx e
    rwa [State.ctxOf_setCtx, if_neg he] at hc
  counters n := by rw [h.counters, State.setCtx_dev]
  launches := by rw [h.launches, State.setCtx_dev]

theorem State.cancelPreload_only (s : State) (arms : List Nat) (c : Nat) : OnlyIn c ((s.ctxOf c).dropPreload arms) s (s.cancelPreload arms c) := by
  unfold State.cancelPreload Ctx.dropPreload
  cases (s.ctxOf c).preload.filter (reached arms) with
  | none => exact .refl s c
  | some u => exact .of_setCtx (State.depart_steady _ u)

theorem State.cancelUnit_only (s : State) (arms : List Nat) (n c : Nat) : OnlyIn c ((s.ctxOf c).dropUnit arms n) s (s.cancelUnit arms n c) := by
  unfold State.cancelUnit Ctx.dropUnit
  cases (s.ctxOf c).unit with
  | none => exact .refl s c
  | some u =>
    dsimp only
    split
    · exact .refl s c
    · split
      · exact .of_setCtx (State.settleCore_storesOnly _ c).steady
      · exact .of_setCtx ((State.settleCore_storesOnly _ c).steady.trans ((State.regrantCore_steady _ c).trans (State.depart_steady _ u)))

theorem State.cancelIn_only (s : State) (arms : List Nat) (n c : Nat) :
    OnlyIn c (((s.ctxOf c).dropPreload arms).dropUnit arms n) s (s.cancelIn arms n c) := by
  rw [State.cancelIn_eq]
  have h1 := s.cancelPreload_only arms c
  have h2 := (s.cancelPreload arms c).cancelUnit_only arms n c
  exact ⟨(Ctx.dropUnit_congr h1.here arms n).trans h2.here, fun e he => (h1.other e he).trans (h2.other e he),
    fun k => (h2.counters k).trans (h1.counters k), h2.launches.trans h1.launches⟩

/-! ## The cancel in all contexts -/

section AllContexts
variable (arms : List Nat) (n : Nat)

theorem cancelAll_dev (cs : List Nat) (s : State) : (∀ k, (cs.foldl (fun s c => s.cancelIn arms n c) s).dev.counter false k = s.dev.counter false k) ∧
    (cs.foldl (fun s c => s.cancelIn arms n c) s).dev.launches = s.dev.launches :=
  List.foldlRecOn (motive := fun t : State => (∀ k, t.dev.counter false k = s.dev.counter false k) ∧ t.dev.launches = s.dev.launches) cs _
    ⟨fun _ => rfl, rfl⟩ fun t ht c _ =>
      ⟨fun k => ((t.cancelIn_only arms n c).counters k).trans (ht.1 k), ((t.cancelIn_only arms n c).launches).trans ht.2⟩

/-- A property of units and commands that a cancel brings about where another holds, and keeps, holds at the end in every context that the
cancel goes through. -/
theorem cancelAll_reaches {R P : Ctx → Prop} (hR : ∀ x y, Unmoved x y → R x → R y) (hP : ∀ x y, Unmoved x y → P x → P y)
    (hRP : ∀ x, R x → P ((x.dropPreload arms).dropUnit arms n)) (hPR : ∀ x, P x → R x) {c : Nat} (cs : List Nat) :
    ∀ s : State, R (s.ctxOf c) → (c ∈ cs ∨ P (s.ctxOf c)) → P ((cs.foldl (fun s c => s.cancelIn arms n c) s).ctxOf c) := by
  induction cs with
  | nil => exact fun s _ h => h.resolve_left (List.not_mem_nil)
  | cons e cs ih =>
    intro s hs h
    rw [List.foldl_cons]
    have hspec := s.cancelIn_only arms n e
    by_cases hec : c = e
    · subst hec
      have hp : P ((s.cancelIn arms n c).ctxOf c) := hP _ _ hspec.here (hRP _ hs)
      exact ih _ (hPR _ hp) (.inr hp)
    · have hm := hspec.other c hec
      refine ih _ (hR _ _ hm hs) ?_
      rcases h with h | h
      · exact .inl ((List.mem_cons.mp h).resolve_left hec)
      · exact .inr (hP _ _ hm h)

end AllContexts

/-! ## The stages of a cancel -/

section Stages
variable (s : State) (key : Nat)

/-- The counters at or beneath `key`. -/
def Dev.subtree (d : Dev) : List (Nat × Counter) := d.counters.filter fun p => d.isUnder key 4 p.1

/-- Those that are not done. -/
def Dev.liveBelow (d : Dev) : List Nat := ((d.subtree key).filter fun p => !p.2.done).map (·.1)

/-- The armings of the launches' counters among them. -/
def Dev.armsBelow (d : Dev) : List Nat := ((d.subtree key).filter fun p => p.2.level == 0).map fun p => p.2.arm

/-- The machine once the units that wait to be handed out again have departed and the counters are done. -/
def State.cancelCounters : State :=
  (s.dev.liveBelow key).foldl (fun s k => s.markDone false k true)
    (((s.dev.launches.filter fun l => !l.shadow && (s.dev.armsBelow key).contains l.arm).flatMap (·.back)).foldl State.depart s)

/-- The increment to the parent of a counter that a cancel has made done. -/
def State.tellParent : State :=
  match (s.dev.counter false key).bind fun k => k.parent.map fun p => (p, k.parentArm) with
  | some (p, a) => State.countUp 4 false p (key % 8192) a s
  | none => s

theorem State.cancelNode_eq : s.cancelNode key =
    (((s.cancelCounters key).tellParent key).touched.foldl (fun u c => u.cancelIn (s.dev.armsBelow key) (key % 8192) c)
      ((s.cancelCounters key).tellParent key)).settleLaunches := rfl

theorem mem_liveBelow {d : Dev} {n : Nat} : n ∈ d.liveBelow key ↔ ∃ q, (n, q) ∈ d.counters ∧ Beneath d key 4 n ∧ q.done = false := by
  simp [Dev.liveBelow, Dev.subtree, isUnder_iff, and_assoc, and_comm (a := Beneath ..)]

theorem mem_armsBelow {d : Dev} {arm : Nat} : arm ∈ d.armsBelow key ↔ LaunchBeneath d key arm := by
  simp only [Dev.armsBelow, Dev.subtree, LaunchBeneath, List.mem_map, List.mem_filter, isUnder_iff, beq_iff_eq, and_assoc]

theorem cancelCounters_departed : Steady s
    (((s.dev.launches.filter fun l => !l.shadow && (s.dev.armsBelow key).contains l.arm).flatMap (·.back)).foldl State.depart s) :=
  .of_foldl State.depart_steady _ s

theorem cancelCounters_counter (n : Nat) : (s.cancelCounters key).dev.counter false n =
    if n ∈ s.dev.liveBelow key then (s.dev.counter false n).map fun k => { k with done := true, canc := true } else s.dev.counter false n := by
  rw [State.cancelCounters, counter_markAll, (cancelCounters_departed s key).counters]

theorem mem_cancelCounters_launches (l : Launch) : l ∈ (s.cancelCounters key).dev.launches ↔
    l ∈ s.dev.launches ∧ ∀ n ∈ s.dev.liveBelow key, ∀ k, s.dev.counter false n = some k → k.level = 0 → l.arm ≠ k.arm := by
  rw [State.cancelCounters, mem_launches_markAll, (cancelCounters_departed s key).launches]
  simp only [(cancelCounters_departed s key).counters]

theorem cancelCounters_ctx : (∀ c, Unmoved (s.ctxOf c) ((s.cancelCounters key).ctxOf c)) ∧ ∀ c ∈ s.touched, c ∈ (s.cancelCounters key).touched := by
  have h1 := cancelCounters_departed s key
  have h2 := markAll_ctx (s.dev.liveBelow key)
    (((s.dev.launches.filter fun l => !l.shadow && (s.dev.armsBelow key).contains l.arm).flatMap (·.back)).foldl State.depart s)
  exact ⟨fun c => (h1.ctx c).trans (h2.1 c), fun c hc => h2.2 c (h1.touched c hc)⟩

theorem State.tellParent_doneKept : DoneKept s (s.tellParent key) := by
  unfold State.tellParent
  split
  · exact State.countUp_doneKept _ _ _ _ _ _
  · exact (Steady.refl s).doneKept

end Stages

section Cancelled
variable {s : State} {key : Nat}

/-- A counter at or beneath the cancelled one, once the counters are done. -/
theorem cancelCounters_beneath {n : Nat} {q : Counter} (hq : s.dev.counter false n = some q) (hn : Beneath s.dev key 4 n) :
    ∃ q', (s.cancelCounters key).dev.counter false n = some q' ∧ q'.done = true ∧ q'.arm = q.arm ∧ (q.done = false → q'.canc = true) := by
  rw [cancelCounters_counter, hq]
  split
  · exact ⟨_, rfl, rfl, rfl, fun _ => rfl⟩
  · next hlive =>
    have hd : q.done = true := by
      cases hd : q.done
      · exact absurd ((mem_liveBelow key).mpr ⟨q, lookup_mem hq, hn, hd⟩) hlive
      · rfl
    exact ⟨q, rfl, hd, rfl, fun h => by simp [hd] at h⟩

/-- Each counter of the subtree is done (R31, R335). -/
theorem cancelNode_counters {n : Nat} {q : Counter} (hq : s.dev.counter false n = some q) (hn : Beneath s.dev key 4 n) :
    ∃ q', (s.cancelNode key).dev.counter false n = some q' ∧ q'.done = true ∧ q'.arm = q.arm ∧ (q.done = false → q'.canc = true) := by
  obtain ⟨q', hq', hd, ha, hc⟩ := cancelCounters_beneath hq hn
  refine ⟨q', ?_, hd, ha, hc⟩
  rw [State.cancelNode_eq]
  refine (State.settleLaunches_doneKept _).done n q' ?_ hd
  rw [(cancelAll_dev _ _ _ _).1]
  exact (State.tellParent_doneKept _ _).done n q' hq' hd

/-- None of its launches is left (R31, R267). -/
theorem cancelNode_launches {n : Nat} {q : Counter} (hq : s.dev.counter false n = some q) (hn : Beneath s.dev key 4 n) (hd : q.done = false)
    (h0 : q.level = 0) : ∀ l ∈ (s.cancelNode key).dev.launches, l.arm ≠ q.arm := by
  intro l hl
  rw [State.cancelNode_eq] at hl
  obtain ⟨m, hm, hml⟩ := (State.settleLaunches_doneKept _).arms l hl
  rw [(cancelAll_dev _ _ _ _).2] at hm
  obtain ⟨m', hm', hml'⟩ := (State.tellParent_doneKept _ _).arms m hm
  have h := ((mem_cancelCounters_launches s key m').mp hm').2 n ((mem_liveBelow key).mpr ⟨q, lookup_mem hq, hn, hd⟩) q hq h0
  rwa [hml', hml] at h

/-- What a cancel brings about in a context that differs from its reset state. -/
theorem cancelNode_reaches {R P : Ctx → Prop} (hR : ∀ x y, Unmoved x y → R x → R y) (hP : ∀ x y, Unmoved x y → P x → P y)
    (hRP : ∀ x, R x → P ((x.dropPreload (s.dev.armsBelow key)).dropUnit (s.dev.armsBelow key) (key % 8192))) (hPR : ∀ x, P x → R x) {c : Nat}
    (hc : c ∈ s.touched) (h : R (s.ctxOf c)) : P ((s.cancelNode key).ctxOf c) := by
  rw [State.cancelNode_eq]
  refine hP _ _ ((State.settleLaunches_doneKept _).ctx c) ?_
  have h1 := cancelCounters_ctx s key
  have h2 := State.tellParent_doneKept (s.cancelCounters key) key
  exact cancelAll_reaches _ _ hR hP hRP hPR _ _ (hR _ _ ((h1.1 c).trans (h2.ctx c)) h) (.inl (h2.touched c (h1.2 c hc)))

end Cancelled

/-! ## What it makes of preloads and units -/

theorem Ctx.dropUnit_none {x : Ctx} {arms : List Nat} {n : Nat} (h : x.unit = none) : x.dropUnit arms n = x := by
  unfold Ctx.dropUnit
  rw [h]

theorem Ctx.dropUnit_preload (x : Ctx) (arms : List Nat) (n : Nat) : (x.dropUnit arms n).preload = x.preload := by
  unfold Ctx.dropUnit
  split
  · rfl
  · split
    · rfl
    · split <;> rfl

theorem Ctx.dropPreload_eq (x : Ctx) (arms : List Nat) : x.dropPreload arms = { x with preload := (x.dropPreload arms).preload } := by
  unfold Ctx.dropPreload
  split <;> rfl

theorem Ctx.dropPreload_none {x : Ctx} {arms : List Nat} (h : ∀ u, x.preload = some u → reached arms u = true) :
    (x.dropPreload arms).preload = none := by
  unfold Ctx.dropPreload
  cases hp : x.preload with
  | none => simpa using hp
  | some u => simp [h u hp]

/-- The channels of a context after a cancel that reached its unit: nothing that has not started, and what has started as it was. -/
def Discarded (st : Fin 8 → Option Started) (x : Ctx) : Prop :=
  ∀ j : Fin 8, x.ch[j].cmds = [] ∧ x.ch[j].halted = false ∧ x.ch[j].started = st j

theorem discarded_cancel {x y : Ctx} {st : Fin 8 → Option Started} (h : ∀ j : Fin 8, x.ch[j].started = st j) (hy : y.ch = x.ch.map Chan.cancel) :
    Discarded st y := by
  intro j
  rw [hy]
  exact ⟨by simp [Chan.cancel], by simp [Chan.cancel], by simpa [Chan.cancel] using h j⟩

/-- A context with unit `u`, which runs or not, and what its channels have started. -/
def HasUnit (u : UnitSt) (runs : Prop) (st : Fin 8 → Option Started) (x : Ctx) : Prop :=
  x.unit = some u ∧ (x.run = .running ↔ runs) ∧ ∀ j : Fin 8, x.ch[j].started = st j

theorem HasUnit.of_unmoved {u : UnitSt} {runs : Prop} {st : Fin 8 → Option Started} {x y : Ctx} (hm : Unmoved x y) (h : HasUnit u runs st x) :
    HasUnit u runs st y :=
  ⟨hm.unit.trans h.1, by rw [hm.run]; exact h.2.1, fun j => by rw [hm.ch]; exact h.2.2 j⟩

theorem Discarded.of_unmoved {st : Fin 8 → Option Started} {x y : Ctx} (hm : Unmoved x y) (h : Discarded st x) : Discarded st y :=
  fun j => by rw [hm.ch]; exact h j

section OneContext
variable {arms : List Nat} {n : Nat} {u : UnitSt} (hu : reached arms u = true)
include hu

/-- A running unit stays, with its commands that have not started discarded and CANCELLED pending. -/
theorem dropUnit_running {x : Ctx} (h : x.unit = some u) (hr : x.run = .running) : x.dropUnit arms n = x.cancelled n := by
  unfold Ctx.dropUnit
  rw [h]
  dsimp only
  rw [hu, if_neg (by simp), if_pos hr]

theorem dropUnit_stopped {x : Ctx} (h : x.unit = some u) (hr : x.run ≠ .running) :
    x.dropUnit arms n = { x.newTenure with unit := none, ch := x.ch.map Chan.cancel } := by
  unfold Ctx.dropUnit
  rw [h]
  dsimp only
  rw [hu, if_neg (by simp), if_neg hr]

end OneContext

section Reached
variable {s : State} {key c : Nat} {u : UnitSt} (hc : c ∈ s.touched) (hsh : u.shadow = false) (hu : LaunchBeneath s.dev key u.arm)
include hc hsh hu

theorem cancelNode_preload (h : (s.ctxOf c).preload = some u) : ((s.cancelNode key).ctxOf c).preload = none := by
  have hr : reached (s.dev.armsBelow key) u = true := by simp [reached, hsh, (mem_armsBelow key).mpr hu]
  refine cancelNode_reaches (R := fun x => ∀ v, x.preload = some v → v = u) (P := fun x => x.preload = none) ?_ ?_ ?_ ?_ hc ?_
  · exact fun x y hm hx v hv => hx v (hm.preload ▸ hv)
  · exact fun x y hm hx => hm.preload.trans hx
  · exact fun x hx => (Ctx.dropUnit_preload _ _ _).trans (Ctx.dropPreload_none fun v hv => hx v hv ▸ hr)
  · exact fun x hx v hv => by simp [hx] at hv
  · exact fun v hv => Option.some.inj (hv.symm.trans h)

theorem cancelNode_stopped (h : (s.ctxOf c).unit = some u) (hrun : (s.ctxOf c).run ≠ .running) :
    ((s.cancelNode key).ctxOf c).unit = none ∧ Discarded (fun j => (s.ctxOf c).ch[j].started) ((s.cancelNode key).ctxOf c) := by
  have hr : reached (s.dev.armsBelow key) u = true := by simp [reached, hsh, (mem_armsBelow key).mpr hu]
  generalize hst : (fun j : Fin 8 => (s.ctxOf c).ch[j].started) = st
  refine cancelNode_reaches (key := key) (R := fun x => (x.unit = none ∧ Discarded st x) ∨ HasUnit u False st x)
    (P := fun x => x.unit = none ∧ Discarded st x) ?_ ?_ ?_ (fun x hx => .inl hx) hc (.inr ⟨h, iff_of_false hrun id, congrFun hst⟩)
  · rintro x y hm (⟨h1, h2⟩ | hx)
    · exact .inl ⟨hm.unit.trans h1, h2.of_unmoved hm⟩
    · exact .inr (hx.of_unmoved hm)
  · exact fun x y hm ⟨h1, h2⟩ => ⟨hm.unit.trans h1, h2.of_unmoved hm⟩
  · rintro x (⟨h1, h2⟩ | ⟨h1, h2, h3⟩)
    · rw [Ctx.dropPreload_eq, Ctx.dropUnit_none (by exact h1)]
      exact ⟨h1, h2⟩
    · rw [Ctx.dropPreload_eq, dropUnit_stopped hr (by exact h1) (by exact h2.mp)]
      exact ⟨rfl, discarded_cancel h3 rfl⟩

theorem cancelNode_running (h : (s.ctxOf c).unit = some u) (hrun : (s.ctxOf c).run = .running) :
    ((s.cancelNode key).ctxOf c).unit = some u ∧ ⟨BitVec.ofNat 64 (key % 2 ^ 13), false, none⟩ ∈ ((s.cancelNode key).ctxOf c).pCancelled ∧
      Discarded (fun j => (s.ctxOf c).ch[j].started) ((s.cancelNode key).ctxOf c) := by
  have hr : reached (s.dev.armsBelow key) u = true := by simp [reached, hsh, (mem_armsBelow key).mpr hu]
  generalize hst : (fun j : Fin 8 => (s.ctxOf c).ch[j].started) = st
  have hend := cancelNode_reaches (key := key) (R := HasUnit u True st)
    (P := fun x => HasUnit u True st x ∧ ⟨BitVec.ofNat 64 (key % 2 ^ 13), false, none⟩ ∈ x.pCancelled ∧ Discarded st x)
    (fun x y hm hx => hx.of_unmoved hm) (fun x y hm hx => ⟨hx.1.of_unmoved hm, hm.canc ▸ hx.2.1, hx.2.2.of_unmoved hm⟩) ?_
    (fun x hx => hx.1) hc ⟨h, iff_of_true hrun trivial, congrFun hst⟩
  · exact ⟨hend.1.1, hend.2⟩
  · rintro x ⟨h1, h2, h3⟩
    rw [Ctx.dropPreload_eq, dropUnit_running hr (by exact h1) (by exact h2.mpr trivial)]
    have hd : Discarded st (({ x with preload := (x.dropPreload (s.dev.armsBelow key)).preload } : Ctx).cancelled (key % 8192)) :=
      discarded_cancel (x := x) h3 rfl
    exact ⟨⟨h1, h2, fun j => (hd j).2.2⟩, List.mem_append_right _ (List.mem_singleton.mpr rfl), hd⟩

end Reached

/-! ## Where the parent reaches no target -/

section Parent
variable {s : State} {key : Nat}

theorem cancelCounters_other {n : Nat} (h : ¬ Beneath s.dev key 4 n) : (s.cancelCounters key).dev.counter false n = s.dev.counter false n := by
  rw [cancelCounters_counter, if_neg]
  intro hn
  obtain ⟨-, -, hb, -⟩ := (mem_liveBelow key).mp hn
  exact h hb

/-- With no launch that waits, readiness is settled at the end. -/
theorem cancelNode_of_none_waiting (hw : ∀ l ∈ s.dev.launches, l.phase ≠ .waiting)
    (hl : ((s.cancelCounters key).tellParent key).dev.launches = (s.cancelCounters key).dev.launches) :
    (∀ n, (s.cancelNode key).dev.counter false n = ((s.cancelCounters key).tellParent key).dev.counter false n) ∧
      (s.cancelNode key).dev.launches = (s.cancelCounters key).dev.launches := by
  have hall := cancelAll_dev (s.dev.armsBelow key) (key % 8192) ((s.cancelCounters key).tellParent key).touched
    ((s.cancelCounters key).tellParent key)
  rw [State.cancelNode_eq, State.settleLaunches_of_none_waiting]
  · exact ⟨hall.1, hall.2.trans hl⟩
  · intro l h
    rw [hall.2, hl] at h
    exact hw l ((mem_cancelCounters_launches s key l).mp h).1

variable {k : Counter} (hk : s.dev.counter false key = some k) (hd : k.done = false)
include hk hd

/-- The cancelled counter once the counters are done. -/
theorem cancelCounters_self : (s.cancelCounters key).dev.counter false key = some { k with done := true, canc := true } := by
  rw [cancelCounters_counter, if_pos ((mem_liveBelow key).mpr ⟨k, lookup_mem hk, .inl rfl, hd⟩), hk]
  rfl

theorem tellParent_none (h : k.parent = none) : (s.cancelCounters key).tellParent key = s.cancelCounters key := by
  unfold State.tellParent
  rw [cancelCounters_self hk hd]
  simp [h]

theorem tellParent_some {p : Nat} {q : Counter} (h : k.parent = some p) (hb : ¬ Beneath s.dev key 4 p) (hq : s.dev.counter false p = some q)
    (hqd : q.done = false) (ha : q.arm = k.parentArm) (hc : key % 2 ^ 13 ∉ q.counted) (ht : q.count + 1 < q.target) :
    (s.cancelCounters key).tellParent key = (s.cancelCounters key).onDev fun d =>
      d.setCounter false p { q with count := q.count + 1, counted := q.counted ++ [key % 2 ^ 13] } := by
  have hq' := (cancelCounters_other hb).trans hq
  unfold State.tellParent
  rw [cancelCounters_self hk hd]
  simp only [Option.bind_some, h, Option.map_some]
  rw [State.countUp, hq']
  dsimp only
  rw [if_neg (by simpa [hqd, ha] using hc), if_neg (by omega)]
  rfl

end Parent

theorem cancelReaches : CancelReaches := by
  rintro s t key k hk hd rfl
  refine ⟨fun n q hq hn => cancelNode_counters hq hn, fun n q hq hn hnd h0 => cancelNode_launches hq hn hnd h0, fun c hc => ⟨?_, ?_⟩, fun hw hp => ?_⟩
  · exact fun u h hsh hu => cancelNode_preload hc hsh hu h
  · intro u h hsh hu
    by_cases hrun : (s.ctxOf c).run = .running
    · obtain ⟨h1, h2, h3⟩ := cancelNode_running hc hsh hu h hrun
      exact ⟨fun hne => absurd hrun hne, fun _ => ⟨h1, h2⟩, h3⟩
    · obtain ⟨h1, h2⟩ := cancelNode_stopped hc hsh hu h hrun
      exact ⟨fun _ => h1, fun he => absurd he hrun, h2⟩
  · have hkeep : ∀ l ∈ s.dev.launches, (∀ p ∈ s.dev.counters, Beneath s.dev key 4 p.1 → p.2.arm ≠ l.arm) → l ∈ (s.cancelCounters key).dev.launches := by
      refine fun l hl h => (mem_cancelCounters_launches s key l).mpr ⟨hl, fun n hn q hq _ => ?_⟩
      obtain ⟨-, -, hb, -⟩ := (mem_liveBelow key).mp hn
      exact (h _ (lookup_mem hq) hb).symm
    cases hpar : k.parent with
    | none =>
      have ht := tellParent_none hk hd hpar
      obtain ⟨hctr, hlau⟩ := cancelNode_of_none_waiting hw (by rw [ht])
      refine ⟨fun p q h => by simp at h, fun n hn _ => ?_, fun l hl h => hlau ▸ hkeep l hl h⟩
      rw [hctr, ht, cancelCounters_other hn]
    | some p =>
      obtain ⟨hb, q, hq, hqd, ha, hc, htgt⟩ := hp p hpar
      have ht := tellParent_some hk hd hpar hb hq hqd ha hc htgt
      obtain ⟨hctr, hlau⟩ := cancelNode_of_none_waiting hw (by rw [ht]; rfl)
      have hset : ∀ n, (s.cancelNode key).dev.counter false n =
          if n = p then some { q with count := q.count + 1, counted := q.counted ++ [key % 2 ^ 13] } else (s.cancelCounters key).dev.counter false n :=
        fun n => by rw [hctr, ht]; exact Dev.counter_setCounter _ _ _ _
      refine ⟨fun p' q' h hq' => ?_, fun n hn hne => ?_, fun l hl h => hlau ▸ hkeep l hl h⟩
      · obtain rfl := Option.some.inj h
        rw [hq] at hq'
        obtain rfl := Option.some.inj hq'
        rw [hset, if_pos rfl]
      · rw [hset, if_neg (fun e => hne (by rw [e])), cancelCounters_other hn]

/-! ## The words -/

theorem statusWord_eq (code off : Nat) : statusWord code off = status code off := by
  unfold statusWord status
  split <;> rfl

section CancelWord
variable {s : State} {a d : BitVec 5} (h : Drained s .sup)
include h

theorem exec_cancel_high (hw : 2 ^ 13 ≤ (s.getX a).toNat) : exec (.cancel a d) s = s.writeX d (statusWord 1 0) := by
  show execCancel a d s = _
  rw [execCancel, State.sched, State.needs_allowed h.2, State.whenDrained_empty h.1]
  exact if_pos hw

theorem exec_cancel_idle (hw : (s.getX a).toNat < 2 ^ 13) (hk : s.dev.counter false (ctrKey s.die ((s.getX a).toNat % 2 ^ 13)) = none) :
    exec (.cancel a d) s = s.writeX d (statusWord 2 0) := by
  show execCancel a d s = _
  rw [execCancel, State.sched, State.needs_allowed h.2, State.whenDrained_empty h.1]
  dsimp only
  rw [if_neg (by omega), hk]

theorem exec_cancel_counter {k : Counter} (hw : (s.getX a).toNat < 2 ^ 13)
    (hk : s.dev.counter false (ctrKey s.die ((s.getX a).toNat % 2 ^ 13)) = some k) : exec (.cancel a d) s =
      if s.ctx.priv = .sup ∧ s.foreign (ctrKey s.die ((s.getX a).toNat % 2 ^ 13)) then s.writeX d (statusWord 1 0)
      else if k.done then s.writeX d 0
      else (s.cancelNode (ctrKey s.die ((s.getX a).toNat % 2 ^ 13))).writeX d 0 := by
  show execCancel a d s = _
  rw [execCancel, State.sched, State.needs_allowed h.2, State.whenDrained_empty h.1]
  dsimp only
  rw [if_neg (by omega), hk]

end CancelWord

theorem cancelStatus : CancelStatus := by
  rintro s a d key h rfl
  refine ⟨fun hw => ?_, fun hw hk => ?_, fun k hw hk => ⟨fun hp hf => ?_, fun hr hd => ?_, fun hr hd => ?_⟩⟩
  · rw [exec_cancel_high h hw, statusWord_eq]
    rfl
  · rw [exec_cancel_idle h hw hk, statusWord_eq]
    rfl
  · rw [exec_cancel_counter h hw hk, if_pos ⟨hp, hf⟩, statusWord_eq]
    rfl
  all_goals
    have hmay : ¬ (s.ctx.priv = .sup ∧ s.foreign (ctrKey s.die ((s.getX a).toNat % 2 ^ 13)) = true) := by
      rintro ⟨hp, hf⟩
      rcases hr with hr | hr
      · rw [hr] at hp
        cases hp
      · exact absurd hf (by rw [hr]; exact Bool.false_ne_true)
    rw [exec_cancel_counter h hw hk, if_neg hmay, hd]
    rfl

theorem Counter.word_fields (k : Counter) : k.word.toNat % 2 ^ 32 = k.count % 2 ^ 32 ∧ k.word.getLsbD 63 = k.done ∧
    k.word.getLsbD 62 = k.canc ∧ k.word.getLsbD 61 = true ∧ k.word.toNat / 2 ^ 32 % 2 ^ 29 = 0 := by
  have hn : k.word.toNat = (if k.done then 2 ^ 63 else 0) + (if k.canc then 2 ^ 62 else 0) + 2 ^ 61 + k.count % 2 ^ 32 := by
    rw [Counter.word, BitVec.toNat_ofNat]
    split <;> split <;> omega
  simp only [BitVec.getLsbD, Nat.testBit_eq_decide_div_mod_eq, hn]
  refine ⟨?_, ?_, ?_, ?_, ?_⟩ <;> cases k.done <;> cases k.canc <;> simp <;> omega

section ReadWord
variable {s : State} {a d : BitVec 5}

theorem readCounter_high (f : Counter → Word) (hw : 2 ^ 13 ≤ (s.getX a).toNat) : s.readCounter a d f = .next (s.trap 0x08 (s.getX a)) := if_pos hw

theorem readCounter_idle (f : Counter → Word) (hw : (s.getX a).toNat < 2 ^ 13)
    (hk : s.dev.counter false (ctrKey s.die (s.getX a).toNat) = none) : s.readCounter a d f = s.writeX d 0 := by
  unfold State.readCounter
  dsimp only
  rw [if_neg (by omega), hk]

/-- R330, R336: app reads the counters of its own ASID, sup those of its job. -/
def MayRead (s : State) (k : Counter) : Prop :=
  s.ctx.priv = .hyp ∨ s.ctx.priv = .app ∧ k.asid = s.ctx.asid ∨ s.ctx.priv = .sup ∧ s.jobOf k.asid = s.jobOf s.ctx.asid

theorem readCounter_counter {k : Counter} (f : Counter → Word) (hw : (s.getX a).toNat < 2 ^ 13)
    (hk : s.dev.counter false (ctrKey s.die (s.getX a).toNat) = some k) :
    (MayRead s k → s.readCounter a d f = s.writeX d (f k)) ∧ (¬ MayRead s k → s.readCounter a d f = .next (s.trap 0x08 (s.getX a))) := by
  unfold State.readCounter State.foreign MayRead
  dsimp only
  rw [if_neg (by omega), hk]
  dsimp only
  cases s.ctx.priv
  case hyp => simp
  case app => simp +contextual
  case sup => simp +contextual

end ReadWord

theorem exec_cread {s : State} (a d : BitVec 5) (h : s.ctx.viq = []) : exec (.cread a d) s = s.readCounter a d Counter.word := by
  show execCread a d s = _
  rw [execCread, State.sched, State.needs_allowed (Nat.zero_le _), State.whenDrained_empty h]

theorem exec_creadT {s : State} (a d : BitVec 5) (h : s.ctx.viq = []) :
    exec (.creadT a d) s = s.readCounter a d fun k => BitVec.ofNat 64 k.target := by
  show execCreadT a d s = _
  rw [execCreadT, State.sched, State.needs_allowed (Nat.zero_le _), State.whenDrained_empty h]

theorem counterReads : CounterReads := by
  intro s a d h
  rw [exec_cread a d h, exec_creadT a d h]
  refine ⟨fun hw => ⟨readCounter_high _ hw, readCounter_high _ hw⟩, fun hw hk => ⟨readCounter_idle _ hw hk, readCounter_idle _ hw hk⟩,
    fun k hw hk => ⟨fun hno => ?_, fun hmay => ?_⟩⟩
  · have hn : ¬ MayRead s k := by
      rintro (h1 | ⟨h1, h2⟩ | ⟨h1, h2⟩) <;> rcases hno with ⟨h3, h4⟩ | ⟨h3, h4⟩ <;> simp_all
    exact ⟨(readCounter_counter _ hw hk).2 hn, (readCounter_counter _ hw hk).2 hn⟩
  · exact ⟨⟨_, (readCounter_counter _ hw hk).1 hmay, k.word_fields⟩, (readCounter_counter _ hw hk).1 hmay⟩

/-- Settles O26: a cancel goes through its counters, its parent and the contexts in turn, and each stage keeps what the others have done. -/
theorem cancelAndCounters : Obligations.CancelAndCounters := ⟨cancelStatus, cancelReaches, counterReads⟩

end Sys2Proof.Machine

/-! The dispatcher's pop (R313 to R315) and the start of a gang. -/

namespace Sys2Proof.Machine
open Sys2Proof.Claims

/-! ## Launches in the order of a key -/

theorem mem_insertBy {f : Launch → Nat} {l m : Launch} {ls : List Launch} : m ∈ insertBy f l ls ↔ m = l ∨ m ∈ ls := by
  induction ls with
  | nil => simp [insertBy]
  | cons a ls ih =>
    unfold insertBy
    split
    · simp
    · rw [List.mem_cons, ih, List.mem_cons]
      tauto

/-- The head of a list has the least key. -/
def HeadLeast (f : Launch → Nat) (ls : List Launch) : Prop := ∀ x r, ls = x :: r → ∀ y ∈ ls, f x ≤ f y

theorem headLeast_insertBy {f : Launch → Nat} {ls : List Launch} (h : HeadLeast f ls) (l : Launch) : HeadLeast f (insertBy f l ls) := by
  cases ls with
  | nil =>
    rintro x r h y hy
    obtain ⟨rfl, rfl⟩ := List.cons.inj h
    simp_all [insertBy]
  | cons a ls =>
    unfold insertBy
    split
    · next hlt =>
      rintro x r hx y hy
      obtain ⟨rfl, rfl⟩ := List.cons.inj hx
      rcases List.mem_cons.mp hy with rfl | hy
      · exact le_rfl
      · exact hlt.le.trans (h a ls rfl y hy)
    · next hle =>
      rintro x r hx y hy
      obtain ⟨rfl, rfl⟩ := List.cons.inj hx
      rcases List.mem_cons.mp hy with rfl | hy
      · exact le_rfl
      · rcases mem_insertBy.mp hy with rfl | hy
        · exact Nat.le_of_not_lt hle
        · exact h a ls rfl y (List.mem_cons_of_mem _ hy)

theorem sortBy_spec (f : Launch → Nat) (ls : List Launch) : HeadLeast f (sortBy f ls) ∧ ∀ m, m ∈ sortBy f ls ↔ m ∈ ls := by
  have hfold : ∀ acc, HeadLeast f acc → HeadLeast f (ls.foldl (fun r l => insertBy f l r) acc) ∧
      ∀ m, m ∈ ls.foldl (fun r l => insertBy f l r) acc ↔ m ∈ acc ∨ m ∈ ls := by
    induction ls with
    | nil => simp
    | cons a ls ih =>
      intro acc hacc
      obtain ⟨h1, h2⟩ := ih (insertBy f a acc) (headLeast_insertBy hacc a)
      refine ⟨h1, fun m => ?_⟩
      rw [List.foldl_cons, h2, mem_insertBy, List.mem_cons]
      tauto
  obtain ⟨h1, h2⟩ := hfold [] (fun x r h => by cases h)
  exact ⟨h1, fun m => (h2 m).trans (by simp)⟩

/-- The only launch with the least key is at the head. -/
theorem sortBy_head {f : Launch → Nat} {ls : List Launch} {x : Launch} (hx : x ∈ ls) (hmin : ∀ y ∈ ls, f x ≤ f y)
    (huniq : ∀ y ∈ ls, f y = f x → y = x) : ∃ r, sortBy f ls = x :: r := by
  obtain ⟨hh, hm⟩ := sortBy_spec f ls
  cases hs : sortBy f ls with
  | nil => simpa [hs] using (hm x).mpr hx
  | cons a r =>
    have ha : a ∈ ls := (hm a).mp (by rw [hs]; exact List.mem_cons_self ..)
    have hle := hh a r hs x ((hm x).mpr hx)
    obtain rfl := huniq a ha (Nat.le_antisymm hle (hmin a ha))
    exact ⟨r, rfl⟩

/-! ## The best launch -/

/-- `x` is no worse than `y` (R313). -/
def NoWorse (x y : Launch) : Prop := y.prio < x.prio ∨ (y.prio = x.prio ∧ x.readySeq ≤ y.readySeq)

theorem betterOf_spec (a b : Launch) : (betterOf a b = a ∨ betterOf a b = b) ∧ NoWorse (betterOf a b) a ∧ NoWorse (betterOf a b) b := by
  unfold betterOf NoWorse
  split
  · next h => exact ⟨.inr rfl, by omega, .inr ⟨rfl, le_rfl⟩⟩
  · next h => exact ⟨.inl rfl, .inr ⟨rfl, le_rfl⟩, by omega⟩

theorem NoWorse.trans {x y z : Launch} (h : NoWorse x y) (k : NoWorse y z) : NoWorse x z := by
  unfold NoWorse at *
  omega

theorem foldl_betterOf (r : List Launch) : ∀ l, r.foldl betterOf l ∈ l :: r ∧ ∀ y ∈ l :: r, NoWorse (r.foldl betterOf l) y := by
  induction r with
  | nil => exact fun l => ⟨List.mem_cons_self .., fun y hy => by rw [List.mem_singleton.mp hy]; exact .inr ⟨rfl, le_rfl⟩⟩
  | cons b r ih =>
    intro l
    obtain ⟨h1, h2⟩ := ih (betterOf l b)
    obtain ⟨hmem, hl, hb⟩ := betterOf_spec l b
    have hbest := h2 _ (List.mem_cons_self ..)
    refine ⟨?_, fun y hy => ?_⟩
    · rcases List.mem_cons.mp h1 with h | h
      · rw [List.foldl_cons, h]
        rcases hmem with h | h <;> simp [h]
      · exact List.mem_cons_of_mem _ (List.mem_cons_of_mem _ h)
    · rcases List.mem_cons.mp hy with rfl | hy
      · exact hbest.trans hl
      · rcases List.mem_cons.mp hy with rfl | hy
        · exact hbest.trans hb
        · exact h2 y (List.mem_cons_of_mem _ hy)

/-- The only launch that is no worse than any is the best. -/
theorem bestOf_eq {ls : List Launch} {x : Launch} (hx : x ∈ ls) (hbest : ∀ y ∈ ls, NoWorse x y)
    (huniq : ∀ y ∈ ls, y.readySeq = x.readySeq → y = x) : bestOf ls = some x := by
  cases ls with
  | nil => cases hx
  | cons a r =>
    obtain ⟨hz, hall⟩ := foldl_betterOf r a
    have h1 := hall x hx
    have h2 := hbest _ hz
    unfold NoWorse at h1 h2
    exact congrArg some (huniq _ hz (by omega))

theorem bestOf_headOf {ready : List Launch} {b : Nat} {x : Launch} (h : HeadOf ready b x)
    (huniq : ∀ y ∈ ready, y.readySeq = x.readySeq → y = x) : bestOf (ready.filter fun l => l.bank == b) = some x := by
  obtain ⟨hx, hb, hbest⟩ := h
  refine bestOf_eq (List.mem_filter.mpr ⟨hx, by simpa using hb⟩) (fun y hy => ?_) fun y hy => huniq y (List.mem_filter.mp hy).1
  obtain ⟨hy, hyb⟩ := List.mem_filter.mp hy
  exact hbest y hy (by simpa using hyb)

/-! ## The choice of a pop -/

/-- The banks that hold a launch. -/
def fullBanks (ready : List Launch) : List Nat := (List.range 16).filter fun b => ready.any fun l => l.bank == b

theorem nodup_fullBanks (ready : List Launch) : (fullBanks ready).Nodup := List.nodup_range.filter _

theorem mem_fullBanks {ready : List Launch} (h : ∀ y ∈ ready, y.bank < 16) {b : Nat} : b ∈ fullBanks ready ↔ ∃ y ∈ ready, y.bank = b := by
  rw [fullBanks, List.mem_filter, List.mem_range, List.any_eq_true]
  constructor
  · rintro ⟨-, y, hy, hb⟩
    exact ⟨y, hy, by simpa using hb⟩
  · rintro ⟨y, hy, rfl⟩
    exact ⟨h y hy, y, hy, by simp⟩

theorem popChoice_strict {ready : List Launch} (b1 b2 : Nat) {x : Launch} {r : List Launch}
    (h : sortBy (·.readySeq) (ready.filter (·.strict)) = x :: r) : popChoice ready b1 b2 = some x := by
  rw [popChoice, h]

theorem popChoice_one {ready : List Launch} {b1 : Nat} (b2 : Nat) (hns : ∀ y ∈ ready, y.strict = false)
    (hlen : (fullBanks ready).length ≤ 1) (hb : b1 ∈ fullBanks ready) :
    popChoice ready b1 b2 = bestOf (ready.filter fun l => l.bank == b1) := by
  have hnone : ready.filter (·.strict) = [] := List.filter_eq_nil_iff.mpr fun y hy => by simp [hns y hy]
  rw [popChoice, hnone]
  exact (if_pos hlen).trans (if_pos (List.contains_iff_mem.mpr hb))

theorem popChoice_two {ready : List Launch} {b1 b2 : Nat} {y z : Launch} (hns : ∀ y ∈ ready, y.strict = false)
    (hlen : ¬ (fullBanks ready).length ≤ 1) (hb : b1 ≠ b2) (h1 : b1 ∈ fullBanks ready) (h2 : b2 ∈ fullBanks ready)
    (hy : bestOf (ready.filter fun l => l.bank == b1) = some y) (hz : bestOf (ready.filter fun l => l.bank == b2) = some z) :
    popChoice ready b1 b2 = some (betterOf y z) := by
  have hnone : ready.filter (·.strict) = [] := List.filter_eq_nil_iff.mpr fun y hy => by simp [hns y hy]
  rw [popChoice, hnone]
  refine (if_neg hlen).trans ((if_pos ⟨hb, List.contains_iff_mem.mpr h1, List.contains_iff_mem.mpr h2⟩).trans ?_)
  dsimp only
  rw [hy, hz]

/-- R313, R314: the launch that a pop takes. -/
theorem popChoice_eq {ready : List Launch} {b1 b2 : Nat} {x : Launch}
    (h : ∀ y ∈ ready, y.bank < 16 ∧ ∀ z ∈ ready, z.readySeq = y.readySeq → z = y) (hx : PopTakes ready b1 b2 x) :
    popChoice ready b1 b2 = some x := by
  have hmem : ∀ b, b ∈ fullBanks ready ↔ ∃ y ∈ ready, y.bank = b := fun b => mem_fullBanks fun y hy => (h y hy).1
  rcases hx with ⟨hx, hs, hmin⟩ | ⟨hns, ⟨hall, hx⟩ | ⟨hb, y, z, hy, hz, rfl⟩⟩
  · obtain ⟨r, hr⟩ := sortBy_head (f := (·.readySeq)) (ls := ready.filter (·.strict)) (List.mem_filter.mpr ⟨hx, hs⟩)
      (fun y hy => hmin y (List.mem_filter.mp hy).1 (List.mem_filter.mp hy).2) fun y hy => (h x hx).2 y (List.mem_filter.mp hy).1
    exact popChoice_strict b1 b2 hr
  · have hsub : fullBanks ready ⊆ [b1] := by
      intro b hb
      obtain ⟨y, hy, rfl⟩ := (hmem b).mp hb
      exact List.mem_singleton.mpr (hall y hy)
    rw [popChoice_one b2 hns (List.subperm_of_subset (nodup_fullBanks ready) hsub).length_le ((hmem b1).mpr ⟨x, hx.1, hx.2.1⟩)]
    exact bestOf_headOf hx (h x hx.1).2
  · have h1 := (hmem b1).mpr ⟨y, hy.1, hy.2.1⟩
    have h2 := (hmem b2).mpr ⟨z, hz.1, hz.2.1⟩
    have hsub : [b1, b2] ⊆ fullBanks ready := by simp [h1, h2]
    have hlen := (List.subperm_of_subset (by simpa using hb) hsub).length_le
    exact popChoice_two hns (Nat.not_le.mpr hlen) hb h1 h2 (bestOf_headOf hy (h y hy.1).2) (bestOf_headOf hz (h z hz.1).2)

/-- An older ready launch after a pop that takes `x` (R314). -/
def State.aged (s : State) (die : Nat) (x l : Launch) : Launch :=
  if l.phase = .ready ∧ s.dev.hostDie l = die ∧ l.readySeq < x.readySeq then
    { l with passes := l.passes + 1, strict := l.strict || decide (1024 ≤ l.passes + 1) }
  else l

/-- The machine after a pop that takes `x`. -/
def State.popped (s : State) (die : Nat) (x : Launch) : State :=
  (s.onDev fun d => { d with launches := d.launches.map (s.aged die x) }).onDev fun d =>
    { d.setLaunch { x with phase := .active, takenSeq := d.seq } with seq := d.seq + 1 }

/-- R313 to R315: what a pop leaves that takes a launch which can start. -/
theorem popLaunch_eq {s : State} {die b1 b2 : Nat} {x : Launch} (hact : (s.dev.inPhase die .active).length < 8)
    (hx : popChoice (s.dev.inPhase die .ready) b1 b2 = some x)
    (hgang : ¬(x.isGang = true ∧ x.head < x.stop ∧ s.gangHopeless die x = true)) :
    ∃ t, s.popLaunch die b1 b2 = t ∧ t = { s with dev := { s.dev with launches := t.dev.launches, seq := s.dev.seq + 1 } } ∧
      t.dev.launches = s.dev.launches.map fun l =>
        if l.arm = x.arm then { x with phase := .active, takenSeq := s.dev.seq }
        else if l.phase = .ready ∧ s.dev.hostDie l = die ∧ l.readySeq < x.readySeq then
          { l with passes := l.passes + 1, strict := l.strict || decide (1024 ≤ l.passes + 1) }
        else l := by
  have hpop : s.popLaunch die b1 b2 = s.popped die x := by
    unfold State.popLaunch
    rw [if_neg (by omega), hx]
    exact if_neg hgang
  refine ⟨_, hpop, rfl, ?_⟩
  show ((s.dev.launches.map (s.aged die x)).map _) = _
  rw [List.map_map]
  refine List.map_congr_left fun l _ => ?_
  have harm : (s.aged die x l).arm = l.arm := by
    unfold State.aged
    split <;> rfl
  by_cases h : l.arm = x.arm
  · simp [harm, h, State.onDev]
  · rw [Function.comp_apply, harm, if_neg (by simpa using h), if_neg h]
    rfl

end Sys2Proof.Machine

/-! The walker: the start of a unit (R32, R333), what a free context is handed (R308, R309), what is preloaded (R311), prologues (R310), and
the start of a gang (R315). -/

namespace Sys2Proof.Machine
open Sys2Proof.Claims

/-! ## The registers of a unit that starts -/

/-- Registers from `b` on written with the values of `f`. -/
def Ctx.setRun (c : Ctx) (b n : Nat) (f : Nat → Word) : Ctx := (List.range n).foldl (fun c i => c.setX (BitVec.ofNat 5 (b + i)) (f i)) c

theorem Ctx.setRun_succ (c : Ctx) (b n : Nat) (f : Nat → Word) :
    c.setRun b (n + 1) f = (c.setRun b n f).setX (BitVec.ofNat 5 (b + n)) (f n) := by
  simp [Ctx.setRun, List.range_succ]

theorem Ctx.setRun_only (c : Ctx) (b n : Nat) (f : Nat → Word) : c.setRun b n f = { c with x := (c.setRun b n f).x } := by
  induction n with
  | zero => rfl
  | succ n ih =>
    rw [Ctx.setRun_succ, Ctx.setX_only, ih]

theorem ofNat5_inj {j k : Nat} (hj : j < 32) (hk : k < 32) : BitVec.ofNat 5 j = BitVec.ofNat 5 k ↔ j = k := by
  rw [← BitVec.toNat_inj, BitVec.toNat_ofNat, BitVec.toNat_ofNat, Nat.mod_eq_of_lt hj, Nat.mod_eq_of_lt hk]

/-- A write of a register by its number. -/
theorem Ctx.getX_setX_ofNat (c : Ctx) {d r : Nat} (hd : 0 < d) (hd' : d < 32) (hr : r < 32) (v : Word) :
    (c.setX (BitVec.ofNat 5 d) v).getX (BitVec.ofNat 5 r) = if r = d then v else c.getX (BitVec.ofNat 5 r) := by
  rw [Ctx.getX_setX]
  have hzero : BitVec.ofNat 5 r = 0 ↔ r = 0 := ofNat5_inj hr (by decide)
  simp only [hzero, ofNat5_inj hr hd']
  split
  · next h => subst h; rw [if_neg (by omega)]; exact (Ctx.getX_zero c).symm
  · rfl

theorem Ctx.getX_setRun (c : Ctx) {b n k : Nat} (hb : 0 < b) (hn : b + n ≤ 32) (hk : k < 32) (f : Nat → Word) :
    (c.setRun b n f).getX (BitVec.ofNat 5 k) = if b ≤ k ∧ k < b + n then f (k - b) else c.getX (BitVec.ofNat 5 k) := by
  induction n with
  | zero => rw [if_neg (by omega)]; rfl
  | succ n ih =>
    rw [Ctx.setRun_succ, Ctx.getX_setX_ofNat _ (by omega) (by omega) hk, ih (by omega)]
    by_cases h : k = b + n
    · subst h
      rw [if_pos rfl, if_pos (by omega), Nat.add_sub_cancel_left]
    · rw [if_neg h]
      exact if_congr (by omega) rfl rfl

/-- R32, R333: what a unit's context holds at its start, but for the registers that the launch record gives. -/
structure Ctx.StartOf (y x : Ctx) (u : UnitSt) (l : Launch) : Prop where
  run : y.run = .running
  unit : y.unit = some u
  priv : y.priv = .app
  asid : y.asid = l.asid
  pc : y.pc = BitVec.ofNat 64 (pcBits (BitVec.ofNat 64 (field l.record 8 8)))
  tvec : y.tvec = if field l.record 152 8 = 0 then x.tvec else BitVec.ofNat 64 (pcBits (BitVec.ofNat 64 (field l.record 152 8)))
  v : y.v = Vector.replicate 64 0
  facets : y.facets = Vector.replicate 64 0
  tiles : y.tiles = Vector.replicate 4 Tile.empty
  viq : y.viq = []
  detm : y.detm = u.det

theorem Ctx.StartOf.setX {y x : Ctx} {u : UnitSt} {l : Launch} (h : y.StartOf x u l) (d : BitVec 5) (v : Word) : (y.setX d v).StartOf x u l := by
  rw [Ctx.setX_only]
  exact { h with }

theorem Ctx.StartOf.setRun {y x : Ctx} {u : UnitSt} {l : Launch} (h : y.StartOf x u l) (b n : Nat) (f : Nat → Word) :
    (y.setRun b n f).StartOf x u l := by
  rw [Ctx.setRun_only]
  exact { h with }

/-- The context of a unit at its start, before the registers of the launch record are written (R32). -/
def Ctx.startBase (x : Ctx) (sec : Bool) (u : UnitSt) (l : Launch) : Ctx :=
  { Ctx.reset sec with
    pc := BitVec.ofNat 64 (pcBits (BitVec.ofNat 64 (field l.record 8 8)))
    cb := if field l.record 144 8 = 0 then Vector.replicate 4 0 else codebooks l.cba
    detm := u.det
    tvec := if field l.record 152 8 = 0 then x.tvec else BitVec.ofNat 64 (pcBits (BitVec.ofNat 64 (field l.record 152 8)))
    htvec := x.htvec
    asid := l.asid
    standLgn := x.standLgn
    standTrn := x.standTrn
    budget := BitVec.ofNat 64 (field l.record 24 8)
    armed := field l.record 24 8 != 0
    rh := x.rh
    rhsel := x.rhsel
    pMcheck := x.pMcheck
    wcb := x.wcb
    stores := x.stores
    path := x.path
    unit := some u
    preload := x.preload
    run := .running
    tenure := x.tenure }

/-- A start is a fresh context with the registers of the launch record written. -/
theorem Ctx.start_eq (x : Ctx) (sec : Bool) (u : UnitSt) (l : Launch) : x.start sec u l =
    ((((x.startBase sec u l).setRun 3 8 fun i => BitVec.ofNat 64 (field l.record (64 + 8 * i) 8)).setRun 26 6
      fun i => BitVec.ofNat 64 (u.idx.getD i 0)).setX 2 (BitVec.ofNat 64 (field l.record 16 8))).setX 25 (BitVec.ofNat 64 u.ord) := by
  unfold Ctx.start Ctx.startBase Ctx.setRun
  rfl

theorem Ctx.startBase_startOf (x : Ctx) (sec : Bool) (u : UnitSt) (l : Launch) : (x.startBase sec u l).StartOf x u l := by
  unfold Ctx.startBase
  constructor <;> simp only [Ctx.reset]

theorem Ctx.start_startOf (x : Ctx) (sec : Bool) (u : UnitSt) (l : Launch) : (x.start sec u l).StartOf x u l := by
  rw [Ctx.start_eq]
  exact ((((x.startBase_startOf sec u l).setRun _ _ _).setRun _ _ _).setX _ _).setX _ _

/-- The registers of a unit at its start (R32, R333). -/
theorem Ctx.getX_start (x : Ctx) (sec : Bool) (u : UnitSt) (l : Launch) {k : Nat} (hk : k < 32) :
    (x.start sec u l).getX (BitVec.ofNat 5 k) =
      if k = 25 then BitVec.ofNat 64 u.ord
      else if k = 2 then BitVec.ofNat 64 (field l.record 16 8)
      else if 26 ≤ k ∧ k < 32 then BitVec.ofNat 64 (u.idx.getD (k - 26) 0)
      else if 3 ≤ k ∧ k < 11 then BitVec.ofNat 64 (field l.record (64 + 8 * (k - 3)) 8)
      else 0 := by
  have hbase : (x.startBase sec u l).getX (BitVec.ofNat 5 k) = 0 := by
    unfold Ctx.getX Ctx.startBase Ctx.reset
    simp
  have h2 : (2 : BitVec 5) = BitVec.ofNat 5 2 := rfl
  have h25 : (25 : BitVec 5) = BitVec.ofNat 5 25 := rfl
  rw [Ctx.start_eq, h2, h25, Ctx.getX_setX_ofNat _ (by decide) (by decide) hk, Ctx.getX_setX_ofNat _ (by decide) (by decide) hk,
    Ctx.getX_setRun _ (by decide) (by decide) hk, Ctx.getX_setRun _ (by decide) (by decide) hk, hbase]

/-- R32, R308, R333: a unit whose prologue has finished starts. -/
theorem State.startUnit_eq {s : State} {c : Nat} {u : UnitSt} {l : Launch} (hu : (s.ctxOf c).unit = some u) (hrun : (s.ctxOf c).run = .off)
    (hready : u.ready = true) (hl : s.dev.launchOf u.arm = some l) :
    s.startUnit c = s.setCtx c (((s.ctxOf c).start (c % 2 == 1) u l).withGrant (c % 2 == 1) (s.avail c).1 (s.avail c).2) := by
  unfold State.startUnit
  simp only [hu, hl]
  exact if_neg (by simp [hrun, hready])

/-- The entry of a launch's code (R32): the low bits of its field. -/
theorem pcBits_field (bs : List Byte) (o : Nat) : pcBits (BitVec.ofNat 64 (field bs o 8)) = field bs o 8 % 2 ^ 55 / 4 * 4 := by
  unfold pcBits
  rw [BitVec.toNat_ofNat, Nat.mod_mod_of_dvd _ (by decide : 2 ^ 55 ∣ 2 ^ 64)]

theorem Ctx.StartOf.withGrant {y x : Ctx} {u : UnitSt} {l : Launch} (h : y.StartOf x u l) (sec : Bool) (lgn trn : Nat) :
    (y.withGrant sec lgn trn).StartOf x u l := { h with }

theorem Ctx.withGrant_getX (y : Ctx) (sec : Bool) (lgn trn : Nat) (r : BitVec 5) : (y.withGrant sec lgn trn).getX r = y.getX r := rfl

/-- R32, R333: the unit that starts. -/
theorem unitStart {s : State} {c : Nat} {l : Launch} (hc : c < numContexts) (u : UnitSt) (hu : (s.ctxOf c).unit = some u)
    (hrun : (s.ctxOf c).run = .off) (hready : u.ready = true) (hl : s.dev.launchOf u.arm = some l) :
    ∃ t, exec (.unitStart c) s = .next t ∧ t.mem = s.mem ∧ t.dev = s.dev ∧ (∀ e, e ≠ c → t.ctxOf e = s.ctxOf e) ∧
        (t.ctxOf c).run = .running ∧ (t.ctxOf c).unit = some u ∧ (t.ctxOf c).priv = .app ∧ (t.ctxOf c).asid = l.asid ∧
        (t.ctxOf c).pc = BitVec.ofNat 64 (field l.record 8 8 % 2 ^ 55 / 4 * 4) ∧
        (t.ctxOf c).tvec = (if field l.record 152 8 = 0 then (s.ctxOf c).tvec else BitVec.ofNat 64 (field l.record 152 8 % 2 ^ 55 / 4 * 4)) ∧
        (t.ctxOf c).getX 2 = BitVec.ofNat 64 (field l.record 16 8) ∧
        (∀ k, k < 8 → (t.ctxOf c).getX (BitVec.ofNat 5 (3 + k)) = BitVec.ofNat 64 (field l.record (64 + 8 * k) 8)) ∧
        (∀ k, 11 ≤ k → k < 25 → (t.ctxOf c).getX (BitVec.ofNat 5 k) = 0) ∧ (t.ctxOf c).getX 25 = BitVec.ofNat 64 u.ord ∧
        (∀ k, k < 6 → (t.ctxOf c).getX (BitVec.ofNat 5 (26 + k)) = BitVec.ofNat 64 (u.idx.getD k 0)) ∧
        (t.ctxOf c).v = Vector.replicate 64 0 ∧ (t.ctxOf c).facets = Vector.replicate 64 0 ∧
        (t.ctxOf c).tiles = Vector.replicate 4 Tile.empty ∧ (t.ctxOf c).viq = [] ∧ (t.ctxOf c).detm = u.det := by
  have hstart := ((s.ctxOf c).start_startOf (c % 2 == 1) u l).withGrant (c % 2 == 1) (s.avail c).1 (s.avail c).2
  have hx : ∀ k, k < 32 → _ := fun k hk => (s.ctxOf c).getX_start (c % 2 == 1) u l hk
  have hself : ∀ y, (s.setCtx c y).ctxOf c = y := fun y => by rw [State.ctxOf_setCtx, if_pos rfl]
  refine ⟨s.startUnit c, congrArg Host.Outcome.next (if_pos hc), ?_⟩
  rw [State.startUnit_eq hu hrun hready hl, hself, ← pcBits_field, ← pcBits_field]
  simp only [Ctx.withGrant_getX]
  refine ⟨State.setCtx_mem .., State.setCtx_dev .., fun e he => by rw [State.ctxOf_setCtx, if_neg he], hstart.run, hstart.unit, hstart.priv,
    hstart.asid, hstart.pc, hstart.tvec, ?_, fun k hk => ?_, fun k h1 h2 => ?_, ?_, fun k hk => ?_, hstart.v,
    hstart.facets, hstart.tiles, hstart.viq, hstart.detm⟩
  · have h2 : (2 : BitVec 5) = BitVec.ofNat 5 2 := rfl
    rw [h2, hx 2 (by decide), if_neg (by decide), if_pos rfl]
  · rw [hx (3 + k) (by omega), if_neg (by omega), if_neg (by omega), if_neg (by omega), if_pos (by omega), Nat.add_sub_cancel_left]
  · rw [hx k (by omega), if_neg (by omega), if_neg (by omega), if_neg (by omega), if_neg (by omega)]
  · have h25 : (25 : BitVec 5) = BitVec.ofNat 5 25 := rfl
    rw [h25, hx 25 (by decide), if_pos rfl]
  · rw [hx (26 + k) (by omega), if_neg (by omega), if_neg (by omega), if_pos (by omega), Nat.add_sub_cancel_left]

/-! ## What a free context is handed -/

theorem State.fixTarget_of_not_panel (s : State) {l : Launch} (h : l.isPanel = false) : s.fixTarget l = s := by
  unfold State.fixTarget
  exact if_neg (by simp [h])

theorem Launch.nestUnit_arm (l : Launch) (n : Nat) : (l.nestUnit n).arm = l.arm := by
  unfold Launch.nestUnit
  split <;> rfl

theorem Launch.nestUnit_ord (l : Launch) (n : Nat) : (l.nestUnit n).ord = n := by
  unfold Launch.nestUnit
  split <;> rfl

/-- A context that a unit has been handed to (R308). -/
def Ctx.bound (x : Ctx) (u : UnitSt) (l : Launch) : Ctx :=
  { x.newTenure with unit := some { u with ready := l.proAddr == 0 }, asid := l.asid }

/-- The machine once a unit of a launch that is no panel has been given to a context. -/
theorem State.bindUnit_put (s : State) (c : Nat) (u : UnitSt) {l : Launch} (hp : l.isPanel = false) :
    ((s.onDev fun d => d.putLaunch l).bindUnit c u l).fixTarget l =
      (s.onDev fun d => d.putLaunch l).setCtx c ((s.ctxOf c).bound u l) :=
  State.fixTarget_of_not_panel _ hp

/-- What is left where one context is written and the device changes (R308). -/
theorem State.onDev_setCtx (s : State) (f : Dev → Dev) (c : Nat) (y : Ctx) :
    ((s.onDev f).setCtx c y).mem = s.mem ∧ (∀ e, e ≠ c → ((s.onDev f).setCtx c y).ctxOf e = s.ctxOf e) ∧
      ((s.onDev f).setCtx c y).ctxOf c = y ∧ ((s.onDev f).setCtx c y).dev = f s.dev :=
  ⟨State.setCtx_mem .., fun e he => by rw [State.ctxOf_setCtx, if_neg he]; rfl, by rw [State.ctxOf_setCtx, if_pos rfl], State.setCtx_dev ..⟩

/-- R308: the first launch of the order that has a unit for a free context hands it out. -/
theorem unitHandOut_of_nextUnit {s : State} {c : Nat} {l l' : Launch} {r : List Launch} {u : UnitSt} (hc : c < numContexts)
    (hg : l.isGang = false) (hp : l'.isPanel = false) (hfree : s.isFree c = true)
    (hsort : sortBy (·.takenSeq) (s.dev.handing (dieOfCtx c)) = l :: r) (hnext : s.nextUnit l c = some (u, l')) :
    ∃ t, exec (.unitHandOut c) s = .next t ∧ t.mem = s.mem ∧ (∀ e, e ≠ c → t.ctxOf e = s.ctxOf e) ∧
      t.ctxOf c = { (s.ctxOf c).newTenure with unit := some { u with ready := l'.proAddr == 0 }, asid := l'.asid } ∧
      t.dev = s.dev.putLaunch l' := by
  have hoffer : s.offer c l = some ((s.onDev fun d => d.putLaunch l').setCtx c ((s.ctxOf c).bound u l')) := by
    unfold State.offer
    rw [if_neg (by simp [hg]), hnext]
    exact congrArg some (s.bindUnit_put c u hp)
  refine ⟨(s.onDev fun d => d.putLaunch l').setCtx c ((s.ctxOf c).bound u l'), ?_, s.onDev_setCtx _ c _⟩
  show Host.Outcome.next (if c < numContexts then (s.handOut c).getD s else s) = _
  rw [if_pos hc, State.handOut, if_pos hfree, hsort, List.findSome?_cons, hoffer]
  rfl

theorem State.nextUnit_unplaced {s : State} {c : Nat} {l : Launch} (hplc : l.isPlc = false) (hpan : l.isPanel = false)
    (hg : l.isGang = false) (hback : l.back = []) (hfits : s.fits l c = true) (hlt : l.head < l.stop) :
    s.nextUnit l c = some (l.nestUnit l.head, { l with head := l.head + 1 }) := by
  simp [State.nextUnit, hplc, hpan, hg, hback, hfits, hlt]

/-- The first answer of an ascending search. -/
theorem findSome?_range {α : Type} {f : Nat → Option α} {n j : Nat} (hj : j < n) (hbefore : ∀ i, i < j → f i = none) {a : α} (h : f j = some a) :
    (List.range n).findSome? f = some a := by
  rw [List.findSome?_eq_some_iff]
  refine ⟨(List.range n).take j, j, (List.range n).drop (j + 1), ?_, h, fun i hi => ?_⟩
  · have hd := List.drop_eq_getElem_cons (l := List.range n) (i := j) (by simpa using hj)
    rw [List.getElem_range] at hd
    rw [← hd, List.take_append_drop]
  · rw [List.take_range, List.mem_range] at hi
    exact hbefore i (by omega)

/-! ## Units of a placed launch that go out again -/

theorem foldl_least (r : List UnitSt) : ∀ a, (r.foldl (fun a b => if b.ord < a.ord then b else a) a) ∈ a :: r ∧
    ∀ y ∈ a :: r, (r.foldl (fun a b => if b.ord < a.ord then b else a) a).ord ≤ y.ord := by
  induction r with
  | nil => exact fun a => ⟨List.mem_cons_self .., fun y hy => by rw [List.mem_singleton.mp hy]; exact le_rfl⟩
  | cons b r ih =>
    intro a
    rw [List.foldl_cons]
    split
    · next h =>
      obtain ⟨hmem, hle⟩ := ih b
      refine ⟨List.mem_cons_of_mem _ hmem, fun y hy => ?_⟩
      rcases List.mem_cons.mp hy with rfl | hy
      · exact (hle b (List.mem_cons_self ..)).trans h.le
      · exact hle y hy
    · next h =>
      obtain ⟨hmem, hle⟩ := ih a
      refine ⟨?_, fun y hy => ?_⟩
      · rcases List.mem_cons.mp hmem with h | h
        · exact List.mem_cons.mpr (.inl h)
        · exact List.mem_cons_of_mem _ (List.mem_cons_of_mem _ h)
      · rcases List.mem_cons.mp hy with rfl | hy
        · exact hle y (List.mem_cons_self ..)
        · rcases List.mem_cons.mp hy with rfl | hy
          · exact (hle a (List.mem_cons_self ..)).trans (Nat.le_of_not_lt h)
          · exact hle y (List.mem_cons_of_mem _ hy)

/-- R309: the one with the least ordinal. -/
theorem Launch.firstBack_eq {l : Launch} {j : Nat} {u : UnitSt} (hu : u ∈ l.back) (hj : u.ord % l.lcn = j)
    (hmin : ∀ v ∈ l.back, v.ord % l.lcn = j → u.ord ≤ v.ord ∧ (v.ord = u.ord → v = u)) : l.firstBack j = some u := by
  have hmem : ∀ v, v ∈ l.back.filter (fun v => v.ord % l.lcn == j) ↔ v ∈ l.back ∧ v.ord % l.lcn = j := by simp
  unfold Launch.firstBack
  cases hf : l.back.filter (fun v => v.ord % l.lcn == j) with
  | nil => simpa [hf] using (hmem u).mpr ⟨hu, hj⟩
  | cons a r =>
    obtain ⟨hz, hle⟩ := foldl_least r a
    rw [← hf, hmem] at hz
    have hzu := hle u (by rw [← hf]; exact (hmem u).mpr ⟨hu, hj⟩)
    obtain ⟨huz, huniq⟩ := hmin _ hz.1 hz.2
    exact congrArg some (huniq (Nat.le_antisymm hzu huz))

/-- What a placed launch has for its `j`-th logical core, of the core of context `c` (R309). -/
def State.placedUnit (s : State) (l : Launch) (c j : Nat) : Option (UnitSt × Launch) :=
  if !s.declared l (coreOf c) j then none
  else
    match l.firstBack j with
    | some u => if s.takesBack l c u then some (u, l.dropBack u) else none
    | none =>
      let n := l.cores.getD j l.stop
      if l.isGang || decide (l.stop ≤ n) then none
      else some (l.nestUnit n, { l with cores := l.cores.set j (n + l.lcn), head := Nat.max l.head (n + 1) })

theorem State.nextUnit_placed {s : State} {c : Nat} {l : Launch} (hplc : l.isPlc = true) (heven : c % 2 = 0) (hfits : s.fits l c = true) :
    s.nextUnit l c = (List.range l.lcn).findSome? (s.placedUnit l c) := by
  unfold State.nextUnit
  simp only [hfits, hplc, heven, Bool.not_true, Bool.false_eq_true, if_false, if_true, Nat.zero_ne_one]
  rfl

theorem State.placedUnit_undeclared {s : State} {l : Launch} {c j : Nat} (h : s.declared l (coreOf c) j = false) : s.placedUnit l c j = none := by
  simp [State.placedUnit, h]

theorem State.placedUnit_back {s : State} {l : Launch} {c j : Nat} {u : UnitSt} (h : s.declared l (coreOf c) j = true)
    (hu : l.firstBack j = some u) : s.placedUnit l c j = if s.takesBack l c u then some (u, l.dropBack u) else none := by
  simp [State.placedUnit, h, hu]

/-- R309: a unit that waits to be handed out again goes to its logical core. -/
theorem unitHandOut_placed {s : State} {c : Nat} {l : Launch} (hc : c < numContexts) (j : Nat) (u : UnitSt) (r : List Launch)
    (hplc : l.isPlc = true) (hpan : l.isPanel = false) (hg : l.isGang = false) (heven : c % 2 = 0) (hfree : s.isFree c = true)
    (hsort : sortBy (·.takenSeq) (s.dev.handing (dieOfCtx c)) = l :: r) (hfits : s.fits l c = true) (hj : j < l.lcn)
    (hdecl : s.declared l (coreOf c) j = true) (hfirst : ∀ i, i < j → s.declared l (coreOf c) i = false) (hu : u ∈ l.back)
    (huj : u.ord % l.lcn = j) (hmin : ∀ v ∈ l.back, v.ord % l.lcn = j → u.ord ≤ v.ord ∧ (v.ord = u.ord → v = u)) :
    (u.avoid ≠ some (coreOf c) → ∃ t, exec (.unitHandOut c) s = .next t ∧ t.mem = s.mem ∧ (∀ e, e ≠ c → t.ctxOf e = s.ctxOf e) ∧
      t.ctxOf c = { (s.ctxOf c).newTenure with unit := some { u with ready := l.proAddr == 0 }, asid := l.asid } ∧
      t.dev = s.dev.putLaunch { l with back := l.back.erase u }) ∧
    (u.avoid = some (coreOf c) → r = [] → (∀ i, j < i → i < l.lcn → s.declared l (coreOf c) i = false) →
      exec (.unitHandOut c) s = .next s) := by
  have hat := State.placedUnit_back hdecl (Launch.firstBack_eq hu huj hmin)
  have htake : s.takesBack l c u = (u.avoid != some (coreOf c)) := by simp [State.takesBack, hpan]
  rw [htake] at hat
  constructor
  · intro havoid
    rw [if_pos (by simpa using havoid)] at hat
    exact unitHandOut_of_nextUnit (l' := l.dropBack u) hc hg hpan hfree hsort
      ((State.nextUnit_placed hplc heven hfits).trans (findSome?_range hj (fun i hi => State.placedUnit_undeclared (hfirst i hi)) hat))
  · intro havoid hr hlast
    subst hr
    rw [if_neg (by simpa using havoid)] at hat
    have hnone : s.nextUnit l c = none := by
      rw [State.nextUnit_placed hplc heven hfits, List.findSome?_eq_none_iff]
      intro i hi
      rcases Nat.lt_trichotomy i j with h | rfl | h
      · exact State.placedUnit_undeclared (hfirst i h)
      · exact hat
      · exact State.placedUnit_undeclared (hlast i h (List.mem_range.mp hi))
    have hoffer : s.offer c l = none := by
      unfold State.offer
      rw [if_neg (by simp [hg]), hnone]
    show Host.Outcome.next (if c < numContexts then (s.handOut c).getD s else s) = _
    rw [if_pos hc, State.handOut, if_pos hfree, hsort, List.findSome?_cons, hoffer]
    rfl

/-! ## The unit that is preloaded -/

/-- R311: the next unit of the launch is preloaded for the context that runs one. -/
theorem unitPreload {s : State} {c : Nat} {l : Launch} (hc : c < numContexts) (u : UnitSt) (r : List Launch) (hplc : l.isPlc = false)
    (hpan : l.isPanel = false) (hg : l.isGang = false) (hback : l.back = []) (hu : (s.ctxOf c).unit = some u)
    (hnone : (s.ctxOf c).preload = none) (hrun : (s.ctxOf c).run = .running) (harm : u.arm = l.arm) (hstg : l.stgsz ≠ 0)
    (hsort : sortBy (·.takenSeq) (s.dev.handing (dieOfCtx c)) = l :: r) (hfits : s.fits l c = true) (hlt : l.head < l.stop)
    (hpar : l.head % 2 ≠ u.ord % 2) :
    ∃ t, exec (.unitPreload c) s = .next t ∧ t.mem = s.mem ∧ (∀ e, e ≠ c → t.ctxOf e = s.ctxOf e) ∧
        t.ctxOf c = { s.ctxOf c with preload := some { l.nestUnit l.head with ready := l.proAddr == 0 } } ∧
        t.dev = s.dev.putLaunch { l with head := l.head + 1 } := by
  have hhand : s.wouldHand c = some (some (l.nestUnit l.head, { l with head := l.head + 1 })) := by
    unfold State.wouldHand
    rw [hsort, List.findSome?_cons, if_neg (by simp [hg]), State.nextUnit_unplaced hplc hpan hg hback hfits hlt]
    rfl
  have hpre : s.preloadUnit c = (s.onDev fun d => d.putLaunch { l with head := l.head + 1 }).setCtx c
      { s.ctxOf c with preload := some { l.nestUnit l.head with ready := l.proAddr == 0 } } := by
    generalize hleft : (s.onDev fun d => d.putLaunch { l with head := l.head + 1 }).setCtx c _ = left
    unfold State.preloadUnit
    simp only [hu, hnone, hhand]
    rw [if_neg]
    · rw [← hleft]
      exact (State.fixTarget_of_not_panel (l := { l with head := l.head + 1 }) _ hpan).trans rfl
    · rw [hrun, Launch.nestUnit_arm, Launch.nestUnit_ord, harm]
      exact not_or.mpr ⟨by simp, not_or.mpr ⟨hstg, not_or.mpr ⟨by simp, hpar⟩⟩⟩
  exact ⟨s.preloadUnit c, congrArg Host.Outcome.next (if_pos hc), hpre ▸ s.onDev_setCtx _ c _⟩

/-! ## Prologues -/

/-- Writes that memory takes as they stand change nothing else. -/
theorem State.perform_takes {s : State} {ws : List (Nat × Byte)} (h : Takes s ws) (c : Nat) (spot : Nat → Spot) (parts : List (Nat × Nat)) :
    s.perform c spot parts ws = { s with mem := s.mem.setAll ws } := by
  obtain ⟨hecc, hregens, hsnap, href⟩ := h
  have hlost : s.lostWords ws = [] := by simp [State.lostWords, hecc]
  have hkeys : s.refusedKeys ws = [] := by
    have hnone : (ws.filter fun w => s.refuses w.1) = [] := List.filter_eq_nil_iff.mpr fun w hw => by simp [href w hw]
    rw [State.refusedKeys, hnone]
    rfl
  have hfirst : s.copyFirst ws = s := by rw [State.copyFirst, hsnap]
  have hall : (ws.filter fun x => !(([] : List Nat).contains (x.1 / 8)) && !s.refuses x.1) = ws :=
    List.filter_eq_self.mpr fun w hw => by simp [href w hw]
  have hput : s.put ws = { s with mem := s.mem.setAll ws } := by
    unfold State.put
    simp only [hlost, hall, hecc, List.filter_nil]
    rw [← hecc]
  unfold State.perform State.settleWrites State.store
  simp only [hlost, hkeys, List.map_nil, List.foldl_nil, hfirst, hput]
  exact State.noteStores_undisturbed (by exact hregens) parts

/-- A checked element's source, reported where the far side refuses it (R367). -/
def State.noteSource (c sp : Nat) (s : State) (p : (Option Nat × Nat × Nat) × Elem) : State :=
  match p.1.1, p.2.src with
  | some k, some a => s.noteRefused c k ⟨sp, a, 0⟩
  | _, _ => s

theorem State.noteSources_eq (s : State) (c sp : Nat) (w : Work) (ks : List (Option Nat × Nat × Nat)) :
    s.noteSources c sp w ks = (ks.zip w.elems).foldl (State.noteSource c sp) s := rfl

theorem State.noteSource_of_not_refused {s : State} {p : (Option Nat × Nat × Nat) × Elem} (c sp : Nat)
    (h : ∀ a, p.1.1 = some a → s.refuses a = false) : State.noteSource c sp s p = s := by
  unfold State.noteSource
  split
  · next k a hk _ => exact if_neg (by simp [h k hk])
  · rfl

/-- Sources that the far side does not refuse are not reported (R367). -/
theorem State.noteSources_of_none_refused {s : State} (c sp : Nat) (w : Work) {ks : List (Option Nat × Nat × Nat)}
    (h : ∀ q ∈ ks, ∀ a, q.1 = some a → s.refuses a = false) : s.noteSources c sp w ks = s := by
  rw [State.noteSources_eq]
  have hps : ∀ p ∈ ks.zip w.elems, p.1 ∈ ks := fun p hp => (List.of_mem_zip hp).1
  generalize ks.zip w.elems = ps at hps
  induction ps with
  | nil => rfl
  | cons p ps ih =>
    rw [List.foldl_cons, State.noteSource_of_not_refused c sp (h p.1 (hps p (List.mem_cons_self ..)))]
    exact ih fun q hq => hps q (List.mem_cons_of_mem p hq)

/-- R310: a prologue that passes its checks is copied. -/
theorem State.runPrologue_eq {s s1 : State} {c : Nat} {l : Launch} {u : UnitSt} {w : Work} {ks : List (Option Nat × Nat × Nat)}
    (hw : l.prologue u = some w) (hks : s.checkElems (coreOf c) l.asid .app w w.elems = (.ok ks, s1))
    (hsrc : ∀ q ∈ ks, ∀ a, q.1 = some a → s1.refuses a = false) (htakes : Takes s1 (s1.moveBytes ks)) :
    s.runPrologue c l u = (some { s1 with mem := s1.mem.setAll (s1.moveBytes ks) }, s1) := by
  unfold State.runPrologue
  rw [hw]
  dsimp only
  rw [hks]
  dsimp only
  rw [State.noteSources_of_none_refused c w.ssp w hsrc, State.perform_takes htakes]

/-- R310: the unit whose prologue has been copied is ready. -/
theorem prologueComplete {s : State} {c : Nat} {l : Launch} (hc : c < numContexts) (u : UnitSt) (w : Work)
    (ks : List (Option Nat × Nat × Nat)) (s1 : State) (hu : (s.ctxOf c).unit = some u) (hrun : (s.ctxOf c).run = .off)
    (hready : u.ready = false) (hl : s.dev.launchOf u.arm = some l) (hw : l.prologue u = some w)
    (hks : s.checkElems (coreOf c) l.asid .app w w.elems = (.ok ks, s1))
    (hsrc : ∀ q ∈ ks, ∀ a, q.1 = some a → s1.refuses a = false) (htakes : Takes s1 (s1.moveBytes ks)) :
    ∃ t, exec (.prologueComplete c) s = .next t ∧ t.mem = s1.mem.setAll (s1.moveBytes ks) ∧
        t.ctxOf c = { s1.ctxOf c with unit := some { u with ready := true } } ∧ ∀ e, e ≠ c → t.ctxOf e = s1.ctxOf e := by
  have hof : s.prologueOf c = ({ s1 with mem := s1.mem.setAll (s1.moveBytes ks) } : State).setCtx c
      { s1.ctxOf c with unit := some { u with ready := true } } := by
    unfold State.prologueOf
    simp only [hu, hl, State.runPrologue_eq hw hks hsrc htakes]
    exact if_pos ⟨hrun, by simp [hready]⟩
  refine ⟨s.prologueOf c, congrArg Host.Outcome.next (if_pos hc), ?_⟩
  rw [hof]
  exact ⟨State.setCtx_mem .., by rw [State.ctxOf_setCtx, if_pos rfl], fun e he => by rw [State.ctxOf_setCtx, if_neg he]; rfl⟩

/-- The walker's events (R304, R308 to R311, R32, R333). -/
theorem walkerEvents : WalkerEvents := fun _ _ l hc =>
  ⟨fun _ hplc hpan hg hback hfree hsort hfits hlt =>
      unitHandOut_of_nextUnit (l' := { l with head := l.head + 1 }) hc hg hpan hfree hsort
        (State.nextUnit_unplaced hplc hpan hg hback hfits hlt),
    fun j u r => unitHandOut_placed hc j u r,
    fun u r => unitPreload hc u r,
    fun u w ks s1 => prologueComplete hc u w ks s1,
    fun u => unitStart hc u⟩

end Sys2Proof.Machine

/-! The start of a gang (R315). -/

namespace Sys2Proof.Machine
open Sys2Proof.Claims

theorem Launch.nestUnit_ready (l : Launch) (n : Nat) : (l.nestUnit n).ready = (l.proAddr == 0) := by
  unfold Launch.nestUnit
  split <;> rfl

/-- A launch that stands at the walker is found by its arming once it is written back. -/
theorem Dev.launchOf_setLaunch {d : Dev} {l : Launch} (h : ∃ m ∈ d.launches, m.arm = l.arm) : (d.setLaunch l).launchOf l.arm = some l := by
  unfold Dev.launchOf Dev.setLaunch
  dsimp only
  generalize d.launches = ls at h
  induction ls with
  | nil => simp at h
  | cons m ls ih =>
    by_cases hm : m.arm = l.arm
    · simp [hm]
    · obtain ⟨k, hk, he⟩ := h
      rcases List.mem_cons.mp hk with rfl | hk
      · exact absurd he hm
      · rw [List.map_cons, if_neg (by simpa using hm), List.find?_cons_of_neg (by simpa using hm)]
        exact ih ⟨k, hk, he⟩

/-- A launch written back keeps its record and its job. -/
theorem Dev.launchOf_putLaunch {d : Dev} {l : Launch} (h : ∃ m ∈ d.launches, m.arm = l.arm) :
    ∃ m, (d.putLaunch l).launchOf l.arm = some m ∧ m.record = l.record ∧ m.asid = l.asid := by
  unfold Dev.putLaunch
  split
  · exact ⟨_, Dev.launchOf_setLaunch (l := { l with phase := .finished }) h, rfl, rfl⟩
  · exact ⟨l, Dev.launchOf_setLaunch h, rfl, rfl⟩

/-- The gang that reserves stands at the walker (R315). -/
theorem Dev.mem_of_reserving {d : Dev} {die : Nat} {l : Launch} (h : d.reserving die = some l) : l ∈ d.launches :=
  (List.mem_filter.mp (List.mem_filter.mp ((sortBy_spec (·.takenSeq) _).2 l |>.mp (List.mem_of_head? h))).1).1

/-! ## The units of a gang start together -/

/-- The context of the `n`-th unit of a launch once it has started. -/
structure Ctx.RunsUnit (y : Ctx) (l : Launch) (n : Nat) : Prop where
  run : y.run = .running
  unit : y.unit = some (l.nestUnit n)
  asid : y.asid = l.asid
  pc : y.pc = BitVec.ofNat 64 (field l.record 8 8 % 2 ^ 55 / 4 * 4)

/-- R308, R315: a unit without a prologue that is given to an idle context and starts. -/
theorem State.bindUnit_startUnit {t : State} {c n : Nat} {l l' m : Launch} (hrun : (t.ctxOf c).run = .off) (hpro : l.proAddr = 0)
    (hpro' : l'.proAddr = 0) (hm : t.dev.launchOf l.arm = some m) (hrec : m.record = l.record) (hasid : m.asid = l.asid) :
    ((t.bindUnit c (l.nestUnit n) l').startUnit c).dev = t.dev ∧ ((t.bindUnit c (l.nestUnit n) l').startUnit c).mem = t.mem ∧
      (∀ e, e ≠ c → ((t.bindUnit c (l.nestUnit n) l').startUnit c).ctxOf e = t.ctxOf e) ∧
      (((t.bindUnit c (l.nestUnit n) l').startUnit c).ctxOf c).RunsUnit l n := by
  have hself : (t.bindUnit c (l.nestUnit n) l').ctxOf c = (t.ctxOf c).bound (l.nestUnit n) l' := by
    rw [State.bindUnit, State.ctxOf_setCtx, if_pos rfl]
    rfl
  have hunit : { l.nestUnit n with ready := l'.proAddr == 0 } = l.nestUnit n := by
    have h := Launch.nestUnit_ready l n
    rw [hpro'] at *
    rw [hpro] at h
    rw [← h]
  have hdev : (t.bindUnit c (l.nestUnit n) l').dev = t.dev := State.setCtx_dev ..
  have hu : ((t.bindUnit c (l.nestUnit n) l').ctxOf c).unit = some (l.nestUnit n) := by rw [hself, Ctx.bound, hunit]
  have heq := State.startUnit_eq (s := t.bindUnit c (l.nestUnit n) l') hu (by rw [hself]; exact hrun)
    (by rw [Launch.nestUnit_ready, hpro]; rfl) (by rw [hdev, Launch.nestUnit_arm]; exact hm)
  have hstart := (((t.bindUnit c (l.nestUnit n) l').ctxOf c).start_startOf (c % 2 == 1) (l.nestUnit n) m).withGrant (c % 2 == 1)
    ((t.bindUnit c (l.nestUnit n) l').avail c).1 ((t.bindUnit c (l.nestUnit n) l').avail c).2
  rw [heq]
  refine ⟨by rw [State.setCtx_dev, hdev], by rw [State.setCtx_mem]; exact State.setCtx_mem .., fun e he => ?_, ?_⟩
  · rw [State.ctxOf_setCtx, if_neg he, State.bindUnit, State.ctxOf_setCtx, if_neg he]
  · rw [State.ctxOf_setCtx, if_pos rfl]
    exact ⟨hstart.run, hstart.unit, hstart.asid.trans hasid, by rw [hstart.pc, pcBits_field, hrec]⟩

/-- The units of a gang started on its reserved contexts, from the first on (R315). -/
def State.startGang (s : State) (l l' : Launch) (t : State) (n : Nat) : State :=
  match s.gangPlace l n with
  | some c => (t.bindUnit c (l.nestUnit n) l').startUnit c
  | none => t

theorem State.startGang_of_place {s : State} {l l' : Launch} {c n : Nat} (h : s.gangPlace l n = some c) (t : State) :
    s.startGang l l' t n = (t.bindUnit c (l.nestUnit n) l').startUnit c := by
  unfold State.startGang
  rw [h]

/-- What has started after the first `n` units. -/
structure State.GangStarted (t s : State) (d : Dev) (l : Launch) (n : Nat) : Prop where
  dev : t.dev = d
  mem : t.mem = s.mem
  others : ∀ c, c ∉ l.reserved.take n → t.ctxOf c = s.ctxOf c
  units : ∀ k c, k < n → l.reserved[k]? = some c → (t.ctxOf c).RunsUnit l k

theorem State.gangStarted_foldl {s s' : State} {l l' m : Launch} (hmem : s'.mem = s.mem) (hctx : ∀ c, s'.ctxOf c = s.ctxOf c)
    (hplc : l.isPlc = false) (hnodup : l.reserved.Nodup) (hoff : ∀ c ∈ l.reserved, (s.ctxOf c).run = .off)
    (hpro : l.proAddr = 0) (hpro' : l'.proAddr = 0) (hm : s'.dev.launchOf l.arm = some m) (hrec : m.record = l.record)
    (hasid : m.asid = l.asid) : ∀ n, n ≤ l.reserved.length →
      ((List.range n).foldl (s.startGang l l') s').GangStarted s s'.dev l n := by
  intro n
  induction n with
  | zero => exact fun _ => ⟨rfl, hmem, fun c _ => hctx c, fun k c hk => absurd hk (Nat.not_lt_zero k)⟩
  | succ n ih =>
    intro hn
    have h := ih (by omega)
    rw [List.range_succ, List.foldl_append]
    generalize (List.range n).foldl (s.startGang l l') s' = t at h
    have hget : l.reserved[n]? = some l.reserved[n] := List.getElem?_eq_getElem (by omega)
    have hplace : s.gangPlace l n = some l.reserved[n] := by
      unfold State.gangPlace
      rw [hplc]
      exact hget
    have hnew : l.reserved[n] ∉ l.reserved.take n := by
      intro hin
      obtain ⟨k, hk, he⟩ := List.getElem_of_mem hin
      rw [List.length_take] at hk
      rw [List.getElem_take] at he
      exact absurd ((List.Nodup.getElem_inj_iff hnodup).mp he) (by omega)
    have hown := h.others _ hnew
    have hidle : (t.ctxOf l.reserved[n]).run = .off := by
      rw [hown]
      exact hoff _ (List.getElem_mem _)
    obtain ⟨hd, hm', hothers, hself⟩ := State.bindUnit_startUnit (t := t) (n := n) (l' := l') hidle hpro hpro' (by rw [h.dev]; exact hm) hrec hasid
    rw [List.foldl_cons, List.foldl_nil, State.startGang_of_place hplace]
    refine ⟨hd.trans h.dev, hm'.trans h.mem, fun c hc => ?_, fun k c hk hkc => ?_⟩
    · rw [List.take_succ_eq_append_getElem (by omega), List.mem_append, List.mem_singleton, not_or] at hc
      rw [hothers c hc.2]
      exact h.others c hc.1
    · rcases Nat.lt_succ_iff_lt_or_eq.mp hk with hlt | rfl
      · have hne : c ≠ l.reserved[n] := by
          rintro rfl
          obtain ⟨hk', he⟩ := List.getElem?_eq_some_iff.mp hkc
          exact absurd ((List.Nodup.getElem_inj_iff hnodup).mp he) (by omega)
        rw [hothers c hne]
        exact h.units k c hlt hkc
      · rw [hget] at hkc
        cases hkc
        exact hself

/-- A list by its places. -/
theorem map_getElem?_range {α : Type} (xs : List α) : (List.range xs.length).map (fun n => xs[n]?) = xs.map some := by
  apply List.ext_getElem (by simp)
  intro n h1 h2
  simp

/-- R315: a gang whose reservation is complete. -/
theorem gangAdmit (s : State) (die : Nat) (l : Launch) (hres : s.dev.reserving die = some l) (hplc : l.isPlc = false) (hpro : l.proAddr = 0)
    (hlen : l.reserved.length = l.units) (hnodup : l.reserved.Nodup)
    (hfree : ∀ c ∈ l.reserved, (s.ctxOf c).run = .off ∧ (s.ctxOf c).unit = none ∧ s.dev.coreUp (coreOf c) = true ∧ s.fits l c = true) :
    ∃ t, exec (.gangAdmit die) s = .next t ∧
      (∀ n c, n < l.units → l.reserved[n]? = some c → (t.ctxOf c).run = .running ∧ (t.ctxOf c).unit = some (l.nestUnit n) ∧
        (t.ctxOf c).asid = l.asid ∧ (t.ctxOf c).pc = BitVec.ofNat 64 (field l.record 8 8 % 2 ^ 55 / 4 * 4)) ∧
      (∀ c, c ∉ l.reserved → t.ctxOf c = s.ctxOf c) ∧ t.mem = s.mem := by
  have hkeeps : l.reserved.filter (s.keeps l) = l.reserved := List.filter_eq_self.mpr fun c hc => by
    obtain ⟨hrun, hunit, hup, hfits⟩ := hfree c hc
    simp [State.keeps, hrun, hunit, hup, hfits, hplc]
  have hplaces : (List.range l.units).map (s.gangPlace l) = l.reserved.map some := by
    rw [← map_getElem?_range, hlen]
    refine List.map_congr_left fun n _ => ?_
    unfold State.gangPlace
    rw [hplc]
    rfl
  have hready : s.gangReady l = true := by
    unfold State.gangReady
    simp only [hplaces, hplc]
    simp [hnodup.map (Option.some_injective _)]
  obtain ⟨m, hm, hrec, hasid⟩ := Dev.launchOf_putLaunch (d := s.dev) (l := { l with head := l.stop, reserved := [] }) ⟨l, Dev.mem_of_reserving hres, rfl⟩
  have hgang := State.gangStarted_foldl (s := s) (s' := s.onDev fun d => d.putLaunch { l with head := l.stop, reserved := [] })
    (l' := { l with head := l.stop, reserved := [] }) rfl (fun _ => rfl) hplc hnodup (fun c hc => (hfree c hc).1) hpro hpro hm hrec hasid
    l.units hlen.ge
  have hadmit : s.admitGang die = some ((List.range l.units).foldl (s.startGang l { l with head := l.stop, reserved := [] })
      (s.onDev fun d => d.putLaunch { l with head := l.stop, reserved := [] })) := by
    unfold State.admitGang
    rw [hres]
    dsimp only
    rw [hkeeps]
    exact if_neg (by simp [hready])
  refine ⟨_, congrArg (fun o => Host.Outcome.next (Option.getD o s)) hadmit, fun n c hn hc => ?_, fun c hc => ?_, hgang.mem⟩
  · have h := hgang.units n c hn hc
    exact ⟨h.run, h.unit, h.asid, h.pc⟩
  · exact hgang.others c fun hin => hc (List.mem_of_mem_take hin)

/-- The dispatcher's events (R313 to R315). -/
theorem dispatcherEvents : DispatcherEvents :=
  ⟨fun s die b1 b2 x hact hready hx hgang => by
      obtain ⟨t, ht, hrest⟩ := popLaunch_eq hact (popChoice_eq hready hx) hgang
      exact ⟨t, congrArg Host.Outcome.next ht, hrest⟩,
    fun s die l hres hplc hpro _ hlen hnodup hfree => gangAdmit s die l hres hplc hpro hlen hnodup hfree⟩

end Sys2Proof.Machine

/-! Theft of units between devices (R324 to R326), and the dispatcher's and the walker's events together. -/

namespace Sys2Proof.Machine
open Sys2Proof.Claims

/-! ## A request that is served -/

/-- Why a theft request is answered with nothing (R324, R325). -/
def State.refusesTheft (s : State) (thief die n : Nat) (wait : List (Nat × Nat × Nat × Nat)) (l : Launch) : Prop :=
  l.isSteal = false ∨ (l.phase ≠ .ready ∧ l.phase ≠ .active) ∨ (thief, s.jobOf l.asid) ∉ s.dev.peers ∨
    (thief, l.asid.toNat) ∉ s.dev.peerAsids ∨ 4 ≤ (wait.filter fun t => t.1 == die).length + 1 ∨ Nat.min n ((l.stop - l.head) / 2) = 0

/-- The test of a request against a launch. -/
theorem State.refusesTheft_iff (s : State) (thief die n : Nat) (wait : List (Nat × Nat × Nat × Nat)) (l : Launch) :
    (!l.isSteal || (l.phase != .ready && l.phase != .active) || !s.dev.peers.contains (thief, s.jobOf l.asid) ||
        !s.dev.peerAsids.contains (thief, l.asid.toNat) || Nat.min n ((l.stop - l.head) / 2) == 0 ||
        decide (4 ≤ (wait.filter fun t => t.1 == die).length + 1)) = true ↔ s.refusesTheft thief die n wait l := by
  unfold State.refusesTheft
  simp only [Bool.or_eq_true, Bool.not_eq_true', Bool.and_eq_true, bne_iff_ne, beq_iff_eq, decide_eq_true_eq, List.contains_eq_mem,
    decide_eq_false_iff_not]
  tauto

theorem serveTheft_taken {s : State} {die ctr n thief : Nat} {l : Launch}
    (hl : (s.dev.launches.find? fun l => l.die == die && l.ctr == ctr && !l.shadow && l.owner.isNone) = some l)
    (hok : ¬ s.refusesTheft thief die n (s.dev.thefts.erase (die, ctr, n, thief)) l) :
    s.serveTheft die ctr n thief = { s with dev := { s.dev.putLaunch { l with
          stop := l.stop - Nat.min n ((l.stop - l.head) / 2)
          stolen := l.stolen ++ [(thief, l.stop - Nat.min n ((l.stop - l.head) / 2), l.stop)] } with
        thefts := s.dev.thefts.erase (die, ctr, n, thief)
        outbox := s.dev.outbox ++ [⟨2, thief, [die, ctr, l.stop - Nat.min n ((l.stop - l.head) / 2), l.stop], l.blob⟩] } } := by
  unfold State.serveTheft
  dsimp only [State.onDev]
  rw [hl]
  exact if_neg fun h => hok ((s.refusesTheft_iff thief die n _ l).mp h)

theorem serveTheft_empty {s : State} {die ctr n thief : Nat}
    (h : ∀ l, (s.dev.launches.find? fun l => l.die == die && l.ctr == ctr && !l.shadow && l.owner.isNone) = some l →
      s.refusesTheft thief die n (s.dev.thefts.erase (die, ctr, n, thief)) l) :
    s.serveTheft die ctr n thief = { s with dev := { s.dev with
        thefts := s.dev.thefts.erase (die, ctr, n, thief), outbox := s.dev.outbox ++ [⟨2, thief, [die, ctr, 0, 0], []⟩] } } := by
  unfold State.serveTheft
  dsimp only [State.onDev]
  cases hl : s.dev.launches.find? fun l => l.die == die && l.ctr == ctr && !l.shadow && l.owner.isNone with
  | none => rfl
  | some l => exact if_pos ((s.refusesTheft_iff thief die n _ l).mpr (h l hl))

/-! ## A reply -/

theorem takeStolen_unasked {s : State} {victim die ctr : Nat} (lo hi : Nat) (blob : List Byte) (h : (victim, die, ctr) ∉ s.dev.asked) :
    s.takeStolen victim die ctr lo hi blob = s := by
  unfold State.takeStolen
  dsimp only
  rw [if_pos (.inl (by simpa using h)), State.onDev, List.erase_of_not_mem h]

theorem takeStolen_asked {s : State} {victim die ctr lo hi : Nat} {blob : List Byte} (h : (victim, die, ctr) ∈ s.dev.asked) (hlt : lo < hi)
    (hver : field blob 7 1 = 1) : ∃ l, (s.takeStolen victim die ctr lo hi blob).dev.launches = s.dev.launches ++ [l] ∧
      l.head = lo ∧ l.stop = hi ∧ (l.phase = .active ∨ l.phase = .ready ∧ l.strict = true) ∧ l.record = slice blob 0 256 ∧
      l.space = slice blob 256 64 ∧ l.asid.toNat = field blob 576 2 % 2 ^ 13 ∧ l.owner = some (victim, die, ctr, field blob 578 8) ∧
      (s.takeStolen victim die ctr lo hi blob).dev.asked = s.dev.asked.erase (victim, die, ctr) ∧
      (l.phase = .active → (s.dev.inPhase l.die .active).length < 8) ∧ (s.takeStolen victim die ctr lo hi blob).ctx = s.ctx ∧
      (s.takeStolen victim die ctr lo hi blob).mem = s.mem := by
  unfold State.takeStolen
  dsimp only
  rw [if_neg (by simp [h, hver, hlt])]
  refine ⟨_, rfl, rfl, rfl, ?_, rfl, rfl, BitVec.toNat_ofNat .., rfl, rfl, ?_, rfl, rfl⟩
  · split
    · next h => exact .inr ⟨rfl, h⟩
    · exact .inl rfl
  · dsimp only
    split
    · exact nofun
    · next h => exact fun _ => Nat.lt_of_not_le fun hle => h (decide_eq_true hle)

/-! ## A request that leaves -/

/-- A context that a request may ask for (R324). -/
def State.takesTheft (v : State) (lg tr c : Nat) : Prop := v.isFree c = true ∧ 1 ≤ lg ∧ lg ≤ (v.avail c).1 ∧ 1 ≤ tr ∧ tr ≤ (v.avail c).2

theorem State.takesTheft_iff (v : State) (lg tr c : Nat) :
    (v.isFree c && decide (1 ≤ lg ∧ lg ≤ (v.avail c).1) && decide (1 ≤ tr ∧ tr ≤ (v.avail c).2)) = true ↔ v.takesTheft lg tr c := by
  simp [State.takesTheft, and_assoc]

theorem sendTheft_goes {v : State} {walker victim die ctr ver lg tr n : Nat} (hver : ver = 1) (hflag : v.dev.flagged.getLsbD victim = true)
    (hfits : ∃ c ∈ ctxsOf walker, v.takesTheft lg tr c) (hwaits : ∀ c ∈ ctxsOf walker, (v.ctxOf c).unit = none ∨ (v.ctxOf c).run ≠ .off)
    (hlink : ∃ l ∈ v.dev.links, l.up = true ∧ l.peer = victim) (hasked : ∀ a ∈ v.dev.asked, a.1 ≠ victim) :
    v.sendTheft walker victim die ctr ver lg tr n = { v with dev := { v.dev with
        asked := v.dev.asked ++ [(victim, die, ctr)], outbox := v.dev.outbox ++ [⟨5, victim, [die, ctr, n, v.dev.win.domain], []⟩] } } := by
  have hfree : ((ctxsOf walker).any fun c =>
      v.isFree c && decide (1 ≤ lg ∧ lg ≤ (v.avail c).1) && decide (1 ≤ tr ∧ tr ≤ (v.avail c).2)) = true := by
    obtain ⟨c, hc, h⟩ := hfits
    exact List.any_eq_true.mpr ⟨c, hc, (v.takesTheft_iff lg tr c).mpr h⟩
  have hnone : ((ctxsOf walker).any fun c => (v.ctxOf c).unit.isSome && (v.ctxOf c).run == .off) = false := by
    refine List.any_eq_false.mpr fun c hc => ?_
    rcases hwaits c hc with h | h <;> simp [h]
  have hdirect : (v.dev.links.any fun l => l.up && l.peer == victim) = true := by
    obtain ⟨l, hl, hup, hpeer⟩ := hlink
    exact List.any_eq_true.mpr ⟨l, hl, by simp [hup, hpeer]⟩
  have hnot : (v.dev.asked.any fun a => a.1 == victim) = false := List.any_eq_false.mpr fun a ha => by simpa using hasked a ha
  unfold State.sendTheft
  exact if_pos ⟨hver, hflag, hfree, by rw [hnone]; rfl, hdirect, by rw [hnot]; rfl⟩

theorem sendTheft_stays {v : State} {walker victim die ctr ver lg tr n : Nat}
    (h : ver ≠ 1 ∨ v.dev.flagged.getLsbD victim = false ∨ (∀ c ∈ ctxsOf walker, ¬ v.takesTheft lg tr c) ∨
      (∀ l ∈ v.dev.links, l.up = true → l.peer ≠ victim) ∨ (∃ a ∈ v.dev.asked, a.1 = victim)) :
    v.sendTheft walker victim die ctr ver lg tr n = v := by
  unfold State.sendTheft
  refine if_neg ?_
  rintro ⟨hver, hflag, hfree, -, hdirect, hasked⟩
  rcases h with h | h | h | h | ⟨a, ha, hv⟩
  · exact h hver
  · rw [h] at hflag
    cases hflag
  · obtain ⟨c, hc, hf⟩ := List.any_eq_true.mp hfree
    exact h c hc ((v.takesTheft_iff lg tr c).mp hf)
  · obtain ⟨l, hl, hf⟩ := List.any_eq_true.mp hdirect
    rw [Bool.and_eq_true, beq_iff_eq] at hf
    exact h l hl hf.1 hf.2
  · rw [List.any_eq_true.mpr ⟨a, ha, by simpa using hv⟩] at hasked
    cases hasked

/-- A context that the walker may use is on a core that has power (R423). -/
theorem State.level_of_isFree {v : State} {c : Nat} (h : v.isFree c = true) : v.dev.win.level ≠ 4 := by
  intro h4
  have hup : v.dev.coreUp (coreOf c) = false := by simp [Dev.coreUp, Dev.gated, Dev.gatedAt, h4]
  simp [State.isFree, hup] at h

theorem State.moveOf_steal (v : State) (walker victim die ctr ver lg tr n : Nat) : v.moveOf (.steal walker victim die ctr ver lg tr n) =
    .next (if v.dev.win.state = 6 ∨ v.dev.win.level = 4 then v else v.sendTheft walker victim die ctr ver lg tr n) := by
  have hstops : ((v.tripped && !(Move.steal walker victim die ctr ver lg tr n).outlives) ||
      (v.dev.win.level == 4 && !(Move.steal walker victim die ctr ver lg tr n).whileOff)) = true ↔ v.dev.win.state = 6 ∨ v.dev.win.level = 4 := by
    have hout : (Move.steal walker victim die ctr ver lg tr n).outlives = false := rfl
    have hoff : (Move.steal walker victim die ctr ver lg tr n).whileOff = false := rfl
    rw [hout, hoff]
    simp [State.tripped]
  unfold State.moveOf
  by_cases h : v.dev.win.state = 6 ∨ v.dev.win.level = 4
  · rw [if_pos (hstops.mpr h), if_pos h]
  · rw [if_neg fun hs => h (hstops.mp hs), if_neg h]

/-- A step whose move is a request that leaves a walker. -/
theorem step_steal {u v : State} {walker victim die ctr ver lg tr n : Nat} {r : List Move}
    (hm : u.moves = .steal walker victim die ctr ver lg tr n :: r) (hv : v = { u.tick with moves := r }) :
    step u = .next (if v.dev.win.state = 6 ∨ v.dev.win.level = 4 then v else v.sendTheft walker victim die ctr ver lg tr n) := by
  have hact : step u = v.moveOf (.steal walker victim die ctr ver lg tr n) := by
    unfold step State.act
    rw [State.tick_moves, hm, hv]
  rw [hact]
  exact State.moveOf_steal v walker victim die ctr ver lg tr n

/-- R324 to R326: theft requests and replies. -/
theorem theftEvents : TheftEvents := by
  refine ⟨fun s die ctr n thief wait found hfound hwait => ?_, fun s victim die ctr lo hi blob => ⟨fun hin hlt hver => ?_, fun hout => ?_⟩,
    fun u v walker victim die ctr ver lg tr n r hm hv => ?_⟩
  · subst hfound hwait
    refine ⟨fun l g hl hsteal hphase hpeer hasid hfour hg hpos => ?_, fun h => congrArg Host.Outcome.next (serveTheft_empty h)⟩
    subst hg
    refine congrArg Host.Outcome.next (serveTheft_taken hl ?_)
    rintro (h | ⟨h1, h2⟩ | h | h | h | h)
    · rw [hsteal] at h
      cases h
    · exact hphase.elim h1 h2
    · exact h hpeer
    · exact h hasid
    · omega
    · exact hpos h
  · obtain ⟨l, h⟩ := takeStolen_asked hin hlt hver
    exact ⟨_, l, rfl, h⟩
  · exact congrArg Host.Outcome.next (takeStolen_unasked lo hi blob hout)
  · intro fits
    rw [step_steal hm hv]
    refine ⟨fun hstate hver hflag hfits hwaits hlink hasked => ?_, fun h => ?_⟩
    · obtain ⟨c, -, hfree, -⟩ := id hfits
      rw [if_neg (not_or.mpr ⟨hstate, State.level_of_isFree hfree⟩), sendTheft_goes hver hflag hfits hwaits hlink hasked]
    · split
      · rfl
      · next hon => exact congrArg Host.Outcome.next (sendTheft_stays (h.resolve_left fun h => hon (.inl h)))

/-- Settles O47: a pop takes the least of a list in the order of its key, a gang's units start one by one on distinct contexts, and each of the
walker's choices is the first of its order. -/
theorem dispatchEvents : Obligations.DispatchEvents := ⟨dispatcherEvents, walkerEvents, theftEvents⟩

end Sys2Proof.Machine

/-! The enumeration of a nest block (R125 to R127): a block without a zero bound lists as many tuples as the product of its bounds, its `m`-th
the `m`-th of the enumeration. -/

namespace Sys2Proof.Machine
open Sys2Proof.Claims

/-! ## Valid blocks -/

/-- What a block that is read as a nest block satisfies (R125, R126). -/
structure NestBlock.Valid (n : NestBlock) : Prop where
  pos : 1 ≤ n.ndim
  le : n.ndim ≤ 6
  ord : n.ord ≤ 3
  morton : n.ord = 3 → 2 ≤ n.ndim
  bnd : ∀ k, n.bnd k < 2 ^ 32

theorem field_lt (bs : List Byte) (o n : Nat) : field bs o n < 256 ^ n := by
  have h := leNat_lt (slice bs o n)
  rwa [slice, List.length_map, List.length_range] at h

theorem parseNest_valid {bs : List Byte} {n : NestBlock} (h : parseNest bs = some n) : n.Valid := by
  unfold parseNest at h
  dsimp only at h
  split at h
  · next hok =>
    obtain ⟨-, hpos, hle, hord, hmorton, -⟩ := hok
    cases h
    refine ⟨hpos, hle, hord, fun h => by tauto, fun k => ?_⟩
    unfold NestBlock.bnd
    split
    · dsimp only
      rw [List.getD_eq_getElem?_getD, List.getElem?_map]
      cases (List.range 6)[k]? with
      | none => simp
      | some i => exact field_lt bs (8 + 8 * i) 4
    · decide
  · cases h

/-- The product of the bounds of some dimensions. -/
def NestBlock.boundsOf (n : NestBlock) (ds : List Nat) : Nat := (ds.map n.bnd).prod

theorem NestBlock.boundsOf_cons (n : NestBlock) (d : Nat) (ds : List Nat) : n.boundsOf (d :: ds) = n.bnd d * n.boundsOf ds := by
  simp [NestBlock.boundsOf]

theorem NestBlock.boundsOf_reverse (n : NestBlock) (ds : List Nat) : n.boundsOf ds.reverse = n.boundsOf ds := by
  rw [NestBlock.boundsOf, NestBlock.boundsOf, List.map_reverse, List.prod_reverse]

theorem NestBlock.boundsOf_range_of_le (n : NestBlock) {m : Nat} (h : n.ndim ≤ m) : n.boundsOf (List.range m) = n.boundsOf (List.range n.ndim) := by
  induction m, h using Nat.le_induction with
  | base => rfl
  | succ m hm ih =>
    have hone : n.bnd m = 1 := if_neg (by omega)
    rw [← ih]
    simp [NestBlock.boundsOf, List.range_succ, hone]

theorem NestBlock.count_eq {n : NestBlock} (h : n.Valid) : n.count = n.boundsOf (List.range n.ndim) := by
  rw [← n.boundsOf_range_of_le h.le]
  simp [NestBlock.count, NestBlock.boundsOf, List.range_succ, Nat.mul_assoc]

theorem NestBlock.bnd_pos_of_count {n : NestBlock} (h : n.Valid) (hc : n.count ≠ 0) (k : Nat) : 0 < n.bnd k := by
  by_cases hk : k < n.ndim
  · rw [NestBlock.count_eq h] at hc
    refine Nat.pos_of_ne_zero fun h0 => hc (List.prod_eq_zero ?_)
    rw [← h0]
    exact List.mem_map_of_mem (List.mem_range.mpr hk)
  · rw [NestBlock.bnd, if_neg hk]
    exact Nat.one_pos

/-! ## Mixed-radix counting -/

theorem digits_cons (n : NestBlock) (d : Nat) (ds : List Nat) (v : Nat) (j : List Nat) :
    digits n (d :: ds) v j = digits n ds (v / n.bnd d) (j.set d (v % n.bnd d)) := rfl

theorem length_digits (n : NestBlock) (ds : List Nat) : ∀ v j, (digits n ds v j).length = j.length := by
  induction ds with
  | nil => exact fun _ _ => rfl
  | cons d ds ih => exact fun v j => by rw [digits_cons, ih, List.length_set]

theorem set_digits {n : NestBlock} {d : Nat} {ds : List Nat} (hd : d ∉ ds) (x : Nat) :
    ∀ v j, (digits n ds v j).set d x = digits n ds v (j.set d x) := by
  induction ds with
  | nil => exact fun _ _ => rfl
  | cons e ds ih =>
    intro v j
    rw [List.mem_cons, not_or] at hd
    rw [digits_cons, digits_cons, ih hd.2, List.set_comm _ _ hd.1]

theorem getD_digits {n : NestBlock} {d : Nat} {ds : List Nat} (hd : d ∉ ds) : ∀ v j, (digits n ds v j).getD d 0 = j.getD d 0 := by
  induction ds with
  | nil => exact fun _ _ => rfl
  | cons e ds ih =>
    intro v j
    rw [List.mem_cons, not_or] at hd
    rw [digits_cons, ih hd.2, List.getD_eq_getElem?_getD, List.getD_eq_getElem?_getD, List.getElem?_set_ne (Ne.symm hd.1)]

theorem getD_set_self {j : List Nat} {d : Nat} (h : d < j.length) (x : Nat) : (j.set d x).getD d 0 = x := by
  rw [List.getD_eq_getElem?_getD, List.getElem?_set_self h]
  rfl

theorem getD_set_ne {j : List Nat} {d e : Nat} (h : d ≠ e) (x : Nat) : (j.set d x).getD e 0 = j.getD e 0 := by
  rw [List.getD_eq_getElem?_getD, List.getElem?_set_ne h, ← List.getD_eq_getElem?_getD]

/-- Counting on in mixed radix: the tuple after that of `v` is that of `v + 1`. -/
theorem advance_digits {n : NestBlock} {ds : List Nat} (hnodup : ds.Nodup) (hpos : ∀ d ∈ ds, 0 < n.bnd d) :
    ∀ v j, (∀ d ∈ ds, d < j.length) → v + 1 < n.boundsOf ds → advance n ds (digits n ds v j) = some (digits n ds (v + 1) j) := by
  induction ds with
  | nil => exact fun v j _ h => absurd h (by simp [NestBlock.boundsOf])
  | cons d ds ih =>
    intro v j hlen hv
    obtain ⟨hd, hnodup⟩ := List.nodup_cons.mp hnodup
    have hb := hpos d (List.mem_cons_self ..)
    have hdlen := hlen d (List.mem_cons_self ..)
    have hat : (digits n (d :: ds) v j).getD d 0 = v % n.bnd d := by
      rw [digits_cons, getD_digits hd, getD_set_self hdlen]
    rw [NestBlock.boundsOf_cons] at hv
    unfold advance
    rw [hat]
    split
    · next hlt =>
      have hnext : v + 1 = n.bnd d * (v / n.bnd d) + (v % n.bnd d + 1) := by rw [← Nat.add_assoc, Nat.div_add_mod]
      have hdiv : (v + 1) / n.bnd d = v / n.bnd d := by rw [hnext, Nat.mul_add_div hb, Nat.div_eq_of_lt hlt, Nat.add_zero]
      have hmod : (v + 1) % n.bnd d = v % n.bnd d + 1 := by rw [hnext, Nat.mul_add_mod, Nat.mod_eq_of_lt hlt]
      rw [digits_cons, digits_cons, set_digits hd, List.set_set, hdiv, hmod]
    · next hge =>
      have hlast : v % n.bnd d + 1 = n.bnd d := Nat.le_antisymm (Nat.mod_lt v hb) (Nat.le_of_not_lt hge)
      have hdvd : v + 1 = n.bnd d * (v / n.bnd d + 1) := by
        have := Nat.div_add_mod v (n.bnd d)
        rw [Nat.mul_add, Nat.mul_one]
        omega
      have hdiv : (v + 1) / n.bnd d = v / n.bnd d + 1 := by rw [hdvd, Nat.mul_div_cancel_left _ hb]
      have hmod : (v + 1) % n.bnd d = 0 := by rw [hdvd, Nat.mul_mod_right]
      have hlt : v / n.bnd d + 1 < n.boundsOf ds := by
        rw [hdvd] at hv
        exact Nat.lt_of_mul_lt_mul_left hv
      rw [digits_cons, digits_cons, set_digits hd, List.set_set, hdiv, hmod]
      exact ih hnodup (fun e he => hpos e (List.mem_cons_of_mem d he)) _ _
        (fun e he => by rw [List.length_set]; exact hlen e (List.mem_cons_of_mem d he)) hlt

/-! ## The orders without Morton codes -/

/-- The dimensions within the first. -/
def NestBlock.outer (n : NestBlock) : List Nat := (List.range n.ndim).drop 1

theorem NestBlock.dims_eq {n : NestBlock} (h : 1 ≤ n.ndim) : List.range n.ndim = 0 :: n.outer := by
  have hd := List.drop_eq_getElem_cons (l := List.range n.ndim) (i := 0) (by rw [List.length_range]; exact h)
  rwa [List.drop_zero, List.getElem_range] at hd

theorem NestBlock.zero_notMem_outer {n : NestBlock} (h : 1 ≤ n.ndim) : 0 ∉ n.outer :=
  (List.nodup_cons.mp (NestBlock.dims_eq h ▸ List.nodup_range)).1

theorem NestBlock.nodup_outer (n : NestBlock) : n.outer.Nodup := List.nodup_range.sublist (List.drop_sublist ..)

theorem NestBlock.lt_of_mem_outer {n : NestBlock} {d : Nat} (h : d ∈ n.outer) : d < n.ndim := List.mem_range.mp (List.mem_of_mem_drop h)

/-- The tuple with which an enumeration begins. -/
def zeroTuple : List Nat := List.replicate 6 0

theorem next_nth_row {n : NestBlock} (h : n.Valid) (hord : n.ord = 0) {v : Nat} (hv : v + 1 < n.count) :
    n.next (n.nth v) = some (n.nth (v + 1)) := by
  unfold NestBlock.next NestBlock.nth
  simp only [hord, if_true]
  refine advance_digits List.nodup_range (fun d _ => NestBlock.bnd_pos_of_count h (by omega) d) v _ (fun d hd => ?_) (NestBlock.count_eq h ▸ hv)
  exact (List.mem_range.mp hd).trans_le h.le

theorem next_nth_column {n : NestBlock} (h : n.Valid) (hord : n.ord = 1) {v : Nat} (hv : v + 1 < n.count) :
    n.next (n.nth v) = some (n.nth (v + 1)) := by
  unfold NestBlock.next NestBlock.nth
  simp only [hord, Nat.one_ne_zero, if_false, if_true]
  refine advance_digits (List.nodup_reverse.mpr List.nodup_range) (fun d _ => NestBlock.bnd_pos_of_count h (by omega) d) v _ (fun d hd => ?_) ?_
  · exact (List.mem_range.mp (List.mem_reverse.mp hd)).trans_le h.le
  · rwa [NestBlock.boundsOf_reverse, ← NestBlock.count_eq h]

/-- The tuple with the index `x` of dimension 0 and the others counted to `q`. -/
def NestBlock.rowAt (n : NestBlock) (q x : Nat) : List Nat := digits n n.outer q (zeroTuple.set 0 x)

/-- Whether a row of a snake runs backwards (R127). -/
def NestBlock.turns (n : NestBlock) (q : Nat) : Prop := (digits n n.outer q zeroTuple).getD 1 0 % 2 ≠ 0

section
variable {n : NestBlock} (h : n.Valid)
include h

theorem NestBlock.set_rowAt (q x y : Nat) : (n.rowAt q x).set 0 y = n.rowAt q y := by
  rw [NestBlock.rowAt, set_digits (NestBlock.zero_notMem_outer h.pos), List.set_set]
  rfl

theorem NestBlock.rowAt_zero (q x : Nat) : (n.rowAt q x).getD 0 0 = x := by
  rw [NestBlock.rowAt, getD_digits (NestBlock.zero_notMem_outer h.pos)]
  exact getD_set_self (by decide) x

theorem NestBlock.rowAt_one (q x : Nat) : (n.rowAt q x).getD 1 0 = (digits n n.outer q zeroTuple).getD 1 0 := by
  rw [NestBlock.rowAt, ← set_digits (NestBlock.zero_notMem_outer h.pos), getD_set_ne (by decide)]

theorem NestBlock.digits_dims (v : Nat) : digits n (List.range n.ndim) v zeroTuple = n.rowAt (v / n.bnd 0) (v % n.bnd 0) := by
  rw [NestBlock.dims_eq h.pos]
  rfl

theorem NestBlock.advance_rowAt {q : Nat} (hpos : ∀ k, 0 < n.bnd k) (hq : q + 1 < n.boundsOf n.outer) (x : Nat) :
    advance n n.outer (n.rowAt q x) = some (n.rowAt (q + 1) x) :=
  advance_digits n.nodup_outer (fun d _ => hpos d) q _ (fun d hd => by
    rw [List.length_set, zeroTuple, List.length_replicate]
    exact (NestBlock.lt_of_mem_outer hd).trans_le h.le) hq

theorem NestBlock.nth_snake (hord : n.ord = 2) (v : Nat) [Decidable (n.turns (v / n.bnd 0))] : n.nth v =
    n.rowAt (v / n.bnd 0) (if n.turns (v / n.bnd 0) then n.bnd 0 - 1 - v % n.bnd 0 else v % n.bnd 0) := by
  unfold NestBlock.nth
  simp only [hord, OfNat.ofNat_ne_zero, OfNat.ofNat_ne_one, if_false, if_true]
  rw [← zeroTuple, NestBlock.digits_dims h, NestBlock.rowAt_one h, NestBlock.rowAt_zero h, NestBlock.set_rowAt h]
  by_cases ht : n.turns (v / n.bnd 0)
  · rw [if_neg ht, if_pos ht]
  · rw [if_pos (not_not.mp ht), if_neg ht]

theorem NestBlock.next_snake (hord : n.ord = 2) (q x : Nat) [Decidable (n.turns q)] : n.next (n.rowAt q x) =
    if (if n.turns q then n.bnd 0 - 1 - x else x) + 1 < n.bnd 0 then some (n.rowAt q (if n.turns q then x - 1 else x + 1))
    else (advance n n.outer (n.rowAt q x)).map fun j => j.set 0 (if j.getD 1 0 % 2 = 0 then 0 else n.bnd 0 - 1) := by
  unfold NestBlock.next
  simp only [hord, OfNat.ofNat_ne_zero, OfNat.ofNat_ne_one, if_false, if_true]
  rw [NestBlock.rowAt_one h, NestBlock.rowAt_zero h, NestBlock.set_rowAt h, ← NestBlock.outer]
  by_cases ht : n.turns q
  · rw [if_neg (c := _ = 0) ht, if_neg (c := _ = 0) ht, if_pos ht, if_pos ht]
    cases advance n n.outer (n.rowAt q x) <;> rfl
  · rw [if_pos (c := _ = 0) (not_not.mp ht), if_pos (c := _ = 0) (not_not.mp ht), if_neg ht, if_neg ht]
    cases advance n n.outer (n.rowAt q x) <;> rfl

theorem next_nth_snake (hord : n.ord = 2) {v : Nat} (hv : v + 1 < n.count) : n.next (n.nth v) = some (n.nth (v + 1)) := by
  classical
  have hpos := NestBlock.bnd_pos_of_count h (n := n) (by omega)
  have hcount : n.count = n.bnd 0 * n.boundsOf n.outer := by rw [NestBlock.count_eq h, NestBlock.dims_eq h.pos, NestBlock.boundsOf_cons]
  have hr := Nat.mod_lt v (hpos 0)
  rw [NestBlock.nth_snake h hord, NestBlock.next_snake h hord, NestBlock.nth_snake h hord]
  have hm : (if n.turns (v / n.bnd 0) then
      n.bnd 0 - 1 - (if n.turns (v / n.bnd 0) then n.bnd 0 - 1 - v % n.bnd 0 else v % n.bnd 0)
      else (if n.turns (v / n.bnd 0) then n.bnd 0 - 1 - v % n.bnd 0 else v % n.bnd 0)) = v % n.bnd 0 := by
    split <;> omega
  rw [hm]
  by_cases hlt : v % n.bnd 0 + 1 < n.bnd 0
  · have hnext : v + 1 = n.bnd 0 * (v / n.bnd 0) + (v % n.bnd 0 + 1) := by rw [← Nat.add_assoc, Nat.div_add_mod]
    have hdiv : (v + 1) / n.bnd 0 = v / n.bnd 0 := by rw [hnext, Nat.mul_add_div (hpos 0), Nat.div_eq_of_lt hlt, Nat.add_zero]
    have hmod : (v + 1) % n.bnd 0 = v % n.bnd 0 + 1 := by rw [hnext, Nat.mul_add_mod, Nat.mod_eq_of_lt hlt]
    rw [if_pos hlt, hdiv, hmod]
    split
    · rw [Nat.sub_sub]
    · rfl
  · have hnext : v + 1 = n.bnd 0 * (v / n.bnd 0 + 1) := by
      have := Nat.div_add_mod v (n.bnd 0)
      rw [Nat.mul_add, Nat.mul_one]
      omega
    have hdiv : (v + 1) / n.bnd 0 = v / n.bnd 0 + 1 := by rw [hnext, Nat.mul_div_cancel_left _ (hpos 0)]
    have hmod : (v + 1) % n.bnd 0 = 0 := by rw [hnext, Nat.mul_mod_right]
    have hq : v / n.bnd 0 + 1 < n.boundsOf n.outer := by
      rw [hcount, hnext] at hv
      exact Nat.lt_of_mul_lt_mul_left hv
    rw [if_neg hlt, NestBlock.advance_rowAt h hpos hq, hdiv, hmod, Option.map_some, NestBlock.rowAt_one h, NestBlock.set_rowAt h]
    by_cases ht : n.turns (v / n.bnd 0 + 1)
    · rw [if_neg (c := _ = 0) ht, if_pos ht, Nat.sub_zero]
    · rw [if_pos (c := _ = 0) (not_not.mp ht), if_neg ht]

end

end Sys2Proof.Machine

/-! The Morton order of a nest block (R127): the code of a pair of indices interleaves their bits, the next pair is the one with the next higher
code within the bounds, and the enumeration reaches every tuple. -/

namespace Sys2Proof.Machine
open Sys2Proof.Claims

/-! ## Enumerating a finite set in the order of a rank -/

/-- `next` leads from each element of `S` to the one with the next higher rank. -/
structure NextIn {α : Type} (S : Finset α) (r : α → Nat) (next : α → Option α) : Prop where
  inj : ∀ x ∈ S, ∀ y ∈ S, r x = r y → x = y
  some : ∀ x ∈ S, ∀ y, next x = some y → y ∈ S ∧ r x < r y ∧ ∀ z ∈ S, r x < r z → r y ≤ r z
  none : ∀ x ∈ S, next x = none → ∀ z ∈ S, r z ≤ r x

section
variable {α : Type} [DecidableEq α] {S : Finset α} {r : α → Nat} {next : α → Option α}

/-- The elements up to one. -/
def upTo (S : Finset α) (r : α → Nat) (x : α) : Finset α := S.filter fun z => r z ≤ r x

theorem NextIn.card_upTo_next (h : NextIn S r next) {x y : α} (hx : x ∈ S) (hy : next x = Option.some y) :
    (upTo S r y).card = (upTo S r x).card + 1 := by
  obtain ⟨hyS, hlt, hleast⟩ := h.some x hx y hy
  have hnot : y ∉ upTo S r x := fun hin => absurd (Finset.mem_filter.mp hin).2 (by omega)
  rw [← Finset.card_insert_of_notMem hnot]
  congr 1
  ext z
  rw [Finset.mem_insert, upTo, upTo, Finset.mem_filter, Finset.mem_filter]
  constructor
  · rintro ⟨hz, hle⟩
    by_cases hxz : r x < r z
    · exact .inl (h.inj z hz y hyS (Nat.le_antisymm hle (hleast z hz hxz)))
    · exact .inr ⟨hz, by omega⟩
  · rintro (rfl | ⟨hz, hle⟩)
    · exact ⟨hyS, le_rfl⟩
    · exact ⟨hz, by omega⟩

theorem NextIn.none_iff (h : NextIn S r next) {x : α} (hx : x ∈ S) : next x = Option.none ↔ (upTo S r x).card = S.card := by
  constructor
  · intro hn
    rw [upTo, Finset.filter_true_of_mem fun z hz => h.none x hx hn z hz]
  · intro hcard
    cases hn : next x with
    | none => rfl
    | some y =>
      have hle : (upTo S r y).card ≤ S.card := Finset.card_filter_le ..
      rw [h.card_upTo_next hx hn] at hle
      omega

/-- The `k`-th element of an enumeration. -/
def nthOf (next : α → Option α) (x : α) : Nat → α
  | 0 => x
  | k + 1 => (next (nthOf next x k)).getD (nthOf next x k)

/-- An enumeration that begins with the least element reaches every one. -/
theorem NextIn.nthOf_spec (h : NextIn S r next) {x : α} (hx : x ∈ S) (hleast : ∀ z ∈ S, r x ≤ r z) :
    ∀ k, k < S.card → nthOf next x k ∈ S ∧ (upTo S r (nthOf next x k)).card = k + 1 := by
  intro k
  induction k with
  | zero =>
    refine fun _ => ⟨hx, ?_⟩
    have hone : upTo S r x = {x} := by
      ext z
      rw [upTo, Finset.mem_filter, Finset.mem_singleton]
      constructor
      · rintro ⟨hz, hle⟩
        exact h.inj z hz x hx (Nat.le_antisymm hle (hleast z hz))
      · rintro rfl
        exact ⟨hx, le_rfl⟩
    rw [nthOf, hone, Finset.card_singleton]
  | succ k ih =>
    intro hk
    obtain ⟨hin, hcard⟩ := ih (by omega)
    cases hn : next (nthOf next x k) with
    | none => exact absurd ((h.none_iff hin).mp hn) (by omega)
    | some y =>
      rw [nthOf, hn, Option.getD_some]
      exact ⟨(h.some _ hin y hn).1, by rw [h.card_upTo_next hin hn, hcard]⟩

theorem NextIn.next_nthOf (h : NextIn S r next) {x : α} (hx : x ∈ S) (hleast : ∀ z ∈ S, r x ≤ r z) {k : Nat} (hk : k < S.card) :
    next (nthOf next x k) = if k + 1 < S.card then Option.some (nthOf next x (k + 1)) else Option.none := by
  obtain ⟨hin, hcard⟩ := h.nthOf_spec hx hleast k hk
  split
  · next hlt =>
    cases hn : next (nthOf next x k) with
    | none => exact absurd ((h.none_iff hin).mp hn) (by omega)
    | some y => rw [nthOf, hn, Option.getD_some]
  · exact (h.none_iff hin).mpr (by omega)

end

/-! ## Morton codes -/

/-- The index to whose bits position `p` of a Morton code belongs (R127). -/
def ownIndex (j : Nat × Nat) (p : Nat) : Nat := if p % 2 = 0 then j.1 else j.2

/-- The Morton code of a pair of 32-bit indices (R127). -/
def mortonCode (j : Nat × Nat) : Nat := Nat.ofBits fun p : Fin 64 => (ownIndex j p).testBit (p / 2)

theorem testBit_mortonCode (j : Nat × Nat) {p : Nat} (hp : p < 64) : (mortonCode j).testBit p = (ownIndex j p).testBit (p / 2) :=
  Nat.testBit_ofBits_lt _ p hp

theorem testBit_mortonCode_ge (j : Nat × Nat) {p : Nat} (hp : 64 ≤ p) : (mortonCode j).testBit p = false := Nat.testBit_ofBits_ge _ p hp

theorem testBit_fst (j : Nat × Nat) {i : Nat} (hi : i < 32) : (mortonCode j).testBit (2 * i) = j.1.testBit i := by
  rw [testBit_mortonCode j (by omega), ownIndex, if_pos (by omega), Nat.mul_div_cancel_left i (by decide)]

theorem testBit_snd (j : Nat × Nat) {i : Nat} (hi : i < 32) : (mortonCode j).testBit (2 * i + 1) = j.2.testBit i := by
  have hdiv : (2 * i + 1) / 2 = i := by omega
  rw [testBit_mortonCode j (by omega), ownIndex, if_neg (by omega), hdiv]

/-- A pair of 32-bit indices. -/
def Below32 (j : Nat × Nat) : Prop := j.1 < 2 ^ 32 ∧ j.2 < 2 ^ 32

theorem testBit_eq_false_of_lt {x i : Nat} (hx : x < 2 ^ 32) (hi : 32 ≤ i) : x.testBit i = false :=
  Nat.testBit_lt_two_pow (hx.trans_le (Nat.pow_le_pow_right (by decide) hi))

/-- A number whose bits another one has is no greater. -/
theorem le_of_testBit_imp {x y : Nat} (h : ∀ i, x.testBit i = true → y.testBit i = true) : x ≤ y := by
  have hand : x &&& y = x := Nat.eq_of_testBit_eq fun i => by
    rw [Nat.testBit_and]
    cases hx : x.testBit i with
    | false => rfl
    | true => exact h i hx
  exact hand ▸ Nat.and_le_right

/-- The bits of a code decide those of its indices. -/
theorem fst_le_of_code {y z : Nat × Nat} (hy : Below32 y) (h : ∀ p, (mortonCode y).testBit p = true → (mortonCode z).testBit p = true) :
    y.1 ≤ z.1 ∧ y.2 ≤ z.2 := by
  constructor
  · refine le_of_testBit_imp fun i hi => ?_
    by_cases h32 : i < 32
    · rw [← testBit_fst z h32]
      exact h _ (by rwa [testBit_fst y h32])
    · rw [testBit_eq_false_of_lt hy.1 (by omega)] at hi
      cases hi
  · refine le_of_testBit_imp fun i hi => ?_
    by_cases h32 : i < 32
    · rw [← testBit_snd z h32]
      exact h _ (by rwa [testBit_snd y h32])
    · rw [testBit_eq_false_of_lt hy.2 (by omega)] at hi
      cases hi

theorem mortonCode_inj {y z : Nat × Nat} (hy : Below32 y) (hz : Below32 z) (h : mortonCode y = mortonCode z) : y = z := by
  obtain ⟨h1, h2⟩ := fst_le_of_code (z := z) hy fun p hp => by rwa [← h]
  obtain ⟨h3, h4⟩ := fst_le_of_code (z := y) hz fun p hp => by rwa [h]
  exact Prod.ext (Nat.le_antisymm h1 h3) (Nat.le_antisymm h2 h4)

/-! ## The next code -/

theorem testBit_clear (x b i : Nat) : (x / 2 ^ b * 2 ^ b).testBit i = (decide (b ≤ i) && x.testBit i) := by
  rw [Nat.testBit_mul_two_pow, Nat.testBit_div_two_pow]
  by_cases h : b ≤ i
  · rw [Nat.sub_add_cancel h]
  · simp [h]

/-- A bit raised, and those below it cleared. -/
theorem testBit_raise {x b : Nat} (hb : x.testBit b = false) (i : Nat) :
    ((x / 2 ^ b + 1) * 2 ^ b).testBit i = if i < b then false else if i = b then true else x.testBit i := by
  have heven : x / 2 ^ b % 2 = 0 := by
    rw [Nat.testBit_eq_decide_div_mod_eq] at hb
    have := of_decide_eq_false hb
    omega
  rw [Nat.testBit_mul_two_pow]
  split
  · next h => simp [Nat.not_le.mpr h]
  · next h =>
    rw [decide_eq_true (Nat.le_of_not_lt h), Bool.true_and]
    split
    · next he =>
      rw [he, Nat.sub_self, Nat.testBit_zero, decide_eq_true (by omega)]
    · next hne =>
      obtain ⟨m, rfl⟩ : ∃ m, i = b + (m + 1) := ⟨i - b - 1, by omega⟩
      have hhalf : (x / 2 ^ b + 1) / 2 = x / 2 ^ b / 2 := by omega
      rw [Nat.add_sub_cancel_left, Nat.testBit_succ, hhalf, ← Nat.testBit_succ, Nat.testBit_div_two_pow, Nat.add_comm]

/-- A pair of indices with position `p` of its code raised, and the positions below it cleared. -/
def raised (j : Nat × Nat) (p : Nat) : Nat × Nat :=
  (if p % 2 = 0 then (j.1 / 2 ^ (p / 2) + 1) * 2 ^ (p / 2) else j.1 / 2 ^ (p / 2 + 1) * 2 ^ (p / 2 + 1),
    if p % 2 = 0 then j.2 / 2 ^ (p / 2) * 2 ^ (p / 2) else (j.2 / 2 ^ (p / 2) + 1) * 2 ^ (p / 2))

/-- What the search for the next code finds at a position. -/
def candidate (n : NestBlock) (j : Nat × Nat) (p : Nat) : Option (Nat × Nat) :=
  if ownIndex j p / 2 ^ (p / 2) % 2 = 1 then none
  else if (raised j p).1 < n.bnd 0 ∧ (raised j p).2 < n.bnd 1 then some (raised j p) else none

theorem mortonNext_eq (n : NestBlock) (a b : Nat) : mortonNext n a b = (List.range 64).findSome? (candidate n (a, b)) := rfl

theorem testBit_raised {j : Nat × Nat} {p : Nat} (h : (ownIndex j p).testBit (p / 2) = false) {q : Nat} (hq : q < 64) :
    (mortonCode (raised j p)).testBit q = if q < p then false else if q = p then true else (mortonCode j).testBit q := by
  rw [testBit_mortonCode _ hq, testBit_mortonCode _ hq]
  unfold ownIndex raised at *
  by_cases hp : p % 2 = 0
  · by_cases hq0 : q % 2 = 0
    · simp only [hp, hq0, if_true] at h ⊢
      rw [testBit_raise h]
      exact if_congr (by omega) rfl (if_congr (by omega) rfl rfl)
    · simp only [hp, hq0, if_true, if_false] at h ⊢
      rw [testBit_clear]
      have hle : p / 2 ≤ q / 2 ↔ ¬ q < p := by omega
      by_cases hlt : q < p
      · simp [hle, hlt]
      · rw [if_neg hlt, if_neg (by omega), decide_eq_true (hle.mpr hlt), Bool.true_and]
  · by_cases hq0 : q % 2 = 0
    · simp only [hp, hq0, if_true, if_false] at h ⊢
      rw [testBit_clear]
      have hle : p / 2 + 1 ≤ q / 2 ↔ ¬ q < p := by omega
      by_cases hlt : q < p
      · simp [hle, hlt]
      · rw [if_neg hlt, if_neg (by omega), decide_eq_true (hle.mpr hlt), Bool.true_and]
    · simp only [hp, hq0, if_false] at h ⊢
      rw [testBit_raise h]
      exact if_congr (by omega) rfl (if_congr (by omega) rfl rfl)

theorem below32_raised {j : Nat × Nat} {p : Nat} (hj : Below32 j) (h : (ownIndex j p).testBit (p / 2) = false) (hp : p < 64) :
    Below32 (raised j p) := by
  unfold ownIndex raised at *
  constructor <;> refine Nat.lt_pow_two_of_testBit _ fun i hi => ?_
  · have hji := testBit_eq_false_of_lt hj.1 hi
    dsimp only
    split
    · next hpar =>
      rw [if_pos hpar] at h
      rw [testBit_raise h, if_neg (by omega), if_neg (by omega), hji]
    · rw [testBit_clear, hji, Bool.and_false]
  · have hji := testBit_eq_false_of_lt hj.2 hi
    dsimp only
    split
    · rw [testBit_clear, hji, Bool.and_false]
    · next hpar =>
      rw [if_neg hpar] at h
      rw [testBit_raise h, if_neg (by omega), if_neg (by omega), hji]

/-- The highest position at which a greater code differs. -/
theorem exists_top_position {y z : Nat × Nat} (h : mortonCode y < mortonCode z) : ∃ p, p < 64 ∧ (mortonCode y).testBit p = false ∧
    (mortonCode z).testBit p = true ∧ ∀ q, p < q → (mortonCode y).testBit q = (mortonCode z).testBit q := by
  have hne : mortonCode y ^^^ mortonCode z ≠ 0 := fun h0 => absurd (Nat.xor_eq_zero_iff.mp h0) h.ne
  obtain ⟨p, hp, habove⟩ := Nat.exists_most_significant_bit hne
  have hsame : ∀ q, p < q → (mortonCode y).testBit q = (mortonCode z).testBit q := fun q hq => by
    have := habove q hq
    rw [Nat.testBit_xor] at this
    simpa using this
  rw [Nat.testBit_xor] at hp
  have hp64 : p < 64 := by
    by_contra hge
    rw [testBit_mortonCode_ge y (by omega), testBit_mortonCode_ge z (by omega)] at hp
    cases hp
  cases hy : (mortonCode y).testBit p with
  | false => exact ⟨p, hp64, hy, by simpa [hy] using hp, hsame⟩
  | true =>
    have hz : (mortonCode z).testBit p = false := by simpa [hy] using hp
    exact absurd (Nat.lt_of_testBit p hz hy fun q hq => (hsame q hq).symm) (by omega)

/-- The pairs of indices below the first two bounds. -/
def NestBlock.plane (n : NestBlock) : Finset (Nat × Nat) := Finset.range (n.bnd 0) ×ˢ Finset.range (n.bnd 1)

theorem NestBlock.mem_plane {n : NestBlock} {j : Nat × Nat} : j ∈ n.plane ↔ j.1 < n.bnd 0 ∧ j.2 < n.bnd 1 := by
  rw [NestBlock.plane, Finset.mem_product, Finset.mem_range, Finset.mem_range]

theorem NestBlock.below32_of_mem_plane {n : NestBlock} (h : n.Valid) {j : Nat × Nat} (hj : j ∈ n.plane) : Below32 j :=
  have hj := NestBlock.mem_plane.mp hj
  ⟨hj.1.trans (h.bnd 0), hj.2.trans (h.bnd 1)⟩

theorem candidate_some {n : NestBlock} {j y : Nat × Nat} {p : Nat} (h : candidate n j p = some y) :
    (ownIndex j p).testBit (p / 2) = false ∧ y = raised j p ∧ y ∈ n.plane := by
  unfold candidate at h
  split at h
  · cases h
  · next hbit =>
    split at h
    · next hin =>
      cases h
      exact ⟨by rw [Nat.testBit_eq_decide_div_mod_eq, decide_eq_false hbit], rfl, NestBlock.mem_plane.mpr hin⟩
    · cases h

theorem candidate_of_mem {n : NestBlock} {j : Nat × Nat} {p : Nat} (hbit : (ownIndex j p).testBit (p / 2) = false) (hin : raised j p ∈ n.plane) :
    candidate n j p = some (raised j p) := by
  rw [Nat.testBit_eq_decide_div_mod_eq] at hbit
  unfold candidate
  rw [if_neg (of_decide_eq_false hbit), if_pos (NestBlock.mem_plane.mp hin)]

/-- The first answer of an ascending search, and where it is found. -/
theorem findSome?_range_first {β : Type} {f : Nat → Option β} {n : Nat} {a : β} (h : (List.range n).findSome? f = some a) :
    ∃ p, p < n ∧ f p = some a ∧ ∀ q, q < p → f q = none := by
  induction n with
  | zero => simp at h
  | succ n ih =>
    rw [List.range_succ, List.findSome?_append] at h
    cases hn : (List.range n).findSome? f with
    | some b =>
      rw [hn, Option.some_or] at h
      cases h
      obtain ⟨p, hp, hrest⟩ := ih hn
      exact ⟨p, by omega, hrest⟩
    | none =>
      rw [hn, Option.none_or, List.findSome?_singleton] at h
      rw [List.findSome?_eq_none_iff] at hn
      exact ⟨n, by omega, h, fun q hq => hn q (List.mem_range.mpr hq)⟩

/-- A pair with a greater code within the bounds is found, or one before it. -/
theorem candidate_below {n : NestBlock} (h : n.Valid) {j z : Nat × Nat} (hj : j ∈ n.plane) (hz : z ∈ n.plane) (hlt : mortonCode j < mortonCode z) :
    ∃ p, p < 64 ∧ candidate n j p = some (raised j p) ∧ mortonCode (raised j p) ≤ mortonCode z ∧ (mortonCode j).testBit p = false ∧
      (mortonCode z).testBit p = true ∧ ∀ q, p < q → (mortonCode j).testBit q = (mortonCode z).testBit q := by
  obtain ⟨p, hp, hjp, hzp, habove⟩ := exists_top_position hlt
  have hbit : (ownIndex j p).testBit (p / 2) = false := by rw [← testBit_mortonCode j hp, hjp]
  have hsub : ∀ q, (mortonCode (raised j p)).testBit q = true → (mortonCode z).testBit q = true := by
    intro q hq
    by_cases h64 : q < 64
    · rw [testBit_raised hbit h64] at hq
      rcases Nat.lt_trichotomy q p with hqp | rfl | hqp
      · rw [if_pos hqp] at hq
        cases hq
      · exact hzp
      · rw [if_neg (by omega), if_neg (by omega), habove q hqp] at hq
        exact hq
    · rw [testBit_mortonCode_ge _ (by omega)] at hq
      cases hq
  have hsmall := below32_raised (NestBlock.below32_of_mem_plane h hj) hbit hp
  obtain ⟨h1, h2⟩ := fst_le_of_code hsmall hsub
  obtain ⟨hz1, hz2⟩ := NestBlock.mem_plane.mp hz
  exact ⟨p, hp, candidate_of_mem hbit (NestBlock.mem_plane.mpr ⟨h1.trans_lt hz1, h2.trans_lt hz2⟩), le_of_testBit_imp hsub, hjp, hzp, habove⟩

/-- The search for the next code leads through the pairs within the bounds in the order of their codes (R127). -/
theorem mortonNext_nextIn {n : NestBlock} (h : n.Valid) : NextIn n.plane mortonCode fun j => mortonNext n j.1 j.2 where
  inj y hy z hz he := mortonCode_inj (NestBlock.below32_of_mem_plane h hy) (NestBlock.below32_of_mem_plane h hz) he
  some j hj y hy := by
    rw [mortonNext_eq] at hy
    obtain ⟨q, hq, hcand, hbefore⟩ := findSome?_range_first hy
    obtain ⟨hbit, rfl, hin⟩ := candidate_some hcand
    refine ⟨hin, Nat.lt_of_testBit q ?_ ?_ fun i hi => ?_, fun z hz hlt => ?_⟩
    · rwa [testBit_mortonCode j hq]
    · rw [testBit_raised hbit hq, if_neg (by omega), if_pos rfl]
    · by_cases h64 : i < 64
      · rw [testBit_raised hbit h64, if_neg (by omega), if_neg (by omega)]
      · rw [testBit_mortonCode_ge _ (by omega), testBit_mortonCode_ge _ (by omega)]
    · obtain ⟨p, hp, hpcand, hle, hjp, hzp, habove⟩ := candidate_below h hj hz hlt
      rcases Nat.lt_trichotomy q p with hqp | rfl | hqp
      · refine (Nat.lt_of_testBit p ?_ hzp fun i hi => ?_).le
        · rw [testBit_raised hbit hp, if_neg (by omega), if_neg (by omega), hjp]
        · by_cases h64 : i < 64
          · rw [testBit_raised hbit h64, if_neg (by omega), if_neg (by omega), habove i hi]
          · rw [testBit_mortonCode_ge _ (by omega), testBit_mortonCode_ge _ (by omega)]
      · exact hle
      · rw [hbefore p hqp] at hpcand
        cases hpcand
  none j hj hn z hz := by
    by_contra hlt
    obtain ⟨p, hp, hpcand, -⟩ := candidate_below h hj hz (Nat.lt_of_not_le hlt)
    rw [mortonNext_eq, List.findSome?_eq_none_iff] at hn
    rw [hn p (List.mem_range.mpr hp)] at hpcand
    cases hpcand

/-! ## The enumeration in Morton order -/

/-- The tuple with a pair of indices in the first two dimensions and the others counted to `q`. -/
def NestBlock.planeAt (n : NestBlock) (q : Nat) (j : Nat × Nat) : List Nat :=
  digits n (n.outer.drop 1) q ((zeroTuple.set 0 j.1).set 1 j.2)

theorem digits_zero (n : NestBlock) (ds : List Nat) : digits n ds 0 zeroTuple = zeroTuple := by
  induction ds with
  | nil => rfl
  | cons d ds ih =>
    have hset : zeroTuple.set d 0 = zeroTuple := List.set_replicate_self
    rw [digits_cons, Nat.zero_div, Nat.zero_mod, hset, ih]

/-- An enumeration begins with the tuple of zeros (R127). -/
theorem NestBlock.nth_zero (n : NestBlock) : n.nth 0 = zeroTuple := by
  have hdigits : ∀ ds, digits n ds 0 (List.replicate 6 0) = zeroTuple := digits_zero n
  unfold NestBlock.nth
  dsimp only
  rw [hdigits, hdigits]
  split
  · rfl
  · split
    · rfl
    · split
      · exact if_pos rfl
      · rfl

theorem NestBlock.nth_morton_zero (n : NestBlock) : n.nth 0 = n.planeAt 0 (0, 0) := (n.nth_zero).trans (digits_zero n _).symm

theorem NestBlock.nth_morton_succ {n : NestBlock} (hord : n.ord = 3) (k : Nat) : n.nth (k + 1) = (n.next (n.nth k)).getD (n.nth k) := by
  unfold NestBlock.nth
  simp only [hord, OfNat.ofNat_ne_zero, OfNat.ofNat_ne_one, if_false]
  rw [if_neg (by decide), if_neg (by decide)]

/-- The pairs of a plane in the order of their codes. -/
def NestBlock.planeNth (n : NestBlock) : Nat → Nat × Nat := nthOf (fun j => mortonNext n j.1 j.2) (0, 0)

theorem NestBlock.next_planeNth {n : NestBlock} (h : n.Valid) (hpos : ∀ k, 0 < n.bnd k) {k : Nat} (hk : k < n.plane.card) :
    mortonNext n (n.planeNth k).1 (n.planeNth k).2 = if k + 1 < n.plane.card then some (n.planeNth (k + 1)) else none := by
  have hzero : mortonCode (0, 0) = 0 := Nat.eq_of_testBit_eq fun i => by
    rw [Nat.zero_testBit]
    by_cases hi : i < 64
    · rw [testBit_mortonCode _ hi, ownIndex]
      split <;> exact Nat.zero_testBit _
    · exact testBit_mortonCode_ge _ (by omega)
  exact (mortonNext_nextIn h).next_nthOf (NestBlock.mem_plane.mpr ⟨hpos 0, hpos 1⟩) (fun z _ => by rw [hzero]; exact Nat.zero_le _) hk

section
variable {n : NestBlock} (h : n.Valid) (hord : n.ord = 3)
include h hord

theorem NestBlock.outer_eq : n.outer = 1 :: n.outer.drop 1 := by
  have h2 := h.morton hord
  have hd := List.drop_eq_getElem_cons (l := List.range n.ndim) (i := 1) (by rw [List.length_range]; omega)
  rw [List.getElem_range] at hd
  rw [NestBlock.outer, hd, List.drop_succ_cons, List.drop_zero]

theorem NestBlock.notMem_inner : 0 ∉ n.outer.drop 1 ∧ 1 ∉ n.outer.drop 1 :=
  ⟨fun hin => NestBlock.zero_notMem_outer h.pos (List.mem_of_mem_drop hin),
    (List.nodup_cons.mp (NestBlock.outer_eq h hord ▸ n.nodup_outer)).1⟩

theorem NestBlock.set_planeAt (q : Nat) (j : Nat × Nat) (a b : Nat) : ((n.planeAt q j).set 0 a).set 1 b = n.planeAt q (a, b) := by
  obtain ⟨h0, h1⟩ := NestBlock.notMem_inner h hord
  rw [NestBlock.planeAt, set_digits h0, set_digits h1, NestBlock.planeAt]
  rfl

theorem NestBlock.planeAt_zero (q : Nat) (j : Nat × Nat) : (n.planeAt q j).getD 0 0 = j.1 := by
  rw [NestBlock.planeAt, getD_digits (NestBlock.notMem_inner h hord).1]
  rfl

theorem NestBlock.planeAt_one (q : Nat) (j : Nat × Nat) : (n.planeAt q j).getD 1 0 = j.2 := by
  rw [NestBlock.planeAt, getD_digits (NestBlock.notMem_inner h hord).2]
  rfl

theorem NestBlock.next_planeAt (q : Nat) (j : Nat × Nat) : n.next (n.planeAt q j) =
    ((mortonNext n j.1 j.2).map (n.planeAt q)).or (advance n (n.outer.drop 1) (n.planeAt q (0, 0))) := by
  unfold NestBlock.next
  simp only [hord, OfNat.ofNat_ne_zero, OfNat.ofNat_ne_one, if_false]
  rw [if_neg (by decide), NestBlock.planeAt_zero h hord, NestBlock.planeAt_one h hord, ← NestBlock.outer, NestBlock.set_planeAt h hord]
  cases mortonNext n j.1 j.2 with
  | none => rfl
  | some y => exact congrArg some (NestBlock.set_planeAt h hord q j y.1 y.2)

theorem NestBlock.count_morton : n.count = n.plane.card * n.boundsOf (n.outer.drop 1) := by
  rw [NestBlock.count_eq h, NestBlock.dims_eq h.pos, NestBlock.boundsOf_cons, NestBlock.outer_eq h hord, NestBlock.boundsOf_cons, NestBlock.plane,
    Finset.card_product, Finset.card_range, Finset.card_range, Nat.mul_assoc]
  rfl

/-- The tuple after the `k`-th of the `q`-th plane. -/
theorem NestBlock.next_planeAt_planeNth (hpos : ∀ k, 0 < n.bnd k) {q k : Nat} (hk : k < n.plane.card)
    (hlast : k + 1 = n.plane.card → q + 1 < n.boundsOf (n.outer.drop 1)) :
    n.next (n.planeAt q (n.planeNth k)) =
      some (if k + 1 < n.plane.card then n.planeAt q (n.planeNth (k + 1)) else n.planeAt (q + 1) (n.planeNth 0)) := by
  rw [NestBlock.next_planeAt h hord, NestBlock.next_planeNth h hpos hk]
  by_cases hlt : k + 1 < n.plane.card
  · rw [if_pos hlt, if_pos hlt]
    rfl
  · rw [if_neg hlt, if_neg hlt, Option.map_none, Option.none_or]
    exact advance_digits (n.nodup_outer.sublist (List.drop_sublist ..)) (fun d _ => hpos d) q _
      (fun d hd => by
        rw [List.length_set, List.length_set, zeroTuple, List.length_replicate]
        exact (NestBlock.lt_of_mem_outer (List.mem_of_mem_drop hd)).trans_le h.le) (hlast (by omega))

theorem NestBlock.nth_morton (v : Nat) (hv : v < n.count) : n.nth v = n.planeAt (v / n.plane.card) (n.planeNth (v % n.plane.card)) ∧
    (v + 1 < n.count → n.next (n.nth v) = some (n.nth (v + 1))) := by
  have hpos := NestBlock.bnd_pos_of_count h (n := n) (by omega)
  have hcount := NestBlock.count_morton h hord
  have hcard : 0 < n.plane.card := by
    rw [NestBlock.plane, Finset.card_product, Finset.card_range, Finset.card_range]
    exact Nat.mul_pos (hpos 0) (hpos 1)
  have hnext : ∀ u, u + 1 < n.count → n.next (n.planeAt (u / n.plane.card) (n.planeNth (u % n.plane.card))) =
      some (n.planeAt ((u + 1) / n.plane.card) (n.planeNth ((u + 1) % n.plane.card))) := by
    intro u hu
    have hr := Nat.mod_lt u hcard
    by_cases hlt : u % n.plane.card + 1 < n.plane.card
    · have he : u + 1 = n.plane.card * (u / n.plane.card) + (u % n.plane.card + 1) := by rw [← Nat.add_assoc, Nat.div_add_mod]
      have hdiv : (u + 1) / n.plane.card = u / n.plane.card := by rw [he, Nat.mul_add_div hcard, Nat.div_eq_of_lt hlt, Nat.add_zero]
      have hmod : (u + 1) % n.plane.card = u % n.plane.card + 1 := by rw [he, Nat.mul_add_mod, Nat.mod_eq_of_lt hlt]
      rw [NestBlock.next_planeAt_planeNth h hord hpos hr (by omega), if_pos hlt, hdiv, hmod]
    · have he : u + 1 = n.plane.card * (u / n.plane.card + 1) := by
        have := Nat.div_add_mod u n.plane.card
        rw [Nat.mul_add, Nat.mul_one]
        omega
      have hdiv : (u + 1) / n.plane.card = u / n.plane.card + 1 := by rw [he, Nat.mul_div_cancel_left _ hcard]
      have hmod : (u + 1) % n.plane.card = 0 := by rw [he, Nat.mul_mod_right]
      have hq : u / n.plane.card + 1 < n.boundsOf (n.outer.drop 1) := by
        rw [hcount, he] at hu
        exact Nat.lt_of_mul_lt_mul_left hu
      rw [NestBlock.next_planeAt_planeNth h hord hpos hr fun _ => hq, if_neg hlt, hdiv, hmod]
  have hnth : ∀ u, u < n.count → n.nth u = n.planeAt (u / n.plane.card) (n.planeNth (u % n.plane.card)) := by
    intro u
    induction u with
    | zero =>
      intro _
      rw [Nat.zero_div, Nat.zero_mod]
      exact n.nth_morton_zero
    | succ u ih =>
      intro hu
      rw [NestBlock.nth_morton_succ hord, ih (by omega), hnext u hu, Option.getD_some]
  exact ⟨hnth v hv, fun hlt => by rw [hnth v hv, hnth (v + 1) hlt, hnext v hlt]⟩

end

/-! ## Every order -/

/-- R127, R304: the tuple after the `v`-th of the enumeration is the next. -/
theorem next_nth {n : NestBlock} (h : n.Valid) {v : Nat} (hv : v + 1 < n.count) : n.next (n.nth v) = some (n.nth (v + 1)) := by
  have hord := h.ord
  obtain h0 | h1 | h2 | h3 : n.ord = 0 ∨ n.ord = 1 ∨ n.ord = 2 ∨ n.ord = 3 := by omega
  · exact next_nth_row h h0 hv
  · exact next_nth_column h h1 hv
  · exact next_nth_snake h h2 hv
  · exact (NestBlock.nth_morton h h3 v (by omega)).2 hv

theorem walkFrom_nth {n : NestBlock} (h : n.Valid) : ∀ f v, v + f < n.count →
    n.walkFrom f (n.nth v) = (List.range (f + 1)).map fun k => n.nth (v + k) := by
  intro f
  induction f with
  | zero => exact fun _ _ => rfl
  | succ f ih =>
    intro v hv
    rw [NestBlock.walkFrom, next_nth h (by omega), List.range_succ_eq_map, List.map_cons, List.map_map]
    refine congrArg _ ((ih (v + 1) (by omega)).trans (List.map_congr_left fun k _ => ?_))
    rw [Function.comp_apply, Nat.succ_eq_add_one, Nat.add_right_comm, Nat.add_assoc]

/-- R127: the tuples of a block, in order. -/
theorem NestBlock.tuples_eq {n : NestBlock} (h : n.Valid) : n.tuples = (List.range n.count).map n.nth := by
  unfold NestBlock.tuples
  split
  · next h0 => rw [h0]; rfl
  · next hc =>
    rw [← zeroTuple, ← n.nth_zero, walkFrom_nth h _ _ (by omega), Nat.sub_add_cancel (Nat.pos_of_ne_zero hc)]
    exact List.map_congr_left fun k _ => by rw [Nat.zero_add]

end Sys2Proof.Machine

/-! The fields of a copy block and of a gather descriptor (R254, R261), and the elements that a copy moves (R255, R256, R258). -/

namespace Sys2Proof.Machine
open Sys2Proof.Claims

/-! ## The control doubleword by its bytes -/

theorem leNat_append (as bs : List Byte) : leNat (as ++ bs) = leNat as + 256 ^ as.length * leNat bs := by
  induction as with
  | nil => simp [leNat]
  | cons a as ih =>
    rw [List.cons_append, leNat, leNat, ih, List.length_cons, pow_succ]
    ring

theorem field_add (bs : List Byte) (o a b : Nat) : field bs o (a + b) = field bs o a + 256 ^ a * field bs (o + a) b := by
  have hslice : slice bs o (a + b) = slice bs o a ++ slice bs (o + a) b := by
    unfold slice
    rw [List.range_add, List.map_append, List.map_map]
    refine congrArg _ (List.map_congr_left fun i _ => ?_)
    rw [Function.comp_apply, Nat.add_assoc]
  rw [field, hslice, leNat_append, slice, List.length_map, List.length_range]
  rfl

theorem ctl_eq (bs : List Byte) : field bs 0 8 = field bs 0 5 + 2 ^ 40 * field bs 5 1 + 2 ^ 48 * field bs 6 1 + 2 ^ 56 * field bs 7 1 := by
  have h5 := field_add bs 0 5 3
  have h6 := field_add bs 5 1 2
  have h7 := field_add bs 6 1 1
  norm_num at h5 h6 h7
  omega

/-- The bytes of the control doubleword of a copy block or a gather descriptor. -/
structure CtlFields (bs : List Byte) : Prop where
  version : field bs 0 8 / 2 ^ 56 = field bs 7 1
  ssp : field bs 0 8 / 2 ^ 52 % 16 = field bs 6 1 / 16
  dsp : field bs 0 8 / 2 ^ 48 % 16 = field bs 6 1 % 16
  esz : field bs 0 8 / 2 ^ 46 % 4 = field bs 5 1 / 64
  tr : field bs 0 8 / 2 ^ 45 % 2 = field bs 5 1 / 32 % 2
  swz : field bs 0 8 / 2 ^ 44 % 2 = field bs 5 1 / 16 % 2
  so : field bs 0 8 / 2 ^ 43 % 2 = field bs 5 1 / 8 % 2
  low : field bs 0 8 % 2 ^ 43 = 0 ↔ field bs 5 1 % 8 = 0 ∧ field bs 0 5 = 0
  nseg : field bs 0 8 / 2 ^ 44 % 16 = field bs 5 1 / 16
  fsz : field bs 0 8 / 2 ^ 42 % 4 = field bs 5 1 / 4 % 4
  gswz : field bs 0 8 / 2 ^ 41 % 2 = field bs 5 1 / 2 % 2
  perm : field bs 0 8 / 2 ^ 40 % 2 = field bs 5 1 % 2

theorem ctlFields (bs : List Byte) : CtlFields bs := by
  have h := ctl_eq bs
  have h0 := field_lt bs 0 5
  have h5 := field_lt bs 5 1
  have h6 := field_lt bs 6 1
  have h7 := field_lt bs 7 1
  norm_num at h h0 h5 h6 h7
  constructor <;> omega

/-! ## The conditions on a copy block -/

theorem engineSpace_iff (n : Nat) : engineSpace n = true ↔ SpaceCode n := by
  simp [engineSpace, SpaceCode, or_assoc]

theorem copyBlockOk_iff (bs : List Byte) : copyBlockOk bs = true ↔ CopyBlockRight bs := by
  have h := ctlFields bs
  unfold copyBlockOk CopyBlockRight copyFields
  dsimp only
  rw [h.version, h.ssp, h.dsp, h.esz, h.tr, h.swz, h.so]
  simp only [Bool.and_eq_true, beq_iff_eq, engineSpace_iff, h.low, Bool.not_eq_true', Bool.and_eq_false_iff, Bool.or_eq_false_iff,
    beq_eq_false_iff_ne, bne_eq_false_iff_eq]
  simp only [imp_iff_not_or, and_assoc, ne_eq]

/-- The command of a copy block and its nest block (R254, R255). -/
def copyOf (bs : List Byte) (n : NestBlock) : CopyCmd :=
  ⟨(copyFields bs).ssp, (copyFields bs).dsp, 2 ^ (copyFields bs).esz, (copyFields bs).tr == 1, (copyFields bs).swz == 1, (copyFields bs).so == 1,
    (copyFields bs).src, (copyFields bs).dst, (copyFields bs).pitch n, n⟩

theorem joinBlocks_eq (bs : List Byte) (n : NestBlock) [Decidable (CopyJoins bs n)] :
    joinBlocks bs n = if CopyJoins bs n then some (copyOf bs n) else none := by
  have h := ctlFields bs
  have hpitch : (if field bs 32 4 ≠ 0 then field bs 32 4 else n.bnd (if (field bs 5 1 / 32 % 2 == 1) = true then 1 else 0) * 2 ^ (field bs 5 1 / 64)) =
      (copyFields bs).pitch n := by
    simp only [beq_iff_eq]
    rfl
  unfold joinBlocks
  dsimp only
  rw [h.ssp, h.dsp, h.esz, h.tr, h.swz, h.so, hpitch]
  by_cases hj : CopyJoins bs n
  · rw [if_pos hj, if_neg]
    · rfl
    · obtain ⟨h1, h2⟩ := hj
      simp only [beq_iff_eq]
      rintro (⟨ht, hn⟩ | ⟨hs, hp⟩)
      · exact absurd (h1 ht) (by omega)
      · exact hp (h2 hs)
  · rw [if_neg hj, if_pos]
    unfold CopyJoins copyFields at hj
    simp only [beq_iff_eq]
    by_contra hno
    rw [not_or, not_and, not_and, not_lt, not_not] at hno
    exact hj ⟨hno.1, hno.2⟩

/-! ## The elements of a copy -/

theorem foldl_add_eq {α : Type} [AddMonoid α] (f : Nat → α) (ds : List Nat) : ∀ c : α, ds.foldl (fun a k => a + f k) c = c + (ds.map f).sum := by
  induction ds with
  | nil => simp
  | cons d ds ih =>
    intro c
    rw [List.foldl_cons, ih, List.map_cons, List.sum_cons, add_assoc]

theorem drop_two_range (m : Nat) : (List.range m).drop 2 = (List.range m).filter (2 ≤ ·) := by
  match m with
  | 0 => rfl
  | 1 => rfl
  | m + 2 =>
    rw [List.range_succ_eq_map, List.range_succ_eq_map]
    simp only [List.map_cons, List.map_map, List.drop_succ_cons, List.drop_zero]
    rw [List.filter_cons_of_neg (by decide), List.filter_cons_of_neg (by decide)]
    refine (List.filter_eq_self.mpr fun k hk => ?_).symm
    obtain ⟨i, -, rfl⟩ := List.mem_map.mp hk
    simp

/-- The offset and the span of a copy's dimensions from the third on (R255). -/
theorem offset_fold (b x : Nat → Nat) (first p : Nat) (m : Nat) :
    ((List.range m).filter (2 ≤ ·)).foldl (fun (q : Nat × Nat) k => (q.1 + x k * q.2, q.2 * b k)) (first, p) =
      (first + (((List.range m).filter (2 ≤ ·)).map fun k => x k * (p * (((List.range k).filter (2 ≤ ·)).map b).prod)).sum,
        p * (((List.range m).filter (2 ≤ ·)).map b).prod) := by
  induction m with
  | zero => simp
  | succ m ih =>
    rw [List.range_succ, List.filter_append, List.foldl_append, ih]
    by_cases h : 2 ≤ m
    · simp [h, Nat.add_assoc, Nat.mul_assoc]
    · simp [h]

theorem copyOf_offset (bs : List Byte) (n : NestBlock) (j : List Nat) : (copyOf bs n).offset j = copyOffset (copyFields bs) n j := by
  unfold CopyCmd.offset copyOffset
  dsimp only [copyOf]
  rw [drop_two_range, offset_fold n.bnd (fun k => j.getD k 0)]
  simp only [beq_iff_eq, Nat.mul_assoc]
  rfl

theorem copyOf_swizzle (bs : List Byte) (n : NestBlock) (d : Nat) : (if (copyOf bs n).swz then swizzle (copyOf bs n).pitch d else d) =
    swizzled (copyFields bs).swz ((copyFields bs).pitch n) d := by
  unfold swizzled
  dsimp only [copyOf]
  simp only [beq_iff_eq]
  rfl

theorem copyOf_work (bs : List Byte) {n : NestBlock} (h : n.Valid) : CopyWork bs n (copyOf bs n).work := by
  have helems : (copyOf bs n).work.elems = (List.range n.count).map fun m =>
      ⟨some (BitVec.ofInt 64 (((copyFields bs).src : Int) + ((List.range n.ndim).map fun k => ((n.nth m).getD k 0 : Int) * n.stride.getD k 0).sum)),
        BitVec.ofNat 64 ((copyFields bs).dst + swizzled (copyFields bs).swz ((copyFields bs).pitch n) (copyOffset (copyFields bs) n (n.nth m))),
        2 ^ (copyFields bs).esz⟩ := by
    show (copyOf bs n).elems = _
    unfold CopyCmd.elems
    rw [show (copyOf bs n).nest = n from rfl, NestBlock.tuples_eq h, List.map_map]
    refine List.map_congr_left fun m _ => ?_
    dsimp only [Function.comp_apply]
    rw [copyOf_offset, copyOf_swizzle, foldl_add_eq]
    rfl
  refine ⟨rfl, rfl, beq_iff_eq, rfl, by rw [helems, List.length_map, List.length_range], fun m hm => ?_⟩
  rw [helems, List.getElem?_map, List.getElem?_range hm]
  rfl

end Sys2Proof.Machine

/-! The elements that the engine moves (R212, R252, R255 to R264): of a gather, of a copy named by a qpush, where they lie, and the bytes moved. -/

namespace Sys2Proof.Machine
open Sys2Proof.Claims

/-! ## Lists of blocks of one length -/

theorem length_flatMap_range {α : Type} {f : Nat → List α} {L n : Nat} (hL : ∀ i, i < n → (f i).length = L) :
    ((List.range n).flatMap f).length = n * L := by
  induction n with
  | zero => simp
  | succ n ih =>
    rw [List.range_succ, List.flatMap_append, List.length_append, ih fun i hi => hL i (by omega), List.flatMap_singleton, hL n (by omega),
      Nat.succ_mul]

theorem getElem?_flatMap_range {α : Type} {f : Nat → List α} {L n : Nat} (hL : ∀ i, i < n → (f i).length = L) {i m : Nat} (hi : i < n)
    (hm : m < L) : ((List.range n).flatMap f)[i * L + m]? = (f i)[m]? := by
  induction n with
  | zero => omega
  | succ n ih =>
    have hlen := length_flatMap_range fun i (hi : i < n) => hL i (by omega)
    rw [List.range_succ, List.flatMap_append, List.flatMap_singleton]
    rcases Nat.lt_succ_iff_lt_or_eq.mp hi with hlt | rfl
    · have hle : (i + 1) * L ≤ n * L := Nat.mul_le_mul_right L hlt
      rw [Nat.succ_mul] at hle
      rw [List.getElem?_append_left (by omega)]
      exact ih (fun i hi => hL i (by omega)) hlt
    · rw [List.getElem?_append_right (by omega), hlen, Nat.add_sub_cancel_left]

/-! ## Gathers -/

/-- The field of a record that a plane of a request takes (R263). -/
def planeField (bs : List Byte) (p plane : Nat) : Nat := if field bs 5 1 % 2 = 1 then p / 2 ^ (4 * plane) % 16 else plane

/-- One piece of a plane: its offset in the row, none where the field is out of range, its offset in the slot, and its bytes (R263). -/
def planePiece (bs : List Byte) (p plane r : Nat) : Option Nat × Nat × Nat :=
  (if planeField bs p plane < field bs 5 1 / 16 then
      some ((r * (field bs 5 1 / 16) + planeField bs p plane) * 2 ^ (field bs 5 1 / 4 % 4))
    else none,
    (plane * (field bs 24 4 / (field bs 5 1 / 16 * 2 ^ (field bs 5 1 / 4 % 4))) + r) * 2 ^ (field bs 5 1 / 4 % 4), 2 ^ (field bs 5 1 / 4 % 4))

theorem rowPieces_whole {bs : List Byte} (h : field bs 5 1 / 16 = 0) (p : Nat) :
    rowPieces bs p = (List.range (field bs 24 4 / 32)).map fun k => (some (32 * k), 32 * k, 32) := by
  unfold rowPieces
  dsimp only
  rw [(ctlFields bs).nseg, if_pos h]

theorem rowPieces_planes {bs : List Byte} (h : field bs 5 1 / 16 ≠ 0) (p : Nat) :
    rowPieces bs p = (List.range (field bs 5 1 / 16)).flatMap fun plane =>
      (List.range (field bs 24 4 / (field bs 5 1 / 16 * 2 ^ (field bs 5 1 / 4 % 4)))).map (planePiece bs p plane) := by
  have hc := ctlFields bs
  unfold rowPieces
  dsimp only
  rw [hc.nseg, if_neg h, hc.fsz, hc.perm]
  simp only [beq_iff_eq]
  rfl

theorem length_rowPieces_planes {bs : List Byte} (h : field bs 5 1 / 16 ≠ 0) (p : Nat) : (rowPieces bs p).length =
    field bs 5 1 / 16 * (field bs 24 4 / (field bs 5 1 / 16 * 2 ^ (field bs 5 1 / 4 % 4))) := by
  rw [rowPieces_planes h]
  exact length_flatMap_range fun _ _ => by rw [List.length_map, List.length_range]

theorem getElem?_rowPieces_planes {bs : List Byte} (h : field bs 5 1 / 16 ≠ 0) (p : Nat) {plane r : Nat} (hp : plane < field bs 5 1 / 16)
    (hr : r < field bs 24 4 / (field bs 5 1 / 16 * 2 ^ (field bs 5 1 / 4 % 4))) :
    (rowPieces bs p)[plane * (field bs 24 4 / (field bs 5 1 / 16 * 2 ^ (field bs 5 1 / 4 % 4))) + r]? = some (planePiece bs p plane r) := by
  rw [rowPieces_planes h, getElem?_flatMap_range (fun _ _ => by rw [List.length_map, List.length_range]) hp hr, List.getElem?_map,
    List.getElem?_range hr]
  rfl

/-- The element that a piece of a request gives (R262 to R264). -/
def gatherElem (bs : List Byte) (k : Word) (i : Nat) (q : Option Nat × Nat × Nat) : Elem :=
  ⟨if k.toNat < field bs 28 4 then q.1.map fun o => BitVec.ofNat 64 (field bs 8 8 + k.toNat * field bs 24 4 + o) else none,
    BitVec.ofNat 64 (field bs 16 8 + swizzled (field bs 5 1 / 2 % 2) (field bs 32 4) ((field bs 36 4 + i) * field bs 32 4 + q.2.1)), q.2.2⟩

/-- The element of a piece of a plane (R263, R264). -/
theorem gatherElem_planePiece (bs : List Byte) (k : Word) (i p plane r : Nat) : gatherElem bs k i (planePiece bs p plane r) =
    ⟨if k.toNat < field bs 28 4 ∧ planeField bs p plane < field bs 5 1 / 16 then
        some (BitVec.ofNat 64 (field bs 8 8 + k.toNat * field bs 24 4 +
          (r * (field bs 5 1 / 16) + planeField bs p plane) * 2 ^ (field bs 5 1 / 4 % 4)))
      else none,
      (gatherElem bs k i (planePiece bs p plane r)).dst, 2 ^ (field bs 5 1 / 4 % 4)⟩ := by
  unfold gatherElem planePiece
  by_cases hk : k.toNat < field bs 28 4
  · by_cases he : planeField bs p plane < field bs 5 1 / 16
    · rw [if_pos hk, if_pos he, if_pos ⟨hk, he⟩]
      rfl
    · rw [if_pos hk, if_neg he, if_neg fun h => he h.2]
      rfl
  · rw [if_neg hk, if_neg (not_and_of_not_left _ hk)]

theorem gatherElems_eq (bs : List Byte) (ks ps : List Word) : gatherElems bs ks ps =
    (List.range ks.length).flatMap fun i => (rowPieces bs (ps.getD i 0).toNat).map (gatherElem bs (ks.getD i 0) i) := by
  unfold gatherElems
  dsimp only
  rw [(ctlFields bs).gswz]
  simp only [beq_iff_eq]
  rfl

section
variable {bs : List Byte} {L : Nat} (hL : ∀ p, (rowPieces bs p).length = L)
include hL

theorem length_gatherElems (ks ps : List Word) : (gatherElems bs ks ps).length = ks.length * L := by
  rw [gatherElems_eq]
  exact length_flatMap_range fun _ _ => by rw [List.length_map, hL]

theorem getElem?_gatherElems {ks : List Word} (ps : List Word) {i m : Nat} {k : Word} {q : Option Nat × Nat × Nat} (hk : ks[i]? = some k)
    (hq : (rowPieces bs (ps.getD i 0).toNat)[m]? = some q) : (gatherElems bs ks ps)[i * L + m]? = some (gatherElem bs k i q) := by
  obtain ⟨hi, -⟩ := List.getElem?_eq_some_iff.mp hk
  obtain ⟨hm, -⟩ := List.getElem?_eq_some_iff.mp hq
  rw [hL] at hm
  rw [gatherElems_eq, getElem?_flatMap_range (fun _ _ => by rw [List.length_map, hL]) hi hm, List.getElem?_map, hq,
    List.getD_eq_getElem?_getD, hk]
  rfl

end

/-- R262 to R264: the work of a gather. -/
theorem gatherWork_spec (s : State) (c : Nat) (cmd : Cmd) (bs : List Byte) (ks ps : List Word) (hkind : cmd.kind = .gather bs ks ps) :
    s.cmdWork c cmd = (.ok (gatherWork bs ks ps), s) ∧ (gatherWork bs ks ps).ssp = field bs 6 1 / 16 ∧
      (gatherWork bs ks ps).dsp = field bs 6 1 % 16 := by
  refine ⟨?_, (ctlFields bs).ssp, (ctlFields bs).dsp⟩
  unfold State.cmdWork
  rw [hkind]

theorem gather_whole (bs : List Byte) (ks ps : List Word) (h : field bs 5 1 / 16 = 0) :
    (gatherElems bs ks ps).length = ks.length * (field bs 24 4 / 32) ∧ ∀ i k m, ks[i]? = some k → m < field bs 24 4 / 32 →
      (gatherElems bs ks ps)[i * (field bs 24 4 / 32) + m]? = some (gatherElem bs k i (some (32 * m), 32 * m, 32)) := by
  have hL : ∀ p, (rowPieces bs p).length = field bs 24 4 / 32 := fun p => by rw [rowPieces_whole h, List.length_map, List.length_range]
  refine ⟨length_gatherElems hL ks ps, fun i k m hk hm => getElem?_gatherElems hL ps hk ?_⟩
  rw [rowPieces_whole h, List.getElem?_map, List.getElem?_range hm]
  rfl

theorem gather_planes (bs : List Byte) (ks ps : List Word) (h : field bs 5 1 / 16 ≠ 0) :
    (gatherElems bs ks ps).length = ks.length * (field bs 5 1 / 16 * (field bs 24 4 / (field bs 5 1 / 16 * 2 ^ (field bs 5 1 / 4 % 4)))) ∧
    ∀ i k p r, ks[i]? = some k → p < field bs 5 1 / 16 → r < field bs 24 4 / (field bs 5 1 / 16 * 2 ^ (field bs 5 1 / 4 % 4)) →
      (gatherElems bs ks ps)[i * (field bs 5 1 / 16 * (field bs 24 4 / (field bs 5 1 / 16 * 2 ^ (field bs 5 1 / 4 % 4)))) +
          p * (field bs 24 4 / (field bs 5 1 / 16 * 2 ^ (field bs 5 1 / 4 % 4))) + r]? =
        some (gatherElem bs k i (planePiece bs (ps.getD i 0).toNat p r)) := by
  have hL := length_rowPieces_planes h
  refine ⟨length_gatherElems hL ks ps, fun i k p r hk hp hr => ?_⟩
  rw [Nat.add_assoc]
  exact getElem?_gatherElems hL ps hk (getElem?_rowPieces_planes h _ hp hr)

/-! ## The blocks of a qpush -/

/-- The work of a qpush whose own block `bs` is right: its nest block is read and checked (R258). -/
def State.nestWork (s : State) (c : Nat) (cmd : Cmd) (va : Word) (bs : List Byte) : Except Refused Work × State :=
  match s.engineBlock c cmd (blockNest bs) with
  | (.error f, s) => (.error f, s)
  | (.ok ns, s) =>
    match parseNest ns with
    | none => (.error (.cause 0x02 (blockNest bs)), s)
    | some n =>
      match joinBlocks bs n with
      | none => (.error (.cause 0x02 va), s)
      | some c => (.ok c.work, s)

section
variable {s s1 s2 : State} {c : Nat} {cmd : Cmd} {va : Word} (hkind : cmd.kind = .push va)
include hkind

theorem cmdWork_push_misaligned (h : va.toNat % 64 ≠ 0) : s.cmdWork c cmd = (.error (.cause 0x04 va), s) := by
  have hblock : s.engineBlock c cmd va = (.error (.cause 0x04 va), s) := if_pos h
  unfold State.cmdWork
  rw [hkind]
  dsimp only
  rw [hblock]

variable {bs : List Byte} (hal : va.toNat % 64 = 0) (hbs : s.readBlock c 0 cmd.asid cmd.priv 2 va 64 = (.ok bs, s1))
include hal hbs

theorem cmdWork_push_block_refused (h : ¬ CopyBlockRight bs) : s.cmdWork c cmd = (.error (.cause 0x02 va), s1) := by
  have hblock : s.engineBlock c cmd va = (.ok bs, s1) := (if_neg (not_not.mpr hal)).trans hbs
  unfold State.cmdWork
  rw [hkind]
  dsimp only
  rw [hblock]
  exact if_pos (by rw [Bool.not_eq_true', ← Bool.not_eq_true, copyBlockOk_iff]; exact h)

/-- A command whose own block is right goes on to its nest block (R258). -/
theorem cmdWork_push_block_read (h : CopyBlockRight bs) : s.cmdWork c cmd = s1.nestWork c cmd va bs := by
  have hblock : s.engineBlock c cmd va = (.ok bs, s1) := (if_neg (not_not.mpr hal)).trans hbs
  unfold State.cmdWork
  rw [hkind]
  dsimp only
  rw [hblock]
  dsimp only
  rw [if_neg (by rw [(copyBlockOk_iff bs).mpr h]; decide)]
  unfold State.nestWork
  obtain ⟨f | ns, t⟩ := s1.engineBlock c cmd (blockNest bs)
  · rfl
  · cases hn : parseNest ns with
    | none => simp only [hn]
    | some n =>
      cases hj : joinBlocks bs n with
      | none => simp only [hn, hj]
      | some d => simp only [hn, hj]

end

section
variable {s s2 : State} {c : Nat} {cmd : Cmd} {va : Word} {bs : List Byte}

theorem nestWork_misaligned (h : (blockNest bs).toNat % 64 ≠ 0) : s.nestWork c cmd va bs = (.error (.cause 0x04 (blockNest bs)), s) := by
  have hblock : s.engineBlock c cmd (blockNest bs) = (.error (.cause 0x04 (blockNest bs)), s) := if_pos h
  unfold State.nestWork
  rw [hblock]

variable {ns : List Byte} (hal : (blockNest bs).toNat % 64 = 0) (hns : s.readBlock c 0 cmd.asid cmd.priv 2 (blockNest bs) 64 = (.ok ns, s2))
include hal hns

theorem nestWork_refused (h : parseNest ns = none) : s.nestWork c cmd va bs = (.error (.cause 0x02 (blockNest bs)), s2) := by
  have hblock : s.engineBlock c cmd (blockNest bs) = (.ok ns, s2) := (if_neg (not_not.mpr hal)).trans hns
  unfold State.nestWork
  rw [hblock]
  dsimp only
  rw [h]

theorem nestWork_unjoined {n : NestBlock} (h : parseNest ns = some n) (hj : ¬ CopyJoins bs n) :
    s.nestWork c cmd va bs = (.error (.cause 0x02 va), s2) := by
  classical
  have hblock : s.engineBlock c cmd (blockNest bs) = (.ok ns, s2) := (if_neg (not_not.mpr hal)).trans hns
  unfold State.nestWork
  rw [hblock]
  dsimp only
  rw [h]
  dsimp only
  rw [joinBlocks_eq, if_neg hj]

theorem nestWork_joined {n : NestBlock} (h : parseNest ns = some n) (hj : CopyJoins bs n) :
    s.nestWork c cmd va bs = (.ok (copyOf bs n).work, s2) := by
  classical
  have hblock : s.engineBlock c cmd (blockNest bs) = (.ok ns, s2) := (if_neg (not_not.mpr hal)).trans hns
  unfold State.nestWork
  rw [hblock]
  dsimp only
  rw [h]
  dsimp only
  rw [joinBlocks_eq, if_pos hj]

end

/-- The work of a captured copy (R258). -/
theorem cmdWork_copy {s : State} {c : Nat} {cmd : Cmd} {bs ns : List Byte} {n : NestBlock} (hkind : cmd.kind = .copy bs ns)
    (h : parseNest ns = some n) (hj : CopyJoins bs n) : s.cmdWork c cmd = (.ok (copyOf bs n).work, s) := by
  classical
  have hjoin : (parseNest ns).bind (joinBlocks bs) = some (copyOf bs n) := by
    rw [h, Option.bind_some, joinBlocks_eq, if_pos hj]
  unfold State.cmdWork
  rw [hkind]
  dsimp only
  rw [hjoin]

/-! ## Where an element lies -/

section
variable {s : State} {core : Nat} {asid : BitVec 13} {priv : Priv} {k : AccKind} {n : Nat} {va : Word}

theorem engineLoc_misaligned (sp : Nat) (h : va.toNat % Nat.min n 8 ≠ 0) : (s.engineLoc core asid priv sp k n va).1 = .error (.cause 0x04 va) := by
  unfold State.engineLoc
  dsimp only
  rw [if_pos h]

variable (hal : va.toNat % Nat.min n 8 = 0)
include hal

theorem engineLoc_global : s.engineLoc core asid priv 0 k n va = s.translate asid priv k va := by
  unfold State.engineLoc
  exact if_neg (not_not.mpr hal)

theorem engineLoc_polder {p : Nat} (h1 : va.toNat < 2 ^ 30) (h2 : va.toNat % 2 ^ 21 < Config.polderBytes)
    (hp : s.dev.physCore (s.jobOf asid) (va.toNat / 2 ^ 21 % 2 ^ 9) = some p) :
    s.engineLoc core asid priv 1 k n va = (.ok ⟨polderKey p (va.toNat % 2 ^ 21), false, false, false⟩, s) := by
  have hp' : s.dev.physCore (s.jobOf asid) (va.toNat / 2 ^ 21 % 512) = some p := hp
  unfold State.engineLoc
  dsimp only
  rw [if_neg (not_not.mpr hal), hp']
  exact if_pos ⟨h1, h2⟩

theorem engineLoc_polder_refused (h : 2 ^ 30 ≤ va.toNat ∨ Config.polderBytes ≤ va.toNat % 2 ^ 21 ∨
    s.dev.physCore (s.jobOf asid) (va.toNat / 2 ^ 21 % 2 ^ 9) = none) :
    s.engineLoc core asid priv 1 k n va = (.error (.cause 0x08 va), s) := by
  unfold State.engineLoc
  dsimp only
  rw [if_neg (not_not.mpr hal)]
  cases hp : s.dev.physCore (s.jobOf asid) (va.toNat / 2 ^ 21 % 512) with
  | none => rfl
  | some p =>
    refine if_neg fun hin => ?_
    rcases h with h | h | h
    · omega
    · exact absurd hin.2 (Nat.not_lt.mpr h)
    · exact absurd (hp.symm.trans h) (by simp)

theorem engineLoc_wbuf (h : va.toNat < Config.wbufBytes) :
    s.engineLoc core asid priv 3 k n va = (.ok ⟨wbufKey core va.toNat, false, false, false⟩, s) := by
  unfold State.engineLoc
  exact (if_neg (not_not.mpr hal)).trans (if_pos h)

theorem engineLoc_wbuf_refused (h : Config.wbufBytes ≤ va.toNat) : s.engineLoc core asid priv 3 k n va = (.error (.cause 0x08 va), s) := by
  unfold State.engineLoc
  exact (if_neg (not_not.mpr hal)).trans (if_neg (Nat.not_lt.mpr h))

end

/-! ## The bytes moved -/

theorem writesAt_map_range (f : Nat → Byte) (n : Nat) : ∀ key, writesAt key ((List.range n).map f) = (List.range n).map fun i => (key + i, f i) := by
  induction n generalizing f with
  | zero => exact fun _ => rfl
  | succ n ih =>
    intro key
    rw [List.range_succ_eq_map, List.map_cons, List.map_cons, List.map_map, List.map_map, writesAt]
    refine congrArg _ ((ih (f ∘ Nat.succ) (key + 1)).trans (List.map_congr_left fun i _ => ?_))
    rw [Function.comp_apply, Function.comp_apply, Nat.succ_eq_add_one, Nat.add_assoc, Nat.add_comm 1]

/-- The byte that an element moves at an offset: that of its source, or zero. -/
theorem moveBytes_eq (s : State) (ks : List (Option Nat × Nat × Nat)) : s.moveBytes ks =
    ks.flatMap fun q => (List.range q.2.2).map fun j => (q.2.1 + j, q.1.elim 0 fun a => s.byteAt (a + j)) := by
  unfold State.moveBytes
  refine congrArg (ks.flatMap ·) (funext fun q => ?_)
  cases hq : q.1 with
  | some a => exact writesAt_map_range (fun j => s.byteAt (a + j)) q.2.2 q.2.1
  | none =>
    have hzero : List.replicate q.2.2 (0 : Byte) = (List.range q.2.2).map fun _ => 0 := by simp
    dsimp only [Option.elim]
    rw [hzero]
    exact writesAt_map_range (fun _ => 0) q.2.2 q.2.1

/-- R212, R252, R255 to R264: the elements that a command moves. -/
theorem engineElements : EngineElements := by
  refine ⟨fun s c cmd bs ns n hkind hn hj => ⟨_, cmdWork_copy hkind hn hj, copyOf_work bs (parseNest_valid hn)⟩,
    fun s s1 s2 c cmd va hkind => ⟨cmdWork_push_misaligned hkind, fun bs hal hbs => ⟨cmdWork_push_block_refused hkind hal hbs, fun hright => ?_⟩⟩,
    fun s c cmd bs ks ps hkind _ => ?_,
    fun s core asid priv k n va => ⟨fun sp h => engineLoc_misaligned sp h, fun hal => ⟨engineLoc_global hal, fun p h1 h2 hp => ?_,
      engineLoc_polder_refused hal, fun h => ?_, engineLoc_wbuf_refused hal⟩⟩,
    fun s ks => ?_⟩
  · intro nva
    rw [cmdWork_push_block_read hkind hal hbs hright]
    exact ⟨nestWork_misaligned, fun ns hal' hns => ⟨nestWork_refused hal' hns, fun n hn =>
      ⟨nestWork_unjoined hal' hns hn, fun hj => ⟨_, nestWork_joined hal' hns hn hj, copyOf_work bs (parseNest_valid hn)⟩⟩⟩⟩
  · obtain ⟨hw, hssp, hdsp⟩ := gatherWork_spec s c cmd bs ks ps hkind
    refine ⟨_, hw, hssp, hdsp, rfl, rfl, gather_whole bs ks ps, fun h => ?_⟩
    obtain ⟨hlen, hat⟩ := gather_planes bs ks ps h
    exact ⟨hlen, fun i k p r hk hp hr => (hat i k p r hk hp hr).trans (congrArg some (gatherElem_planePiece bs k i _ p r))⟩
  · exact ⟨_, engineLoc_polder hal h1 h2 hp, rfl⟩
  · exact ⟨_, engineLoc_wbuf hal h, rfl⟩
  · rw [moveBytes_eq]
    refine congrArg (ks.flatMap ·) (funext fun q => List.map_congr_left fun j _ => ?_)
    cases q.1 <;> rfl

end Sys2Proof.Machine

/-! The copy engine's events (R252, R257, R259, R260, R262 to R264, R266): a command starts, its chunks land, and it retires. -/

namespace Sys2Proof.Machine
open Sys2Proof.Claims

/-! ## What the engine's reads leave unchanged -/

theorem State.force_storesOnly {s t : State} {lvl : Nat} {need : Pend → Bool} (h : s.force lvl need = some t) : StoresOnly s t := by
  unfold State.force at h
  split at h
  · cases h
    exact .refl s
  · dsimp only at h
    split at h
    · cases h
    · cases h
      exact (s.withStores_storesOnly _).trans (State.performAll_storesOnly _ _)

theorem State.storesBefore_storesOnly {s t : State} {c : Nat} {cmd : Cmd} (h : s.storesBefore c cmd = some t) : StoresOnly s t := by
  unfold State.storesBefore at h
  split at h
  · obtain ⟨u, hu, rfl⟩ := Option.map_eq_some_iff.mp h
    exact (s.turnTo_storesOnly c).trans ((State.force_storesOnly hu).trans (State.turnTo_storesOnly _ _))
  · cases h
    exact .refl s

theorem State.noteRefused_storesOnly (s : State) (c key : Nat) (p : Spot) : StoresOnly s (s.noteRefused c key p) := by
  unfold State.noteRefused
  split
  · exact s.report_storesOnly c 4 p
  · exact .refl s

theorem State.readBlock_storesOnly (c : Nat) (pc : Word) (asid : BitVec 13) (priv : Priv) : ∀ (f : Nat) (s : State) (va : Word) (n : Nat),
    StoresOnly s (s.readBlock c pc asid priv f va n).2 := by
  intro f
  induction f with
  | zero => exact fun s va n => .refl s
  | succ f ih =>
    intro s va n
    unfold State.readBlock
    split
    · exact .refl s
    · dsimp only
      split
      · next h => exact State.translate_storesOnly h
      · next l t h =>
        split
        · exact State.translate_storesOnly h
        · have hrest := (State.translate_storesOnly h).trans ((t.noteRefused_storesOnly c l.key ⟨0, va, pc⟩).trans
            (ih _ (va + BitVec.ofNat 64 (Nat.min n (65536 - va.toNat % 65536))) (n - Nat.min n (65536 - va.toNat % 65536))))
          split
          · next e => rw [e] at hrest; exact hrest
          · next e => rw [e] at hrest; exact hrest

theorem State.engineBlock_storesOnly {s t : State} {c : Nat} {cmd : Cmd} {va : Word} {r : Except Refused (List Byte)}
    (h : s.engineBlock c cmd va = (r, t)) : StoresOnly s t := by
  unfold State.engineBlock at h
  split at h
  · cases h
    exact .refl s
  · have hr := State.readBlock_storesOnly c 0 cmd.asid cmd.priv 2 s va 64
    rwa [h] at hr

theorem State.cmdWork_storesOnly (s : State) (c : Nat) (cmd : Cmd) : StoresOnly s (s.cmdWork c cmd).2 := by
  unfold State.cmdWork
  split
  · split <;> exact .refl s
  · exact .refl s
  · split
    · next h => exact State.engineBlock_storesOnly h
    · next h =>
      have hb := State.engineBlock_storesOnly h
      split
      · exact hb
      · split
        · next h' => exact hb.trans (State.engineBlock_storesOnly h')
        · next h' =>
          have hn := hb.trans (State.engineBlock_storesOnly h')
          split
          · exact hn
          · split <;> exact hn

theorem State.engineLoc_storesOnly {s t : State} {core : Nat} {asid : BitVec 13} {priv : Priv} {sp : Nat} {k : AccKind} {n : Nat} {va : Word}
    {r : Except Refused Loc} (h : s.engineLoc core asid priv sp k n va = (r, t)) : StoresOnly s t := by
  unfold State.engineLoc at h
  dsimp only at h
  split at h
  · cases h
    exact .refl s
  · split at h
    · exact State.translate_storesOnly h
    · split at h
      · split at h <;> cases h <;> exact .refl s
      · cases h
        exact .refl s
    · split at h <;> cases h <;> exact .refl s
    · split at h <;> cases h <;> exact .refl s

/-- The check of an element's source (R257, R259). -/
def State.checkSource (s : State) (core : Nat) (asid : BitVec 13) (priv : Priv) (w : Work) (e : Elem) : Except Refused (Option Nat) × State :=
  match e.src with
  | none => (.ok none, s)
  | some a =>
    match s.engineLoc core asid priv w.ssp .load e.n a with
    | (.ok l, s) =>
      if s.isBad l.key e.n then (.error (.ecc w.ssp (a + BitVec.ofNat 64 (s.badAt l.key e.n))), s) else (.ok (some l.key), s)
    | (.error f, s) => (.error f, s)

theorem State.checkSource_storesOnly {s t : State} {core : Nat} {asid : BitVec 13} {priv : Priv} {w : Work} {e : Elem}
    {r : Except Refused (Option Nat)} (h : s.checkSource core asid priv w e = (r, t)) : StoresOnly s t := by
  unfold State.checkSource at h
  split at h
  · cases h
    exact .refl s
  · split at h
    · next hl => split at h <;> cases h <;> exact State.engineLoc_storesOnly hl
    · next hl =>
      cases h
      exact State.engineLoc_storesOnly hl

/-- The checks of a command's elements perform no store, and answer with as many keys as there are elements. -/
theorem State.checkElems_spec (core : Nat) (asid : BitVec 13) (priv : Priv) (w : Work) : ∀ (es : List Elem) (s : State),
    StoresOnly s (s.checkElems core asid priv w es).2 ∧
      ∀ ks, (s.checkElems core asid priv w es).1 = .ok ks → ks.length = es.length := by
  intro es
  induction es with
  | nil =>
    intro s
    refine ⟨.refl s, fun ks h => ?_⟩
    cases h
    rfl
  | cons e es ih =>
    intro s
    unfold State.checkElems
    dsimp only
    split
    · next h => exact ⟨State.checkSource_storesOnly (e := e) h, nofun⟩
    · next h =>
      have hsrc := State.checkSource_storesOnly (e := e) h
      split
      · next hl => exact ⟨hsrc.trans (State.engineLoc_storesOnly hl), nofun⟩
      · next hl =>
        have hdst := hsrc.trans (State.engineLoc_storesOnly hl)
        split
        · exact ⟨hdst, nofun⟩
        · next u _ =>
          obtain ⟨hrest, hlen⟩ := ih u
          split
          · next hk =>
            rw [hk] at hrest hlen
            refine ⟨hdst.trans hrest, fun ks h => ?_⟩
            cases h
            exact congrArg (· + 1) (hlen _ rfl)
          · next hk =>
            rw [hk] at hrest
            exact ⟨hdst.trans hrest, nofun⟩

/-- The channels of every context stay as they are. -/
theorem StoresOnly.ch {s t : State} (h : StoresOnly s t) (c : Nat) : (t.ctxOf c).ch = (s.ctxOf c).ch := by rw [h.ctx c]

/-! ## A command starts -/

/-- The requests of a gather that name no row, by their work (R262, R264). -/
theorem zeroSlots_gather (bs : List Byte) (ks ps : List Word) (ds : List (Nat × Nat × Word)) :
    ((CmdKind.gather bs ks ps).zeroSlots ds).length = gatherOob bs ks ∧
      ∀ z ∈ (CmdKind.gather bs ks ps).zeroSlots ds, ∃ i row, ks[i]? = some row ∧ field bs 28 4 ≤ row.toNat ∧
        z = (ds.drop (i * (ds.length / ks.length))).take (ds.length / ks.length) := by
  unfold CmdKind.zeroSlots
  dsimp only
  constructor
  · have hmap : ks = (List.range ks.length).map fun i => ks.getD i 0 := List.ext_getElem (by simp) fun i h1 h2 => by simp [h1]
    rw [List.length_filterMap_eq_countP, gatherOob, ← List.countP_eq_length_filter]
    conv_rhs => rw [hmap, List.countP_map]
    refine List.countP_congr fun i _ => ?_
    simp
  · intro z hz
    obtain ⟨i, hi, hsome⟩ := List.mem_filterMap.mp hz
    split at hsome
    · next hle =>
      cases hsome
      have hi' := List.mem_range.mp hi
      refine ⟨i, ks[i], List.getElem?_eq_getElem hi', ?_, rfl⟩
      rwa [List.getD_eq_getElem?_getD, List.getElem?_eq_getElem hi', Option.getD_some] at hle
    · cases hsome

/-- A command has as many slots of zeros as its work counts rows out of bounds. -/
theorem zeroSlots_length {s t : State} {c : Nat} {cmd : Cmd} {w : Work} (h : s.cmdWork c cmd = (.ok w, t)) (ds : List (Nat × Nat × Word)) :
    (cmd.kind.zeroSlots ds).length = w.oob := by
  unfold State.cmdWork at h
  split at h
  · next hk =>
    rw [hk]
    split at h <;> cases h <;> rfl
  · next bs ks ps hk =>
    cases h
    rw [hk]
    exact (zeroSlots_gather bs ks ps ds).1
  · next hk =>
    rw [hk]
    split at h
    · cases h
    · split at h
      · cases h
      · split at h
        · cases h
        · split at h
          · cases h
          · split at h
            · cases h
            · cases h
              rfl

theorem length_destsOf {w : Work} {ks : List (Option Nat × Nat × Nat)} (h : ks.length = w.elems.length) :
    (destsOf w ks).length = w.elems.length := by
  rw [destsOf, List.length_map, List.length_zip, h, Nat.min_self]

section
variable {s s0 s1 s2 : State} {c : Nat} {k : BitVec 3} {cmd : Cmd} {r : List Cmd} (hcmds : (s.ctxOf c).ch[k.toNat].cmds = cmd :: r)
  (hhalt : (s.ctxOf c).ch[k.toNat].halted = false) (hidle : (s.ctxOf c).ch[k.toNat].started = none)
include hcmds hhalt hidle

theorem startCmd_waits (h : s.storesBefore c cmd = none) : s.startCmd c k = s := by
  unfold State.startCmd
  dsimp only
  rw [hcmds]
  dsimp only
  rw [if_neg (by simp [hhalt, hidle]), h]

variable (h0 : s.storesBefore c cmd = some s0)
include h0

theorem startCmd_blocked {f : Refused} (h1 : s0.cmdWork c cmd = (.error f, s1)) : s.startCmd c k = s1.haltChan c k f := by
  unfold State.startCmd
  dsimp only
  rw [hcmds]
  dsimp only
  rw [if_neg (by simp [hhalt, hidle]), h0]
  dsimp only
  rw [h1]

variable {w : Work} (h1 : s0.cmdWork c cmd = (.ok w, s1))
include h1

theorem startCmd_refused {f : Refused} (h2 : s1.checkElems (coreOf c) cmd.asid cmd.priv w w.elems = (.error f, s2)) :
    s.startCmd c k = s2.haltChan c k f := by
  unfold State.startCmd
  dsimp only
  rw [hcmds]
  dsimp only
  rw [if_neg (by simp [hhalt, hidle]), h0]
  dsimp only
  rw [h1]
  dsimp only
  rw [h2]

variable {ks : List (Option Nat × Nat × Nat)} (h2 : s1.checkElems (coreOf c) cmd.asid cmd.priv w w.elems = (.ok ks, s2))
include h2

theorem startCmd_begins : s.startCmd c k = s2.beginCmd c k cmd r w ks := by
  unfold State.startCmd
  dsimp only
  rw [hcmds]
  dsimp only
  rw [if_neg (by simp [hhalt, hidle]), h0]
  dsimp only
  rw [h1]
  dsimp only
  rw [h2]

omit hcmds hhalt hidle in
/-- The channel is as it was once everything is checked. -/
theorem ch_checked : (s2.ctxOf c).ch = (s.ctxOf c).ch := by
  have hw := s0.cmdWork_storesOnly c cmd
  rw [h1] at hw
  have hk := (State.checkElems_spec (coreOf c) cmd.asid cmd.priv w w.elems s1).1
  rw [h2] at hk
  exact ((State.storesBefore_storesOnly h0).trans (hw.trans hk)).ch c

theorem startCmd_started (hne : w.elems ≠ []) (hsrc : ∀ q ∈ ks, ∀ a, q.1 = some a → s2.refuses a = false) :
    s.startCmd c k = s2.setChan c k { (s.ctxOf c).ch[k.toNat] with
      cmds := r, started := some ⟨cmd, s2.jobOf cmd.asid, s2.moveBytes ks, destsOf w ks, w.so, cmd.kind.zeroSlots (destsOf w ks)⟩ } := by
  rw [startCmd_begins hcmds hhalt hidle h0 h1 h2]
  unfold State.beginCmd
  dsimp only
  rw [if_neg (by simpa using hne), State.noteSources_of_none_refused c w.ssp w hsrc, ch_checked h0 h1 h2]

theorem startCmd_empty (hnil : w.elems = []) :
    s.startCmd c k = s2.setChan c k { (s.ctxOf c).ch[k.toNat] with cmds := r, done := ((s.ctxOf c).ch[k.toNat].done + 1) % 2 ^ 32 } := by
  rw [startCmd_begins hcmds hhalt hidle h0 h1 h2]
  unfold State.beginCmd
  dsimp only
  rw [if_pos (by rw [hnil]; rfl), ch_checked h0 h1 h2]

end

/-! ## A command's writes are performed -/

theorem takes_of_dev {s t : State} {ws : List (Nat × Byte)} (hd : t.dev = s.dev) (h : Takes s ws) : Takes t ws := by
  obtain ⟨h1, h2, h3, h4⟩ := h
  refine ⟨hd ▸ h1, hd ▸ h2, hd ▸ h3, fun w hw => ?_⟩
  have := h4 w hw
  unfold State.refuses at *
  rwa [hd]

/-- The writes of a channel's command performed after a change of the channel. -/
theorem setChan_perform {s : State} {ws : List (Nat × Byte)} (h : Takes s ws) (c : Nat) (k : BitVec 3) (ch : Chan) (spot : Nat → Spot) :
    (s.setChan c k ch).perform c spot [] ws = { s.setChan c k ch with mem := s.mem.setAll ws } := by
  have hdev : (s.setChan c k ch).dev = s.dev := State.setCtx_dev ..
  rw [State.perform_takes (takes_of_dev hdev h), State.setChan_mem]

theorem State.settleOf_of_none {s : State} {e : Nat} (h : (s.ctxOf e).stores = []) : s.settleOf e = s := by
  unfold State.settleOf
  rw [h]
  rfl

theorem State.settleCore_of_none {s : State} {c : Nat} (h0 : (s.ctxOf (c / 2 * 2)).stores = []) (h1 : (s.ctxOf (c / 2 * 2 + 1)).stores = []) :
    s.settleCore c = s := by
  unfold State.settleCore
  rw [State.settleOf_of_none h0, State.settleOf_of_none h1]

/-- A change of a channel keeps the stores of every context. -/
theorem setChan_stores (s : State) (c e : Nat) (k : BitVec 3) (ch : Chan) (m : Memory) :
    (({ s.setChan c k ch with mem := m } : State).ctxOf e).stores = (s.ctxOf e).stores := by
  show ((s.setChan c k ch).ctxOf e).stores = _
  rw [State.setChan, State.ctxOf_setCtx]
  split
  · next h => rw [h]; rfl
  · rfl

theorem retireCmd_eq {s : State} {c : Nat} {k : BitVec 3} {st : Started} (hst : (s.ctxOf c).ch[k.toNat].started = some st)
    (ht : Takes s st.writes)
    (hb : st.cmd.board = none ∨ ((s.ctxOf (c / 2 * 2)).stores = [] ∧ (s.ctxOf (c / 2 * 2 + 1)).stores = [])) :
    s.retireCmd c k = { s.setChan c k { (s.ctxOf c).ch[k.toNat] with
        started := none
        done := ((s.ctxOf c).ch[k.toNat].done + 1) % 2 ^ 32
        oob := Nat.min 0xFFFF ((s.ctxOf c).ch[k.toNat].oob + st.zeros.length) } with mem := s.mem.setAll st.writes } := by
  unfold State.retireCmd
  dsimp only
  rw [hst]
  dsimp only
  rw [setChan_perform ht]
  rcases hb with hb | ⟨h0, h1⟩
  · rw [hb]
    rfl
  · split
    · exact State.settleCore_of_none (by rw [setChan_stores, h0]) (by rw [setChan_stores, h1])
    · rfl

/-! ## A chunk lands -/

theorem Started.filled_iff (st : Started) (z : List (Nat × Nat × Word)) :
    st.filled z = true ↔ ∀ x ∈ st.writes, ∀ d ∈ z, x.1 < d.1 ∨ d.1 + d.2.1 ≤ x.1 := by
  have hin : ∀ (d : Nat × Nat × Word) (key : Nat), inDest d key = false ↔ key < d.1 ∨ d.1 + d.2.1 ≤ key := by
    intro d key
    unfold inDest
    rw [Bool.and_eq_false_iff, decide_eq_false_iff_not, decide_eq_false_iff_not, not_le, not_lt]
  unfold Started.filled
  rw [Bool.not_eq_true', List.any_eq_false]
  refine forall₂_congr fun x _ => ?_
  rw [Bool.not_eq_true, List.any_eq_false]
  exact forall₂_congr fun d _ => by rw [Bool.not_eq_true, hin]

theorem landChunk_eq {s : State} {c : Nat} {k : BitVec 3} {st : Started} {i : Nat} {w : Nat × Byte}
    (hst : (s.ctxOf c).ch[k.toNat].started = some st) (hso : st.so = false) (hw : st.writes[i]? = some w)
    (ht : Takes s (st.writes.filter fun x => decide (x.1 / 32 = w.1 / 32))) :
    s.landChunk c k i = { s.setChan c k ((s.ctxOf c).ch[k.toNat].serve
        { st with writes := st.writes.filter fun x => decide (x.1 / 32 ≠ w.1 / 32) }) with
      mem := s.mem.setAll (st.writes.filter fun x => decide (x.1 / 32 = w.1 / 32)) } := by
  have hland : ∀ key, st.landing i key = decide (key / 32 = w.1 / 32) := by
    intro key
    unfold Started.landing
    rw [hso, if_neg (by decide), hw]
    rfl
  unfold State.landChunk
  dsimp only
  rw [hst]
  dsimp only
  simp only [hland]
  rw [setChan_perform ht]
  simp only [decide_not]

theorem State.moveOf_land {s : State} {c n i : Nat} (hc : c < numContexts) (h6 : s.dev.win.state ≠ 6) (h4 : s.dev.win.level ≠ 4) :
    s.moveOf (.land c n i) = .next (s.landChunk c (BitVec.ofNat 3 n) i) := by
  have hgo : ((s.tripped && !(Move.land c n i).outlives) || (s.dev.win.level == 4 && !(Move.land c n i).whileOff)) = false := by
    simp [State.tripped, h6, h4]
  unfold State.moveOf
  rw [if_neg (by rw [hgo]; decide)]
  exact congrArg Host.Outcome.next (if_pos hc)

/-- The copy engine's events. -/
theorem engineEvents : EngineEvents := by
  intro s s0 s1 s2 c n k h hc hk hh
  subst hk hh
  have hstart : exec (.copyCommandStart c n) s = .next (s.startCmd c (BitVec.ofNat 3 n)) := congrArg Host.Outcome.next (if_pos hc)
  have hretire : exec (.copyCommandRetire c n) s = .next (s.retireCmd c (BitVec.ofNat 3 n)) := congrArg Host.Outcome.next (if_pos hc)
  rw [hstart, hretire]
  refine ⟨fun cmd r hcmds hhalt hidle => ⟨fun h => ?_, fun w ks h0 h1 h2 => ⟨fun hne hsrc => ?_, fun hnil => ?_⟩, fun e va h0 h1 => ?_,
    fun w e va h0 h1 h2 => ?_⟩, fun st hst ht hb => ⟨_, rfl, retireCmd_eq hst ht hb⟩, ?_⟩
  · rw [startCmd_waits hcmds hhalt hidle h]
  · have hks := (State.checkElems_spec (coreOf c) cmd.asid cmd.priv w w.elems s1).2 ks (by rw [h2])
    refine ⟨cmd.kind.zeroSlots (destsOf w ks), zeroSlots_length h1 _, fun bs rows ps hkind z hz => ?_,
      congrArg Host.Outcome.next (startCmd_started hcmds hhalt hidle h0 h1 h2 hne hsrc)⟩
    rw [hkind] at hz
    obtain ⟨i, row, hrow, hle, hz⟩ := (zeroSlots_gather bs rows ps (destsOf w ks)).2 z hz
    rw [length_destsOf hks] at hz
    exact ⟨i, row, hrow, hle, hz⟩
  · exact congrArg Host.Outcome.next (startCmd_empty hcmds hhalt hidle h0 h1 h2 hnil)
  · exact congrArg Host.Outcome.next (startCmd_blocked hcmds hhalt hidle h0 h1)
  · exact congrArg Host.Outcome.next (startCmd_refused hcmds hhalt hidle h0 h1 h2)
  · intro u mv st i w here left hmoves hs h6 h4 hst hso hw hhere hleft ht
    subst hhere hleft
    have hstep : step u = s.moveOf (.land c n i) := by
      unfold step State.act
      rw [State.tick_moves, hmoves, hs]
    rw [hstep, State.moveOf_land hc h6 h4, landChunk_eq hst hso hw ht]
    have hfilled := Started.filled_iff { st with writes := st.writes.filter fun x => decide (x.1 / 32 ≠ w.1 / 32) }
    generalize hst' : ({ st with writes := st.writes.filter fun x => decide (x.1 / 32 ≠ w.1 / 32) } : Started) = left at hfilled
    have hzeros : left.zeros = st.zeros := by rw [← hst']
    refine ⟨left.zeros.filter left.filled, left.zeros.filter fun z => !left.filled z, ?_, fun z => ?_, fun z hz x hx d hd => ?_, fun z hz => ?_, ?_⟩
    · rw [← hzeros]
      exact (List.length_eq_length_filter_add _).symm
    · rw [← hzeros, List.mem_filter, List.mem_filter]
      cases left.filled z <;> simp
    · rw [← hst'] at hfilled hz
      exact (hfilled z).mp (List.mem_filter.mp hz).2 x hx d hd
    · have hnot := (List.mem_filter.mp hz).2
      rw [Bool.not_eq_true', ← Bool.not_eq_true, hfilled, ← hst'] at hnot
      push Not at hnot
      exact hnot
    · rw [← hst']
      rfl

end Sys2Proof.Machine

/-! Increments of completion counters (R30, R330, R384), the release of journal entries (R331), and arrivals at clasps (R320, R323, R324). -/

namespace Sys2Proof.Machine
open Sys2Proof.Claims

/-! ## What an increment leaves unchanged -/

/-- `t` is `s` but for counters, what a counter that becomes done changes of the device, and memory; no launch appears. -/
structure CountsOnly (s t : State) : Prop where
  ctx : t.ctx = s.ctx
  others : t.others = s.others
  incs : t.dev.incs = s.dev.incs
  launches : ∀ l ∈ t.dev.launches, l ∈ s.dev.launches

theorem CountsOnly.refl (s : State) : CountsOnly s s := ⟨rfl, rfl, rfl, fun _ h => h⟩

theorem CountsOnly.trans {s t u : State} (h : CountsOnly s t) (k : CountsOnly t u) : CountsOnly s u :=
  ⟨k.ctx.trans h.ctx, k.others.trans h.others, k.incs.trans h.incs, fun l hl => h.launches l (k.launches l hl)⟩

theorem State.setCounter_countsOnly (s : State) (shadow : Bool) (key : Nat) (k : Counter) :
    CountsOnly s (s.onDev fun d => d.setCounter shadow key k) := by
  cases shadow <;> exact ⟨rfl, rfl, rfl, fun _ h => h⟩

/-- Counters that a write to memory leaves unchanged. -/
theorem State.settleWrites_keeps (s : State) (ws : List (Nat × Byte)) : CountsOnly s (s.settleWrites [] ws) ∧
    ∀ shadow n, (s.settleWrites [] ws).dev.counter shadow n = s.dev.counter shadow n := by
  have hstore : s.settleWrites [] ws = s.store ws := by
    unfold State.settleWrites State.noteStores
    exact if_pos rfl
  have hdev := (s.store_storesOnly ws).dev
  rw [hstore]
  refine ⟨⟨State.store_ctx .., State.store_others .., by rw [hdev], fun l hl => ?_⟩, fun shadow n => ?_⟩
  · rw [hdev] at hl
    exact hl
  · rw [hdev]
    rfl

/-- The DONE words of rings are written in memory (R416). -/
theorem State.ringDone_keeps (s : State) (key : Nat) : CountsOnly s (s.ringDone key) ∧
    ∀ shadow n, (s.ringDone key).dev.counter shadow n = s.dev.counter shadow n := by
  refine List.foldlRecOn (motive := fun t => CountsOnly s t ∧ ∀ shadow n, t.dev.counter shadow n = s.dev.counter shadow n) _ _
    ⟨.refl s, fun _ _ => rfl⟩ fun t ht r _ => ?_
  split
  · obtain ⟨hkeeps, hcounter⟩ := t.settleWrites_keeps (writesAt (hostKey (r.addr.toNat + 16)) (leBytes 8 (t.natAt (hostKey (r.addr.toNat + 16)) 8 + 1)))
    exact ⟨ht.1.trans hkeeps, fun shadow n => (hcounter shadow n).trans (ht.2 shadow n)⟩
  · exact ht

theorem Dev.counter_setCounter_at (d : Dev) (shadow : Bool) (key n : Nat) (k : Counter) :
    (d.setCounter shadow key k).counter shadow n = if n = key then some k else d.counter shadow n := by
  cases shadow
  · exact lookup_assign key n k d.counters
  · exact lookup_assign key n k d.shadow

theorem State.markDone_keeps {s : State} {shadow : Bool} {key : Nat} {k : Counter} (hk : s.dev.counter shadow key = some k) (canc : Bool) :
    CountsOnly s (s.markDone shadow key canc) ∧
      ∀ n, (s.markDone shadow key canc).dev.counter shadow n = if n = key then some { k with done := true, canc } else s.dev.counter shadow n := by
  have hset := s.setCounter_countsOnly shadow key { k with done := true, canc }
  have hat := fun n => s.dev.counter_setCounter_at shadow key n { k with done := true, canc }
  unfold State.markDone
  rw [hk]
  dsimp only
  split
  · refine ⟨hset.trans ⟨rfl, rfl, rfl, fun l hl => (List.mem_filter.mp hl).1⟩, fun n => (hat n).symm ▸ ?_⟩
    cases shadow <;> rfl
  · split
    · obtain ⟨hring, hcounter⟩ := State.ringDone_keeps (s.onDev fun d => d.setCounter shadow key { k with done := true, canc }) key
      exact ⟨hset.trans hring, fun n => (hcounter shadow n).trans (hat n)⟩
    · exact ⟨hset, hat⟩

/-! ## An increment -/

section
variable {s : State} {shadow : Bool} {key ord arm : Nat} {k : Counter} (hk : s.dev.counter shadow key = some k)
include hk

theorem countUp_stays (f : Nat) (h : k.done = true ∨ k.arm ≠ arm ∨ ord ∈ k.counted) : State.countUp (f + 1) shadow key ord arm s = s := by
  unfold State.countUp
  rw [hk]
  exact if_pos (by simpa [or_assoc] using h)

variable (hd : k.done = false) (ha : k.arm = arm) (ho : ord ∉ k.counted)
include hd ha ho

/-- An increment that counts and does not reach the target. -/
theorem countUp_below (f : Nat) (h : k.count + 1 < k.target) : State.countUp (f + 1) shadow key ord arm s =
    s.onDev fun d => d.setCounter shadow key { k with count := k.count + 1, counted := k.counted ++ [ord] } := by
  rw [State.countUp, hk]
  dsimp only
  rw [if_neg (by simp [hd, ha, ho]), if_neg (by omega)]

variable (ht : k.target ≤ k.count + 1)
include ht

/-- The last increment of a counter without a parent. -/
theorem countUp_last (f : Nat) (hp : k.parent = none) : State.countUp (f + 1) shadow key ord arm s =
    (s.onDev fun d => d.setCounter shadow key { k with count := k.count + 1, counted := k.counted ++ [ord] }).markDone shadow key false := by
  rw [State.countUp, hk]
  dsimp only
  rw [if_neg (by simp [hd, ha, ho]), if_pos ht, hp]

/-- The last increment of a counter with a parent. -/
theorem countUp_parent (f : Nat) {p : Nat} (hp : k.parent = some p) : State.countUp (f + 1) shadow key ord arm s =
    State.countUp f shadow p (key % 8192) k.parentArm
      ((s.onDev fun d => d.setCounter shadow key { k with count := k.count + 1, counted := k.counted ++ [ord] }).markDone shadow key false) := by
  rw [State.countUp, hk]
  dsimp only
  rw [if_neg (by simp [hd, ha, ho]), if_pos ht, hp]

end

theorem countUp_countsOnly (shadow : Bool) : ∀ (f key ord arm : Nat) (s : State), CountsOnly s (State.countUp f shadow key ord arm s) := by
  intro f
  induction f with
  | zero => exact fun _ _ _ s => .refl s
  | succ f ih =>
    intro key ord arm s
    unfold State.countUp
    split
    · exact .refl s
    · next k hk =>
      split
      · exact .refl s
      · have hset := s.setCounter_countsOnly shadow key { k with count := k.count + 1, counted := k.counted ++ [ord] }
        have hmark := hset.trans (State.markDone_keeps (s.dev.counter_setCounter_same shadow key
          { k with count := k.count + 1, counted := k.counted ++ [ord] }) false).1
        dsimp only
        split
        · split
          · exact hmark.trans (ih _ _ _ _)
          · exact hmark
        · exact hset

/-- Where no launch waits and none has failed, an increment that arrives does nothing beyond the counters. -/
theorem deliverInc_eq {s : State} {n : Nat} {i : Inc} (hi : s.dev.incs[n]? = some i) (hw : NoneWaits s) : s.deliverInc n =
    State.countUp 4 i.shadow i.key i.ord i.arm (s.onDev fun d => { d with incs := d.incs.eraseIdx n }) := by
  have hl := (countUp_countsOnly i.shadow 4 i.key i.ord i.arm (s.onDev fun d => { d with incs := d.incs.eraseIdx n })).launches
  have hsettle := State.settleLaunches_of_none_waiting fun l h => (hw l (hl l h)).1
  unfold State.deliverInc
  rw [hi]
  dsimp only
  rw [hsettle]
  unfold State.checkFailed
  split
  · rfl
  · next l h =>
    have hfail := (hw l (hl l (List.mem_of_find?_eq_some h))).2
    rw [hfail]

/-- R331: the entry of a launch whose counter is done. -/
theorem journalRelease (s : State) (die ctr : Nat) : ∃ t, exec (.journalRelease die ctr) s = .next t ∧ ctrKey die ctr ∉ t.dev.unreleased ∧
    (∀ key, key ≠ ctrKey die ctr → (key ∈ t.dev.unreleased ↔ key ∈ s.dev.unreleased)) ∧
    t = { s with dev := { s.dev with unreleased := t.dev.unreleased } } := by
  refine ⟨_, rfl, ?_, fun key hkey => ?_, rfl⟩
  · simp [State.onDev]
  · simp [State.onDev, hkey]

/-- A counter whose last increment has arrived, and the others. -/
theorem counter_afterLast (s : State) (shadow : Bool) (key n : Nat) (k : Counter) :
    ((s.onDev fun d => d.setCounter shadow key k).markDone shadow key false).dev.counter shadow n =
      if n = key then some { k with done := true, canc := false } else s.dev.counter shadow n := by
  have hk : (s.onDev fun d => d.setCounter shadow key k).dev.counter shadow key = some k := s.dev.counter_setCounter_same shadow key k
  rw [(State.markDone_keeps hk false).2 n]
  by_cases h : n = key
  · rw [if_pos h, if_pos h]
  · rw [if_neg h, if_neg h]
    exact (s.dev.counter_setCounter_at shadow key n k).trans (if_neg h)

/-- R30, R330, R331, R384. -/
theorem counterEvents : CounterEvents := by
  refine ⟨fun s n i k hi hk hw => ?_, journalRelease⟩
  have hexec : exec (.counterIncrement n) s = .next (State.countUp 4 i.shadow i.key i.ord i.arm (s.onDev fun d => { d with incs := d.incs.eraseIdx n })) :=
    congrArg Host.Outcome.next (deliverInc_eq hi hw)
  have hk' : (s.onDev fun d => { d with incs := d.incs.eraseIdx n }).dev.counter i.shadow i.key = some k := hk
  have hframe := countUp_countsOnly i.shadow 4 i.key i.ord i.arm (s.onDev fun d => { d with incs := d.incs.eraseIdx n })
  rw [hexec]
  refine ⟨fun h => congrArg Host.Outcome.next (countUp_stays hk' 3 h), fun hd ha ho =>
    ⟨_, rfl, hframe.ctx, hframe.others, hframe.incs, fun hlt => ?_, fun hle hp => ?_, fun p q hle hp hne hq hqd hqa hqo hqt => ?_⟩⟩
  · rw [countUp_below hk' hd ha ho 3 hlt]
    exact ⟨rfl, Dev.counter_setCounter_same ..⟩
  · rw [countUp_last hk' hd ha ho hle 3 hp, counter_afterLast, if_pos rfl]
  · have hafter := counter_afterLast (s.onDev fun d => { d with incs := d.incs.eraseIdx n }) i.shadow i.key
    have hq' := (hafter p { k with count := k.count + 1, counted := k.counted ++ [i.ord] }).trans ((if_neg hne).trans hq)
    rw [countUp_parent hk' hd ha ho hle 3 hp, countUp_below hq' hqd hqa hqo 2 hqt]
    refine ⟨(Dev.counter_setCounter_at ..).trans ((if_neg hne.symm).trans ?_), Dev.counter_setCounter_same ..⟩
    rw [hafter, if_pos rfl]

/-! ## Clasps -/

/-- Completing episodes changes only the episode reached and who was late. -/
theorem Clasp.completeOne_some {k k' : Clasp} (h : k.completeOne = some k') : k'.arrivals = k.arrivals ∧ k'.epoch = k.epoch + 1 := by
  unfold Clasp.completeOne at h
  dsimp only at h
  split at h
  · cases h
    exact ⟨rfl, rfl⟩
  · cases h

theorem Clasp.complete_spec : ∀ (n : Nat) (k : Clasp), (Clasp.complete n k).arrivals = k.arrivals ∧ k.epoch ≤ (Clasp.complete n k).epoch := by
  intro n
  induction n with
  | zero => exact fun k => ⟨rfl, le_rfl⟩
  | succ n ih =>
    intro k
    unfold Clasp.complete
    split
    · exact ⟨rfl, le_rfl⟩
    · next k' h =>
      obtain ⟨ha, he⟩ := Clasp.completeOne_some h
      obtain ⟨hra, hre⟩ := ih k'
      exact ⟨hra.trans ha, by omega⟩

/-- An episode completes where every member has arrived or departed, and one has arrived (R320, R344). -/
theorem Clasp.completeOne_isSome {k : Clasp} (hall : ∀ j, j < k.nmem → k.arrived j k.epoch = true ∨ j ∈ k.departed)
    (hone : ∃ j, j < k.nmem ∧ k.arrived j k.epoch = true) : ∃ k', k.completeOne = some k' := by
  have hevery : ((List.range k.nmem).all fun m => k.arrived m k.epoch || k.departed.contains m) = true :=
    List.all_eq_true.mpr fun m hm => by simpa using hall m (List.mem_range.mp hm)
  have hany : ((List.range k.nmem).any (k.arrived · k.epoch)) = true := by
    obtain ⟨j, hj, ha⟩ := hone
    exact List.any_eq_true.mpr ⟨j, List.mem_range.mpr hj, ha⟩
  exact ⟨_, if_pos (by rw [hevery, hany]; rfl)⟩

theorem Clasp.completeOne_none {k : Clasp} {j : Nat} (hj : j < k.nmem) (ha : k.arrived j k.epoch = false) (hd : j ∉ k.departed) :
    k.completeOne = none := by
  have hevery : ((List.range k.nmem).all fun m => k.arrived m k.epoch || k.departed.contains m) = false :=
    List.all_eq_false.mpr ⟨j, List.mem_range.mpr hj, by simp [ha, hd]⟩
  exact if_neg (by rw [hevery, Bool.false_and]; exact Bool.false_ne_true)

/-- A clasp written back. -/
theorem State.putClasp_keeps (s : State) (id : Nat) (k : Clasp) : (s.putClasp id k).ctx = s.ctx ∧ (s.putClasp id k).others = s.others ∧
    (s.putClasp id k).mem = s.mem ∧ (s.putClasp id k).dev.clasps = assign id (Clasp.complete (k.arrivals.length + 1) k) s.dev.clasps := by
  unfold State.putClasp State.tellMembers
  dsimp only
  split
  · exact ⟨rfl, rfl, rfl, rfl⟩
  · split <;> exact ⟨rfl, rfl, rfl, rfl⟩

/-- R320, R344: a member of another device arrives. -/
theorem deviceMemberArrival (s : State) (id m : Nat) (stamp : Word) (k : Clasp) (hk : lookup id s.dev.clasps = some k) (hdev : k.devices = true)
    (hm : m < k.nmem) : ∃ t k', exec (.deviceMemberArrival id m stamp) s = .next t ∧ lookup id t.dev.clasps = some k' ∧
      k'.arrivals = k.arrivals ++ [(m, k.nextOf m, stamp)] ∧
      ((∀ j, j < k.nmem → k'.arrived j k.epoch = true ∨ j ∈ k.departed) → (∃ j, j < k.nmem ∧ k'.arrived j k.epoch = true) →
        k.epoch < k'.epoch) ∧
      ((∃ j, j < k.nmem ∧ k'.arrived j k.epoch = false ∧ j ∉ k.departed) → k'.epoch = k.epoch) ∧
      t.ctx = s.ctx ∧ t.others = s.others ∧ t.mem = s.mem ∧ ∀ e, e ≠ id → lookup e t.dev.clasps = lookup e s.dev.clasps := by
  have hexec : exec (.deviceMemberArrival id m stamp) s =
      .next (s.putClasp id { k with arrivals := k.arrivals ++ [(m, k.nextOf m, stamp)] }) := by
    show execDeviceMemberArrival id m stamp s = _
    unfold execDeviceMemberArrival
    rw [hk]
    exact if_pos (by simp [hdev, hm])
  obtain ⟨hctx, hothers, hmem, hclasps⟩ := s.putClasp_keeps id { k with arrivals := k.arrivals ++ [(m, k.nextOf m, stamp)] }
  generalize hk1 : ({ k with arrivals := k.arrivals ++ [(m, k.nextOf m, stamp)] } : Clasp) = k1 at hexec hctx hothers hmem hclasps
  have harr : (Clasp.complete (k1.arrivals.length + 1) k1).arrivals = k1.arrivals := (Clasp.complete_spec _ k1).1
  have harrived : ∀ j e, (Clasp.complete (k1.arrivals.length + 1) k1).arrived j e = k1.arrived j e := fun j e => by
    unfold Clasp.arrived
    rw [harr]
  have hepoch : k1.epoch = k.epoch := by rw [← hk1]
  have hnmem : k1.nmem = k.nmem := by rw [← hk1]
  have hdeparted : k1.departed = k.departed := by rw [← hk1]
  refine ⟨_, Clasp.complete (k1.arrivals.length + 1) k1, hexec, ?_, harr.trans (by rw [← hk1]), fun hall hone => ?_, fun hlate => ?_, hctx, hothers, hmem,
    fun e he => ?_⟩
  · rw [hclasps, lookup_assign, if_pos rfl]
  · simp only [harrived, ← hepoch, ← hnmem, ← hdeparted] at hall hone ⊢
    obtain ⟨k2, hk2⟩ := Clasp.completeOne_isSome hall hone
    have hmore := (Clasp.complete_spec k1.arrivals.length k2).2
    rw [(Clasp.completeOne_some hk2).2] at hmore
    rw [Clasp.complete, hk2]
    exact hmore
  · simp only [harrived, ← hepoch, ← hnmem, ← hdeparted] at hlate ⊢
    obtain ⟨j, hj, ha, hd⟩ := hlate
    rw [Clasp.complete, Clasp.completeOne_none hj ha hd]
  · rw [hclasps, lookup_assign, if_neg he]

/-- R320, R323, R324, R344. -/
theorem claspEvents : ClaspEvents := ⟨deviceMemberArrival, fun _ _ => rfl⟩

/-- Settles O46: the engine's reads change no channel, its writes go to memory as they stand, the tuples of a nest block are those of its
enumeration, and an increment goes up the chain of parents at most as far as the first counter that it does not complete. -/
theorem engineAndCounterEvents : Obligations.EngineAndCounterEvents := ⟨engineEvents, engineElements, counterEvents, claspEvents⟩

end Sys2Proof.Machine

/-! The words of the encoding tables (R38 to R70): a word as a fixed part with field values at their places, and what each field of such a
word reads; the decoder gives a well-formed instruction back from its word, and a word that decodes is the word of its instruction. -/

namespace Sys2Proof

/-! ## Fields and their places -/

/-- A field value at its place in a word. -/
def slot (p : ℕ) {m : ℕ} (x : BitVec m) : Word32 := x.setWidth 32 <<< p

/-- A word with field values added at their places. -/
def layered (w : Word32) (fs : List (ℕ × ℕ)) : Word32 := fs.foldl (fun w f => w + BitVec.ofNat 32 (f.2 * 2 ^ f.1)) w

theorem layered_ofNat (fs : List (ℕ × ℕ)) (k : ℕ) : layered (BitVec.ofNat 32 k) fs = placed k fs := by
  induction fs generalizing k with
  | nil => rfl
  | cons f fs ih =>
    have := ih (k + f.2 * 2 ^ f.1)
    rwa [BitVec.ofNat_add] at this

theorem placed_eq_layered (k : ℕ) (fs : List (ℕ × ℕ)) : placed k fs = layered (BitVec.ofNat 32 k) fs := (layered_ofNat fs k).symm

theorem ofNat_mul_two_pow (p : ℕ) {m : ℕ} (x : BitVec m) : BitVec.ofNat 32 (x.toNat * 2 ^ p) = slot p x := by
  apply BitVec.eq_of_toNat_eq
  simp [slot, Nat.shiftLeft_eq]

theorem getLsbD_slot (p : ℕ) {m : ℕ} (x : BitVec m) (i : ℕ) :
    (slot p x).getLsbD i = (decide (i < 32) && decide (p ≤ i) && x.getLsbD (i - p)) := by
  by_cases h : p ≤ i <;> by_cases k : i < 32 <;> simp [slot, h, k]

@[simp] theorem fld_slot_same {p m : ℕ} (h : p + m ≤ 32) (x : BitVec m) : (slot p x).extractLsb' p m = x := by
  ext i hi
  simp [BitVec.getElem_extractLsb', getLsbD_slot, hi]
  omega

@[simp] theorem fld_slot_apart {p m lo n : ℕ} (h : p + m ≤ lo ∨ lo + n ≤ p) (x : BitVec m) : (slot p x).extractLsb' lo n = 0 := by
  ext i hi
  simp only [BitVec.getElem_extractLsb', getLsbD_slot]
  rcases h with h | h
  · simp [show m ≤ lo + i - p by omega]
  · simp [show ¬ p ≤ lo + i by omega]

@[simp] theorem layered_nil (w : Word32) : layered w [] = w := rfl

@[simp] theorem layered_cons {w : Word32} {p m : ℕ} (h : w.extractLsb' p m = 0) (x : BitVec m) (fs : List (ℕ × ℕ)) :
    layered w ((p, x.toNat) :: fs) = layered (w ||| slot p x) fs := by
  have hd : w &&& slot p x = 0 := by
    refine BitVec.eq_of_getLsbD_eq fun i _ => ?_
    rw [BitVec.getLsbD_and, getLsbD_slot]
    by_cases hp : p ≤ i ∧ i - p < m
    · have hw : w.getLsbD i = false := by
        have := congrArg (·.getLsbD (i - p)) h
        simpa [hp.2, show p + (i - p) = i by omega] using this
      simp [hw]
    · by_cases k : p ≤ i
      · simp [BitVec.getLsbD_of_ge x (i - p) (by omega)]
      · simp [k]
  show layered (w + BitVec.ofNat 32 (x.toNat * 2 ^ p)) fs = _
  rw [ofNat_mul_two_pow, BitVec.add_eq_or_of_and_eq_zero _ _ hd]

theorem fld_split (w : Word32) (p m n : ℕ) {k : BitVec (m + n)} :
    w.extractLsb' p (m + n) = k ↔ w.extractLsb' p m = k.extractLsb' 0 m ∧ w.extractLsb' (p + m) n = k.extractLsb' m n := by
  constructor
  · rintro rfl
    constructor
    · ext i hi
      simp [BitVec.getElem_extractLsb']
      omega
    · ext i hi
      simp [BitVec.getElem_extractLsb', hi, Nat.add_assoc]
  · rintro ⟨h1, h2⟩
    refine BitVec.eq_of_getLsbD_eq fun i hi => ?_
    by_cases hm : i < m
    · have := congrArg (·.getLsbD i) h1
      simpa [hm, hi] using this
    · have := congrArg (·.getLsbD (i - m)) h2
      simpa [show i - m < n by omega, show p + m + (i - m) = p + i by omega, show m + (i - m) = i by omega, hi] using this

@[simp] theorem fld_slot_within {p m lo n : ℕ} (h : p ≤ lo ∧ lo + n ≤ p + m ∧ p + m ≤ 32) (x : BitVec m) :
    (slot p x).extractLsb' lo n = x.extractLsb' (lo - p) n := by
  ext i hi
  simp only [BitVec.getElem_extractLsb', getLsbD_slot, show lo + i - p = lo - p + i by omega]
  simp
  omega

@[simp] theorem fld_fld (w : Word32) {p m lo n : ℕ} (h : lo + n ≤ m) :
    (w.extractLsb' p m).extractLsb' lo n = w.extractLsb' (p + lo) n := by
  ext i hi
  simp [BitVec.getElem_extractLsb', Nat.add_assoc]
  omega

/-- The fields of these widths, one above the other from bit `lo` on, are the same in both words. -/
def AgreeFrom (x w : Word32) : ℕ → List ℕ → Prop
  | _, [] => True
  | lo, n :: ns => x.extractLsb' lo n = w.extractLsb' lo n ∧ AgreeFrom x w (lo + n) ns

theorem AgreeFrom.getLsbD {x w : Word32} {lo : ℕ} {ns : List ℕ} (h : AgreeFrom x w lo ns) {i : ℕ} (hl : lo ≤ i) (hi : i < lo + ns.sum) :
    x.getLsbD i = w.getLsbD i := by
  induction ns generalizing lo with
  | nil => simp at hi; omega
  | cons n ns ih =>
    obtain ⟨h1, h2⟩ := h
    by_cases hn : i < lo + n
    · have := congrArg (·.getLsbD (i - lo)) h1
      simpa [show i - lo < n by omega, show lo + (i - lo) = i by omega] using this
    · exact ih h2 (by omega) (by simp at hi; omega)

theorem eq_of_fields (ns : List ℕ) (hs : ns.sum = 32) {x w : Word32} (h : AgreeFrom x w 0 ns) : x = w :=
  BitVec.eq_of_getLsbD_eq fun _ hi => h.getLsbD (Nat.zero_le _) (by omega)

/-! ## What the decoder checks -/

/-- The check of a late form asks what `Instr.wellFormed` asks of its instruction. -/
theorem Decoded.check_late (l : LateInstr) :
    (Decoded.late l).check = if l.toInstr.wellFormed then .ok (.late l) else .error (.field .app) := by
  cases l with
  | clasp a d => exact if_congr decide_eq_true_iff.symm rfl rfl
  | _ => rfl

theorem Decoded.check_eq_ok {d d' : Decoded} : d.check = .ok d' ↔ d' = d ∧ d.toInstr.wellFormed = true := by
  cases d with
  | instr i => by_cases h : i.wellFormed = true <;> simp [Decoded.check, Decoded.toInstr, h, eq_comm (a := d')]
  | late l => by_cases h : l.toInstr.wellFormed = true <;> simp [Decoded.check_late, Decoded.toInstr, h, eq_comm (a := d')]

theorem decodeWord_eq_ok {w : Word32} {d : Decoded} :
    decodeWord w = .ok d ↔ decodeFields w = .ok d ∧ d.toInstr.wellFormed = true := by
  rw [decodeWord]
  cases h : decodeFields w with
  | error e => simp
  | ok d' =>
    rw [Decoded.check_eq_ok]
    grind

/-! ## The instruction of a word, family by family

In each list a number of an operand serves every form that has the operand. -/

-- The equations of `encode` are made here once, before the proofs that wait for them run side by side.
set_option Elab.async false in
theorem decodeFields_encode_alu (d a b : BitVec 5) :
    ∀ i ∈ ([.add d a b, .sub d a b, .and d a b, .or d a b, .xor d a b, .sll d a b, .srl d a b, .sra d a b, .slt d a b, .sltu d a b,
      .mul d a b, .mulh d a b, .mulhu d a b, .div d a b, .divu d a b, .rem d a b, .remu d a b, .min d a b, .max d a b, .minu d a b,
      .maxu d a b, .clz d a, .ctz d a, .popc d a, .rev8 d a, .sextB d a, .sextH d a, .sextW d a] : List Instr),
      decodeFields (encode i) = .ok (.instr i) := by
  simp only [List.forall_mem_cons, List.not_mem_nil, false_imp_iff, implies_true, and_true]
  simp [decodeFields, decodeAlu, encode, placed_eq_layered, BitVec.extractLsb'_or]

theorem decodeFields_encode_shi (d a : BitVec 5) (n : BitVec 6) :
    ∀ i ∈ ([.slli d a n, .srli d a n, .srai d a n] : List Instr),
      decodeFields (encode i) = .ok (.instr i) := by
  simp only [List.forall_mem_cons, List.not_mem_nil, false_imp_iff, implies_true, and_true]
  simp [decodeFields, decodeShi, encode, placed_eq_layered, BitVec.extractLsb'_or]

theorem decodeFields_encode_amo (d a b : BitVec 5) (o : BitVec 2) (s : BitVec 3) (w : BitVec 1) (hs : s.toNat ≤ 4) :
    ∀ i ∈ ([.amoAdd d a b o s w, .amoAnd d a b o s w, .amoOr d a b o s w, .amoXor d a b o s w, .amoMin d a b o s w, .amoMax d a b o s w,
      .amoMinu d a b o s w, .amoMaxu d a b o s w, .amoSwap d a b o s w, .amoCas d a b o s w] : List Instr),
      decodeFields (encode i) = .ok (.instr i) := by
  simp only [List.forall_mem_cons, List.not_mem_nil, false_imp_iff, implies_true, and_true]
  simp [decodeFields, decodeAmo, encode, placed_eq_layered, BitVec.extractLsb'_or, hs]

theorem decodeFields_encode_flt (d a b : BitVec 5) (t : BitVec 1) :
    ∀ i ∈ ([.fadd d a b t, .fsub d a b t, .fmul d a b t, .fdiv d a b t, .fsqrt d a t, .fmin d a b t, .fmax d a b t, .feq d a b t,
      .flt d a b t, .fle d a b t, .fclass d a t, .fsgnj d a b t, .fsgnjn d a b t, .fsgnjx d a b t] : List Instr),
      decodeFields (encode i) = .ok (.instr i) := by
  simp only [List.forall_mem_cons, List.not_mem_nil, false_imp_iff, implies_true, and_true]
  simp [decodeFields, decodeFlt, encode, placed_eq_layered, BitVec.extractLsb'_or]

theorem decodeFields_encode_flt_cvt (d a : BitVec 5) (t : BitVec 1) (v : BitVec 4) (hv : v.toNat ≤ 8) :
    ∀ i ∈ ([.fcvt d a t v] : List Instr),
      decodeFields (encode i) = .ok (.instr i) := by
  simp only [List.forall_mem_cons, List.not_mem_nil, false_imp_iff, implies_true, and_true]
  simp [decodeFields, decodeFlt, encode, placed_eq_layered, BitVec.extractLsb'_or, hv]

theorem decodeFields_encode_lend (n k e : BitVec 1) (p : BitVec 5) (c : BitVec 6) :
    ∀ i ∈ ([.lend n k p c e] : List Instr),
      decodeFields (encode i) = .ok (.instr i) := by
  simp only [List.forall_mem_cons, List.not_mem_nil, false_imp_iff, implies_true, and_true]
  simp [decodeFields, decodeLend, encode, placed_eq_layered, BitVec.extractLsb'_or]

theorem decodeFields_encode_vcfg (d a : BitVec 5) (s q : BitVec 3) (e : BitVec 2) :
    ∀ i ∈ ([.vsetvl d a s e, .vgetvl q] : List Instr),
      decodeFields (encode i) = .ok (.instr i) := by
  simp only [List.forall_mem_cons, List.not_mem_nil, false_imp_iff, implies_true, and_true]
  simp [decodeFields, decodeVcfg, encode, placed_eq_layered, BitVec.extractLsb'_or]

theorem decodeFields_encode_vint (d a b : BitVec 6) (m u : BitVec 1) :
    ∀ i ∈ ([.vadd d a b m, .vsub d a b m, .vmul d a b m, .vmulh d a b m u, .vdiv d a b m u, .vrem d a b m u, .vmin d a b m u,
      .vmax d a b m u, .vand d a b m, .vor d a b m, .vxor d a b m, .vsll d a b m, .vsrl d a b m, .vsra d a b m, .vseq d a b m,
      .vsne d a b m, .vslt d a b m u, .vsle d a b m u, .vsel d a b, .vmv d a m, .vpopc d a m, .vxorpop d a b m, .vclz d a m,
      .vrecAdd d a m, .vrecMax d a m u, .vrecLin d a b m] : List Instr),
      decodeFields (encode i) = .ok (.instr i) := by
  simp only [List.forall_mem_cons, List.not_mem_nil, false_imp_iff, implies_true, and_true]
  simp [decodeFields, decodeVint, encode, placed_eq_layered, BitVec.extractLsb'_or, ↓fld_split _ 0 6 1]

theorem decodeFields_encode_vints (d a : BitVec 6) (b : BitVec 5) (m u : BitVec 1) :
    ∀ i ∈ ([.vaddVx d a b m, .vsubVx d a b m, .vmulVx d a b m, .vmulhVx d a b m u, .vdivVx d a b m u, .vremVx d a b m u,
      .vminVx d a b m u, .vmaxVx d a b m u, .vandVx d a b m, .vorVx d a b m, .vxorVx d a b m, .vsllVx d a b m, .vsrlVx d a b m,
      .vsraVx d a b m, .vseqVx d a b m, .vsneVx d a b m, .vsltVx d a b m u, .vsleVx d a b m u, .vbcast d b m, .vclset b,
      .vidxs d b m] : List Instr),
      decodeFields (encode i) = .ok (.instr i) := by
  simp only [List.forall_mem_cons, List.not_mem_nil, false_imp_iff, implies_true, and_true]
  simp [decodeFields, decodeVints, encode, placed_eq_layered, BitVec.extractLsb'_or, ↓fld_split _ 0 6 2]

theorem decodeFields_encode_vflt (d a b c : BitVec 6) (m k : BitVec 1) :
    ∀ i ∈ ([.vfadd d a b m k, .vfsub d a b m k, .vfmul d a b m k, .vfdiv d a b m k, .vfsqrt d a m k, .vfmadd d a b m k, .vfmin d a b m k,
      .vfmax d a b m k, .vfeq d a b m k, .vflt d a b m k, .vfle d a b m k, .vfexp2 d a m k, .vfcvt d a c m,
      .vfclass d a m k] : List Instr),
      decodeFields (encode i) = .ok (.instr i) := by
  simp only [List.forall_mem_cons, List.not_mem_nil, false_imp_iff, implies_true, and_true]
  simp [decodeFields, decodeVflt, encode, placed_eq_layered, BitVec.extractLsb'_or, ↓fld_split _ 0 6 1]

theorem decodeFields_encode_vflts (d a : BitVec 6) (b : BitVec 5) (m k : BitVec 1) :
    ∀ i ∈ ([.vfaddVf d a b m k, .vfsubVf d a b m k, .vfmulVf d a b m k, .vfdivVf d a b m k, .vfmaddVf d a b m k, .vfminVf d a b m k,
      .vfmaxVf d a b m k, .vfeqVf d a b m k, .vfltVf d a b m k, .vfleVf d a b m k] : List Instr),
      decodeFields (encode i) = .ok (.instr i) := by
  simp only [List.forall_mem_cons, List.not_mem_nil, false_imp_iff, implies_true, and_true]
  simp [decodeFields, decodeVflts, encode, placed_eq_layered, BitVec.extractLsb'_or]

theorem decodeFields_encode_vfix (d a b : BitVec 6) (m u : BitVec 1) :
    ∀ i ∈ ([.vwmul d a b m u, .vwmacc d a b m u, .vwadd d a b m u, .vnclip d a b m u, .vsadd d a b m u, .vssub d a b m u,
      .vaadd d a b m u] : List Instr),
      decodeFields (encode i) = .ok (.instr i) := by
  simp only [List.forall_mem_cons, List.not_mem_nil, false_imp_iff, implies_true, and_true]
  simp [decodeFields, decodeVfix, encode, placed_eq_layered, BitVec.extractLsb'_or]

theorem decodeFields_encode_vcvt (d a n : BitVec 6) (m : BitVec 1) (h o : BitVec 5) :
    ∀ i ∈ ([.vhad d a n m, .vhadC a n m, .vrand d h o m] : List Instr),
      decodeFields (encode i) = .ok (.instr i) := by
  simp only [List.forall_mem_cons, List.not_mem_nil, false_imp_iff, implies_true, and_true]
  simp [decodeFields, decodeVcvt, encode, placed_eq_layered, BitVec.extractLsb'_or]

theorem decodeFields_encode_vcvt_quant (d a : BitVec 6) (c : BitVec 2) (m : BitVec 1) (t : BitVec 3) (ht : t.toNat ≤ 4) :
    ∀ i ∈ ([.vqnt d a c m t, .vdqnt d a c m t, .vqntC d c m t] : List Instr),
      decodeFields (encode i) = .ok (.instr i) := by
  simp only [List.forall_mem_cons, List.not_mem_nil, false_imp_iff, implies_true, and_true]
  simp [decodeFields, decodeVcvt, encode, placed_eq_layered, BitVec.extractLsb'_or, ht, ↓fld_split _ 0 3 4]

theorem decodeFields_encode_vperm (d a b' : BitVec 6) (b : BitVec 5) (m : BitVec 1) :
    ∀ i ∈ ([.vslideup d a b m, .vslidedn d a b m, .vperm d a b' m, .vzip d a b' m, .vunzip d a m, .vcmprs d a m,
      .vexpand d a m] : List Instr),
      decodeFields (encode i) = .ok (.instr i) := by
  simp only [List.forall_mem_cons, List.not_mem_nil, false_imp_iff, implies_true, and_true]
  simp [decodeFields, decodeVperm, encode, placed_eq_layered, BitVec.extractLsb'_or]

theorem decodeFields_encode_vred (q : BitVec 3) (a : BitVec 6) (m u k : BitVec 1) :
    ∀ i ∈ ([.vredsum q a m u, .vredmax q a m u, .vredmin q a m u, .vredand q a m, .vredor q a m, .vfredsum q a m k] : List Instr),
      decodeFields (encode i) = .ok (.instr i) := by
  simp only [List.forall_mem_cons, List.not_mem_nil, false_imp_iff, implies_true, and_true]
  simp [decodeFields, decodeVred, encode, placed_eq_layered, BitVec.extractLsb'_or, ↓fld_split _ 0 6 1]

theorem decodeFields_encode_vmask (d a b : BitVec 6) (m : BitVec 1) (q : BitVec 3) :
    ∀ i ∈ ([.vmand d a b m, .vmor d a b m, .vmxor d a b m, .vmnot d a m, .vfirst q a m, .vcount q a m] : List Instr),
      decodeFields (encode i) = .ok (.instr i) := by
  simp only [List.forall_mem_cons, List.not_mem_nil, false_imp_iff, implies_true, and_true]
  simp [decodeFields, decodeVmask, encode, placed_eq_layered, BitVec.extractLsb'_or]

theorem decodeFields_encode_vld (d v : BitVec 6) (a b : BitVec 5) (m : BitVec 1) (w : BitVec 2) (n : BitVec 3) :
    ∀ i ∈ ([.vld d a m w, .vldStrided d a b m w, .vldIndexed d a v m w, .vldSeg d a m n w, .vldF d a m w, .vldFSeg d a m n w,
      .vldSegIndexed d a v m n w] : List Instr),
      decodeFields (encode i) = .ok (.instr i) := by
  simp only [List.forall_mem_cons, List.not_mem_nil, false_imp_iff, implies_true, and_true]
  simp [decodeFields, decodeVld, encode, placed_eq_layered, BitVec.extractLsb'_or]

theorem decodeFields_encode_vst (s v : BitVec 6) (a b : BitVec 5) (m : BitVec 1) (w : BitVec 2) (n : BitVec 3) :
    ∀ i ∈ ([.vst s a m w, .vstStrided s a b m w, .vstIndexed s a v m w, .vstSeg s a m n w, .vstN s a m w, .vstNSeg s a m n w,
      .vstNIndexed s a v m w] : List Instr),
      decodeFields (encode i) = .ok (.instr i) := by
  simp only [List.forall_mem_cons, List.not_mem_nil, false_imp_iff, implies_true, and_true]
  simp [decodeFields, decodeVst, encode, placed_eq_layered, BitVec.extractLsb'_or]

theorem decodeFields_encode_vsrt (d a b : BitVec 6) (p s : BitVec 1) (k q : BitVec 3) (b' : BitVec 5) (hk : k ≠ 7#3) :
    ∀ i ∈ ([.vsort d a p s k, .vmrg d a b k, .vmrgc q a b k, .visec d a b k, .vuniq d a k, .vrank d a b k, .vrankLe d a b k,
      .vpart d a b' k, .vtopk d a b' k, .vcmpt d a k, .vchks a s k] : List Instr),
      decodeFields (encode i) = .ok (.instr i) := by
  simp only [List.forall_mem_cons, List.not_mem_nil, false_imp_iff, implies_true, and_true]
  simp [decodeFields, decodeVsrt, encode, placed_eq_layered, BitVec.extractLsb'_or, hk]

theorem decodeFields_encode_vsrt_facet (q : BitVec 3) (a : BitVec 6) :
    ∀ i ∈ ([.vfacet q a] : List Instr),
      decodeFields (encode i) = .ok (.instr i) := by
  simp only [List.forall_mem_cons, List.not_mem_nil, false_imp_iff, implies_true, and_true]
  simp [decodeFields, decodeVsrt, encode, placed_eq_layered, BitVec.extractLsb'_or]

theorem decodeFields_encode_mopa (t : BitVec 2) (a b : BitVec 6) (m : BitVec 1) (f : BitVec 4) (w s : BitVec 5) :
    ∀ i ∈ ([.mopa t a b m f, .mopaS t a b m f, .mopaW t a w m f, .mopaGr t a s f] : List Instr),
      decodeFields (encode i) = .ok (.instr i) := by
  simp only [List.forall_mem_cons, List.not_mem_nil, false_imp_iff, implies_true, and_true]
  simp [decodeFields, decodeMopa, encode, placed_eq_layered, BitVec.extractLsb'_or]

theorem decodeFields_encode_tops (t : BitVec 2) (a c : BitVec 5) (f : BitVec 4) (d a' : BitVec 6) :
    ∀ i ∈ ([.tzero t, .tanchor t a, .tres t f, .tmovr t d c f, .tmovw t a' c f, .tldRaw t a, .tldCan t a f, .tstRaw t a, .tstCan t a f,
      .cbld t a] : List Instr),
      decodeFields (encode i) = .ok (.instr i) := by
  simp only [List.forall_mem_cons, List.not_mem_nil, false_imp_iff, implies_true, and_true]
  simp [decodeFields, decodeTops, encode, placed_eq_layered, BitVec.extractLsb'_or]

theorem decodeFields_encode_que (q c : BitVec 4) (s d a v : BitVec 5) :
    ∀ i ∈ ([.qpush q s, .qpop q d, .qstat q c, .copy c a, .vgthr v c a, .drain c] : List Instr),
      decodeFields (encode i) = .ok (.instr i) := by
  simp only [List.forall_mem_cons, List.not_mem_nil, false_imp_iff, implies_true, and_true]
  simp [decodeFields, decodeQue, encode, placed_eq_layered, BitVec.extractLsb'_or]

theorem decodeFields_encode_sync (s : BitVec 3) (k : BitVec 2) :
    ∀ i ∈ ([.fence s k, .vlsync, .vfenceD] : List Instr),
      decodeFields (encode i) = .ok (.instr i) := by
  simp only [List.forall_mem_cons, List.not_mem_nil, false_imp_iff, implies_true, and_true]
  simp [decodeFields, decodeSync, encode, placed_eq_layered, BitVec.extractLsb'_or, Word32.fld]

theorem decodeFields_encode_sync_late (a b : BitVec 5) (w : BitVec 1) :
    ∀ i ∈ ([.waitge a b w, .waiteq a b w] : List LateInstr),
      decodeFields (encode i.toInstr) = .ok (.late i) := by
  simp only [List.forall_mem_cons, List.not_mem_nil, false_imp_iff, implies_true, and_true]
  simp [decodeFields, decodeSync, encode, LateInstr.toInstr, placed_eq_layered, BitVec.extractLsb'_or]

theorem decodeFields_encode_sched :
    ∀ i ∈ ([.uend, .yield] : List Instr),
      decodeFields (encode i) = .ok (.instr i) := by
  simp only [List.forall_mem_cons, List.not_mem_nil, false_imp_iff, implies_true, and_true]
  simp [decodeFields, decodeSched, encode, placed_eq_layered, Word32.fld]

theorem decodeFields_encode_sched_late (a d b : BitVec 5) (q : BitVec 3) :
    ∀ i ∈ ([.launch a d, .launchNode a b d, .cancel a d, .cread a d, .creadT a d, .clasp a d, .claspCfg a b d, .clarr a q, .clwait a b,
      .grant a b d] : List LateInstr),
      decodeFields (encode i.toInstr) = .ok (.late i) := by
  simp only [List.forall_mem_cons, List.not_mem_nil, false_imp_iff, implies_true, and_true]
  simp [decodeFields, decodeSched, encode, LateInstr.toInstr, placed_eq_layered, BitVec.extractLsb'_or]

theorem decodeFields_encode_sys (d a : BitVec 5) (c : BitVec 12) :
    ∀ i ∈ ([.csrr d c, .csrw a c, .csrs a c, .csrc a c, .ecall, .ebrk, .eret, .snap, .wfi] : List Instr),
      decodeFields (encode i) = .ok (.instr i) := by
  simp only [List.forall_mem_cons, List.not_mem_nil, false_imp_iff, implies_true, and_true]
  simp [decodeFields, decodeSys, encode, placed_eq_layered, BitVec.extractLsb'_or, Word32.fld]

theorem decodeFields_encode_sys_late (a d : BitVec 5) (v : BitVec 6) :
    ∀ i ∈ ([.ctxsave a, .ctxrst a, .tlbinv d a, .placew d a, .vfset a v] : List LateInstr),
      decodeFields (encode i.toInstr) = .ok (.late i) := by
  simp only [List.forall_mem_cons, List.not_mem_nil, false_imp_iff, implies_true, and_true]
  simp [decodeFields, decodeSys, encode, LateInstr.toInstr, placed_eq_layered, BitVec.extractLsb'_or]

theorem decodeFields_encode_direct (d a s b l : BitVec 5) (j : BitVec 16) (j' : BitVec 21) (d' : BitVec 6) (s' p : BitVec 10) :
    ∀ i ∈ ([.addi d a j, .andi d a j, .ori d a j, .xori d a j, .slti d a j, .sltiu d a j, .lui d j', .auipc d j', .lb d a j, .lbu d a j,
      .lh d a j, .lhu d a j, .lw d a j, .lwu d a j, .ld d a j, .sb s a j, .sh s a j, .sw s a j, .sd s a j, .beq a b j, .bne a b j,
      .blt a b j, .bge a b j, .bltu a b j, .bgeu a b j, .jal d j', .jalr d a j, .loop a l, .nest a l, .vidx d' s' p] : List Instr),
      decodeFields (encode i) = .ok (.instr i) := by
  simp only [List.forall_mem_cons, List.not_mem_nil, false_imp_iff, implies_true, and_true]
  simp [decodeFields, encode, placed_eq_layered, BitVec.extractLsb'_or]

theorem decodeFields_encode_direct_late (h : BitVec 26) :
    ∀ i ∈ ([.hint h] : List LateInstr),
      decodeFields (encode i.toInstr) = .ok (.late i) := by
  simp only [List.forall_mem_cons, List.not_mem_nil, false_imp_iff, implies_true, and_true]
  simp [decodeFields, encode, LateInstr.toInstr, placed_eq_layered, BitVec.extractLsb'_or]

/-- The decoder's fields give the form of this instruction from its word. -/
def ReadBack (i : Instr) : Prop := ∃ d : Decoded, d.toInstr = i ∧ decodeFields (encode i) = .ok d

theorem ReadBack.instr {i : Instr} (h : decodeFields (encode i) = .ok (.instr i)) : ReadBack i := ⟨.instr i, rfl, h⟩

theorem ReadBack.late {l : LateInstr} (h : decodeFields (encode l.toInstr) = .ok (.late l)) : ReadBack l.toInstr := ⟨.late l, rfl, h⟩

theorem readBack_of_wellFormed {i : Instr} (hw : i.wellFormed = true) : ReadBack i := by
  cases i with
  | add d a b | sub d a b | and d a b | or d a b | xor d a b | sll d a b | srl d a b | sra d a b | slt d a b | sltu d a b | mul d a b
  | mulh d a b | mulhu d a b | div d a b | divu d a b | rem d a b | remu d a b | min d a b | max d a b | minu d a b | maxu d a b =>
    exact .instr (decodeFields_encode_alu d a b _ (by simp))
  | clz d a | ctz d a | popc d a | rev8 d a | sextB d a | sextH d a | sextW d a =>
    exact .instr (decodeFields_encode_alu d a 0 _ (by simp))
  | slli d a n | srli d a n | srai d a n =>
    exact .instr (decodeFields_encode_shi d a n _ (by simp))
  | amoAdd d a b o s w | amoAnd d a b o s w | amoOr d a b o s w | amoXor d a b o s w | amoMin d a b o s w | amoMax d a b o s w
  | amoMinu d a b o s w | amoMaxu d a b o s w | amoSwap d a b o s w | amoCas d a b o s w =>
    exact .instr (decodeFields_encode_amo d a b o s w (of_decide_eq_true hw) _ (by simp))
  | fadd d a b t | fsub d a b t | fmul d a b t | fdiv d a b t | fmin d a b t | fmax d a b t | feq d a b t | flt d a b t | fle d a b t
  | fsgnj d a b t | fsgnjn d a b t | fsgnjx d a b t =>
    exact .instr (decodeFields_encode_flt d a b t _ (by simp))
  | fsqrt d a t | fclass d a t =>
    exact .instr (decodeFields_encode_flt d a 0 t _ (by simp))
  | fcvt d a t v =>
    exact .instr (decodeFields_encode_flt_cvt d a t v (of_decide_eq_true hw) _ (by simp))
  | lend n k p c e =>
    exact .instr (decodeFields_encode_lend n k e p c _ (by simp))
  | vsetvl d a s e =>
    exact .instr (decodeFields_encode_vcfg d a s 0 e _ (by simp))
  | vgetvl q =>
    exact .instr (decodeFields_encode_vcfg 0 0 0 q 0 _ (by simp))
  | vadd d a b m | vsub d a b m | vmul d a b m | vand d a b m | vor d a b m | vxor d a b m | vsll d a b m | vsrl d a b m | vsra d a b m
  | vseq d a b m | vsne d a b m | vxorpop d a b m | vrecLin d a b m =>
    exact .instr (decodeFields_encode_vint d a b m 0 _ (by simp))
  | vmulh d a b m u | vdiv d a b m u | vrem d a b m u | vmin d a b m u | vmax d a b m u | vslt d a b m u | vsle d a b m u =>
    exact .instr (decodeFields_encode_vint d a b m u _ (by simp))
  | vsel d a b =>
    exact .instr (decodeFields_encode_vint d a b 0 0 _ (by simp))
  | vmv d a m | vpopc d a m | vclz d a m | vrecAdd d a m =>
    exact .instr (decodeFields_encode_vint d a 0 m 0 _ (by simp))
  | vrecMax d a m u =>
    exact .instr (decodeFields_encode_vint d a 0 m u _ (by simp))
  | vaddVx d a b m | vsubVx d a b m | vmulVx d a b m | vandVx d a b m | vorVx d a b m | vxorVx d a b m | vsllVx d a b m | vsrlVx d a b m
  | vsraVx d a b m | vseqVx d a b m | vsneVx d a b m =>
    exact .instr (decodeFields_encode_vints d a b m 0 _ (by simp))
  | vmulhVx d a b m u | vdivVx d a b m u | vremVx d a b m u | vminVx d a b m u | vmaxVx d a b m u | vsltVx d a b m u | vsleVx d a b m u =>
    exact .instr (decodeFields_encode_vints d a b m u _ (by simp))
  | vbcast d b m | vidxs d b m =>
    exact .instr (decodeFields_encode_vints d 0 b m 0 _ (by simp))
  | vclset b =>
    exact .instr (decodeFields_encode_vints 0 0 b 0 0 _ (by simp))
  | vfadd d a b m k | vfsub d a b m k | vfmul d a b m k | vfdiv d a b m k | vfmadd d a b m k | vfmin d a b m k | vfmax d a b m k
  | vfeq d a b m k | vflt d a b m k | vfle d a b m k =>
    exact .instr (decodeFields_encode_vflt d a b 0 m k _ (by simp))
  | vfsqrt d a m k | vfexp2 d a m k | vfclass d a m k =>
    exact .instr (decodeFields_encode_vflt d a 0 0 m k _ (by simp))
  | vfcvt d a c m =>
    exact .instr (decodeFields_encode_vflt d a 0 c m 0 _ (by simp))
  | vfaddVf d a b m k | vfsubVf d a b m k | vfmulVf d a b m k | vfdivVf d a b m k | vfmaddVf d a b m k | vfminVf d a b m k
  | vfmaxVf d a b m k | vfeqVf d a b m k | vfltVf d a b m k | vfleVf d a b m k =>
    exact .instr (decodeFields_encode_vflts d a b m k _ (by simp))
  | vwmul d a b m u | vwmacc d a b m u | vwadd d a b m u | vnclip d a b m u | vsadd d a b m u | vssub d a b m u | vaadd d a b m u =>
    exact .instr (decodeFields_encode_vfix d a b m u _ (by simp))
  | vhad d a n m =>
    exact .instr (decodeFields_encode_vcvt d a n m 0 0 _ (by simp))
  | vhadC a n m =>
    exact .instr (decodeFields_encode_vcvt 0 a n m 0 0 _ (by simp))
  | vrand d h o m =>
    exact .instr (decodeFields_encode_vcvt d 0 0 m h o _ (by simp))
  | vqnt d a c m t | vdqnt d a c m t =>
    exact .instr (decodeFields_encode_vcvt_quant d a c m t (of_decide_eq_true hw).2.1 _ (by simp))
  | vqntC d c m t =>
    exact .instr (decodeFields_encode_vcvt_quant d 0 c m t (of_decide_eq_true hw).2.1 _ (by simp))
  | vslideup d a b m | vslidedn d a b m =>
    exact .instr (decodeFields_encode_vperm d a 0 b m _ (by simp))
  | vperm d a b' m | vzip d a b' m =>
    exact .instr (decodeFields_encode_vperm d a b' 0 m _ (by simp))
  | vunzip d a m | vcmprs d a m | vexpand d a m =>
    exact .instr (decodeFields_encode_vperm d a 0 0 m _ (by simp))
  | vredsum q a m u | vredmax q a m u | vredmin q a m u =>
    exact .instr (decodeFields_encode_vred q a m u 0 _ (by simp))
  | vredand q a m | vredor q a m =>
    exact .instr (decodeFields_encode_vred q a m 0 0 _ (by simp))
  | vfredsum q a m k =>
    exact .instr (decodeFields_encode_vred q a m 0 k _ (by simp))
  | vmand d a b m | vmor d a b m | vmxor d a b m =>
    exact .instr (decodeFields_encode_vmask d a b m 0 _ (by simp))
  | vmnot d a m =>
    exact .instr (decodeFields_encode_vmask d a 0 m 0 _ (by simp))
  | vfirst q a m | vcount q a m =>
    exact .instr (decodeFields_encode_vmask 0 a 0 m q _ (by simp))
  | vld d a m w | vldF d a m w =>
    exact .instr (decodeFields_encode_vld d 0 a 0 m w 0 _ (by simp))
  | vldStrided d a b m w =>
    exact .instr (decodeFields_encode_vld d 0 a b m w 0 _ (by simp))
  | vldIndexed d a v m w =>
    exact .instr (decodeFields_encode_vld d v a 0 m w 0 _ (by simp))
  | vldSeg d a m n w | vldFSeg d a m n w =>
    exact .instr (decodeFields_encode_vld d 0 a 0 m w n _ (by simp))
  | vldSegIndexed d a v m n w =>
    exact .instr (decodeFields_encode_vld d v a 0 m w n _ (by simp))
  | vst s a m w | vstN s a m w =>
    exact .instr (decodeFields_encode_vst s 0 a 0 m w 0 _ (by simp))
  | vstStrided s a b m w =>
    exact .instr (decodeFields_encode_vst s 0 a b m w 0 _ (by simp))
  | vstIndexed s a v m w | vstNIndexed s a v m w =>
    exact .instr (decodeFields_encode_vst s v a 0 m w 0 _ (by simp))
  | vstSeg s a m n w | vstNSeg s a m n w =>
    exact .instr (decodeFields_encode_vst s 0 a 0 m w n _ (by simp))
  | vsort d a p s k =>
    exact .instr (decodeFields_encode_vsrt d a 0 p s k 0 0 (of_decide_eq_true hw).1 _ (by simp))
  | vmrg d a b k =>
    exact .instr (decodeFields_encode_vsrt d a b 0 0 k 0 0 (of_decide_eq_true hw).1 _ (by simp))
  | vmrgc q a b k =>
    exact .instr (decodeFields_encode_vsrt 0 a b 0 0 k q 0 (of_decide_eq_true hw) _ (by simp))
  | visec d a b k | vrank d a b k | vrankLe d a b k =>
    exact .instr (decodeFields_encode_vsrt d a b 0 0 k 0 0 (of_decide_eq_true hw) _ (by simp))
  | vuniq d a k =>
    exact .instr (decodeFields_encode_vsrt d a 0 0 0 k 0 0 (of_decide_eq_true hw) _ (by simp))
  | vpart d a b' k | vtopk d a b' k =>
    exact .instr (decodeFields_encode_vsrt d a 0 0 0 k 0 b' (of_decide_eq_true hw).1 _ (by simp))
  | vcmpt d a k =>
    exact .instr (decodeFields_encode_vsrt d a 0 0 0 k 0 0 (of_decide_eq_true hw).1 _ (by simp))
  | vchks a s k =>
    exact .instr (decodeFields_encode_vsrt 0 a 0 0 s k 0 0 (of_decide_eq_true hw) _ (by simp))
  | vfacet q a =>
    exact .instr (decodeFields_encode_vsrt_facet q a _ (by simp))
  | mopa t a b m f | mopaS t a b m f =>
    exact .instr (decodeFields_encode_mopa t a b m f 0 0 _ (by simp))
  | mopaW t a w m f =>
    exact .instr (decodeFields_encode_mopa t a 0 m f w 0 _ (by simp))
  | mopaGr t a s f =>
    exact .instr (decodeFields_encode_mopa t a 0 0 f 0 s _ (by simp))
  | tzero t =>
    exact .instr (decodeFields_encode_tops t 0 0 0 0 0 _ (by simp))
  | tanchor t a | tldRaw t a | tstRaw t a | cbld t a =>
    exact .instr (decodeFields_encode_tops t a 0 0 0 0 _ (by simp))
  | tres t f =>
    exact .instr (decodeFields_encode_tops t 0 0 f 0 0 _ (by simp))
  | tmovr t d c f =>
    exact .instr (decodeFields_encode_tops t 0 c f d 0 _ (by simp))
  | tmovw t a' c f =>
    exact .instr (decodeFields_encode_tops t 0 c f 0 a' _ (by simp))
  | tldCan t a f | tstCan t a f =>
    exact .instr (decodeFields_encode_tops t a 0 f 0 0 _ (by simp))
  | qpush q s =>
    exact .instr (decodeFields_encode_que q 0 s 0 0 0 _ (by simp))
  | qpop q d =>
    exact .instr (decodeFields_encode_que q 0 0 d 0 0 _ (by simp))
  | qstat q c =>
    exact .instr (decodeFields_encode_que q c 0 0 0 0 _ (by simp))
  | copy c a =>
    exact .instr (decodeFields_encode_que 0 c 0 0 a 0 _ (by simp))
  | vgthr v c a =>
    exact .instr (decodeFields_encode_que 0 c 0 0 a v _ (by simp))
  | drain c =>
    exact .instr (decodeFields_encode_que 0 c 0 0 0 0 _ (by simp))
  | fence s k =>
    exact .instr (decodeFields_encode_sync s k _ (by simp))
  | vlsync | vfenceD =>
    exact .instr (decodeFields_encode_sync 0 0 _ (by simp))
  | waitge a b w => exact .late (decodeFields_encode_sync_late a b w (.waitge a b w) (by simp))
  | waiteq a b w => exact .late (decodeFields_encode_sync_late a b w (.waiteq a b w) (by simp))
  | uend | yield =>
    exact .instr (decodeFields_encode_sched  _ (by simp))
  | launch a d => exact .late (decodeFields_encode_sched_late a d 0 0 (.launch a d) (by simp))
  | launchNode a b d => exact .late (decodeFields_encode_sched_late a d b 0 (.launchNode a b d) (by simp))
  | cancel a d => exact .late (decodeFields_encode_sched_late a d 0 0 (.cancel a d) (by simp))
  | cread a d => exact .late (decodeFields_encode_sched_late a d 0 0 (.cread a d) (by simp))
  | creadT a d => exact .late (decodeFields_encode_sched_late a d 0 0 (.creadT a d) (by simp))
  | clasp a d => exact .late (decodeFields_encode_sched_late a d 0 0 (.clasp a d) (by simp))
  | claspCfg a b d => exact .late (decodeFields_encode_sched_late a d b 0 (.claspCfg a b d) (by simp))
  | clarr a q => exact .late (decodeFields_encode_sched_late a 0 0 q (.clarr a q) (by simp))
  | clwait a b => exact .late (decodeFields_encode_sched_late a 0 b 0 (.clwait a b) (by simp))
  | grant a b d => exact .late (decodeFields_encode_sched_late a d b 0 (.grant a b d) (by simp))
  | csrr d c =>
    exact .instr (decodeFields_encode_sys d 0 c _ (by simp))
  | csrw a c | csrs a c | csrc a c =>
    exact .instr (decodeFields_encode_sys 0 a c _ (by simp))
  | ecall | ebrk | eret | snap | wfi =>
    exact .instr (decodeFields_encode_sys 0 0 0 _ (by simp))
  | ctxsave a => exact .late (decodeFields_encode_sys_late a 0 0 (.ctxsave a) (by simp))
  | ctxrst a => exact .late (decodeFields_encode_sys_late a 0 0 (.ctxrst a) (by simp))
  | tlbinv d a => exact .late (decodeFields_encode_sys_late a d 0 (.tlbinv d a) (by simp))
  | placew d a => exact .late (decodeFields_encode_sys_late a d 0 (.placew d a) (by simp))
  | vfset a v => exact .late (decodeFields_encode_sys_late a 0 v (.vfset a v) (by simp))
  | addi d a j | andi d a j | ori d a j | xori d a j | slti d a j | sltiu d a j | lb d a j | lbu d a j | lh d a j | lhu d a j | lw d a j
  | lwu d a j | ld d a j | jalr d a j =>
    exact .instr (decodeFields_encode_direct d a 0 0 0 j 0 0 0 0 _ (by simp))
  | lui d j' | auipc d j' | jal d j' =>
    exact .instr (decodeFields_encode_direct d 0 0 0 0 0 j' 0 0 0 _ (by simp))
  | sb s a j | sh s a j | sw s a j | sd s a j =>
    exact .instr (decodeFields_encode_direct 0 a s 0 0 j 0 0 0 0 _ (by simp))
  | beq a b j | bne a b j | blt a b j | bge a b j | bltu a b j | bgeu a b j =>
    exact .instr (decodeFields_encode_direct 0 a 0 b 0 j 0 0 0 0 _ (by simp))
  | loop a l | nest a l =>
    exact .instr (decodeFields_encode_direct 0 a 0 0 l 0 0 0 0 0 _ (by simp))
  | vidx d' s' p =>
    exact .instr (decodeFields_encode_direct 0 0 0 0 0 0 0 d' s' p _ (by simp))
  | hint h => exact .late (decodeFields_encode_direct_late h (.hint h) (by simp))
  | _ => cases hw

/-- Settles O54: the decoder's fields give the form of a well-formed instruction back from its word, family by family, and the
check of the form passes. -/
theorem decodeEncode : Obligations.DecodeEncode := by
  intro i h
  obtain ⟨d, rfl, hd⟩ := readBack_of_wellFormed h
  simp [decode, decodeWord_eq_ok.2 ⟨hd, h⟩]

/-! ## The word of an instruction, family by family -/

/-- Where this answer of the decoder is a form whose instruction is well formed, the word is that instruction's. -/
def Rebuilds (w : Word32) (r : Except DecodeError Decoded) : Prop :=
  ∀ d, r = .ok d → d.toInstr.wellFormed = true → encode d.toInstr = w

theorem Rebuilds.error {w : Word32} {e : DecodeError} : Rebuilds w (.error e) := by simp [Rebuilds]

theorem Rebuilds.ok {w : Word32} {d : Decoded} (h : d.toInstr.wellFormed = true → encode d.toInstr = w) : Rebuilds w (.ok d) := by
  rintro d ⟨⟩
  exact h

theorem Rebuilds.ite {w : Word32} {c : Prop} [Decidable c] {a b : Except DecodeError Decoded} (ha : c → Rebuilds w a)
    (hb : Rebuilds w b) : Rebuilds w (if c then a else b) := by
  split
  · next h => exact ha h
  · exact hb

/-- R66: a form of the copy engine whose engine field `c` is well formed has a queue field of 0, since any other refuses the word. -/
theorem Rebuilds.channel {w : Word32} {q c : BitVec 4} {e : DecodeError} {d : Decoded}
    (hd : d.toInstr.wellFormed = true → c.toNat < 8) (h : q = 0 → encode d.toInstr = w) :
    Rebuilds w (if q ≠ 0 ∧ c.toNat < 8 then .error e else .ok d) := by
  split
  · exact .error
  · next hq => exact .ok fun hw => h (not_not.1 fun hn => hq ⟨hn, hd hw⟩)

theorem rebuilds_alu {w : Word32} (hw : w.fld 26 6 = 0x1) : Rebuilds w (decodeAlu w) := by
  unfold decodeAlu
  repeat' refine .ite (fun h => ?_) ?_
  any_goals exact .error
  all_goals exact .ok fun _ => eq_of_fields [11, 5, 5, 5, 6] rfl (by
    simp [AgreeFrom, encode, Decoded.toInstr, placed_eq_layered, BitVec.extractLsb'_or, -BitVec.extractLsb'_toNat, *])

theorem rebuilds_shi {w : Word32} (hw : w.fld 26 6 = 0x8) : Rebuilds w (decodeShi w) := by
  unfold decodeShi
  repeat' refine .ite (fun h => ?_) ?_
  any_goals exact .error
  all_goals exact .ok fun _ => eq_of_fields [6, 2, 8, 5, 5, 6] rfl (by
    simp [AgreeFrom, encode, Decoded.toInstr, placed_eq_layered, BitVec.extractLsb'_or, -BitVec.extractLsb'_toNat, *])

theorem rebuilds_amo {w : Word32} (hw : w.fld 26 6 = 0x16) : Rebuilds w (decodeAmo w) := by
  unfold decodeAmo
  repeat' refine .ite (fun h => ?_) ?_
  any_goals exact .error
  all_goals exact .ok fun _ => eq_of_fields [1, 1, 3, 2, 4, 5, 5, 5, 6] rfl (by
    simp [AgreeFrom, encode, Decoded.toInstr, placed_eq_layered, BitVec.extractLsb'_or, -BitVec.extractLsb'_toNat, *])

theorem rebuilds_flt {w : Word32} (hw : w.fld 26 6 = 0x21) : Rebuilds w (decodeFlt w) := by
  unfold decodeFlt
  repeat' refine .ite (fun h => ?_) ?_
  any_goals exact .error
  all_goals exact .ok fun _ => eq_of_fields [4, 1, 6, 5, 5, 5, 6] rfl (by
    simp [AgreeFrom, encode, Decoded.toInstr, placed_eq_layered, BitVec.extractLsb'_or, -BitVec.extractLsb'_toNat, *])

theorem rebuilds_lend {w : Word32} (hw : w.fld 26 6 = 0x22) : Rebuilds w (decodeLend w) := by
  unfold decodeLend
  repeat' refine .ite (fun h => ?_) ?_
  any_goals exact .error
  all_goals exact .ok fun _ => eq_of_fields [12, 1, 6, 5, 1, 1, 6] rfl (by
    simp [AgreeFrom, encode, Decoded.toInstr, placed_eq_layered, BitVec.extractLsb'_or, -BitVec.extractLsb'_toNat, *])

theorem rebuilds_vcfg {w : Word32} (hw : w.fld 26 6 = 0x23) : Rebuilds w (decodeVcfg w) := by
  unfold decodeVcfg
  simp only [fld_split w 4 2 15, fld_split w 6 3 12, fld_split w 9 7 5]
  repeat' refine .ite (fun h => ?_) ?_
  any_goals exact .error
  all_goals exact .ok fun _ => eq_of_fields [4, 2, 3, 7, 5, 3, 2, 6] rfl (by
    simp [AgreeFrom, encode, Decoded.toInstr, placed_eq_layered, BitVec.extractLsb'_or, -BitVec.extractLsb'_toNat, *])

theorem rebuilds_vint {w : Word32} (hw : w.fld 26 6 = 0x24) : Rebuilds w (decodeVint w) := by
  unfold decodeVint
  simp only [fld_split w 0 6 1]
  repeat' refine .ite (fun h => ?_) ?_
  any_goals exact .error
  all_goals exact .ok fun _ => eq_of_fields [6, 1, 1, 6, 6, 6, 6] rfl (by
    simp [AgreeFrom, encode, Decoded.toInstr, placed_eq_layered, BitVec.extractLsb'_or, -BitVec.extractLsb'_toNat, *])

theorem rebuilds_vints {w : Word32} (hw : w.fld 26 6 = 0x25) : Rebuilds w (decodeVints w) := by
  unfold decodeVints
  simp only [fld_split w 0 6 2, fld_split w 6 1 1, fld_split w 14 6 6]
  repeat' refine .ite (fun h => ?_) ?_
  any_goals exact .error
  all_goals exact .ok fun _ => eq_of_fields [6, 1, 1, 1, 5, 6, 6, 6] rfl (by
    simp [AgreeFrom, encode, Decoded.toInstr, placed_eq_layered, BitVec.extractLsb'_or, -BitVec.extractLsb'_toNat, *])

theorem rebuilds_vflt {w : Word32} (hw : w.fld 26 6 = 0x26) : Rebuilds w (decodeVflt w) := by
  unfold decodeVflt
  simp only [fld_split w 0 6 1]
  repeat' refine .ite (fun h => ?_) ?_
  any_goals exact .error
  all_goals exact .ok fun _ => eq_of_fields [6, 1, 1, 6, 6, 6, 6] rfl (by
    simp [AgreeFrom, encode, Decoded.toInstr, placed_eq_layered, BitVec.extractLsb'_or, -BitVec.extractLsb'_toNat, *])

theorem rebuilds_vflts {w : Word32} (hw : w.fld 26 6 = 0x27) : Rebuilds w (decodeVflts w) := by
  unfold decodeVflts
  repeat' refine .ite (fun h => ?_) ?_
  any_goals exact .error
  all_goals exact .ok fun _ => eq_of_fields [6, 1, 1, 1, 5, 6, 6, 6] rfl (by
    simp [AgreeFrom, encode, Decoded.toInstr, placed_eq_layered, BitVec.extractLsb'_or, -BitVec.extractLsb'_toNat, *])

theorem rebuilds_vfix {w : Word32} (hw : w.fld 26 6 = 0x28) : Rebuilds w (decodeVfix w) := by
  unfold decodeVfix
  repeat' refine .ite (fun h => ?_) ?_
  any_goals exact .error
  all_goals exact .ok fun _ => eq_of_fields [6, 1, 1, 6, 6, 6, 6] rfl (by
    simp [AgreeFrom, encode, Decoded.toInstr, placed_eq_layered, BitVec.extractLsb'_or, -BitVec.extractLsb'_toNat, *])

theorem rebuilds_vcvt {w : Word32} (hw : w.fld 26 6 = 0x29) : Rebuilds w (decodeVcvt w) := by
  unfold decodeVcvt
  simp only [fld_split w 0 3 4, fld_split w 10 3 1, fld_split w 10 3 7, fld_split w 13 1 6, fld_split w 14 5 1]
  repeat' refine .ite (fun h => ?_) ?_
  any_goals exact .error
  all_goals exact .ok fun _ => eq_of_fields [3, 4, 1, 2, 3, 1, 5, 1, 6, 6] rfl (by
    simp [AgreeFrom, encode, Decoded.toInstr, placed_eq_layered, BitVec.extractLsb'_or, -BitVec.extractLsb'_toNat, *])

theorem rebuilds_vperm {w : Word32} (hw : w.fld 26 6 = 0x2a) : Rebuilds w (decodeVperm w) := by
  unfold decodeVperm
  simp only [fld_split w 8 5 1]
  repeat' refine .ite (fun h => ?_) ?_
  any_goals exact .error
  all_goals exact .ok fun _ => eq_of_fields [7, 1, 5, 1, 6, 6, 6] rfl (by
    simp [AgreeFrom, encode, Decoded.toInstr, placed_eq_layered, BitVec.extractLsb'_or, -BitVec.extractLsb'_toNat, *])

theorem rebuilds_vred {w : Word32} (hw : w.fld 26 6 = 0x2b) : Rebuilds w (decodeVred w) := by
  unfold decodeVred
  simp only [fld_split w 0 6 1]
  repeat' refine .ite (fun h => ?_) ?_
  any_goals exact .error
  all_goals exact .ok fun _ => eq_of_fields [6, 1, 1, 6, 6, 3, 3, 6] rfl (by
    simp [AgreeFrom, encode, Decoded.toInstr, placed_eq_layered, BitVec.extractLsb'_or, -BitVec.extractLsb'_toNat, *])

theorem rebuilds_vmask {w : Word32} (hw : w.fld 26 6 = 0x2c) : Rebuilds w (decodeVmask w) := by
  unfold decodeVmask
  repeat' refine .ite (fun h => ?_) ?_
  any_goals exact .error
  all_goals exact .ok fun _ => eq_of_fields [7, 1, 6, 6, 3, 3, 6] rfl (by
    simp [AgreeFrom, encode, Decoded.toInstr, placed_eq_layered, BitVec.extractLsb'_or, -BitVec.extractLsb'_toNat, *])

theorem rebuilds_vld {w : Word32} (hw : w.fld 26 6 = 0x2e) : Rebuilds w (decodeVld w) := by
  unfold decodeVld
  simp only [fld_split w 9 5 1]
  repeat' refine .ite (fun h => ?_) ?_
  any_goals exact .error
  all_goals exact .ok fun _ => eq_of_fields [2, 3, 3, 1, 5, 1, 5, 6, 6] rfl (by
    simp [AgreeFrom, encode, Decoded.toInstr, placed_eq_layered, BitVec.extractLsb'_or, -BitVec.extractLsb'_toNat, *])

theorem rebuilds_vst {w : Word32} (hw : w.fld 26 6 = 0x2f) : Rebuilds w (decodeVst w) := by
  unfold decodeVst
  simp only [fld_split w 9 5 1]
  repeat' refine .ite (fun h => ?_) ?_
  any_goals exact .error
  all_goals exact .ok fun _ => eq_of_fields [2, 3, 3, 1, 5, 1, 5, 6, 6] rfl (by
    simp [AgreeFrom, encode, Decoded.toInstr, placed_eq_layered, BitVec.extractLsb'_or, -BitVec.extractLsb'_toNat, *])

theorem rebuilds_vsrt {w : Word32} (hw : w.fld 26 6 = 0x30) : Rebuilds w (decodeVsrt w) := by
  unfold decodeVsrt
  simp only [fld_split w 0 3 4, fld_split w 7 1 6, fld_split w 8 1 5, fld_split w 9 1 4, fld_split w 10 3 1, fld_split w 20 3 3]
  repeat' refine .ite (fun h => ?_) ?_
  any_goals exact .error
  all_goals exact .ok fun _ => eq_of_fields [3, 4, 1, 1, 1, 3, 1, 6, 3, 3, 6] rfl (by
    simp [AgreeFrom, encode, Decoded.toInstr, placed_eq_layered, BitVec.extractLsb'_or, -BitVec.extractLsb'_toNat, *])

theorem rebuilds_mopa {w : Word32} (hw : w.fld 26 6 = 0x31) : Rebuilds w (decodeMopa w) := by
  unfold decodeMopa
  repeat' refine .ite (fun h => ?_) ?_
  any_goals exact .error
  all_goals exact .ok fun _ => eq_of_fields [7, 4, 1, 5, 1, 6, 2, 6] rfl (by
    simp [AgreeFrom, encode, Decoded.toInstr, placed_eq_layered, BitVec.extractLsb'_or, -BitVec.extractLsb'_toNat, *])

theorem rebuilds_tops {w : Word32} (hw : w.fld 26 6 = 0x32) : Rebuilds w (decodeTops w) := by
  unfold decodeTops
  simp only [fld_split w 7 4 1, fld_split w 7 4 13, fld_split w 11 1 12, fld_split w 12 5 7, fld_split w 17 1 6]
  repeat' refine .ite (fun h => ?_) ?_
  any_goals exact .error
  all_goals exact .ok fun _ => eq_of_fields [7, 4, 1, 5, 1, 6, 2, 6] rfl (by
    simp [AgreeFrom, encode, Decoded.toInstr, placed_eq_layered, BitVec.extractLsb'_or, -BitVec.extractLsb'_toNat, *])

theorem rebuilds_que {w : Word32} (hw : w.fld 26 6 = 0x33) : Rebuilds w (decodeQue w) := by
  unfold decodeQue
  simp only [fld_split w 16 5 1]
  refine .ite (fun h => .ite (fun _ => .ok fun _ => ?_) .error) <|
    .ite (fun h => .ite (fun _ => .ok fun _ => ?_) .error) <|
    .ite (fun h => .ite (fun _ => .ok fun _ => ?_) .error) <|
    .ite (fun h => .ite (fun _ => .channel of_decide_eq_true fun hq => ?_) .error) <|
    .ite (fun h => .ite (fun _ => .channel of_decide_eq_true fun hq => ?_) .error) <|
    .ite (fun h => .ite (fun _ => .channel of_decide_eq_true fun hq => ?_) .error) .error
  all_goals exact eq_of_fields [5, 7, 4, 5, 1, 4, 6] rfl (by
    simp [AgreeFrom, encode, Decoded.toInstr, placed_eq_layered, BitVec.extractLsb'_or, -BitVec.extractLsb'_toNat, *])

theorem rebuilds_sync {w : Word32} (hw : w.fld 26 6 = 0x34) : Rebuilds w (decodeSync w) := by
  unfold decodeSync
  simp only [fld_split w 0 1 19, fld_split w 1 1 18, fld_split w 2 3 15, fld_split w 5 5 10, fld_split w 10 5 5, fld_split w 1 1 8, fld_split w 2 3 5]
  repeat' refine .ite (fun h => ?_) ?_
  any_goals exact .error
  all_goals exact .ok fun _ => eq_of_fields [1, 1, 3, 5, 5, 5, 6, 6] rfl (by
    simp [AgreeFrom, encode, Decoded.toInstr, LateInstr.toInstr, placed_eq_layered, BitVec.extractLsb'_or, -BitVec.extractLsb'_toNat, *])

theorem rebuilds_sched {w : Word32} (hw : w.fld 26 6 = 0x35) : Rebuilds w (decodeSched w) := by
  unfold decodeSched
  simp only [fld_split w 5 3 2, fld_split w 5 3 12, fld_split w 8 2 10, fld_split w 10 5 5, fld_split w 8 2 5]
  repeat' refine .ite (fun h => ?_) ?_
  any_goals exact .error
  all_goals exact .ok fun _ => eq_of_fields [5, 3, 2, 5, 5, 6, 6] rfl (by
    simp [AgreeFrom, encode, Decoded.toInstr, LateInstr.toInstr, placed_eq_layered, BitVec.extractLsb'_or, -BitVec.extractLsb'_toNat, *])

theorem rebuilds_sys {w : Word32} (hw : w.fld 26 6 = 0x36) : Rebuilds w (decodeSys w) := by
  unfold decodeSys
  simp only [fld_split w 4 6 6, fld_split w 4 6 16, fld_split w 10 6 10, fld_split w 16 5 5]
  repeat' refine .ite (fun h => ?_) ?_
  any_goals exact .error
  all_goals exact .ok fun _ => eq_of_fields [4, 6, 6, 5, 5, 6] rfl (by
    simp [AgreeFrom, encode, Decoded.toInstr, LateInstr.toInstr, placed_eq_layered, BitVec.extractLsb'_or, -BitVec.extractLsb'_toNat, *])

theorem rebuilds_decodeFields (w : Word32) : Rebuilds w (decodeFields w) := by
  unfold decodeFields
  simp only [fld_split w 0 10 6]
  refine .ite rebuilds_alu <| .ite (fun h => .ok fun _ => ?_) <| .ite (fun h => .ok fun _ => ?_) <|
    .ite (fun h => .ok fun _ => ?_) <| .ite (fun h => .ok fun _ => ?_) <| .ite (fun h => .ok fun _ => ?_) <|
    .ite (fun h => .ok fun _ => ?_) <| .ite rebuilds_shi <| .ite (fun h => .ok fun _ => ?_) <| .ite (fun h => .ok fun _ => ?_) <|
    .ite (fun h => .ok fun _ => ?_) <| .ite (fun h => .ok fun _ => ?_) <| .ite (fun h => .ok fun _ => ?_) <|
    .ite (fun h => .ok fun _ => ?_) <| .ite (fun h => .ok fun _ => ?_) <| .ite (fun h => .ok fun _ => ?_) <|
    .ite (fun h => .ok fun _ => ?_) <| .ite (fun h => .ok fun _ => ?_) <| .ite (fun h => .ok fun _ => ?_) <|
    .ite (fun h => .ok fun _ => ?_) <| .ite (fun h => .ok fun _ => ?_) <| .ite rebuilds_amo <| .ite (fun h => .ok fun _ => ?_) <|
    .ite (fun h => .ok fun _ => ?_) <| .ite (fun h => .ok fun _ => ?_) <| .ite (fun h => .ok fun _ => ?_) <|
    .ite (fun h => .ok fun _ => ?_) <| .ite (fun h => .ok fun _ => ?_) <| .ite (fun h => .ok fun _ => ?_) <|
    .ite (fun h => .ok fun _ => ?_) <| .ite (fun h => .ite (fun _ => .ok fun _ => ?_) .error) <|
    .ite (fun h => .ite (fun _ => .ok fun _ => ?_) .error) <| .ite rebuilds_flt <| .ite rebuilds_lend <| .ite rebuilds_vcfg <|
    .ite rebuilds_vint <| .ite rebuilds_vints <| .ite rebuilds_vflt <| .ite rebuilds_vflts <| .ite rebuilds_vfix <|
    .ite rebuilds_vcvt <| .ite rebuilds_vperm <| .ite rebuilds_vred <| .ite rebuilds_vmask <| .ite (fun h => .ok fun _ => ?_) <|
    .ite rebuilds_vld <| .ite rebuilds_vst <| .ite rebuilds_vsrt <| .ite rebuilds_mopa <| .ite rebuilds_tops <|
    .ite rebuilds_que <| .ite rebuilds_sync <| .ite rebuilds_sched <| .ite rebuilds_sys <| .ite (fun h => .ok fun _ => ?_) <|
    .error
  all_goals exact eq_of_fields [10, 6, 4, 1, 5, 6] rfl (by
    simp [AgreeFrom, encode, Decoded.toInstr, LateInstr.toInstr, placed_eq_layered, BitVec.extractLsb'_or,
      -BitVec.extractLsb'_toNat, *])

/-- Settles O55: every answer of the decoder's tables is rebuilt by the encoder, field by field, and the decoder answers no form
that fails its check. -/
theorem encodeDecode : Obligations.EncodeDecode := by
  intro w i h
  obtain ⟨d, hd, rfl⟩ := Machine.decode_eq_ok h
  obtain ⟨hf, hw⟩ := decodeWord_eq_ok.1 hd
  exact ⟨rebuilds_decodeFields w d hf hw, hw⟩

/-- Settles O53: the words of the tables are evaluated. -/
theorem decodeWords : Obligations.DecodeWords := by
  unfold Obligations.DecodeWords
  decide

end Sys2Proof

namespace Sys2Proof.Machine
open Sys2Proof.Claims

/-! The word that follows a lend (R72 to R75, R135 to R137). -/

/-- What the SCT's words may change (see `OnlyX`), by the fields. -/
theorem onlyX_iff {s t : State} :
    OnlyX s t ↔ t = { s with ctx := { s.ctx with x := t.ctx.x, pc := t.ctx.pc, loop := t.ctx.loop, latch := none, stall := none } } := by
  refine ⟨And.left, fun h => ⟨h, fun a => ?_⟩⟩
  rw [h]
  rfl

theorem State.retire_onlyX (s : State) : OnlyX s s.retire := onlyX_iff.2 s.retire_only

theorem State.setX_retire_onlyX (s : State) (d : BitVec 5) (v : Word) : OnlyX s (s.setX d v).retire := by
  rw [onlyX_iff, State.setX_only]
  exact State.retire_only _

/-- R75, R135, R136. -/
theorem lendLatches : LendLatches := by
  intro s n k e p c
  refine ⟨s.retire.onCtx fun x => { x with latch := some ⟨n == 1, k == 1, p, k == 0 && s.getX p != 0, e == 1, c, false, pcPlus s.ctx.pc 4⟩ },
    rfl, ?_, ?_⟩
  · simp [State.onCtx, bne, Bool.decide_and]
    rfl
  · show OnlyX s { s with ctx := { s.ctx.retire with latch := none } }
    rw [← s.ctx.retire_latch]
    exact s.retire_onlyX

/-- The latch is pending for the word at lend + 4. -/
theorem State.onCtx_latchHere_of_succ {s : State} {l : Latch} (h : s.ctx.latch = some l) (hp : l.succ = s.ctx.pc) :
    (s.onCtx fun c => { c with latch := c.latchHere }) = s := by
  have he : s.ctx.latchHere = s.ctx.latch := by simp [Ctx.latchHere, h, hp]
  show ({ s with ctx := { s.ctx with latch := s.ctx.latchHere } } : State) = s
  rw [he]

theorem State.onCtx_latchHere_of_ne {s : State} {l : Latch} (h : s.ctx.latch = some l) (hp : l.succ ≠ s.ctx.pc) :
    (s.onCtx fun c => { c with latch := c.latchHere }) = s.onCtx fun c => { c with latch := none } := by
  have he : s.ctx.latchHere = none := by simp [Ctx.latchHere, h, hp]
  show ({ s with ctx := { s.ctx with latch := s.ctx.latchHere } } : State) = _
  rw [he]
  rfl

/-- R75: the latch governs the word at lend + 4 only. -/
theorem State.runFetched_latched {s : State} {l : Latch} {w : Word32} {d : Decoded} (h : s.ctx.latch = some l)
    (hd : decodeWord w = .ok d) :
    (l.succ = s.ctx.pc → s.runFetched w = s.successor l w d) ∧
    (l.succ ≠ s.ctx.pc → s.runFetched w = runDecoded d (s.onCtx fun c => { c with latch := none })) := by
  refine ⟨fun hp => ?_, fun hp => ?_⟩ <;> unfold State.runFetched
  · rw [State.onCtx_latchHere_of_succ h hp]
    simp only [hd, h]
  · rw [State.onCtx_latchHere_of_ne h hp]
    simp only [hd]
    rfl

theorem State.skip_none (s : State) (l : Latch) : s.skip l none = s.retire := rfl

theorem State.skip_of_not_dcEn (s : State) {l : Latch} (h : l.dcEn = false) (d : Option (BitVec 5)) : s.skip l d = s.retire := by
  cases d <;> simp [State.skip, h]

theorem State.skip_some (s : State) {l : Latch} (h : l.dcEn = true) (d : BitVec 5) :
    s.skip l (some d) = (s.setX d (s.getX (l.dcopy.setWidth 5))).retire := by
  simp [State.skip, h]

theorem State.skip_onlyX (s : State) (l : Latch) (d : Option (BitVec 5)) : OnlyX s (s.skip l d) := by
  cases d with
  | none => exact s.retire_onlyX
  | some d =>
    cases h : l.dcEn with
    | false => rw [s.skip_of_not_dcEn h]; exact s.retire_onlyX
    | true => rw [s.skip_some h]; exact s.setX_retire_onlyX _ _

/-- R43, R72 to R75, R136, R137. -/
theorem lendSuccessor : LendSuccessor := by
  refine ⟨fun s l w d h hd => State.runFetched_latched h hd, fun s l w d => ?_⟩
  unfold State.successor
  refine ⟨fun hp => if_pos hp, fun hp he => ?_, fun hp he hr => ?_, fun hp he hd hv => ?_⟩
  · rw [if_neg (Nat.not_lt.2 hp), he]
    rfl
  · rw [if_neg (Nat.not_lt.2 hp), he]
    simp [hr]
  · refine ⟨s.skip l (decodedDest d), ?_, s.skip_onlyX l _, fun r hr hc => ?_, fun hr => ?_⟩
    · rw [if_neg (Nat.not_lt.2 hp), he]
      simp [hd, hv]
    · rw [hr, s.skip_some hc]
    · rcases hr with hr | hc
      · rw [hr, State.skip_none]
      · exact s.skip_of_not_dcEn hc _

/-- Settles O13: lend leaves the latch that its fields give, and the answer of `State.successor` in each of its branches. -/
theorem lends : Obligations.Lends := ⟨lendLatches, lendSuccessor⟩

end Sys2Proof.Machine

namespace Sys2Proof.Machine
open Sys2Proof.Claims

/-! ## Words that are no instruction -/

theorem State.onCtx_latch_none {s : State} (h : s.ctx.latch = none) : (s.onCtx fun c => { c with latch := none }) = s := by
  show ({ s with ctx := { s.ctx with latch := none } } : State) = s
  rw [← h]

theorem exec_illegalWord_at_once {s : State} {w : Word32} (hw : illegalEnters w = false) (hl : s.ctx.latch = none) (e : DecodeError) :
    exec (.illegalWord w e) s = .next (s.trap (illegalCause e s.ctx.priv) (w.setWidth 64)) := by
  show execIllegalWord w e s = _
  unfold execIllegalWord
  rw [if_neg (by simp [hw]), State.onCtx_latch_none hl]

theorem exec_illegalWord_issued {s : State} {w : Word32} (hw : illegalEnters w = true) (hs : VectorIdle s) (e : DecodeError) :
    exec (.illegalWord w e) s =
      .next ((issued (.illegalWord w e) 0 0 s).takeTrap false true (illegalCause e s.ctx.priv) (w.setWidth 64)) := by
  obtain ⟨-, -, hl, -, -⟩ := id hs
  show execIllegalWord w e s = _
  unfold execIllegalWord
  rw [if_pos (by simp [hw, hl]), State.issue_of_vectorIdle hs]
  simp [commitIllegalWord]

/-- Settles O56: a word that is not bound for the queue traps with the cause of R43; one that is bound for it is issued, and its commit
raises that cause. -/
theorem illegalWords : Obligations.IllegalWords := by
  rintro s w e code rfl
  refine ⟨fun hw hl => ?_, fun hw hs => ?_⟩
  · rw [exec_illegalWord_at_once hw hl]
    cases e <;> rfl
  · rw [exec_illegalWord_issued hw hs]
    cases e <;> rfl

/-! ## Words below their level -/

theorem State.sched_below {s : State} {p : Priv} (h : s.ctx.priv.rank < p.rank) (l : LateInstr) (k : State → Res) :
    s.sched p l k = .next (s.trap 0x03 ((LateInstr.encode l).setWidth 64)) := State.needs_below h _ _

/-- A privileged word asks for its level before anything else. -/
theorem exec_below_level {i : Instr} {p : Priv} {s : State} (hi : privileged i = some p) (hp : s.ctx.priv.rank < p.rank) :
    exec i s = .next (s.trap 0x03 ((encode i).setWidth 64)) := by
  cases i with
  | launch | launchNode | cancel | claspCfg | grant =>
    cases hi
    exact State.sched_below hp _ _
  | ctxsave a => cases hi; exact (State.needs_below hp _ _ : execCtxsave a s = _)
  | ctxrst a => cases hi; exact (State.needs_below hp _ _ : execCtxrst a s = _)
  | tlbinv d a => cases hi; exact (State.needs_below hp _ _ : execTlbinv d a s = _)
  | vfset a v => cases hi; exact (State.needs_below hp _ _ : execVfset a v s = _)
  | eret => cases hi; exact (State.needs_below hp _ _ : execEret s = _)
  | snap => cases hi; exact (State.needs_below hp _ _ : execSnap s = _)
  | wfi => cases hi; exact (State.needs_below hp _ _ : execWfi s = _)
  | placew d a => cases hi; exact (State.needs_below hp _ _ : execPlacew d a s = _)
  | _ => cases hi

theorem csrWrite_cases {i : Instr} {s : State} {n : BitVec 12} {old v : Word} (h : csrWrite i s old = some (n, v)) :
    ∃ a, i = .csrw a n ∨ i = .csrs a n ∨ i = .csrc a n := by
  cases i with
  | csrw a m => cases h; exact ⟨a, .inl rfl⟩
  | csrs a m => cases h; exact ⟨a, .inr (.inl rfl)⟩
  | csrc a m => cases h; exact ⟨a, .inr (.inr rfl)⟩
  | _ => cases h

/-- The three words that write a CSR run as one access. -/
theorem exec_csrAccess {i : Instr} {s : State} {n : BitVec 12} {old v : Word} (h : csrWrite i s old = some (n, v)) :
    ∃ fn a go, exec i s = s.csrAccess fn i a n go := by
  obtain ⟨a, rfl | rfl | rfl⟩ := csrWrite_cases h
  · exact ⟨1, a, _, rfl⟩
  · exact ⟨2, a, _, rfl⟩
  · exact ⟨3, a, _, rfl⟩

theorem State.csrAccess_below {s : State} {n : BitVec 12} (h : s.ctx.priv.rank < (csrWriteLevel n).rank) (fn : Nat) (i : Instr) (a : BitVec 5)
    (go : State → Commit) : s.csrAccess fn i a n go = .next (s.trap 0x03 ((encode i).setWidth 64)) := State.needs_below h _ _

theorem State.csrAccess_of_not_writable {s : State} {n : BitVec 12} (hp : (csrWriteLevel n).rank ≤ s.ctx.priv.rank) (hw : csrWritable n = false)
    (fn : Nat) (i : Instr) (a : BitVec 5) (go : State → Commit) :
    s.csrAccess fn i a n go = .next (s.trap 0x02 ((encode i).setWidth 64)) := by
  unfold State.csrAccess
  rw [State.needs_allowed hp, hw]
  rfl

theorem csrWriteLevel_some {n : BitVec 12} {r : CsrRights} {p : Priv} (hr : csrRights n = some r) (h : r.write = some p) :
    csrWriteLevel n = p := by
  obtain ⟨rd, w, k⟩ := r
  cases h
  simp [csrWriteLevel, hr]

theorem csrWriteLevel_none {n : BitVec 12} {r : CsrRights} (hr : csrRights n = some r) (h : r.write = none) : csrWriteLevel n = .sup := by
  obtain ⟨rd, w, k⟩ := r
  cases h
  simp [csrWriteLevel, hr]

theorem csrWritable_none {n : BitVec 12} {r : CsrRights} (hr : csrRights n = some r) (h : r.write = none) : csrWritable n = false := by
  obtain ⟨rd, w, k⟩ := r
  cases h
  simp [csrWritable, hr]

theorem Priv.sup_le_of_ne_app {p : Priv} (h : p ≠ .app) : Priv.sup.rank ≤ p.rank := by
  cases p with
  | app => exact absurd rfl h
  | sup | hyp => decide

/-- R398: the decoder's check of a write of a CSR whose Write column is "none". -/
theorem decode_encode_of_read_only {i : Instr} {s : State} {n : BitVec 12} {old v : Word} {r : CsrRights}
    (h : csrWrite i s old = some (n, v)) (hr : csrRights n = some r) (hw : r.write = none) :
    decode (encode i) = .error (.field .sup) := by
  obtain ⟨a, hi⟩ := csrWrite_cases h
  have hf : decodeFields (encode i) = .ok (.instr i) := decodeFields_encode_sys 0 a n i (by rcases hi with rfl | rfl | rfl <;> simp)
  have hc : (Decoded.instr i).check = .error (.field .sup) := by
    have hn : i.wellFormed = false ∧ i.lowestLevel = .sup := by
      rcases hi with rfl | rfl | rfl <;> exact ⟨csrWritable_none hr hw, csrWriteLevel_none hr hw⟩
    simp [Decoded.check, hn]
  simp [decode, decodeWord, hf, hc]

theorem illegalEnters_encode_csrWrite {i : Instr} {s : State} {n : BitVec 12} {old v : Word} (h : csrWrite i s old = some (n, v)) :
    illegalEnters (encode i) = false := by
  have hf : (encode i).fld 26 6 = 0x36 := by
    obtain ⟨a, rfl | rfl | rfl⟩ := csrWrite_cases h <;> simp [encode, Sys2Proof.placed_eq_layered, BitVec.extractLsb'_or]
  simp [illegalEnters, hf]

/-- Settles O15: each privileged word checks its level first; a CSR write checks the CSR's level and then whether any level may write it,
and the decoder makes the second check of its word. -/
theorem privilegeTraps : Obligations.PrivilegeTraps := by
  refine ⟨fun i p s => exec_below_level, fun i s n old v r h hr => ⟨fun hb => ?_, fun hw hp => ?_, fun hw hl => ⟨?_, ?_⟩⟩⟩
  · obtain ⟨fn, a, go, he⟩ := exec_csrAccess h
    rw [he]
    refine State.csrAccess_below ?_ fn i a go
    rcases hb with ⟨p, hw, hp⟩ | ⟨hw, hp⟩
    · rwa [csrWriteLevel_some hr hw]
    · rw [csrWriteLevel_none hr hw, hp]
      decide
  · obtain ⟨fn, a, go, he⟩ := exec_csrAccess h
    rw [he]
    refine State.csrAccess_of_not_writable ?_ (csrWritable_none hr hw) fn i a go
    rw [csrWriteLevel_none hr hw]
    exact Priv.sup_le_of_ne_app hp
  · exact decode_encode_of_read_only h hr hw
  · rw [exec_illegalWord_at_once (illegalEnters_encode_csrWrite h) hl]
    cases hp : s.ctx.priv <;> rfl

end Sys2Proof.Machine

/-! What an app context keeps (R43, R69, R329, R356, R370, R397): its level but for a trap, its ASID, its vectors and DETM. Each operation
is followed through the operations it is made of. -/

namespace Sys2Proof.Machine
open Sys2Proof.Claims

/-- What only a trap, or a word that an app context may not execute, changes of a context. -/
structure Rights where
  priv : Priv
  asid : BitVec 13
  tvec : Word
  htvec : Word
  detm : Bool

def Ctx.rights (c : Ctx) : Rights := ⟨c.priv, c.asid, c.tvec, c.htvec, c.detm⟩

/-! ## Contexts -/

@[simp] theorem Ctx.setX_rights (c : Ctx) (d : BitVec 5) (v : Word) : (c.setX d v).rights = c.rights := by simp [Ctx.rights]
@[simp] theorem Ctx.retire_rights (c : Ctx) : c.retire.rights = c.rights := by simp [Ctx.rights]
@[simp] theorem Ctx.putFacet_rights (c : Ctx) (r : BitVec 6) (f : BitVec 16) : (c.putFacet r f).rights = c.rights := rfl
@[simp] theorem Ctx.raiseHwm_rights (c : Ctx) (d n : Nat) : (c.raiseHwm d n).rights = c.rights := rfl
@[simp] theorem Ctx.putV_rights (c : Ctx) (r : BitVec 6) (w : VWord) : (c.putV r w).rights = c.rights := rfl
@[simp] theorem Ctx.putTile_rights (c : Ctx) (t : BitVec 2) (x : Tile) : (c.putTile t x).rights = c.rights := rfl
@[simp] theorem Ctx.setCh_rights (c : Ctx) (k : BitVec 3) (h : Chan) : (c.setCh k h).rights = c.rights := rfl
@[simp] theorem Ctx.newTenure_rights (c : Ctx) : c.newTenure.rights = c.rights := rfl

theorem Ctx.setTuple_rights (c : Ctx) (j : List Nat) : (c.setTuple j).rights = c.rights :=
  foldl_keeps Ctx.rights _ (fun u _ => u.setX_rights _ _) _ c

theorem Ctx.enqueue_rights (c : Ctx) (p : Pend) : (c.enqueue p).rights = c.rights := rfl

theorem Ctx.leave_rights (c : Ctx) (f : WLine → Bool) : (c.leave f).rights = c.rights :=
  foldl_keeps Ctx.rights (fun (c : Ctx) (l : WLine) => c.enqueue l.pend) (fun _ _ => rfl) _ _

theorem Ctx.leaveOne_rights (c : Ctx) : c.leaveOne.rights = c.rights := by
  unfold Ctx.leaveOne
  split <;> rfl

theorem Ctx.placeBar_rights (c : Ctx) (kind : Nat) : (c.placeBar kind).rights = c.rights := by
  unfold Ctx.placeBar
  grind [Ctx.leave_rights, Ctx.enqueue_rights]

theorem Ctx.buffer_rights (c : Ctx) (age : Nat) (p : Pend) : (c.buffer age p).rights = c.rights := by
  unfold Ctx.buffer
  dsimp only
  split <;> rfl

theorem Ctx.bypass_rights (c : Ctx) (p : Pend) : (c.bypass p).rights = c.rights := by
  unfold Ctx.bypass
  grind [Ctx.leave_rights, Ctx.enqueue_rights]

theorem Ctx.land_rights (c : Ctx) (p : Pend) : (c.land p).rights = c.rights := by
  unfold Ctx.land
  grind [Ctx.leave_rights, Ctx.placeBar_rights, Ctx.buffer_rights, Ctx.bypass_rights]

theorem Ctx.landLate_rights (c : Ctx) : c.landLate.rights = c.rights := by
  unfold Ctx.landLate
  split
  · rfl
  · exact foldl_keeps Ctx.rights _ Ctx.land_rights _ _

theorem Ctx.SameButAccesses.rights {c d : Ctx} (h : c.SameButAccesses d) : d.rights = c.rights := by rw [h]; rfl

/-! ## The machine's operations -/

@[simp] theorem State.retire_rights (s : State) : s.retire.ctx.rights = s.ctx.rights := s.ctx.retire_rights
@[simp] theorem State.setX_rights (s : State) (d : BitVec 5) (v : Word) : (s.setX d v).ctx.rights = s.ctx.rights := s.ctx.setX_rights d v
@[simp] theorem State.orFlags_rights (s : State) (fl : BitVec 5) : (s.orFlags fl).ctx.rights = s.ctx.rights := rfl
@[simp] theorem State.stallFor_rights (s : State) (k : Stall) : (s.stallFor k).ctx.rights = s.ctx.rights := rfl
@[simp] theorem State.retireTo_rights (s : State) (p : Word) : (s.retireTo p).ctx.rights = s.ctx.rights := rfl
@[simp] theorem State.onDev_rights (s : State) (f : Dev → Dev) : (s.onDev f).ctx.rights = s.ctx.rights := rfl

theorem State.onCtx_rights {s : State} {f : Ctx → Ctx} (h : ∀ c : Ctx, (f c).rights = c.rights) : (s.onCtx f).ctx.rights = s.ctx.rights := h _

/-- The write of a context keeps the rights of the one whose turn it is where it keeps those of the one written. -/
theorem State.setCtx_rights {s : State} {c : Nat} {x : Ctx} (h : x.rights = (s.ctxOf c).rights) : (s.setCtx c x).ctx.rights = s.ctx.rights := by
  unfold State.setCtx State.ctxOf at *
  split
  · next hc => simpa [hc] using h
  · rfl

theorem State.foldl_rights {α : Type} {f : State → α → State} (hf : ∀ (u : State) (a : α), (f u a).ctx.rights = u.ctx.rights) (l : List α)
    (s : State) : (l.foldl f s).ctx.rights = s.ctx.rights := foldl_keeps (fun u : State => u.ctx.rights) f hf l s

theorem StoresOnly.rights {s t : State} (h : StoresOnly s t) (hc : t.cur = s.cur) : t.ctx.rights = s.ctx.rights := by
  have ht : ∀ u : State, u.ctx = u.ctxOf u.cur := fun u => by simp [State.ctxOf]
  rw [ht t, ht s, hc, h.ctx]
  rfl

/-! ## Translation, records and stores -/

theorem State.translate_rights {s t : State} {asid : BitVec 13} {priv : Priv} {k : AccKind} {va : Word} {r : Except Refused Loc}
    (e : s.translate asid priv k va = (r, t)) : t.ctx.rights = s.ctx.rights := by
  have h := s.translate_ctx asid priv k va
  rw [e] at h
  rw [← h]

theorem State.record_rights {s t : State} {asid : BitVec 13} {rec_ : Record} {a : Word} (e : s.record asid rec_ = (t, a)) :
    t.ctx.rights = s.ctx.rights := by
  have h := s.appendRecord_ctx asid fun seq => rec_.bytes seq s.gts
  unfold State.record at e
  rw [e] at h
  rw [← h]

theorem State.pendMcheck_rights (s : State) (c : Nat) (p : Pending) : (s.pendMcheck c p).ctx.rights = s.ctx.rights :=
  (s.pendMcheck_sameButAccesses c p).rights

theorem State.report_rights (s : State) (c kind : Nat) (p : Spot) : (s.report c kind p).ctx.rights = s.ctx.rights :=
  (s.report_sameButAccesses c kind p).rights

theorem State.noteRefused_rights (s : State) (c key : Nat) (p : Spot) : (s.noteRefused c key p).ctx.rights = s.ctx.rights :=
  (s.noteRefused_sameButAccesses c key p).rights

theorem State.perform_rights (s : State) (c : Nat) (spot : Nat → Spot) (parts : List (Nat × Nat)) (ws : List (Nat × Byte)) :
    (s.perform c spot parts ws).ctx.rights = s.ctx.rights := (s.perform_sameButAccesses c spot parts ws).rights

theorem State.settleWrites_rights (s : State) (parts : List (Nat × Nat)) (ws : List (Nat × Byte)) :
    (s.settleWrites parts ws).ctx.rights = s.ctx.rights := by
  unfold State.settleWrites
  simp

theorem State.performAll_rights (s : State) (ps : List Pend) : (s.performAll ps).ctx.rights = s.ctx.rights :=
  (s.performAll_sameButAccesses ps).rights

theorem State.force_rights {s t : State} {lvl : Nat} {need : Pend → Bool} (e : s.force lvl need = some t) : t.ctx.rights = s.ctx.rights :=
  (State.force_sameButAccesses e).rights

theorem State.behindBarriers_rights {s t : State} (e : s.behindBarriers = some t) : t.ctx.rights = s.ctx.rights := State.force_rights e

theorem State.beforeFetch_rights {s t : State} (e : s.beforeFetch = some t) : t.ctx.rights = s.ctx.rights :=
  (State.beforeFetch_sameButAccesses e).rights

theorem State.translating_rights {s t : State} {lane free : Bool} (e : s.translating lane free = some t) : t.ctx.rights = s.ctx.rights := by
  unfold State.translating at e
  grind [State.behindBarriers_rights]

theorem State.drainOut_rights (s : State) : s.drainOut.ctx.rights = s.ctx.rights := by
  unfold State.drainOut
  split
  · rfl
  · exact Ctx.leave_rights _ _

theorem State.release_rights {s t : State} (e : s.release = some t) : t.ctx.rights = s.ctx.rights :=
  (State.force_rights e).trans s.drainOut_rights

theorem State.performReady_rights (s : State) : s.performReady.ctx.rights = s.ctx.rights := by
  unfold State.performReady
  split
  exact State.performAll_rights _ _

theorem State.settle_rights (s : State) : s.settle.ctx.rights = s.ctx.rights := by
  unfold State.settle
  grind [State.performReady_rights]

@[simp] theorem State.turnTo_cur (s : State) (c : Nat) : (s.turnTo c).cur = c := by
  unfold State.turnTo
  split
  · next h => exact h.symm
  · rfl

theorem State.settleOf_cur (s : State) (c : Nat) : (s.settleOf c).cur = s.cur := by
  unfold State.settleOf
  split <;> simp

theorem State.settleOf_rights (s : State) (c : Nat) : (s.settleOf c).ctx.rights = s.ctx.rights :=
  (s.settleOf_storesOnly c).rights (s.settleOf_cur c)

theorem State.settleCore_rights (s : State) (c : Nat) : (s.settleCore c).ctx.rights = s.ctx.rights := by
  unfold State.settleCore
  rw [State.settleOf_rights, State.settleOf_rights]

theorem Ctx.leaveOne_sameButAccesses (c : Ctx) : c.SameButAccesses c.leaveOne := by
  unfold Ctx.leaveOne
  split <;> rfl

theorem State.leaveOldest_sameButAccesses (s : State) (core n : Nat) : s.ctx.SameButAccesses (s.leaveOldest core n).ctx := by
  induction n generalizing s with
  | zero => exact .refl _
  | succ n ih =>
    unfold State.leaveOldest
    split
    · exact .refl _
    · next c _ =>
      refine Ctx.SameButAccesses.trans ?_ (ih _)
      unfold State.setCtx State.ctxOf
      split
      · exact s.ctx.leaveOne_sameButAccesses
      · exact .refl _

theorem State.spill_sameButAccesses (s : State) : s.ctx.SameButAccesses s.spill.ctx := by
  unfold State.spill
  dsimp only
  split
  · exact .refl _
  · exact s.leaveOldest_sameButAccesses _ _

theorem State.spill_rights (s : State) : s.spill.ctx.rights = s.ctx.rights := s.spill_sameButAccesses.rights

theorem State.drainOldest_rights (s : State) (core n : Nat) : (s.drainOldest core n).ctx.rights = s.ctx.rights := by
  induction n generalizing s with
  | zero => rfl
  | succ n ih =>
    unfold State.drainOldest
    split
    · rfl
    · rw [ih, State.settleOf_rights]
      exact State.setCtx_rights (Ctx.leaveOne_rights _)

theorem State.bufferStore_rights (s : State) (p : Pend) : (s.bufferStore p).ctx.rights = s.ctx.rights := by
  have h := fun u : State => u.onCtx_rights (f := fun c => c.buffer u.steps p) fun c => c.buffer_rights _ _
  have hl := s.onCtx_rights fun c => c.leave_rights p.otherLine
  unfold State.bufferStore
  grind [State.settle_rights, State.drainOldest_rights]

theorem State.placeBar_rights (s : State) (kind : Nat) : (s.placeBar kind).ctx.rights = s.ctx.rights := by
  have h := s.onCtx_rights fun c => c.placeBar_rights kind
  unfold State.placeBar
  grind [State.settle_rights]

theorem State.barrier_rights (s : State) (kind : Nat) : (s.barrier kind).ctx.rights = s.ctx.rights := by
  unfold State.barrier
  split
  · exact s.placeBar_rights kind
  · split <;> rfl

theorem State.settleBars_rights (s : State) : s.settleBars.ctx.rights = s.ctx.rights := by
  unfold State.settleBars
  dsimp only
  split
  · rfl
  · exact (State.foldl_rights (fun u (b : Nat × Nat) => u.placeBar_rights b.2) _ _).trans (s.onCtx_rights fun _ => rfl)

theorem State.advanceBars_rights (s : State) : s.advanceBars.ctx.rights = s.ctx.rights := by
  unfold State.advanceBars
  split
  · rfl
  · exact (State.settleBars_rights _).trans (s.onCtx_rights fun _ => rfl)

theorem State.landLate_rights (s : State) : s.landLate.ctx.rights = s.ctx.rights := by
  have h := s.onCtx_rights Ctx.landLate_rights
  unfold State.landLate
  grind [State.settle_rights, State.settleCore_rights, State.spill_rights]

/-! ## Accesses -/

theorem State.placeOf_rights {s t : State} {sp : Nat} {k : AccKind} {n : Option Nat} {va : Word} {r : Except Refused Place}
    (e : s.placeOf sp k n va = (r, t)) : t.ctx.rights = s.ctx.rights := by
  have h := s.placeOf_ctx sp k n va
  rw [e] at h
  rw [← h]

theorem State.aligned_rights {s t : State} {sp : Nat} {k : AccKind} {lane : Option Nat} {w : Nat} {va : Word} {r : Except Refused Place}
    (e : s.aligned sp k lane w va = (r, t)) : t.ctx.rights = s.ctx.rights := by
  have h := s.aligned_ctx sp k lane w va
  rw [e] at h
  rw [← h]

theorem State.alignedOnce_rights {s t : State} {k : AccKind} {w : Nat} {va : Word} {r : Except Refused Place}
    (e : s.alignedOnce k w va = (r, t)) : t.ctx.rights = s.ctx.rights := by
  unfold State.alignedOnce at e
  grind [State.aligned_rights]

theorem State.readAt_rights {s t : State} {p : Place} {pc : Word} {n v : Nat} (e : s.readAt p pc n = .value v t) :
    t.ctx.rights = s.ctx.rights := by
  unfold State.readAt at e
  grind [State.force_rights, State.noteRefused_rights]

theorem State.enter_rights (s : State) (p : Pend) : (s.enter p).ctx.rights = s.ctx.rights := by
  unfold State.enter
  split
  · exact s.bufferStore_rights p
  · exact s.onCtx_rights fun c => c.bypass_rights p

theorem State.putStore_rights (s : State) (p : Pend) : (s.putStore p).ctx.rights = s.ctx.rights := by
  unfold State.putStore
  split
  · rfl
  · exact s.enter_rights p

theorem State.writeAs_rights (s : State) (word sp : Nat) (p : Place) (pc : Word) (bs : List Byte) :
    (s.writeAs word sp p pc bs).ctx.rights = s.ctx.rights := by
  unfold State.writeAs
  grind [State.perform_rights, State.enter_rights]

theorem State.rmw_rights {s t : State} {p : Place} {pc : Word} {n v : Nat} {f : Nat → Nat} (e : s.rmw p pc n f = (v, t)) :
    t.ctx.rights = s.ctx.rights := by
  unfold State.rmw at e
  grind [State.report_rights, State.perform_rights]

theorem State.pieces_rights {s t : State} {sp : Nat} {k : AccKind} {fuel : Nat} {va : Word} {n : Nat} {ps : Located}
    (e : s.pieces sp k fuel va n = (ps, t)) : t.ctx.rights = s.ctx.rights := by
  induction fuel generalizing s t va n ps with
  | zero => cases e; rfl
  | succ fuel ih =>
    unfold State.pieces at e
    grind [State.placeOf_rights]

theorem State.spanOnce_rights {s t : State} {sp : Nat} {k : AccKind} {fuel : Nat} {va : Word} {n : Nat}
    {ps : Except (Refused × Nat) (List (Place × Nat))} (e : s.spanOnce sp k fuel va n = (ps, t)) : t.ctx.rights = s.ctx.rights := by
  unfold State.spanOnce State.span at e
  grind [State.pieces_rights]

theorem State.noteSpan_rights (s : State) (ps : List (Place × Nat)) : (s.noteSpan ps).ctx.rights = s.ctx.rights :=
  State.foldl_rights (fun u _ => u.noteRefused_rights _ _ _) ps s

theorem State.readSpan_rights {s t : State} {ps : List (Place × Nat)} {bs : List Byte} (e : s.readSpan ps = .bytes bs t) :
    t.ctx.rights = s.ctx.rights := by
  unfold State.readSpan at e
  grind [State.force_rights, State.noteSpan_rights]

theorem State.writePieces_rights (s : State) (sp : Nat) (p : Place) (fuel o : Nat) (bs : List Byte) :
    (s.writePieces sp p fuel o bs).ctx.rights = s.ctx.rights := by
  induction fuel generalizing s o bs with
  | zero => rfl
  | succ fuel ih =>
    unfold State.writePieces
    split
    · rfl
    · exact (ih _ _ _).trans (s.writeAs_rights _ _ _ _ _)

theorem State.writeSpan_rights (s : State) (sp : Nat) (ps : List (Place × Nat)) (bs : List Byte) :
    (s.writeSpan sp ps bs).ctx.rights = s.ctx.rights := by
  induction ps generalizing s bs with
  | nil => rfl
  | cons p ps ih => exact (ih _ _).trans (s.writePieces_rights _ _ _ _ _)

theorem State.fetchAt_rights {s t : State} {va : Word} {r : Except Refused Word32} (e : s.fetchAt va = (r, t)) :
    t.ctx.rights = s.ctx.rights := by
  have h := (s.fetchAt_sameButAccesses va).rights
  rwa [e] at h

/-! ## Exceptions -/

/-- What a word of an app context leaves, whose rights were `r`: they are kept, or it has trapped to the vector of sup. -/
def Confines (r : Rights) (t : State) : Prop :=
  r.priv = .app → t.ctx.rights = r ∨
    t.ctx.rights = { r with priv := .sup } ∧ t.ctx.pc = r.tvec ∧ t.ctx.tfv = true ∧ t.ctx.ppriv = .app

theorem Confines.kept {r : Rights} {t : State} (h : t.ctx.rights = r) : Confines r t := fun _ => .inl h

theorem State.doubleTrap_rights (s : State) (vec : Bool) : (s.doubleTrap vec).ctx.rights = s.ctx.rights := by
  have h : (s.onCtx fun c => { c with run := .stopped, stall := none }).ctx.rights = s.ctx.rights := rfl
  unfold State.doubleTrap
  grind [State.record_rights, State.pendMcheck_rights]

theorem State.intoHandler_sameButAccesses (s : State) (c : Ctx) : c.SameButAccesses (s.intoHandler c).ctx := by
  unfold State.intoHandler
  dsimp only
  split
  · exact State.spill_sameButAccesses _
  · exact .refl _

theorem State.takeTrap_confines {s : State} {r : Rights} (h : s.ctx.rights = r) (vec : Bool) (code : Nat) (tval : Word) :
    Confines r (s.takeTrap false vec code tval) := by
  subst h
  intro ha
  have hp : s.ctx.priv = .app := ha
  unfold State.takeTrap
  split
  · exact .inl (s.doubleTrap_rights vec)
  · refine .inr ?_
    rw [s.intoHandler_sameButAccesses _]
    simp [Ctx.rights, Ctx.enterTrap, hp]

theorem State.trap_confines {s : State} {r : Rights} (h : s.ctx.rights = r) (code : Nat) (tval : Word) : Confines r (s.trap code tval) :=
  State.takeTrap_confines h _ _ _

theorem State.trapPast_confines {s : State} {r : Rights} (h : s.ctx.rights = r) (code : Nat) (tval : Word) :
    Confines r (s.trapPast code tval) := by
  unfold State.trapPast
  split
  · exact State.trap_confines h _ _
  · exact State.trap_confines (s.retire_rights.trans h) _ _

theorem State.refuse_confines {s : State} {r : Rights} (h : s.ctx.rights = r) (e : Refused) : Confines r (s.refuse e) := by
  unfold State.refuse
  grind [State.record_rights, State.trap_confines]

/-! ## The queue -/

/-- The machine that an entry's commit leaves has these rights; a trap is taken from there. -/
def Commit.Keeps (r : Rights) : Commit → Prop
  | .done s => s.ctx.rights = r
  | .wait => True
  | .held s _ => s.ctx.rights = r
  | .trap _ _ s => s.ctx.rights = r

@[simp] theorem Commit.keeps_done (r : Rights) (s : State) : (Commit.done s).Keeps r ↔ s.ctx.rights = r := Iff.rfl
@[simp] theorem Commit.keeps_wait (r : Rights) : Commit.wait.Keeps r := trivial
@[simp] theorem Commit.keeps_held (r : Rights) (s : State) (ps : Located) : (Commit.held s ps).Keeps r ↔ s.ctx.rights = r := Iff.rfl
@[simp] theorem Commit.keeps_trap (r : Rights) (c : Nat) (v : Word) (s : State) : (Commit.trap c v s).Keeps r ↔ s.ctx.rights = r := Iff.rfl

/-- What a word leaves is confined. -/
def Res.Confined (r : Rights) (x : Res) : Prop := ∀ t, x = .next t → Confines r t

@[simp] theorem Res.confined_next (r : Rights) (s : State) : Res.Confined r (.next s) ↔ Confines r s :=
  ⟨fun h => h s rfl, fun h t e => by cases e; exact h⟩

theorem Res.confined_kept {r : Rights} {s : State} (h : s.ctx.rights = r) : Res.Confined r (.next s) := (Res.confined_next r s).2 (.kept h)

theorem Res.confined_trap {r : Rights} {s : State} (h : s.ctx.rights = r) (code : Nat) (tval : Word) :
    Res.Confined r (.next (s.trap code tval)) := (Res.confined_next r _).2 (State.trap_confines h _ _)

theorem Res.confined_refuse {r : Rights} {s : State} (h : s.ctx.rights = r) (e : Refused) : Res.Confined r (.next (s.refuse e)) :=
  (Res.confined_next r _).2 (State.refuse_confines h e)

theorem Res.confined_stall {r : Rights} {s : State} (h : s.ctx.rights = r) (k : Stall) : Res.Confined r (.next (s.stallFor k)) :=
  Res.confined_kept h

theorem Ctx.copyBytes_rights (c src : Ctx) (d a : BitVec 6) : (c.copyBytes src d a).rights = c.rights := by
  unfold Ctx.copyBytes
  dsimp only
  rw [Ctx.putV_rights]
  split <;> rfl

theorem Ctx.moveReg_rights (c src : Ctx) (d a : BitVec 6) : (c.moveReg src d a).rights = c.rights := by
  unfold Ctx.moveReg
  grind [Ctx.copyBytes_rights, Ctx.putFacet_rights]

theorem Ctx.moveGroup_rights (c : Ctx) (d a : BitVec 6) (k : Nat) : (c.moveGroup d a k).rights = c.rights :=
  foldl_keeps Ctx.rights (fun (x : Ctx) j => x.moveReg c (vreg d j) (vreg a j)) (fun x _ => x.moveReg_rights _ _ _) _ c

theorem State.guarded_keeps {s : State} {r : Rights} (h : s.ctx.rights = r) (e : VEntry) {go : State → Commit} (hg : (go s).Keeps r) :
    (s.guarded e go).Keeps r := by
  unfold State.guarded
  split
  · exact hg
  · split
    · exact hg
    · split
      · split
        · exact (s.onCtx_rights fun c => c.moveGroup_rights _ _ _).trans h
        · exact h
      · exact h

theorem State.popHead_rights (s : State) : s.popHead.ctx.rights = s.ctx.rights :=
  (State.advanceBars_rights _).trans (State.landLate_rights _)

theorem State.enterHead_rights (s : State) (ps : Located) : (s.enterHead ps).ctx.rights = s.ctx.rights := by
  rw [State.enterHead_only]
  rfl

theorem State.commitWith_confines {s : State} {r : Rights} (h : s.ctx.rights = r) (e : VEntry) {go : State → Commit} (hg : (go s).Keeps r) :
    Confines r (s.commitWith e go) := by
  have hc := State.guarded_keeps h e hg
  unfold State.commitWith
  split <;> rename_i hx <;> rw [hx] at hc
  · exact .kept ((State.popHead_rights _).trans hc)
  · exact .kept h
  · exact .kept ((State.enterHead_rights _ _).trans hc)
  · exact State.takeTrap_confines hc _ _ _

theorem State.issue_confined {s : State} {r : Rights} (h : s.ctx.rights = r) {i : Instr} {op1 op2 : Word} {go : State → Commit}
    (hg : ∀ s : State, s.ctx.rights = r → (go s).Keeps r) : Res.Confined r (s.issue i op1 op2 go) := by
  unfold State.issue
  split
  · exact Res.confined_stall h _
  · have he : ∀ q : List VEntry, (s.onCtx fun c => { c with viq := q }).retire.ctx.rights = r := fun q => (State.retire_rights _).trans h
    dsimp only
    split
    · exact (Res.confined_next r _).2 (State.commitWith_confines (he _) _ (hg _ (he _)))
    · exact Res.confined_kept (he _)

theorem State.refuseCommit_keeps {s : State} {r : Rights} (h : s.ctx.rights = r) (e : Refused) : (s.refuseCommit e).Keeps r := by
  unfold State.refuseCommit
  grind [State.record_rights, Commit.keeps_trap]

theorem State.pushQ_keeps {s : State} {r : Rights} (h : s.ctx.rights = r) (q : BitVec 3) (v : Word) : (s.pushQ q v).Keeps r := by
  unfold State.pushQ
  dsimp only
  split
  · trivial
  · exact h

theorem State.badField_keeps {s : State} {r : Rights} (h : s.ctx.rights = r) (i : Instr) : (s.badField i).Keeps r := h

theorem State.commitCtx_keeps {s : State} {r : Rights} {f : Ctx → Ctx} (h : (f s.ctx).rights = r) : (s.commitCtx f).Keeps r := h

theorem State.whenDrained_confined {s : State} {r : Rights} (h : s.ctx.rights = r) {k : State → Res} (hk : Res.Confined r (k s)) :
    Res.Confined r (s.whenDrained k) := by
  unfold State.whenDrained
  split
  · exact hk
  · exact Res.confined_stall h _

theorem State.needs_confined {s : State} {r : Rights} (h : s.ctx.rights = r) {p : Priv} {w : Word32} {k : State → Res}
    (hk : p.rank ≤ s.ctx.priv.rank → Res.Confined r (k s)) : Res.Confined r (s.needs p w k) := by
  by_cases hp : p.rank ≤ s.ctx.priv.rank
  · rw [State.needs_allowed hp]
    exact hk hp
  · rw [State.needs_below (Nat.not_le.1 hp)]
    exact Res.confined_trap h _ _

theorem execIllegalWord_confined {s : State} {r : Rights} (h : s.ctx.rights = r) (w : Word32) (e : DecodeError) :
    Res.Confined r (execIllegalWord w e s) := by
  unfold execIllegalWord
  split
  · exact State.issue_confined h fun _ h => h
  · exact Res.confined_trap (by exact h) _ _

end Sys2Proof.Machine

/-! An entry of the queue keeps the rights of its context at its commit. -/

namespace Sys2Proof.Machine
open Sys2Proof.Claims

/-! ## Writes to a context -/

@[simp] theorem Ctx.withVl_rights (c : Ctx) (n : Nat) : Ctx.rights { c with vl := n } = c.rights := rfl
@[simp] theorem Ctx.withVfs_rights (c : Ctx) (v : Word) : Ctx.rights { c with vfs := v } = c.rights := rfl
theorem Ctx.withVlVfs_rights (c : Ctx) (n : Nat) (v : Word) : Ctx.rights { c with vl := n, vfs := v } = c.rights := rfl
@[simp] theorem Ctx.withCl_rights (c : Ctx) (v : Word) : Ctx.rights { c with cl := v } = c.rights := rfl
@[simp] theorem Ctx.withVsat_rights (c : Ctx) (b : Bool) : Ctx.rights { c with vsat := b } = c.rights := rfl
@[simp] theorem Ctx.writeHl_rights (c : Ctx) (w : Nat) (es : List (Nat × Nat)) : (c.writeHl w es).rights = c.rights := rfl
@[simp] theorem Ctx.withGrant_rights (c : Ctx) (sec : Bool) (lgn trn : Nat) : (c.withGrant sec lgn trn).rights = c.rights := rfl

@[simp] theorem Ctx.writeV_rights (c : Ctx) (r : BitVec 6) (w : Nat) (es : List (Nat × Nat)) : (c.writeV r w es).rights = c.rights := by
  unfold Ctx.writeV
  dsimp only
  split <;> simp

@[simp] theorem Ctx.writePair_rights (c : Ctx) (r : BitVec 6) (w : Nat) (es : List (Nat × Nat)) : (c.writePair r w es).rights = c.rights := by
  simp [Ctx.writePair]

@[simp] theorem Ctx.writeFields_rights (c : Ctx) (d : BitVec 6) (nf w : Nat) (vs : List (Acc × Nat)) (zeros : List Nat) :
    (c.writeFields d nf w vs zeros).rights = c.rights := foldl_keeps Ctx.rights _ (fun c _ => c.writeV_rights _ _ _) _ c

@[simp] theorem Ctx.putRun_rights (c : Ctx) (d : BitVec 6) (desc p : Bool) (k : Nat) (xs : List Keyed) :
    (c.putRun d desc p k xs).rights = c.rights := by
  unfold Ctx.putRun
  cases p <;> simp

@[simp] theorem Ctx.putRunVl_rights (c : Ctx) (d : BitVec 6) (desc p : Bool) (k : Nat) (xs : List Keyed) :
    (c.putRunVl d desc p k xs).rights = c.rights := by simp [Ctx.putRunVl]

theorem Ctx.writeInOrder_rights (c : Ctx) (n : BitVec 12) (v : Word) : (c.writeInOrder n v).rights = c.rights := by
  unfold Ctx.writeInOrder
  split <;> rfl

/-! ## The shapes of an elementwise operation -/

@[simp] theorem Commit.keeps_commitCtx (r : Rights) (s : State) (f : Ctx → Ctx) : (s.commitCtx f).Keeps r ↔ (f s.ctx).rights = r := Iff.rfl

theorem State.mapV_keeps {s : State} {r : Rights} (h : s.ctx.rights = r) (d : BitVec 6) (m : BitVec 1) (f : Nat → Nat) :
    (s.mapV d m f).Keeps r := (Ctx.writeV_rights _ _ _ _).trans h

theorem State.mapBit_keeps {s : State} {r : Rights} (h : s.ctx.rights = r) (d : BitVec 6) (m : BitVec 1) (f : Nat → Bool) :
    (s.mapBit d m f).Keeps r := (Ctx.writeV_rights _ _ _ _).trans h

theorem State.mapF_keeps {s : State} {r : Rights} (h : s.ctx.rights = r) (d : BitVec 6) (m : BitVec 1) (f : Nat → Nat × BitVec 5) :
    (s.mapF d m f).Keeps r := (Ctx.writeV_rights _ _ _ _).trans h

theorem State.mapFBit_keeps {s : State} {r : Rights} (h : s.ctx.rights = r) (d : BitVec 6) (m : BitVec 1) (f : Nat → Bool × BitVec 5) :
    (s.mapFBit d m f).Keeps r := (Ctx.writeV_rights _ _ _ _).trans h

theorem State.mapWide_keeps {s : State} {r : Rights} (h : s.ctx.rights = r) (d : BitVec 6) (m : BitVec 1) (w : Nat) (f : Nat → Int) :
    (s.mapWide d m w f).Keeps r := (Ctx.writePair_rights _ _ _ _).trans h

theorem State.mapSat_keeps {s : State} {r : Rights} (h : s.ctx.rights = r) (d : BitVec 6) (m : BitVec 1) (u : Bool) (f : Nat → Int) :
    (s.mapSat d m u f).Keeps r := by simp [State.mapSat, h]

theorem State.vrec_keeps {s : State} {r : Rights} (h : s.ctx.rights = r) (d : BitVec 6) (m : BitVec 1) (u : Bool) (g : Nat → Nat → Nat) :
    (s.vrec d m u g).Keeps r := by
  unfold State.vrec
  rw [Commit.keeps_commitCtx]
  dsimp only
  split
  · exact (Ctx.writeV_rights _ _ _ _).trans h
  · exact ((Ctx.withCl_rights _ _).trans (Ctx.writeV_rights _ _ _ _)).trans h

/-! ## Lane groups -/

theorem State.regrantIdle_rights (s : State) (c : Nat) : (s.regrantIdle c).ctx.rights = s.ctx.rights := by
  unfold State.regrantIdle
  dsimp only
  split
  · rfl
  · exact State.setCtx_rights rfl

theorem State.regrantCore_rights (s : State) (c : Nat) : (s.regrantCore c).ctx.rights = s.ctx.rights := by
  simp only [State.regrantCore, State.regrantIdle_rights]

theorem State.takeLanes_rights (s : State) (n : Nat) : (s.takeLanes n).ctx.rights = s.ctx.rights := by
  unfold State.takeLanes
  extract_lets k
  split
  · rfl
  · exact (State.regrantIdle_rights _ _).trans (s.onCtx_rights fun c => c.withGrant_rights (s.cur % 2 == 1) k c.trn)

/-! ## Checks of an entry -/

theorem State.withNpg_rights (s : State) (n : Nat) : (s.withNpg n).ctx.rights = s.ctx.rights :=
  s.onCtx_rights fun c => c.withVfs_rights _

theorem State.readRow_rights {s t : State} {o n : Nat} {bs : List Byte} (e : s.readRow o n = .bytes bs t) : t.ctx.rights = s.ctx.rights :=
  State.readSpan_rights e

/-- Rows read one after another keep the rights, and so does the answer where one cannot be read. -/
theorem State.readRows_rights {s t : State} {r : Rights} {n : Nat} {os : List Nat} {x : Except Commit (List (List FVal))}
    (h : s.ctx.rights = r) (e : s.readRows n os = (x, t)) : t.ctx.rights = r ∧ ∀ c, x = .error c → c.Keeps r := by
  induction os generalizing s t x with
  | nil => cases e; exact ⟨h, fun c hc => nomatch hc⟩
  | cons o os ih =>
    unfold State.readRows at e
    split at e
    · cases e
      exact ⟨h, fun c hc => by cases hc; exact h⟩
    · cases e
      exact ⟨h, fun c hc => by cases hc; exact State.refuseCommit_keeps h _⟩
    · rename_i bs u eu
      have hu := (State.readRow_rights eu).trans h
      split at e <;> rename_i er <;> cases e
      · exact ⟨(ih hu er).1, fun c hc => nomatch hc⟩
      · exact ⟨(ih hu er).1, fun c hc => (ih hu er).2 c (by cases hc; rfl)⟩

theorem State.locate_rights {s t : State} {sp : Nat} {k : AccKind} {ix : Bool} {w : Nat} {as : List Acc}
    {ps : List (Acc × Except Refused Place)} (e : s.locate sp k ix w as = (ps, t)) : t.ctx.rights = s.ctx.rights := by
  induction as generalizing s t ps with
  | nil => cases e; rfl
  | cons a as ih =>
    unfold State.locate at e
    grind [State.aligned_rights]

theorem State.locateOnce_rights {s t : State} {sp : Nat} {k : AccKind} {ix : Bool} {w : Nat} {as : List Acc}
    {ps : List (Acc × Except Refused Place)} (e : s.locateOnce sp k ix w as = (ps, t)) : t.ctx.rights = s.ctx.rights := by
  unfold State.locateOnce at e
  grind [State.locate_rights]

theorem State.locateOnce_snd_rights (s : State) (sp : Nat) (k : AccKind) (ix : Bool) (w : Nat) (as : List Acc) :
    (s.locateOnce sp k ix w as).2.ctx.rights = s.ctx.rights := State.locateOnce_rights rfl

theorem State.rmw_snd_rights (s : State) (p : Place) (pc : Word) (n : Nat) (f : Nat → Nat) : (s.rmw p pc n f).2.ctx.rights = s.ctx.rights :=
  State.rmw_rights rfl

theorem State.progressOnce_rights {s t : State} {n : Nat} {va : Word} {x : Except Refused Place} (e : s.progressOnce n va = (x, t)) :
    t.ctx.rights = s.ctx.rights := by
  unfold State.progressOnce at e
  grind [State.aligned_rights]

theorem State.noteReads_rights (s : State) (ps : List Place) : (s.noteReads ps).ctx.rights = s.ctx.rights := by
  induction ps generalizing s with
  | nil => rfl
  | cons p ps ih =>
    unfold State.noteReads
    grind [State.noteRefused_rights]

theorem State.readAll_rights {s t : State} {w : Nat} {ps : List (Acc × Place)} {vs : List (Acc × Nat)}
    (e : s.readAll w ps = .ok (vs, t)) : t.ctx.rights = s.ctx.rights := by
  unfold State.readAll at e
  grind [State.force_rights, State.noteReads_rights]

theorem State.writeElems_rights (s : State) (sp w : Nat) (d : BitVec 6) (ps : List (Acc × Place)) :
    (s.writeElems sp w d ps).ctx.rights = s.ctx.rights := by
  unfold State.writeElems
  dsimp only
  split
  · exact s.performAll_rights _
  · exact State.foldl_rights (fun u _ => u.writeAs_rights _ _ _ _ _) _ s

section
variable {s : State} {r : Rights} (h : s.ctx.rights = r)
include h

theorem State.floatOp_keeps {i : Instr} {bf rounds : Bool} {go : FType → RMode → Commit} (hg : ∀ t rm, (go t rm).Keeps r) :
    (s.floatOp i bf rounds go).Keeps r := by
  unfold State.floatOp
  grind [State.badField_keeps]

theorem State.widening_keeps {i : Instr} {go : Nat → Commit} (hg : ∀ w, (go w).Keeps r) : (s.widening i go).Keeps r := by
  unfold State.widening
  grind [State.badField_keeps]

theorem State.stageOp_keeps {i : Instr} {go : Option FType → Commit} (hg : ∀ t, (go t).Keeps r) : (s.stageOp i go).Keeps r := by
  unfold State.stageOp
  grind [State.badField_keeps]

theorem State.scaleOp_keeps {i : Instr} {rounds : Bool} {go : FType → Nat → RMode → Commit} (hg : ∀ t b rm, (go t b rm).Keeps r) :
    (s.scaleOp i rounds go).Keeps r := by
  unfold State.scaleOp
  grind [State.badField_keeps]

theorem State.keyOp_keeps {i : Instr} {k : BitVec 3} {go : Nat → Commit} (hg : ∀ kk, (go kk).Keeps r) : (s.keyOp i k go).Keeps r := by
  unfold State.keyOp
  grind [State.badField_keeps]

theorem State.sorted1_keeps {i : Instr} {a : BitVec 6} {k : BitVec 3} {p : Bool} {go : Nat → Commit} (hg : ∀ kk, (go kk).Keeps r) :
    (s.sorted1 i a k p go).Keeps r := by
  refine State.keyOp_keeps h fun kk => ?_
  grind [Commit.keeps_trap]

theorem State.sorted2_keeps {i : Instr} {a b : BitVec 6} {k : BitVec 3} {p : Bool} {go : Nat → Commit} (hg : ∀ kk, (go kk).Keeps r) :
    (s.sorted2 i a b k p go).Keeps r := by
  refine State.keyOp_keeps h fun kk => ?_
  grind [Commit.keeps_trap]

theorem State.pairedDest_keeps {i : Instr} {p : Bool} {ds : List (BitVec 6)} {go : Unit → Commit} (hg : ∀ u, (go u).Keeps r) :
    (s.pairedDest i p ds go).Keeps r := by
  unfold State.pairedDest
  grind [State.badField_keeps]

theorem State.soundTile_keeps {t : BitVec 2} {go : Unit → Commit} (hg : ∀ u, (go u).Keeps r) : (s.soundTile t go).Keeps r := by
  unfold State.soundTile
  grind [State.record_rights, Commit.keeps_trap]

theorem State.tileTrap_keeps (code row : Nat) (t : BitVec 2) : (s.tileTrap code row t).Keeps r := h

theorem State.putAccumulated_keeps (t : BitVec 2) (x : Tile × Bool) : (s.putAccumulated t x).Keeps r := by
  unfold State.putAccumulated
  dsimp only
  split <;> exact h

theorem State.dense_keeps (t : BitVec 2) (f : Nat) (cls : TClass) (a : BitVec 6) (m : BitVec 1) (cols : List (FVal × Option FVal)) :
    (s.dense t f cls a m cols).Keeps r := State.putAccumulated_keeps h _ _

/-! ## Images, vector loads and stores -/

theorem State.image_keeps {i : Instr} {k : AccKind} {align : Nat} {va : Word} {n : Nat} {go : List (Place × Nat) → State → Commit}
    (hg : ∀ ps (s : State), s.ctx.rights = r → (go ps s).Keeps r) : (s.image i k align va n go).Keeps r := by
  unfold State.image
  grind [State.badField_keeps, Commit.keeps_trap, Commit.keeps_wait, State.withNpg_rights, → State.translating_rights,
    → State.spanOnce_rights, State.refuseCommit_keeps]

theorem State.loadImage_keeps {i : Instr} {align : Nat} {va : Word} {n : Nat} {go : List Byte → State → Commit}
    (hg : ∀ bs (s : State), s.ctx.rights = r → (go bs s).Keeps r) : (s.loadImage i align va n go).Keeps r := by
  refine State.image_keeps h fun ps s h => ?_
  grind [Commit.keeps_held, State.withNpg_rights, State.refuseCommit_keeps, State.readSpan_rights]

theorem State.writeSpan_settle_rights (sp : Nat) (ps : List (Place × Nat)) (bs : List Byte) :
    (s.writeSpan sp ps bs).settle.ctx.rights = r := (State.settle_rights _).trans ((s.writeSpan_rights _ _ _).trans h)

theorem State.vmOp_keeps {i : Instr} {ew : BitVec 2} {go : Nat → Nat → Commit} (hg : ∀ sp w, (go sp w).Keeps r) :
    (s.vmOp i ew go).Keeps r := by
  unfold State.vmOp
  grind [State.badField_keeps, State.withNpg_rights]

theorem State.vmRefuse_keeps (n : Nat) (e : Refused) : (s.vmRefuse n e).Keeps r := State.refuseCommit_keeps ((s.withNpg_rights n).trans h) e

theorem State.vload_keeps (i : Instr) (d : BitVec 6) (m : BitVec 1) (nf : Nat) (ew : BitVec 2) (fof ix : Bool)
    (addr : Nat → Nat → Nat → Word) : (s.vload i d m nf ew fof ix addr).Keeps r := by
  refine State.vmOp_keeps h fun sp w => ?_
  extract_lets as
  split
  · trivial
  rename_i u hu
  split
  rename_i located v hv
  have hv : v.ctx.rights = r := (State.locateOnce_rights hv).trans ((State.translating_rights hu).trans h)
  extract_lets finish
  have hf : ∀ ps trim, (finish ps trim).Keeps r := by
    intro ps trim
    simp only [finish]
    split
    · exact hv
    · exact State.vmRefuse_keeps hv _ _
    · rename_i u ha
      have ha := (State.readAll_rights ha).trans hv
      refine State.commitCtx_keeps ?_
      have hw := fun vs zs => (u.ctx.writeFields_rights d nf w vs zs).trans ha
      split
      · split
        · exact (Ctx.withVfs_rights _ _).trans (hw _ _)
        · exact hw _ _
      · exact (Ctx.withVlVfs_rights _ _ _).trans (hw _ _)
  clear_value finish
  split
  · exact hf _ _
  · split
    · exact hf _ _
    · exact State.vmRefuse_keeps hv _ _
  · exact State.vmRefuse_keeps hv _ _
  · trivial

theorem State.vstore_keeps (i : Instr) (d : BitVec 6) (m : BitVec 1) (nf : Nat) (ew : BitVec 2) (note ix : Bool)
    (addr : Nat → Nat → Nat → Word) : (s.vstore i d m nf ew note ix addr).Keeps r := by
  refine State.vmOp_keeps h fun sp w => ?_
  dsimp only
  split
  · exact State.badField_keeps ((s.withNpg_rights 0).trans h) i
  split
  · trivial
  · rename_i u hu
    have hu := (State.translating_rights hu).trans h
    grind only [Commit.keeps_wait, Commit.keeps_held, State.locateOnce_snd_rights, Commit.keeps_done, → State.progressOnce_rights,
      State.vmRefuse_keeps, State.writeElems_rights, State.settle_rights, → State.release_rights, State.rmw_snd_rights]

/-! ## The QUE words -/

theorem State.onChannel_keeps {k : BitVec 3} {go : State → Commit} (hg : ∀ s : State, s.ctx.rights = r → (go s).Keeps r) :
    (s.onChannel k go).Keeps r := by
  unfold State.onChannel
  grind [Commit.keeps_wait, Commit.keeps_trap, State.settle_rights, State.drainOut_rights]

theorem State.pushCmd_keeps (k : BitVec 3) (kind : CmdKind) (w : Option Work) : (s.pushCmd k kind w).Keeps r := by
  unfold State.pushCmd
  grind [Commit.keeps_wait, Commit.keeps_commitCtx, Ctx.setCh_rights]

theorem State.commitBlock_keeps {va : Word} {go : List Byte → State → Commit}
    (hg : ∀ bs (s : State), s.ctx.rights = r → (go bs s).Keeps r) : (s.commitBlock va go).Keeps r := by
  unfold State.commitBlock
  grind [Commit.keeps_wait, State.refuseCommit_keeps, → State.force_rights, → State.aligned_rights, → State.readAt_rights]

end

end Sys2Proof.Machine

namespace Sys2Proof.Machine
open Sys2Proof.Claims

section
variable {s : State} {r : Rights} (h : s.ctx.rights = r)
include h

/-! ## Commits -/

theorem commitVsetvl_keeps (d a : BitVec 5) (sc : BitVec 3) (e : BitVec 2) (op1 op2 : Word) :
    (commitVsetvl d a sc e op1 op2 s).Keeps r := by
  have hl : (if op2 = 0 then s else s.takeLanes (op2.toNat - 1)).ctx.rights = r := by
    split
    · exact h
    · exact (s.takeLanes_rights _).trans h
  exact (Ctx.withVl_rights _ _).trans hl

theorem commitVmv_keeps (d a : BitVec 6) (m : BitVec 1) : (commitVmv d a m s).Keeps r := by
  unfold commitVmv
  split
  · exact (Ctx.moveReg_rights _ _ _ _).trans h
  · exact State.mapV_keeps h _ _ _

theorem commitVfcvt_keeps (d a c : BitVec 6) (m : BitVec 1) : (commitVfcvt d a c m s).Keeps r := by
  refine State.floatOp_keeps h fun t rm => ?_
  dsimp only
  split
  · exact h
  · exact State.mapF_keeps h _ _ _

theorem commitVfredsum_keeps (q : BitVec 3) (a : BitVec 6) (m k : BitVec 1) :
    (commitVfredsum q a m k s).Keeps r := by
  refine State.floatOp_keeps h fun t rm => ?_
  have hq := fun v => State.pushQ_keeps h q v
  dsimp only
  have hq := hq (BitVec.ofNat 64 (exactSum t rm ((s.ctx.activeElems a m).map t.decode)).1)
  split
  · rename_i e
    rw [e] at hq
    exact hq
  · exact hq

theorem commitVrand_keeps (d : BitVec 6) (a b : BitVec 5) (m : BitVec 1) (op1 op2 : Word) :
    (commitVrand d a b m op1 op2 s).Keeps r := by
  unfold commitVrand
  split
  · exact State.mapV_keeps h _ _ _
  · exact h

theorem State.quantise_keeps (i : Instr) (d : BitVec 6) (t : Narrow) (m : BitVec 1) (get : Nat → Nat) :
    (s.quantise i d t m get).Keeps r := by
  unfold State.quantise
  exact State.scaleOp_keeps h fun _ _ _ => (Ctx.writeV_rights _ _ _ _).trans h

theorem State.rank_keeps (i : Instr) (d a b : BitVec 6) (k : BitVec 3) (le : Bool) :
    (s.rank i d a b k le).Keeps r := by
  unfold State.rank
  exact State.sorted1_keeps h fun _ => State.mapV_keeps h _ _ _

theorem commitVtopk_keeps (d a : BitVec 6) (b : BitVec 5) (k : BitVec 3) (op1 : Word) :
    (commitVtopk d a b k op1 s).Keeps r := by
  refine State.sorted1_keeps h fun kk => ?_
  extract_lets run nk cand t
  have ht : t.ctx.rights = r := (Ctx.withVfs_rights _ _).trans ((s.ctx.putRun_rights _ _ _ _ _).trans h)
  clear_value t
  split <;> exact ht

theorem commitVmrgc_keeps (q : BitVec 3) (a b : BitVec 6) (k : BitVec 3) :
    (commitVmrgc q a b k s).Keeps r := State.sorted2_keeps h fun _ => State.pushQ_keeps h _ _

theorem commitMopa_keeps (t : BitVec 2) (a b : BitVec 6) (m : BitVec 1) (f : BitVec 4) :
    (commitMopa t a b m f s).Keeps r := by
  refine State.soundTile_keeps h fun _ => ?_
  grind [State.tileTrap_keeps, State.dense_keeps]

theorem commitMopaS_keeps (t : BitVec 2) (a b : BitVec 6) (m : BitVec 1) (f : BitVec 4) :
    (commitMopaS t a b m f s).Keeps r := by
  refine State.soundTile_keeps h fun _ => ?_
  grind [State.badField_keeps, State.tileTrap_keeps, State.dense_keeps]

theorem commitMopaW_keeps (t : BitVec 2) (a : BitVec 6) (w : BitVec 5) (m : BitVec 1) (f : BitVec 4)
    (op1 : Word) : (commitMopaW t a w m f op1 s).Keeps r := by
  refine State.soundTile_keeps h fun _ => ?_
  grind [State.badField_keeps, State.tileTrap_keeps, Commit.keeps_trap, Commit.keeps_held, State.refuseCommit_keeps,
    → State.readRow_rights, State.dense_keeps]

theorem commitMopaGr_keeps (t : BitVec 2) (a : BitVec 6) (x : BitVec 5) (f : BitVec 4) (op1 : Word) :
    (commitMopaGr t a x f op1 s).Keeps r := by
  refine State.soundTile_keeps h fun _ => ?_
  dsimp only
  split
  · exact h
  split
  · exact h
  split
  · exact h
  split
  · exact h
  split
  · exact h
  split <;> rename_i e <;> obtain ⟨hs, hc⟩ := State.readRows_rights h e
  · exact hc _ rfl
  · exact State.putAccumulated_keeps hs _ _

theorem commitTanchor_keeps (t : BitVec 2) (a : BitVec 5) (op1 : Word) : (commitTanchor t a op1 s).Keeps r := by
  refine State.soundTile_keeps h fun _ => ?_
  dsimp only
  split
  · exact h
  · split <;> exact h

theorem commitTres_keeps (t : BitVec 2) (f : BitVec 4) : (commitTres t f s).Keeps r := by
  refine State.soundTile_keeps h fun _ => ?_
  dsimp only
  split <;> exact h

theorem commitTmovr_keeps (t : BitVec 2) (d : BitVec 6) (c : BitVec 5) (f : BitVec 4) (op1 : Word) :
    (commitTmovr t d c f op1 s).Keeps r := by
  refine State.soundTile_keeps h fun _ => ?_
  dsimp only
  split
  · exact h
  · split
    · exact h
    · exact State.mapF_keeps h _ _ _

theorem commitTmovw_keeps (t : BitVec 2) (a : BitVec 6) (c : BitVec 5) (f : BitVec 4) (op1 : Word) :
    (commitTmovw t a c f op1 s).Keeps r := by
  refine State.soundTile_keeps h fun _ => ?_
  dsimp only
  split
  · exact h
  split
  · exact h
  split
  · exact h
  split <;> exact h

theorem commitTldRaw_keeps (t : BitVec 2) (a : BitVec 5) (op1 : Word) : (commitTldRaw t a op1 s).Keeps r := by
  refine State.loadImage_keeps h fun img s h => ?_
  split <;> exact h

theorem commitTldCan_keeps (t : BitVec 2) (a : BitVec 5) (f : BitVec 4) (op1 : Word) :
    (commitTldCan t a f op1 s).Keeps r := by
  refine State.soundTile_keeps h fun _ => ?_
  dsimp only
  split
  · exact h
  split
  · exact h
  · exact State.loadImage_keeps h fun img s h => h

theorem commitTstRaw_keeps (t : BitVec 2) (a : BitVec 5) (op1 : Word) : (commitTstRaw t a op1 s).Keeps r :=
  State.soundTile_keeps h fun _ => State.image_keeps h fun _ _ h => State.writeSpan_settle_rights h _ _ _

theorem commitTstCan_keeps (t : BitVec 2) (a : BitVec 5) (f : BitVec 4) (op1 : Word) :
    (commitTstCan t a f op1 s).Keeps r := by
  refine State.soundTile_keeps h fun _ => ?_
  dsimp only
  split
  · exact h
  split
  · exact h
  · exact State.image_keeps h fun _ _ h => State.writeSpan_settle_rights h _ _ _

theorem commitQpush_keeps (q : BitVec 4) (x : BitVec 5) (op1 : Word) : (commitQpush q x op1 s).Keeps r := by
  unfold commitQpush
  split
  · exact h
  · exact State.onChannel_keeps h fun s h => State.pushCmd_keeps h _ _ _

theorem commitQstat_keeps (q k : BitVec 4) : (commitQstat q k s).Keeps r := by
  unfold commitQstat
  split
  · exact h
  · exact State.pushQ_keeps h _ _

theorem commitCopy_keeps (k : BitVec 4) (a : BitVec 5) (op1 : Word) : (commitCopy k a op1 s).Keeps r := by
  refine State.onChannel_keeps h fun s h => State.commitBlock_keeps h fun bs s h => ?_
  split
  · exact h
  refine State.commitBlock_keeps h fun ns s h => ?_
  split
  · exact h
  split
  · exact h
  · exact State.pushCmd_keeps h _ _ _

theorem commitVgthr_keeps (v : BitVec 5) (k : BitVec 4) (a : BitVec 5) (op1 : Word) :
    (commitVgthr v k a op1 s).Keeps r := by
  refine State.onChannel_keeps h fun s h => State.commitBlock_keeps h fun bs s h => ?_
  split
  · exact h
  · exact State.pushCmd_keeps h _ _ _

theorem commitDrain_keeps (k : BitVec 4) : (commitDrain k s).Keeps r := by
  unfold commitDrain
  grind [Commit.keeps_trap, Commit.keeps_done, Commit.keeps_wait]

theorem commitVhad_keeps (d a n : BitVec 6) (m : BitVec 1) : (commitVhad d a n m s).Keeps r := by
  refine State.stageOp_keeps h fun _ => ?_
  exact (Ctx.writeV_rights _ _ _ _).trans h

theorem commitVhadC_keeps (a n : BitVec 6) (m : BitVec 1) : (commitVhadC a n m s).Keeps r := by
  refine State.stageOp_keeps h fun _ => ?_
  exact h

theorem commitVsort_keeps (d a : BitVec 6) (p de : BitVec 1) (k : BitVec 3) : (commitVsort d a p de k s).Keeps r := by
  refine State.keyOp_keeps h fun _ => ?_
  exact (Ctx.putRun_rights _ _ _ _ _ _).trans h

theorem commitVchks_keeps (a : BitVec 6) (de : BitVec 1) (k : BitVec 3) : (commitVchks a de k s).Keeps r := by
  refine State.keyOp_keeps h fun _ => ?_
  exact h

theorem commitVmrg_keeps (d a b : BitVec 6) (k : BitVec 3) : (commitVmrg d a b k s).Keeps r := by
  refine State.sorted2_keeps h fun _ => State.pairedDest_keeps h fun _ => ?_
  exact (Ctx.putRun_rights _ _ _ _ _ _).trans ((Ctx.putRun_rights _ _ _ _ _ _).trans h)

theorem commitVpart_keeps (d a : BitVec 6) (b : BitVec 5) (k : BitVec 3) (op1 : Word) : (commitVpart d a b k op1 s).Keeps r := by
  refine State.sorted1_keeps h fun _ => State.pairedDest_keeps h fun _ => ?_
  exact (Ctx.putRun_rights _ _ _ _ _ _).trans ((Ctx.putRun_rights _ _ _ _ _ _).trans h)

theorem commitVisec_keeps (d a b : BitVec 6) (k : BitVec 3) : (commitVisec d a b k s).Keeps r := by
  refine State.sorted2_keeps h fun _ => State.pairedDest_keeps h fun _ => ?_
  exact (Ctx.putRunVl_rights _ _ _ _ _ _).trans h

theorem commitVuniq_keeps (d a : BitVec 6) (k : BitVec 3) : (commitVuniq d a k s).Keeps r := by
  refine State.sorted1_keeps h fun _ => State.pairedDest_keeps h fun _ => ?_
  exact (Ctx.putRunVl_rights _ _ _ _ _ _).trans h

theorem commitVcmpt_keeps (d a : BitVec 6) (k : BitVec 3) : (commitVcmpt d a k s).Keeps r := by
  refine State.sorted1_keeps h fun _ => ?_
  exact (Ctx.putRunVl_rights _ _ _ _ _ _).trans h

theorem commitVcmprs_keeps (d a : BitVec 6) (m : BitVec 1) : (commitVcmprs d a m s).Keeps r := by
  have hw := fun w es => (s.ctx.writeV_rights d w es).trans h
  refine (Ctx.withVl_rights _ _).trans ?_
  split
  · exact (Ctx.writeV_rights _ _ _ _).trans (hw _ _)
  · exact hw _ _

end

/-- Every entry keeps the rights at its commit: what it changes of its context is vector registers, facets, tiles, flags, queues,
channels, lane groups and in-order CSRs. -/
theorem commit_keeps (i : Instr) (op1 op2 : Word) {s : State} {r : Rights} (h : s.ctx.rights = r) : (commit i op1 op2 s).Keeps r := by
  cases i
  case vsetvl d a sc e => exact commitVsetvl_keeps h d a sc e op1 op2
  case vmv => exact commitVmv_keeps h _ _ _
  case vfcvt => exact commitVfcvt_keeps h _ _ _ _
  case vfredsum => exact commitVfredsum_keeps h _ _ _ _
  case vrand d a b m => exact commitVrand_keeps h d a b m op1 op2
  case vgetvl | vredsum | vredmax | vredmin | vredand | vredor | vfirst | vcount | vfacet => exact State.pushQ_keeps h _ _
  case vadd | vsub | vmul | vmulh | vdiv | vrem | vmin | vmax | vand | vor | vxor | vsll | vsrl | vsra | vxorpop | vsel | vbcast | vidxs |
      vidx | vaadd | vslideup | vslidedn | vperm | vpopc | vclz | vaddVx | vsubVx | vmulVx | vmulhVx | vdivVx | vremVx | vminVx | vmaxVx |
      vandVx | vorVx | vxorVx | vsllVx | vsrlVx | vsraVx => exact State.mapV_keeps h _ _ _
  case vseq | vsne | vslt | vsle | vseqVx | vsneVx | vsltVx | vsleVx | vmand | vmor | vmxor | vmnot => exact State.mapBit_keeps h _ _ _
  case vrecAdd | vrecMax | vrecLin => exact State.vrec_keeps h _ _ _ _
  case vsadd | vssub => exact State.mapSat_keeps h _ _ _ _
  case vfadd | vfsub | vfmul | vfdiv | vfsqrt | vfmadd | vfmin | vfmax | vfexp2 | vfclass | vfaddVf | vfsubVf | vfmulVf |
      vfdivVf | vfmaddVf | vfminVf | vfmaxVf => exact State.floatOp_keeps h fun _ _ => State.mapF_keeps h _ _ _
  case vfeq | vflt | vfle | vfeqVf | vfltVf | vfleVf => exact State.floatOp_keeps h fun _ _ => State.mapFBit_keeps h _ _ _
  case vwmul | vwmacc | vwadd => exact State.widening_keeps h fun _ => State.mapWide_keeps h _ _ _ _
  case vnclip => exact State.widening_keeps h fun _ => State.mapSat_keeps h _ _ _ _
  case vzip => exact (Ctx.writePair_rights _ _ _ _).trans h
  case vunzip => exact (Ctx.writeV_rights _ _ _ _).trans ((Ctx.writeV_rights _ _ _ _).trans h)
  case vcmprs => exact commitVcmprs_keeps h _ _ _
  case vexpand => exact (Ctx.writeV_rights _ _ _ _).trans h
  case vhad => exact commitVhad_keeps h _ _ _ _
  case vhadC => exact commitVhadC_keeps h _ _ _
  case vqnt | vqntC => exact State.quantise_keeps h _ _ _ _ _
  case vdqnt => exact State.scaleOp_keeps h fun _ _ _ => State.mapF_keeps h _ _ _
  case vld | vldStrided | vldIndexed | vldSeg | vldF | vldFSeg | vldSegIndexed =>
    simp only [commit]
    exact State.vload_keeps h _ _ _ _ _ _ _ _
  case vst | vstStrided | vstIndexed | vstSeg | vstN | vstNSeg | vstNIndexed =>
    simp only [commit]
    exact State.vstore_keeps h _ _ _ _ _ _ _ _
  case vsort => exact commitVsort_keeps h _ _ _ _ _
  case vchks => exact commitVchks_keeps h _ _ _
  case vmrg => exact commitVmrg_keeps h _ _ _ _
  case visec => exact commitVisec_keeps h _ _ _ _
  case vuniq => exact commitVuniq_keeps h _ _ _
  case vpart => exact commitVpart_keeps h _ _ _ _ _
  case vcmpt => exact commitVcmpt_keeps h _ _ _
  case vrank | vrankLe => exact State.rank_keeps h _ _ _ _ _ _
  case vmrgc => exact commitVmrgc_keeps h _ _ _ _
  case vtopk => exact commitVtopk_keeps h _ _ _ _ _
  case mopa => exact commitMopa_keeps h _ _ _ _ _
  case mopaS => exact commitMopaS_keeps h _ _ _ _ _
  case mopaW => exact commitMopaW_keeps h _ _ _ _ _ _
  case mopaGr => exact commitMopaGr_keeps h _ _ _ _ _
  case tanchor => exact commitTanchor_keeps h _ _ _
  case tres => exact commitTres_keeps h _ _
  case tmovr => exact commitTmovr_keeps h _ _ _ _ _
  case tmovw => exact commitTmovw_keeps h _ _ _ _ _
  case tldRaw => exact commitTldRaw_keeps h _ _ _
  case tldCan => exact commitTldCan_keeps h _ _ _ _
  case tstRaw => exact commitTstRaw_keeps h _ _ _
  case tstCan => exact commitTstCan_keeps h _ _ _ _
  case cbld => exact State.loadImage_keeps h fun _ _ h => h
  case qpush => exact commitQpush_keeps h _ _ _
  case qstat => exact commitQstat_keeps h _ _
  case copy k a => exact commitCopy_keeps h k a op1
  case vgthr v k a => exact commitVgthr_keeps h v k a op1
  case drain => exact commitDrain_keeps h _
  case csrw | csrs | csrc => exact (Ctx.writeInOrder_rights _ _ _).trans h
  all_goals exact h

end Sys2Proof.Machine

namespace Sys2Proof.Machine
open Sys2Proof.Claims

/-! ## The words of the SCT: scalar memory, loops and nests, floats, synchronisation -/

theorem State.fetchBody_rights {s t : State} {n : Nat} {va : Word} {x : Except Refused (List Word32)} (e : s.fetchBody n va = (x, t)) :
    t.ctx.rights = s.ctx.rights := by
  induction n generalizing s va x t with
  | zero => cases e; rfl
  | succ n ih =>
    unfold State.fetchBody at e
    split at e <;> rename_i e1 <;> have h1 := State.fetchAt_rights e1
    · cases e; exact h1
    · split at e <;> rename_i e2 <;> cases e <;> exact (ih e2).trans h1

/-- What the read of a nest block leaves has these rights. -/
def BlockRead.Keeps (r : Rights) : BlockRead → Prop
  | .bytes _ s => s.ctx.rights = r
  | .refused _ s => s.ctx.rights = r
  | .held _ => True

section
variable {s : State} {r : Rights} (h : s.ctx.rights = r)
include h

theorem State.writeX_confined (d : BitVec 5) (v : Word) : Res.Confined r (s.writeX d v) := by
  refine Res.confined_kept ?_
  simp [h]

theorem State.branch_confined (taken : Bool) (off : BitVec 16) : Res.Confined r (s.branch taken off) := by
  unfold State.branch
  split
  · exact Res.confined_kept ((State.retireTo_rights _ _).trans h)
  · exact Res.confined_kept ((State.retire_rights _).trans h)

theorem State.inOrder_confined (w : Stall) {k : State → Res} (hk : ∀ s : State, s.ctx.rights = r → Res.Confined r (k s)) :
    Res.Confined r (s.inOrder w k) := by
  unfold State.inOrder
  grind [Res.confined_stall, → State.behindBarriers_rights]

theorem State.loadX_confined (d a : BitVec 5) (i : BitVec 16) (w : Nat) (ext : Nat → Word) : Res.Confined r (s.loadX d a i w ext) := by
  refine State.inOrder_confined h _ fun s h => ?_
  split <;> rename_i e <;> have h1 := (State.alignedOnce_rights e).trans h
  · exact Res.confined_refuse h1 _
  · grind [Res.confined_refuse, State.writeX_confined, State.readAt_rights, Res.confined_stall]

theorem State.storeNow_confined (x a : BitVec 5) (i : BitVec 16) (w : Nat) : Res.Confined r (s.storeNow x a i w) := by
  unfold State.storeNow
  grind [Res.confined_kept, State.aligned_rights, Res.confined_refuse, State.putStore_rights, State.settle_rights, State.retire_rights]

theorem State.storeX_confined (x a : BitVec 5) (i : BitVec 16) (w : Nat) : Res.Confined r (s.storeX x a i w) := by
  have hi := State.inOrder_confined h .chan fun s h => State.storeNow_confined h x a i w
  unfold State.storeX
  grind [State.storeNow_confined, State.beforeFetch_rights, Res.confined_stall]

theorem State.amo_confined (d a b : BitVec 5) (o : BitVec 2) (w : BitVec 1) (f : Nat → Nat → Nat → Nat) :
    Res.Confined r (s.amo d a b o w f) := by
  refine State.inOrder_confined h _ fun s h => ?_
  dsimp only
  split <;> rename_i e <;> have h1 := (State.alignedOnce_rights e).trans h
  · exact Res.confined_refuse h1 _
  · split
    · exact Res.confined_stall h1 _
    · rename_i t e
      have h2 : t.ctx.rights = r := by grind [State.force_rights, State.drainOut_rights]
      exact State.writeX_confined ((State.rmw_snd_rights _ _ _ _ _).trans h2) _ _

theorem State.fetching_confined (vas : List Word) {k : State → Res} (hk : ∀ s : State, s.ctx.rights = r → Res.Confined r (k s)) :
    Res.Confined r (s.fetching vas k) := by
  unfold State.fetching
  grind [Res.confined_stall, State.beforeFetch_rights]

theorem State.readNest_keeps (va : Word) : (s.readNest va).Keeps r := by
  unfold State.readNest
  split <;> rename_i e <;> have h1 := (State.alignedOnce_rights e).trans h
  · exact h1
  · split
    · trivial
    · exact h1
    · rename_i e2
      dsimp only
      split <;> exact (State.readAt_rights e2).trans h1

theorem execLoop_confined (a l : BitVec 5) : Res.Confined r (execLoop a l s) := by
  refine State.fetching_confined h _ fun s h => ?_
  split <;> rename_i e <;> have h1 := (State.fetchBody_rights e).trans h
  · exact Res.confined_refuse h1 _
  · split
    · exact Res.confined_trap h1 _ _
    · refine Res.confined_kept ((State.onCtx_rights fun c => ?_).trans ((State.retire_rights _).trans h1))
      split <;> rfl

theorem execNest_confined (a l : BitVec 5) : Res.Confined r (execNest a l s) := by
  refine State.inOrder_confined h _ fun s h => ?_
  dsimp only
  split <;> rename_i e <;> have h1 := (State.fetchBody_rights e).trans h
  · exact Res.confined_refuse h1 _
  · split
    · exact Res.confined_trap h1 _ _
    · have h2 := State.readNest_keeps h1
      split <;> rename_i e2 <;> replace h2 := e2 ▸ h2 _
      · exact Res.confined_stall h1 _
      · exact Res.confined_refuse h2 _
      · simp only [BlockRead.Keeps] at h2
        split
        · exact Res.confined_trap h2 _ _
        split
        · exact Res.confined_trap h2 _ _
        · refine Res.confined_kept ((State.onCtx_rights fun c => ?_).trans ((State.retire_rights _).trans h2))
          have hc := c.setTuple_rights []
          split <;> exact hc

theorem State.writeFlagged_confined (d : BitVec 5) (v : Word) (fl : BitVec 5) : Res.Confined r (s.writeFlagged d v fl) :=
  Res.confined_kept ((State.retire_rights _).trans ((State.orFlags_rights _ _).trans ((s.setX_rights d v).trans h)))

theorem State.fltRound_confined (w : Word32) {k : RMode → Res} (hk : ∀ rm, Res.Confined r (k rm)) : Res.Confined r (s.fltRound w k) := by
  unfold State.fltRound
  grind [Res.confined_trap]

theorem execFcvt_confined (d a : BitVec 5) (t : BitVec 1) (v : BitVec 4) : Res.Confined r (execFcvt d a t v s) := by
  refine State.fltRound_confined h _ fun rm => ?_
  have hw := fun d v fl => State.writeFlagged_confined h d v fl
  split <;> exact hw _ _ _

theorem State.roundedF_confined (w : Word32) (t : BitVec 1) (d : BitVec 5) (k : RMode → Nat × BitVec 5) :
    Res.Confined r (s.fltRound w fun rm => s.writeF t d (k rm)) :=
  State.fltRound_confined h w fun _ => State.writeFlagged_confined h _ _ _

theorem execFadd_confined (d a b : BitVec 5) (t : BitVec 1) : Res.Confined r (execFadd d a b t s) :=
  State.roundedF_confined h (encode (.fadd d a b t)) t d fun rm => fAdd (fltType t) rm (s.readF t a) (s.readF t b)

theorem execFsub_confined (d a b : BitVec 5) (t : BitVec 1) : Res.Confined r (execFsub d a b t s) :=
  State.roundedF_confined h (encode (.fsub d a b t)) t d fun rm => fSub (fltType t) rm (s.readF t a) (s.readF t b)

theorem execFmul_confined (d a b : BitVec 5) (t : BitVec 1) : Res.Confined r (execFmul d a b t s) :=
  State.roundedF_confined h (encode (.fmul d a b t)) t d fun rm => fMul (fltType t) rm (s.readF t a) (s.readF t b)

theorem execFdiv_confined (d a b : BitVec 5) (t : BitVec 1) : Res.Confined r (execFdiv d a b t s) :=
  State.roundedF_confined h (encode (.fdiv d a b t)) t d fun rm => fDiv (fltType t) rm (s.readF t a) (s.readF t b)

theorem execFsqrt_confined (d a : BitVec 5) (t : BitVec 1) : Res.Confined r (execFsqrt d a t s) :=
  State.roundedF_confined h (encode (.fsqrt d a t)) t d fun rm => fSqrt (fltType t) rm (s.readF t a)

theorem State.waitWord_confined (a b : BitVec 5) (w : BitVec 1) (ok : Nat → Nat → Bool) : Res.Confined r (s.waitWord a b w ok) := by
  refine State.inOrder_confined h _ fun s h => ?_
  dsimp only
  split <;> rename_i e <;> have h1 := (State.aligned_rights e).trans h
  · exact Res.confined_refuse h1 _
  · grind [Res.confined_refuse, Res.confined_kept, State.retire_rights, State.readAt_rights, Res.confined_stall]

theorem State.barrierWord_confined (kind : Nat) : Res.Confined r (.next (s.barrier kind).retire) :=
  Res.confined_kept ((State.retire_rights _).trans ((s.barrier_rights kind).trans h))

theorem execFence_confined (sc : BitVec 3) (k : BitVec 2) : Res.Confined r (execFence sc k s) := by
  unfold execFence
  refine Res.confined_kept ((State.retire_rights _).trans ?_)
  split
  · exact (s.barrier_rights _).trans h
  · exact h
  · exact (s.barrier_rights _).trans h

theorem execVsetvl_confined (d a : BitVec 5) (sc : BitVec 3) (e : BitVec 2) : Res.Confined r (execVsetvl d a sc e s) := by
  unfold execVsetvl
  dsimp only
  split
  · exact Res.confined_stall h _
  · refine State.issue_confined ?_ fun _ h => commitVsetvl_keeps h _ _ _ _ _ _
    grind [State.setX_rights]

theorem execQpop_confined (q : BitVec 4) (d : BitVec 5) : Res.Confined r (execQpop q d s) := by
  unfold execQpop
  split
  · exact Res.confined_trap h _ _
  · split
    · exact Res.confined_stall h _
    · exact Res.confined_kept ((State.retire_rights _).trans ((State.setX_rights _ _ _).trans h))

theorem execJalr_confined (d a : BitVec 5) (i : BitVec 16) : Res.Confined r (execJalr d a i s) := by
  unfold execJalr
  grind [Res.confined_kept, Res.confined_trap, State.setX_rights, State.retireTo_rights]

theorem execWaitge_confined (a b : BitVec 5) (w : BitVec 1) : Res.Confined r (execWaitge a b w s) := State.waitWord_confined h a b w _

theorem execWaiteq_confined (a b : BitVec 5) (w : BitVec 1) : Res.Confined r (execWaiteq a b w s) := State.waitWord_confined h a b w _

/-- An entry that the SCT issues is committed as `commit` says (R14). -/
theorem State.issue_commit_confined {i : Instr} {op1 op2 : Word} {go : State → Commit} (e : go = commit i op1 op2) :
    Res.Confined r (s.issue i op1 op2 go) := by
  subst e
  exact State.issue_confined h fun _ h => commit_keeps i op1 op2 h

end

end Sys2Proof.Machine

namespace Sys2Proof.Machine
open Sys2Proof.Claims

/-! ## Counters, launches and clasps -/

theorem State.ringDone_rights (s : State) (key : Nat) : (s.ringDone key).ctx.rights = s.ctx.rights := by
  refine State.foldl_rights (fun u p => ?_) _ s
  split
  · exact u.settleWrites_rights _ _
  · rfl

theorem State.markDone_rights (s : State) (sh : Bool) (key : Nat) (canc : Bool) : (s.markDone sh key canc).ctx.rights = s.ctx.rights := by
  unfold State.markDone
  grind [State.ringDone_rights, State.onDev_rights]

theorem State.countUp_rights (f : Nat) (sh : Bool) (key ord arm : Nat) (s : State) :
    (State.countUp f sh key ord arm s).ctx.rights = s.ctx.rights := by
  induction f generalizing s key ord arm with
  | zero => rfl
  | succ f ih =>
    unfold State.countUp
    grind [State.markDone_rights, State.onDev_rights]

theorem State.finishCounter_rights (s : State) (sh : Bool) (key : Nat) (canc : Bool) :
    (s.finishCounter sh key canc).ctx.rights = s.ctx.rights := by
  unfold State.finishCounter
  grind [State.markDone_rights, State.countUp_rights]

theorem State.depStep_rights {s t : State} (e : s.depStep = some t) : t.ctx.rights = s.ctx.rights := by
  obtain ⟨l, -, e⟩ := List.exists_of_findSome?_eq_some e
  grind [State.finishCounter_rights, State.onDev_rights]

theorem State.settleDeps_rights (n : Nat) (s : State) : (State.settleDeps n s).ctx.rights = s.ctx.rights := by
  induction n generalizing s with
  | zero => rfl
  | succ n ih =>
    unfold State.settleDeps
    split
    · rfl
    · rename_i e
      exact (ih _).trans (State.depStep_rights e)

theorem State.settleLaunches_rights (s : State) : s.settleLaunches.ctx.rights = s.ctx.rights := State.settleDeps_rights _ s

theorem State.tellMembers_rights (s : State) (id : Nat) (k : Clasp) : (s.tellMembers id k).ctx.rights = s.ctx.rights := by
  unfold State.tellMembers
  split <;> rfl

theorem State.putClasp_rights (s : State) (id : Nat) (k : Clasp) : (s.putClasp id k).ctx.rights = s.ctx.rights := by
  unfold State.putClasp
  grind [State.tellMembers_rights, State.onDev_rights]

theorem State.depart_rights (s : State) (u : UnitSt) : (s.depart u).ctx.rights = s.ctx.rights := by
  refine State.foldl_rights (fun s p => ?_) _ s
  split
  · exact s.putClasp_rights _ _
  · rfl

theorem State.sendInc_rights (s : State) (u : UnitSt) : (s.sendInc u).ctx.rights = s.ctx.rights := by
  unfold State.sendInc
  split <;> rfl

theorem State.arriveAt_rights (s : State) (x : ClaspRef) : (s.arriveAt x).ctx.rights = s.ctx.rights := by
  unfold State.arriveAt
  split
  · exact s.putClasp_rights _ _
  · rfl
  · rfl

theorem State.freeCtx_rights (s : State) (c : Nat) : (s.freeCtx c).ctx.rights = s.ctx.rights := by
  unfold State.freeCtx
  extract_lets x next y t
  have ht : t.ctx.rights = s.ctx.rights :=
    (State.settleCore_rights _ _).trans ((State.regrantCore_rights _ _).trans (State.setCtx_rights rfl))
  clear_value t next
  split
  · exact ht
  · refine Eq.trans (State.setCtx_rights ?_) ht
    rfl

theorem State.appendRecord_fst_rights (s : State) (asid : BitVec 13) (f : Nat → List Byte) :
    (s.appendRecord asid f).1.ctx.rights = s.ctx.rights := by rw [← s.appendRecord_ctx asid f]

theorem State.record_fst_rights (s : State) (asid : BitVec 13) (x : Record) : (s.record asid x).1.ctx.rights = s.ctx.rights :=
  State.record_rights rfl

theorem State.closeFailed_rights (s : State) (l : Launch) (detail : Nat) : (s.closeFailed l detail).ctx.rights = s.ctx.rights := by
  unfold State.closeFailed
  dsimp only
  split
  · rfl
  · have h1 := (State.settleLaunches_rights _).trans (s.finishCounter_rights l.shadow (ctrKey l.die l.ctr) true)
    have h2 := fun x => (State.record_fst_rights _ l.asid x).trans h1
    have h3 := fun x (ls : List (List Nat)) => (State.foldl_rights
      (fun u ns => u.appendRecord_fst_rights l.asid fun seq => contBytes ns seq) ls _).trans (h2 x)
    split
    · exact (State.pendMcheck_rights _ _ _).trans (h3 _ _)
    · exact h3 _ _

theorem State.checkFailed_rights (s : State) (arm : Nat) : (s.checkFailed arm).ctx.rights = s.ctx.rights := by
  unfold State.checkFailed
  grind only [State.closeFailed_rights]

/-! ## The SCHED words -/

section
variable {s : State} {r : Rights} (h : s.ctx.rights = r)
include h

theorem State.sched_confined {p : Priv} {l : LateInstr} {k : State → Res} (hk : ∀ s : State, s.ctx.rights = r → Res.Confined r (k s)) :
    Res.Confined r (s.sched p l k) :=
  State.needs_confined h fun _ => State.whenDrained_confined h (hk s h)

theorem State.readCounter_confined (a d : BitVec 5) (f : Counter → Word) : Res.Confined r (s.readCounter a d f) := by
  unfold State.readCounter
  grind [State.writeX_confined, Res.confined_trap]

theorem execUend_confined : Res.Confined r (execUend s) := by
  refine State.whenDrained_confined h ?_
  split
  · exact Res.confined_trap h _ _
  split
  · exact Res.confined_trap ((s.onCtx_rights fun c => c.setCh_rights _ _).trans h) _ _
  split
  · exact Res.confined_stall h _
  split
  · exact Res.confined_stall h _
  rename_i u _ _ _ v e
  have h1 := (State.release_rights e).trans h
  exact Res.confined_kept ((State.checkFailed_rights _ _).trans ((State.freeCtx_rights _ _).trans
    ((State.depart_rights _ _).trans ((State.sendInc_rights _ _).trans h1))))

theorem State.trapPast_confined (code : Nat) (tval : Word) : Res.Confined r (.next (s.trapPast code tval)) :=
  (Res.confined_next r _).2 (State.trapPast_confines h _ _)

theorem execYield_confined : Res.Confined r (execYield s) := by
  have hr : Res.Confined r (.next s.retire) := Res.confined_kept (s.retire_rights.trans h)
  refine State.whenDrained_confined h ?_
  split
  · split
    · exact State.trapPast_confined h _ _
    · exact hr
  · exact hr

theorem execTrapPast_confined (code : Nat) : Res.Confined r (s.whenDrained fun s => .next (s.trapPast code 0)) :=
  State.whenDrained_confined h (State.trapPast_confined h _ _)

theorem State.beforeArrival_confined (w : Word) {k : ClaspRef → Nat → State → Res}
    (hk : ∀ x e (s : State), s.ctx.rights = r → Res.Confined r (k x e s)) : Res.Confined r (s.beforeArrival w k) := by
  unfold State.beforeArrival
  grind [Res.confined_trap, Res.confined_stall, State.force_rights]

theorem State.claspWait_confined (w e : Word) : Res.Confined r (s.claspWait w e) := by
  unfold State.claspWait
  split
  · exact Res.confined_kept (s.retire_rights.trans h)
  · exact Res.confined_stall h _

theorem State.claspRewait_confined (w e : Word) : Res.Confined r (s.claspRewait w e) := by
  unfold State.claspRewait
  split
  · exact Res.confined_kept ((State.retire_rights _).trans h)
  · exact Res.confined_stall h _

theorem State.clwaitFor_confined (w e : Word) : Res.Confined r (s.clwaitFor w e) := by
  unfold State.clwaitFor
  split
  · exact Res.confined_kept (s.retire_rights.trans h)
  · exact Res.confined_stall h _

theorem execClasp_confined (a d : BitVec 5) : Res.Confined r (execClasp a d s) := by
  refine State.sched_confined h fun s h => ?_
  split
  · exact State.claspWait_confined h _ _
  · exact State.claspRewait_confined h _ _
  split
  · dsimp only
    split
    · exact Res.confined_trap h _ _
    · exact State.claspRewait_confined h _ _
  · exact State.beforeArrival_confined h _ fun x e s h =>
      State.claspWait_confined ((State.setX_rights _ _ _).trans ((s.arriveAt_rights x).trans h)) _ _

theorem execClarr_confined (a : BitVec 5) (q : BitVec 3) : Res.Confined r (execClarr a q s) := by
  refine State.sched_confined h fun s h => State.beforeArrival_confined h _ fun x e s h => ?_
  dsimp only
  split
  · exact Res.confined_trap h _ _
  · exact Res.confined_kept ((State.retire_rights _).trans ((s.arriveAt_rights x).trans h))

theorem execClwait_confined (a b : BitVec 5) : Res.Confined r (execClwait a b s) := by
  refine State.sched_confined h fun s h => ?_
  grind [Res.confined_trap, State.clwaitFor_confined]

theorem execCread_confined (a d : BitVec 5) : Res.Confined r (execCread a d s) :=
  State.sched_confined h fun _ h => State.readCounter_confined h a d _

theorem execCreadT_confined (a d : BitVec 5) : Res.Confined r (execCreadT a d s) :=
  State.sched_confined h fun _ h => State.readCounter_confined h a d _

/-! ## The SYS words -/

theorem execCsrr_confined (d : BitVec 5) (n : BitVec 12) : Res.Confined r (execCsrr d n s) := by
  refine State.needs_confined h fun _ => ?_
  grind [State.writeX_confined, State.whenDrained_confined]

end

/-- The CSRs that an app context may write, but for the in-order ones: vsat, vfs and fflags. -/
theorem csr_of_app_drain {n : BitVec 12} (hp : csrWriteLevel n = .app) (hw : csrWritable n = true) (ho : inOrderCsr n = false) :
    n.toNat = 0x004 ∨ n.toNat = 0x005 ∨ n.toNat = 0x009 := by
  unfold csrWriteLevel csrWritable inOrderCsr at *
  unfold csrRights at *
  grind

theorem State.writeDrain_rights {s t : State} {n : BitVec 12} {v w : Word} (hn : n.toNat = 0x004 ∨ n.toNat = 0x005 ∨ n.toNat = 0x009)
    (e : s.writeDrain n v w = .ok t) : t.ctx.rights = s.ctx.rights := by
  unfold State.writeDrain at e
  rcases hn with hn | hn | hn <;> rw [hn] at e <;> cases e <;> rfl

theorem Priv.eq_app_of_rank_le {p q : Priv} (h : p.rank ≤ q.rank) (hq : q = .app) : p = .app := by
  subst hq
  cases p with
  | app => rfl
  | sup | hyp => exact absurd h (by decide)

theorem Res.confined_of_app {r : Rights} {x : Res} (h : r.priv = .app → Res.Confined r x) : Res.Confined r x :=
  fun t e ha => h ha t e ha

theorem State.csrAccess_confined {s : State} {r : Rights} (h : s.ctx.rights = r) (fn : Nat) (i : Instr) (a : BitVec 5) (n : BitVec 12)
    {go : State → Commit} (hg : ∀ s : State, s.ctx.rights = r → (go s).Keeps r) : Res.Confined r (s.csrAccess fn i a n go) := by
  refine Res.confined_of_app fun ha => State.needs_confined h fun hp => ?_
  have hp := Priv.eq_app_of_rank_le hp ((congrArg Rights.priv h).trans ha)
  split
  · exact Res.confined_trap h _ _
  rename_i hw
  split
  · split
    · exact Res.confined_stall h _
    · refine State.issue_confined ?_ hg
      split <;> exact h
  rename_i ho
  refine State.whenDrained_confined h ?_
  split
  · rename_i e
    exact Res.confined_kept ((State.retire_rights _).trans
      ((State.writeDrain_rights (csr_of_app_drain hp (by simpa using hw) (by simpa using ho)) e).trans h))
  · exact Res.confined_trap h _ _

/-- A word that asks for a level above app traps. -/
theorem exec_privileged_confined {i : Instr} {p : Priv} {s : State} {r : Rights} (h : s.ctx.rights = r) (hi : privileged i = some p)
    (hp : Priv.app.rank < p.rank) : Res.Confined r (exec i s) := by
  refine Res.confined_of_app fun ha => ?_
  have hs : s.ctx.priv = .app := (congrArg Rights.priv h).trans ha
  rw [exec_below_level hi (hs ▸ hp)]
  exact Res.confined_trap h _ _

/-! ## Every word -/

/-- A word of an app context keeps its rights, or traps to the vector of sup. -/
theorem exec_confined (i : Instr) {s : State} {r : Rights} (h : s.ctx.rights = r) (he : isEvent i = false) : Res.Confined r (exec i s) := by
  cases i
  case add | sub | and | or | xor | sll | srl | sra | slt | sltu | mul | mulh | mulhu | div | divu | rem | remu | min | max | minu | maxu |
      clz | ctz | popc | rev8 | sextB | sextH | sextW | addi | andi | ori | xori | slti | sltiu | slli | srli | srai | lui | auipc |
      fclass | fsgnj | fsgnjn | fsgnjx => exact State.writeX_confined h _ _
  case lb | lbu | lh | lhu | lw | lwu | ld => exact State.loadX_confined h _ _ _ _ _
  case sb | sh | sw | sd => exact State.storeX_confined h _ _ _ _
  case amoAdd | amoAnd | amoOr | amoXor | amoMin | amoMax | amoMinu | amoMaxu | amoSwap | amoCas =>
    unfold exec
    simp only [execAmoAdd, execAmoAnd, execAmoOr, execAmoXor, execAmoMin, execAmoMax, execAmoMinu, execAmoMaxu, execAmoSwap, execAmoCas]
    exact State.amo_confined h _ _ _ _ _ _
  case beq | bne | blt | bge | bltu | bgeu => exact State.branch_confined h _ _
  case jal => exact Res.confined_kept ((State.retireTo_rights _ _).trans ((State.setX_rights _ _ _).trans h))
  case jalr => exact execJalr_confined h _ _ _
  case loop => exact execLoop_confined h _ _
  case nest => exact execNest_confined h _ _
  case fadd d a b t => exact execFadd_confined h d a b t
  case fsub d a b t => exact execFsub_confined h d a b t
  case fmul d a b t => exact execFmul_confined h d a b t
  case fdiv d a b t => exact execFdiv_confined h d a b t
  case fsqrt d a t => exact execFsqrt_confined h d a t
  case fmin | fmax | feq | flt | fle => exact State.writeFlagged_confined h _ _ _
  case fcvt => exact execFcvt_confined h _ _ _ _
  case lend | hint => exact Res.confined_kept ((State.retire_rights _).trans h)
  case vsetvl => exact execVsetvl_confined h _ _ _ _
  case qpop => exact execQpop_confined h _ _
  case fence sc k => exact execFence_confined h sc k
  case vlsync | vfenceD => exact State.barrierWord_confined h _
  case csrr => exact execCsrr_confined h _ _
  case csrw | csrs | csrc => exact State.csrAccess_confined h _ _ _ _ fun _ h => (Ctx.writeInOrder_rights _ _ _).trans h
  case illegalWord => exact execIllegalWord_confined h _ _
  case uend => exact execUend_confined h
  case yield => exact execYield_confined h
  case ecall => exact execTrapPast_confined h 0x0E
  case ebrk => exact execTrapPast_confined h 0x0F
  case waitge => exact execWaitge_confined h _ _ _
  case waiteq => exact execWaiteq_confined h _ _ _
  case cread => exact execCread_confined h _ _
  case creadT => exact execCreadT_confined h _ _
  case clasp => exact execClasp_confined h _ _
  case clarr => exact execClarr_confined h _ _
  case clwait => exact execClwait_confined h _ _
  case launch | launchNode | cancel | claspCfg | grant | eret | snap | wfi | ctxsave | ctxrst | tlbinv | placew | vfset =>
    exact exec_privileged_confined h rfl (by decide)
  case waitSatisfied | claspWake | tlbinvComplete | accessPerform | wcbEarlyDrain | scoreboardWaitEnd | copyCommandStart |
      copyCommandRetire | counterIncrement | journalRelease | dispatcherPop | gangAdmit | unitHandOut | unitPreload | prologueComplete |
      unitStart | budget | reclaim | timer | preempt | cancelled | stragglerFlag | theftRequest | theftReply | regenerationRun | rfill |
      randomFillDone | snapshotLineCopy | snapshotComplete | remoteRefusal | partialStoreError | coreFailed | dieLost | hbmStackLost |
      linkLanesFailed | linkLost | softErrorThreshold | linkTraining | gtsSync | hostMemoryAccess | boot | bootImageLoaded |
      hypContextStart | plreq | powerTransitionDone | twarn | ttrip | mcaddr | jrctr | regenRegister | regenUnregister | replace | domain |
      reset | functionLevelReset | conventionalReset | powerOnReset | controlWindowWrite | twarnCrossing | warnClear | ttripCrossing |
      tripTimerExpiry | immediateTrip | regenerationRunComplete | deviceMemberArrival => cases he
  all_goals exact State.issue_commit_confined h rfl

/-- Settles O60: what a word of an app context leaves has its rights, or it has trapped to the vector of sup. -/
theorem appIsConfined : Obligations.AppIsConfined := by
  intro i s t he ha hx
  have hc : Confines s.ctx.rights t := exec_confined i rfl he t hx
  obtain hk | ⟨hk, hpc, htfv, hpp⟩ := hc ha
  · injection hk with hp hasid htvec hht hdetm
    exact ⟨.inl (hp.trans ha), hasid, htvec, hht, hdetm⟩
  · injection hk with hp hasid htvec hht hdetm
    exact ⟨.inr ⟨hp, hpc, htfv, hpp⟩, hasid, htvec, hht, hdetm⟩

end Sys2Proof.Machine
